-- ==== Sys2Proof/Word.lean ====
section
/-!
DEFINITION. The plain word types of the TK9640 model: a control-register word is 32 bits (R7), a
byte of data space 8 bits (R6), a Scalar Lane integer register 64 bits and a floating register
128 bits (R100).
-/

namespace Sys2Proof

/-- A byte of data space (R6). -/
abbrev Byte := BitVec 8

/-- A control-space register word (R7). -/
abbrev Word := BitVec 32

/-- A Scalar Lane integer register G (R100). -/
abbrev DWord := BitVec 64

/-- A Scalar Lane floating register F (R100). -/
abbrev QWord := BitVec 128

end Sys2Proof
end

