-- ==== Sys2Proof/Syntax.lean ====
section
/-!
DEFINITION. The commands of the TK9640: one constructor of Instr per row of the table of operations
and events, with the operands each command carries.  An event that the part produces by itself
carries what identifies it and whatever its environment decides.
-/

namespace Sys2Proof

/-- A tile number, 0 to 31 (R1). -/
abbrev TileNo := Fin 32

/-- The number of a G or F register (R100). -/
abbrev RegNo := Fin 32

/-- Where a TFP command came from and how it was encapsulated (R348, R350): the source MAC address,
the IPv4 address and UDP port of a UDP frame, and the 802.1Q tag when there is one. -/
structure Peer where
  udp : Bool
  mac : BitVec 48
  ip : Word
  udpPort : BitVec 16
  vlan : Option (BitVec 16)
  deriving DecidableEq, Repr

/-- The header of a TFP command frame that reached port `port` (R351). -/
structure TfpHdr where
  port : Fin 2
  peer : Peer
  session : BitVec 16
  seq : Word
  tag : Word
  deriving DecidableEq, Repr

/-- The header of a received Relay Link packet (R384), but for its TYPE and LEN. -/
structure PktHdr where
  src : Fin 16
  dst : Fin 16
  vc : Fin 3
  part : Fin 16
  bib : Byte
  ctx : Fin 64
  ttl : Fin 8
  tag : BitVec 16
  addr : DWord
  deriving DecidableEq, Repr

/-- TYPE of a packet that is passed on, and the bytes that its LEN stands for: those it carries, or asks for (R384). -/
structure PktKind where
  code : Byte
  len : Fin 257
  deriving DecidableEq, Repr

/-- How a scrub finds its line: 0 good, 1 corrected, 2 uncorrectable, and whether a write takes the line in the
same cycle (R331, R343). -/
structure ScrubFind where
  found : Fin 3
  written : Bool
  deriving DecidableEq, Repr

/-- How a read of LPDDR5 returns: the outcome of R329, and whether the Dispatcher or Marshal reads for itself. -/
structure ReadBack where
  found : Fin 6
  own : Bool
  deriving DecidableEq, Repr

/-- The header fields of a stage command: the WAIT mask and the IDs of R195. -/
structure CmdHdr where
  wait : Byte
  layer : BitVec 16
  oper : BitVec 16
  deriving DecidableEq, Repr

/-- The operands of MAC (R196). -/
structure MacOps where
  ta : BitVec 16
  tw : BitVec 16
  tc : BitVec 16
  tout : BitVec 16
  tout2 : BitVec 16
  mflags : Byte
  rmslot : Fin 64
  hrec : Word
  smode : Byte
  qexp : Byte
  deriving DecidableEq, Repr

/-- The operands of CONV (R196). -/
structure ConvOps where
  ts : BitVec 16
  td : BitVec 16
  rmslot : Fin 64
  smode : Byte
  qexpSrc : Byte
  qexpDst : Byte
  hrec : Word
  deriving DecidableEq, Repr

/-- A node of the wait-for graph: kind code and up to two numbers (R432). -/
structure GNode where
  kind : Nat
  a : Nat
  b : Nat
  deriving DecidableEq, Repr

/-- A waiting node in a snapshot: what it waits on, and what tells one completion of it from the next
(R435). -/
structure GSnap where
  node : GNode
  edges : List GNode
  mark : List Nat
  deriving DecidableEq, Repr


/-- One command of the device: a row of the table of operations and events. -/
inductive Instr where
  /-- A rising edge of PWRGOOD samples the straps and starts step 1 of the start-up sequence (R493). -/
  | pwrgoodRise (role : Fin 4) (dual test : Bool)
  /-- PWRGOOD stays low for 1 µs; the sequence is abandoned and waits for PWRGOOD to rise again (R493). -/
  | powerGoodFall
  /-- A monitored rail stays below 95 % of nominal for 2 µs and acts as a fall of power-good (R480). -/
  | railUndervoltage
  /-- REFCLK stops for 2 µs; this acts as a fall of PWRGOOD, and the Split Timer restarts at 0 in FREE (R482). -/
  | refclkStop
  /-- RST_N stays low for 200 ns or more and starts a device reset under R403 (R493). -/
  | rstNAssert
  /-- Step 1 finds REFCLK within 25 MHz ± 1 % after waiting and goes on to lock the time PLL (R404). -/
  | refclkQualified
  /-- The time PLL has not locked 10 ms after REFCLK qualification, and the boot fails with CLOCK, DETAIL 6 (R404). -/
  | timePllLockTimeout
  /-- The 250 MHz time PLL locks, the Split Timer starts counting, and step 2 begins (R401). -/
  | timePllLocked
  /-- A step 2 PLL has not locked within 10 ms; after power-good the boot fails with CLOCK (R404). -/
  | fclkPllLockTimeout (pll : Fin 5)
  /-- After a device reset a step 2 or LPDDR5 PLL does not lock within 10 ms; Marshal records CLOCK with DOMAIN 0x6 and requests a power cycle (R446). -/
  | resetPllLockTimeout (pll : Fin 6)
  /-- The FCLK PLLs lock and every domain in use reaches RUN, ending step 2 (R401). -/
  | clocksLocked
  /-- The XSPI_RST_N pulse and its wait end, and the anchor read begins (R401). -/
  | flashResetDone
  /-- The anchor has been read; its MAGIC and CRC are checked and the setup sequences and 8D mode follow (R407). -/
  | anchorReadComplete (bytes : List Byte)
  /-- XSPI_DS does not toggle for 64 flash clocks during a read, and the read fails with FLASH (R406). -/
  | flashStrobeLost (dev : Fin 2)
  /-- The header, section table, certificate and signature have been read, and the slot checks run in order (R413). -/
  | signatureReadComplete (head cert sig : List Byte)
  /-- The script section has been read into the buffer and its hash is checked (R413). -/
  | scriptFetchComplete (bytes : List Byte)
  /-- Built-in test and the on-chip zero-fill end, and the boot script starts at entry 0 (R401). -/
  | bistComplete (cls : Fin 6) (idx : Byte)
  /-- The boot script's END entry ends the script, or fails with NO_LOCK without a completed LOCK (R416). -/
  | endScript
  /-- The boot script writes VALUE, or a board word, to a control-space address (R416). -/
  | write
  /-- The boot script performs a read-modify-write of a control-space word under MASK (R416). -/
  | writeMask
  /-- The boot script reads an address every 64 cycles until the masked word equals VALUE (R416). -/
  | poll
  /-- A POLL read meets its condition and the script continues (R416). -/
  | pollSatisfied
  /-- A POLL's timeout expires and the boot fails with POLL_TIMEOUT (R416). -/
  | pollTimeout
  /-- The boot script starts LPDDR5 or Relay Link training, optionally waiting for its end (R416). -/
  | train
  /-- LPDDR5 training ends on all channels, or a channel fails a step and the boot fails (R422). -/
  | lpddr5TrainingComplete (step : Fin 8) (mask : BitVec 16)
  /-- The zero-fill of every usable line ends and MEM_STAT.INIT_DONE is set (R332). -/
  | lpddr5ZeroFillComplete
  /-- The boot script loads a PAYLOAD section, hashing it as it streams to data space, control space and the shadow (R419). -/
  | load
  /-- A LOAD finishes streaming its section and the hash is compared (R419). -/
  | loadComplete (data : List Byte)
  /-- The boot script checks the setup and the loaded work against every image-verification rule (R420). -/
  | verify
  /-- The boot script runs every context load sequence, sets SB_LOCK and records SB_TLOCK (R421). -/
  | lock
  /-- A host or JTAG write to a register with no behaviour of its own takes effect under the field access codes and R17 (R16). -/
  | registerWrite (src : Fin 3) (a v : Word)
  /-- A read of an RC field returns its value and clears it (R16). -/
  | rcRegisterRead (src : Fin 3) (a : Word)
  /-- A read of SPL_NS latches the seconds and fraction of the same tick for that access path (R364). -/
  | splNsRead (src : Fin 3)
  /-- A read of a _LO half of a 64-bit count (counter block, lap base, FABCNT) latches the matching _HI half (R457). -/
  | splitLoRegisterRead (src : Fin 3) (a : Word)
  /-- A read of CMD_ID latches CMD_BUSY, CMD_STALL and CMD_TOP from the same cycle (R458). -/
  | cmdIdRead (src : Fin 3) (t : TileNo) (unit : Fin 9)
  /-- A write of CLK_HOLD.REQ requests device HOLD; it is refused or accepted and names the entry boundary (R29). -/
  | holdReq (src : Fin 3) (v : Word)
  /-- After the last LC heat completes, clusters, CORE, MEM, links and unkept ports go to HOLD or OFF, and STATE reads HOLD (R30). -/
  | holdEntryComplete
  /-- A write of CLK_HOLD.EXIT starts the return of CORE, clusters and MEM to RUN (R31). -/
  | holdExit (src : Fin 3) (v : Word)
  /-- The partition reloads of the HOLD exit end; the table resumes at the next boundary and STATE reads RUN (R31). -/
  | holdExitReloadComplete
  /-- A major-cycle boundary time is reached; the Dispatcher starts the next major cycle of the current range (R281). -/
  | majorCycleBoundary
  /-- A write of DSP_NEXT_CTRL.ARM = 1 arms the next range, or is refused with NXTREF (R285). -/
  | arm (src : Fin 3)
  /-- A write to a Schedule Table entry takes effect, or is refused with TWREF when the entry is in the current or armed range (R279). -/
  | scheduleTableWrite (src : Fin 3) (entry : Fin 65536) (w : Fin 4) (v : Word)
  /-- An entry enters the 64-entry lookahead and is checked; a bad entry is skipped (R287). -/
  | lookaheadRead
  /-- At an LC entry's wake time the tiles are chosen and reserved and the wake actions begin (R290). -/
  | wakeTime (entry : Fin 65536)
  /-- A FIRST_FREE entry waiting in WAKING finds a free set of tiles in the first cycle one exists (R289). -/
  | tileChoice (entry : Fin 65536)
  /-- Every chosen tile is in RUN with the context restored; the entry becomes READY, or its heat starts late (R288). -/
  | wakeComplete (entry : Fin 65536)
  /-- At S a READY LC heat begins, taking its Assemble snapshot; an unready entry is skipped, and a release pushes its BE record (R288). -/
  | slotTime (entry : Fin 65536)
  /-- A prefetch descriptor's transfer ends; after the last one the list posts its baton if POST is set (R291). -/
  | prefetchTransferComplete (c : Fin 64)
  /-- At C_fac unfactored problems stop factoring and continue on a matching committed bank or are marked NO_FACTOR (R172). -/
  | cutPointFac (c : Fin 64) (heat : Word)
  /-- At C_out iterating problems stop with DEADLINE_CUT and unstarted problems are marked DEADLINE_MISSED (R173). -/
  | cutPointOut (c : Fin 64) (heat : Word)
  /-- The deadline D of an LC heat acts; later commits of its problems set LATE (R282). -/
  | deadlineTime (c : Fin 64) (heat : Word)
  /-- A host write of DSP_CTX_c_BEQ pushes a heat record onto a BE context's queue, or is lost (R294). -/
  | beq (src : Fin 3) (c : Fin 64) (v : Word)
  /-- Free tiles serve a saved BE heat or the head record of the next BE context in round-robin order (R295). -/
  | bePlacement
  /-- A BE heat's slice runs out while another BE context waits for its tiles, and the heat is pre-empted (R297). -/
  | sliceExpiry (t : TileNo)
  /-- At W_n less T_rc, or for an event heat of the lender, the borrower is pre-empted and its written lines are written back (R300). -/
  | loanReclaim (t : TileNo)
  /-- The write-back of the loan's written lines ends, and the region passes to the lender 16 cycles later (R300). -/
  | reclaimWritebackComplete (t : TileNo)
  /-- A post with ARG ≠ 0 to an EVT baton starts its event entry, or is held or dropped (R292). -/
  | eventTrigger
  /-- A cluster whose tiles are all idle, with no BE work or loan and no wake within NAP_MIN, enters NAP (R293). -/
  | clusterNapEntry (k : Fin 4)
  /-- A held BE request is retried once its partition's token bucket is no longer negative (R303). -/
  | pacerRelease (p : Fin 16) (rly : Bool)
  /-- A fault of context scope tears down the context: units abandon work, waits and loans are dropped, and the bib increments or the fence starts (R313). -/
  | contextFault (c : Fin 64)
  /-- A teardown's work, including any HURDLE drain, ends and the context is FAULTED (R314). -/
  | teardownComplete (c : Fin 64)
  /-- A teardown exceeds its bound and the Dispatcher requests a partition reset with TD_TIMEOUT (R314). -/
  | teardownTimeout (c : Fin 64)
  /-- 65,536 cycles after the fence, outstanding requests are answered with errors and counted (R444). -/
  | hurdleDrainLimit (c : Fin 64)
  /-- A FAULTED context with RESTART = 1 has been reloaded from the shadow and becomes READY at the next boundary (R315). -/
  | contextReloadComplete (c : Fin 64)
  /-- A tile's BPOST adds ARG to a baton in COUNT or SEM mode, or is sent to the home of a proxy (R306). -/
  | bpost (t : TileNo) (hdr : CmdHdr) (baton : Fin 32768) (arg : Word)
  /-- A tile's BWAIT holds issue until its baton satisfies ARG, or is sent to the home of a proxy (R306). -/
  | bwait (t : TileNo) (hdr : CmdHdr) (baton : Fin 32768) (arg : Word)
  /-- A host write of a baton's POST word is applied as a BPOST with no bib, or refused (R311). -/
  | post (src : Fin 3) (baton : Fin 32768) (v : Word)
  /-- The Scalar Lane NOP instruction does nothing (R192). -/
  | nop (t : TileNo)
  /-- Adds two integer registers, wrapping modulo 2^W (R111). -/
  | add (t : TileNo) (rd rs1 rs2 : RegNo) (aux : Byte)
  /-- Subtracts two integer registers, wrapping modulo 2^W (R111). -/
  | sub (t : TileNo) (rd rs1 rs2 : RegNo) (aux : Byte)
  /-- Adds two integer registers with signed saturation (R111). -/
  | adds (t : TileNo) (rd rs1 rs2 : RegNo) (aux : Byte)
  /-- Subtracts two integer registers with signed saturation (R111). -/
  | subs (t : TileNo) (rd rs1 rs2 : RegNo) (aux : Byte)
  /-- Negates an integer register, wrapping (R111). -/
  | neg (t : TileNo) (rd rs1 : RegNo) (aux : Byte)
  /-- Negates an integer register with signed saturation (R111). -/
  | negs (t : TileNo) (rd rs1 : RegNo) (aux : Byte)
  /-- Bitwise AND of two 64-bit integer registers (R192). -/
  | and (t : TileNo) (rd rs1 rs2 : RegNo)
  /-- Bitwise OR of two 64-bit integer registers (R192). -/
  | or (t : TileNo) (rd rs1 rs2 : RegNo)
  /-- Bitwise exclusive OR of two 64-bit integer registers (R192). -/
  | xor (t : TileNo) (rd rs1 rs2 : RegNo)
  /-- Shifts an integer register left by an amount modulo W (R111). -/
  | shl (t : TileNo) (rd rs1 rs2 : RegNo) (aux : Byte) (imm : BitVec 16)
  /-- Shifts an integer register right logically by an amount modulo W (R111). -/
  | shr (t : TileNo) (rd rs1 rs2 : RegNo) (aux : Byte) (imm : BitVec 16)
  /-- Shifts an integer register right arithmetically by an amount modulo W (R111). -/
  | shra (t : TileNo) (rd rs1 rs2 : RegNo) (aux : Byte) (imm : BitVec 16)
  /-- Counts the leading zeros of an integer register in width W (R192). -/
  | clz (t : TileNo) (rd rs1 : RegNo) (aux : Byte)
  /-- Writes 1 when two integer registers are equal, 0 otherwise (R192). -/
  | cmpeq (t : TileNo) (rd rs1 rs2 : RegNo) (aux : Byte)
  /-- Writes 1 when the first register is below the second, signed or unsigned (R192). -/
  | cmplt (t : TileNo) (rd rs1 rs2 : RegNo) (aux : Byte)
  /-- Copies an integer register (R192). -/
  | mov (t : TileNo) (rd rs1 : RegNo)
  /-- Writes the sign-extended immediate to an integer register (R192). -/
  | movi (t : TileNo) (rd : RegNo) (imm : BitVec 16)
  /-- Writes the immediate times 2^16, sign-extended, to an integer register (R192). -/
  | movhi (t : TileNo) (rd : RegNo) (imm : BitVec 16)
  /-- Adds the sign-extended immediate to an integer register (R192). -/
  | addim (t : TileNo) (rd rs1 : RegNo) (aux : Byte) (imm : BitVec 16)
  /-- Delivers the low W bits of the product of two integer registers (R111). -/
  | mul (t : TileNo) (rd rs1 rs2 : RegNo) (aux : Byte)
  /-- Delivers the high W bits of the product in the signed, unsigned or mixed sign mode (R111). -/
  | mulx (t : TileNo) (rd rs1 rs2 : RegNo) (aux : Byte)
  /-- Starts an integer division on the V pipe, delivering the quotient, with DIVZ and DIVO cases (R111). -/
  | quo (t : TileNo) (rd rs1 rs2 : RegNo) (aux : Byte)
  /-- Starts an integer division on the V pipe, delivering the remainder (R111). -/
  | rmd (t : TileNo) (rd rs1 rs2 : RegNo) (aux : Byte)
  /-- A divide or square root completes after its data-dependent cycle count and writes its result (R108). -/
  | vPipeResult (t : TileNo)
  /-- Copies the lane's sticky flags into an integer register (R114). -/
  | flagrd (t : TileNo) (rd : RegNo)
  /-- Clears the sticky flags that a register names, after earlier instructions retire (R114). -/
  | flagclr (t : TileNo) (rs1 : RegNo)
  /-- Writes the trap enable mask from a register; later instructions run under it (R115). -/
  | trapen (t : TileNo) (rs1 : RegNo)
  /-- Returns from a trap handler to the instruction after the trapping one, or faults as a stray SRET (R117). -/
  | sret (t : TileNo)
  /-- Floating-point addition rounded once, in .S, .S4 or .D form (R103). -/
  | fadd (t : TileNo) (rd rs1 rs2 : RegNo) (aux : Byte)
  /-- Floating-point subtraction rounded once (R103). -/
  | fsub (t : TileNo) (rd rs1 rs2 : RegNo) (aux : Byte)
  /-- Floating-point multiplication rounded once (R103). -/
  | fmul (t : TileNo) (rd rs1 rs2 : RegNo) (aux : Byte)
  /-- Fused multiply-add a × b + c rounded once (R103). -/
  | fma (t : TileNo) (rd rs1 rs2 rs3 : RegNo) (aux : Byte)
  /-- Fused −(a × b) + c rounded once (R103). -/
  | fnma (t : TileNo) (rd rs1 rs2 rs3 : RegNo) (aux : Byte)
  /-- Starts a floating-point division on the V pipe (R105). -/
  | fdiv (t : TileNo) (rd rs1 rs2 : RegNo) (aux : Byte)
  /-- Starts a floating-point square root on the V pipe (R109). -/
  | fsqrt (t : TileNo) (rd rs1 : RegNo) (aux : Byte)
  /-- Floating-point minimum under R67 or R68 by phase (R106). -/
  | fmin (t : TileNo) (rd rs1 rs2 : RegNo) (aux : Byte)
  /-- Floating-point maximum under R67 or R68 by phase (R106). -/
  | fmax (t : TileNo) (rd rs1 rs2 : RegNo) (aux : Byte)
  /-- Quiet floating-point equality comparison writing an integer register (R106). -/
  | feq (t : TileNo) (rd rs1 rs2 : RegNo) (aux : Byte)
  /-- Signalling less-than comparison writing an integer register (R106). -/
  | flt (t : TileNo) (rd rs1 rs2 : RegNo) (aux : Byte)
  /-- Signalling less-or-equal comparison writing an integer register (R106). -/
  | fle (t : TileNo) (rd rs1 rs2 : RegNo) (aux : Byte)
  /-- Negates a floating-point value, canonicalising NaNs (R104). -/
  | fneg (t : TileNo) (rd rs1 : RegNo) (aux : Byte)
  /-- Takes the absolute value of a floating-point value, canonicalising NaNs (R104). -/
  | fabs (t : TileNo) (rd rs1 : RegNo) (aux : Byte)
  /-- Copies a sign onto a floating-point value, canonicalising NaNs (R104). -/
  | fcopysign (t : TileNo) (rd rs1 rs2 : RegNo) (aux : Byte)
  /-- Converts between two non-MX formats or integer registers, rounding once (R51). -/
  | cvt (t : TileNo) (rd rs1 : RegNo) (wide : Bool) (src dst : Fin 16) (e : Byte)
  /-- Loads 1 to 16 bytes from the context's scratchpad share into a register (R192). -/
  | ld (t : TileNo) (rd rs1 : RegNo) (aux : Byte) (imm : BitVec 16)
  /-- Stores 1 to 16 bytes of a register into the context's scratchpad share (R192). -/
  | st (t : TileNo) (rd rs1 : RegNo) (aux : Byte) (imm : BitVec 16)
  /-- Copies a 128-bit FP register (R192). -/
  | fmv (t : TileNo) (rd rs1 : RegNo)
  /-- Moves an integer register into an FP register or lane (R192). -/
  | mvgf (t : TileNo) (rd rs1 : RegNo) (aux : Byte)
  /-- Moves an FP register or lane into an integer register (R192). -/
  | mvfg (t : TileNo) (rd rs1 : RegNo) (aux : Byte)
  /-- Continues issue at a relative program address (R194). -/
  | jmp (t : TileNo) (imm : BitVec 16)
  /-- Jumps when an integer register equals zero (R194). -/
  | beqz (t : TileNo) (rs1 : RegNo) (imm : BitVec 16)
  /-- Jumps when an integer register is nonzero (R194). -/
  | bnez (t : TileNo) (rs1 : RegNo) (imm : BitVec 16)
  /-- Jumps when an integer register is below zero (R194). -/
  | bltz (t : TileNo) (rs1 : RegNo) (imm : BitVec 16)
  /-- Jumps when an integer register is at or above zero (R194). -/
  | bgez (t : TileNo) (rs1 : RegNo) (imm : BitVec 16)
  /-- Ends the heat's program; issue stops and the next heat of the context may begin (R201). -/
  | hend (t : TileNo) (hdr : CmdHdr)
  /-- Holds issue until earlier commands finish on the stages its WAIT selects (R199). -/
  | fence (t : TileNo) (hdr : CmdHdr)
  /-- Changes the context's subnormal mode at the next command boundary (R63). -/
  | setmode (t : TileNo) (hdr : CmdHdr) (subn : Bool)
  /-- Queues an explicit copy between scratchpad, Infield, LPDDR5 and remote data space (R26). -/
  | copy (t : TileNo) (hdr : CmdHdr) (src dst : BitVec 48) (len : Word)
  /-- A COPY finishes its copy-engine work, remote acknowledgements included, and its bytes are visible (R342). -/
  | copyComplete (t : TileNo)
  /-- Places COUNT problems of a template into the tile's problem slots (R202). -/
  | solve (t : TileNo) (hdr : CmdHdr) (tmpl : Word) (count : Byte) (xlist : Word)
  /-- Runs a matrix product on the Tensor stage with its fixed summation tree and output conversion (R82). -/
  | mac (t : TileNo) (hdr : CmdHdr) (o : MacOps)
  /-- Converts a scratchpad tensor in the Tensor stage with NONE, BLOCK or CARRIED scaling (R91). -/
  | conv (t : TileNo) (hdr : CmdHdr) (o : ConvOps)
  /-- Loads one expansion table from 32 bytes of scratchpad (R79). -/
  | xtload (t : TileNo) (hdr : CmdHdr) (table : Fin 16) (bf : Bool) (src : Word)
  /-- A Tensor command's last output commits; flags, histogram, running maximum and FINAL are updated (R94). -/
  | tensorCommandCommit (t : TileNo)
  /-- A problem takes a free slot and enters Assemble, resolving its parameters (R120). -/
  | problemEnterAssemble (t : TileNo)
  /-- A problem finishes a stage and enters the next stage when it is free (R120). -/
  | stageHandoff (t : TileNo) (slot : Fin 4)
  /-- The last RD element is written and the bank becomes the committed bank (R143). -/
  | factorCommit (t : TileNo)
  /-- An ADMM iteration completes, with a residual and certificate check at every eighth and the last (R156). -/
  | iterationComplete (t : TileNo)
  /-- Emit writes outputs, set-point writes, iterate store and status record in one cycle and releases the slot (R171). -/
  | emitCommit (t : TileNo)
  /-- Every command of the heat has committed and the heat record is written (R201). -/
  | heatComplete (t : TileNo)
  /-- An Emit set-point write reaches its loop 16 cycles after Emit and sets the ramp target, or is refused (R24). -/
  | emitSetpointArrival
  /-- An abort reaches the heat's tiles in cycle A and stops every problem not yet committed (R178). -/
  | abortReachesTile (p : Fin 2)
  /-- A pre-emption request stops issue and each unit runs to its next pre-emption point (R205). -/
  | preemptionRequest (t : TileNo)
  /-- A unit reaches its pre-emption point; when it is the last, the save begins (R206). -/
  | unitStop (t : TileNo) (unit : Fin 8)
  /-- The 112-cycle save ends and the restore of the incoming context begins (R205). -/
  | saveComplete (t : TileNo)
  /-- The 112-cycle restore ends and the context's next entry issues (R211). -/
  | restoreComplete (t : TileNo)
  /-- At a lap boundary a loop applies its mode request, latches, applies its output, steps the ramp and issues its update (R217). -/
  | loopBoundary (n : Fin 1024)
  /-- Six cycles after the boundary the update's output and history commit and the probe entry is written (R234). -/
  | loopUpdateCommit (n : Fin 1024)
  /-- A write of LAP_LOOP_n_CTRL requests a loop mode taking effect at a boundary (R219). -/
  | ctrl (src : Fin 3) (n : Fin 1024) (v : Word)
  /-- A write of B0 to B3, A1 to A3, BSH or ASH is accepted only outside AUTO (R236). -/
  | coefficientWrite (src : Fin 3) (n : Fin 1024) (k : Fin 9) (v : Word)
  /-- A write of CFG, PERIOD, PHASE, SRC or DST is accepted only in OPEN and within its checks (R237). -/
  | loopConfigWrite (src : Fin 3) (n : Fin 1024) (k : Fin 5) (v : Word)
  /-- A write of U_MIN or U_MAX is refused with LIMREF when it would leave U_MIN ≥ U_MAX (R235). -/
  | limitWrite (src : Fin 3) (n : Fin 1024) (hi : Bool) (v : Word)
  /-- A host write of TARGET sets the ramp target used from the next boundary (R228). -/
  | target (src : Fin 3) (n : Fin 1024) (v : Word)
  /-- A write of LAP_GEN_g_CTRL.EN starts or stops a generator at the loop's next boundary, or is refused (R241). -/
  | generatorEnWrite (src : Fin 3) (g : Fin 8) (v : Word)
  /-- A write of LAP_PRB_p_CTRL.ARM starts or stops recording from the loop's next boundary (R243). -/
  | probeArm (src : Fin 3) (p : Fin 8) (v : Word)
  /-- A write of LAP_PRB_p_TRIG.GO triggers a TRIG-mode probe (R243). -/
  | probeTrig (src : Fin 3) (p : Fin 8) (v : Word)
  /-- A received Sample Port frame is checked 8 cycles after its CRC and accepted, discarded or counted late (R255). -/
  | frameCheck (p : Fin 16) (seq : BitVec 12) (nch : Fin 16) (samples : List Word) (crc : BitVec 16)
  /-- The port recognises the last MARK bit, takes the frame's split and starts the PART_TO count (R256). -/
  | markRecognised (p : Fin 16)
  /-- PART_TO cycles pass without the frame's last bit; the partial frame is discarded and the port is LOST (R257). -/
  | partToExpiry (p : Fin 16)
  /-- IDLE_TO cycles pass without a MARK after a frame and the port goes LOST (R257). -/
  | idleToExpiry (p : Fin 16)
  /-- The receive clock is absent for 64 cycles and the port goes LOST (R257). -/
  | rxClockLoss (p : Fin 16)
  /-- The port has been LOST for FORGET microseconds and its reference is cleared (R259). -/
  | forgetExpiry (p : Fin 16)
  /-- A write of SPT_p_RXCFG enables, disables or reconfigures the receive side, or is refused (R272). -/
  | sptRxcfgWrite (src : Fin 3) (p : Fin 16) (v : Word)
  /-- A write of SPT_p_TXCFG enables or reconfigures the transmit side, or is refused when a frame cannot fit (R263). -/
  | sptTxcfgWrite (src : Fin 3) (p : Fin 16) (v : Word)
  /-- At a transmit boundary the port captures channel values and sends one frame (R261). -/
  | txBoundary (p : Fin 16)
  /-- A PWM carrier period begins and its duty and edges are set from the applied output (R265). -/
  | carrierBoundary (c : Fin 64)
  /-- A trip input low for FILT cycles sets LATCH and drives its masked channels to their safe states (R270). -/
  | tripAssert (k : Fin 4)
  /-- A write of 1 to PWM_TRIP_STAT.LATCH clears it when the input is no longer asserted (R270). -/
  | tripLatchClear (src : Fin 3) (v : Word)
  /-- A write of PWM_c_CFG, DMIN or DMAX takes effect only while the channel is unbound or its loop is OPEN (R273). -/
  | pwmCfgWrite (src : Fin 3) (c : Fin 64) (k : Fin 3) (v : Word)
  /-- At each 250 MHz tick the Split Timer adds INC to its time (R362). -/
  | splitTimerTick
  /-- A write of SPL_CTRL.ACCEPT_STEP = 1 lets the next qualified offset step the time (R372). -/
  | acceptStepWrite (src : Fin 3) (v : Word)
  /-- A Sync received on the slave port is timestamped, relayed and, when qualified, yields an offset for the servo (R371). -/
  | sync (p : Fin 2) (oneStep : Bool) (seq : BitVec 16) (t2 origin : Nat) (corr rate : Int)
  /-- A Follow_Up matching a two-step Sync completes its offset (R371). -/
  | followUp (p : Fin 2) (seq : BitVec 16) (origin : Nat) (corr rate : Int)
  /-- A received Pdelay_Req is timestamped and answered within 20 µs (R367). -/
  | pdelayReq (p : Fin 2) (seq : BitVec 16) (t2 : Nat) (source : Nat)
  /-- A received Pdelay_Resp contributes to the port's link delay (R367). -/
  | pdelayResp (p : Fin 2) (seq : BitVec 16) (t2 t4 : Nat)
  /-- A received Pdelay_Resp_Follow_Up completes the link-delay measurement (R367). -/
  | pdelayRespFollowUp (p : Fin 2) (seq : BitVec 16) (t3 : Nat) (ratio : Int) (capable : Bool)
  /-- A received Announce runs the best master clock algorithm and reassigns port roles (R369). -/
  | announce (p : Fin 2) (vec : List Nat) (path : List Nat)
  /-- An announce timeout runs the best master clock algorithm again (R369). -/
  | announceReceiptTimeout (p : Fin 2)
  /-- No qualified offset for syncReceiptTimeout intervals moves a LOCKED device to HOLDOVER (R372). -/
  | syncReceiptTimeout
  /-- A sync, announce or Pdelay interval expires and the port sends the message (R367). -/
  | ptpMessageInterval (p : Fin 2) (kind : Fin 3)
  /-- A port finishes training and its link comes up (R347). -/
  | ethernetLinkUp (p : Fin 2) (rate : Fin 3) (master : Bool)
  /-- A port loses its link, clears LINK and trains again (R347). -/
  | ethernetLinkLoss (p : Fin 2)
  /-- After five failed trainings the 1 s retry interval expires and the port trains again (R347). -/
  | ethernetTrainRetry (p : Fin 2)
  /-- An ARP request for the port's IPv4 address is answered (R348). -/
  | arpRequest (p : Fin 2) (target : Word) (mac : BitVec 48) (ip : Word)
  /-- A received frame outside the accepted set is discarded and counted (R348). -/
  | frameDiscard (p : Fin 2)
  /-- TFP command reading COUNT control-space words in ascending order (R354). -/
  | cread (h : TfpHdr) (addr : Word) (count : BitVec 16)
  /-- TFP command writing COUNT control-space words, stopping at the first failure (R354). -/
  | cwrite (h : TfpHdr) (addr : Word) (words : List Word)
  /-- TFP command reading a word and writing it back under a mask in the next cycle (R354). -/
  | cmodify (h : TfpHdr) (addr mask value : Word)
  /-- TFP command reading up to 1,024 bytes of data space, paced as BE traffic (R354). -/
  | dread (h : TfpHdr) (addr : BitVec 48) (len : Word)
  /-- TFP command writing up to 1,024 bytes of data space (R354). -/
  | dwrite (h : TfpHdr) (addr : BitVec 48) (data : List Byte)
  /-- TFP command aborting a heat of a context and replying with the counts and result code (R179). -/
  | abort (h : TfpHdr) (ctx : Byte) (heat : Word)
  /-- TFP command returning its payload unchanged (R353). -/
  | echo (h : TfpHdr) (data : List Byte)
  /-- TFP command subscribing the source to, or unsubscribing it from, a telemetry stream (R359). -/
  | tsub (h : TfpHdr) (stream : Byte) (en : Bool)
  /-- Recovery command returning MSH_STAT, the reset and verdict counts and the latest verdict (R447). -/
  | health (h : TfpHdr)
  /-- Recovery command resetting and reloading a partition when EXPECT matches its GEN (R448). -/
  | reinit (h : TfpHdr) (part : Byte) (expect : Word)
  /-- Recovery command ordering a device reset 10 µs after the response when EXPECT matches (R448). -/
  | devreset (h : TfpHdr) (expect : Word)
  /-- Recovery command asserting PWR_CYCLE_REQ_N when EXPECT matches (R448). -/
  | pwrcycle (h : TfpHdr) (expect : Word)
  /-- FLUSH microseconds after its first record a telemetry frame is sent (R463). -/
  | telemetryFlush (port : Fin 2) (stream : Fin 4) (peer : Peer)
  /-- Marshal drives outputs safe, stops transmitters, opens loops and asserts PWR_CYCLE_REQ_N (R449). -/
  | powerCycleRequest
  /-- A Relay Link training step ends and the next begins, or the attempt fails with a TFAIL code (R381). -/
  | relayTrainingStepComplete (k : Fin 4) (ok : Bool) (part cascade : Word) (dev : Fin 16) (role : Fin 4)
  /-- A training step exceeds its maximum and fails the attempt (R381). -/
  | relayTrainingStepTimeout (k : Fin 4)
  /-- A link finishes CREDIT and becomes ACTIVE (R381). -/
  | relayLinkActive (k : Fin 4)
  /-- After four failed attempts the 1 s retry interval expires and the link trains again (R383). -/
  | relayRetryTimer (k : Fin 4)
  /-- Sixteen failed replays or a 1 µs block-lock loss reset the link domain and retrain it (R383). -/
  | relayLinkLost (k : Fin 4) (lock : Bool)
  /-- A remote read request is routed or admitted by a window and answered (R391). -/
  | rdReq (k : Fin 4) (h : PktHdr) (len : Fin 257)
  /-- A remote read reply arrives and completes its request, or is dropped for an old bib (R384). -/
  | rdRsp (k : Fin 4) (h : PktHdr) (data : List Byte) (poison : Bool)
  /-- A remote write request is admitted by a window, applied and acknowledged once visible (R391). -/
  | wrReq (k : Fin 4) (h : PktHdr) (data : List Byte) (poison : Bool)
  /-- A remote write acknowledgement arrives at its source (R393). -/
  | wrAck (k : Fin 4) (h : PktHdr)
  /-- An error reply arrives and its code becomes a fault of the source context (R392). -/
  | errRsp (k : Fin 4) (h : PktHdr) (code : Byte)
  /-- A remote BPOST packet is applied to its home baton (R309). -/
  | bpostPacket (k : Fin 4) (h : PktHdr)
  /-- A remote BWAIT packet joins its home baton's queue (R309). -/
  | bwaitPacket (k : Fin 4) (h : PktHdr)
  /-- A BWAIT reply arrives and releases the waiting proxy wait (R309). -/
  | bwaitRsp (k : Fin 4) (h : PktHdr)
  /-- A TIME packet yields a member's qualified offset, steps and FAB_BASE (R394). -/
  | time (k : Fin 4) (echo : Bool) (rx sent residence delay turn : Nat) (state : Fin 3) (steps : BitVec 16) (fabBase : Int)
  /-- Every RLY_TIME.INTERVAL µs the device sends TIME packets downstream (R394). -/
  | timeSendInterval
  /-- An ALIGN packet gives a member the master's boundary, length, phase, index and any switch or HOLD order (R396). -/
  | align (k : Fin 4) (bound : Nat) (len : BitVec 20) (phase : BitVec 30) (idx : Word) (switch hold : Option Word)
  /-- A NAK on a bad CRC makes the sender replay from its replay buffer (R386). -/
  | linkNak (k : Fin 4) (bytes : Option (List Byte))
  /-- A packet for another device is forwarded with TTL decremented, or dropped with error ROUTE (R388). -/
  | packetForward (k : Fin 4) (h : PktHdr) (ty : PktKind) (data : List Byte) (poison : Bool)
  /-- Every INTERVAL × 64 cycles each channel reads, checks and corrects one line (R331). -/
  | patrolScrub (k : Fin 16) (outcome : ScrubFind)
  /-- Every 16 ms each channel's MR4 is read and its refresh interval scaled (R326). -/
  | mr4Read (k : Fin 16) (rate : Fin 32)
  /-- An LPDDR5 read returns, corrected, retried or poisoned by its ECC outcome (R329). -/
  | lpddr5ReadReply (addr : BitVec 48) (outcome : ReadBack)
  /-- Every 8,192 cycles Marshal snapshots every node of the wait-for graph and begins a search (R435). -/
  | graphSnapshot (env : List GSnap)
  /-- A search ends and declares a hang when a closed set persists without completion (R435). -/
  | graphSearchEnd
  /-- A waiting node completes nothing for STALL_TO × 256 cycles and is handled as a stall (R436). -/
  | stallWatchdogExpiry (node : GNode) (c : Fin 64) (env : List GSnap)
  /-- The RHOLD delay after a verdict ends and the ordered reset begins (R445). -/
  | rholdExpiry
  /-- A tile or cluster reset ends after its reset time (R440). -/
  | tileResetComplete (t : TileNo)
  /-- A partition reset ends and the partition enters RECOVERY for reload, or goes down (R441). -/
  | partitionResetComplete (p : Fin 16)
  /-- A partition's reload and context loads end, and it returns to SERVICE at the next boundary (R441). -/
  | partitionReloadComplete (p : Fin 16)
  /-- An observation read is unanswered for 4,096 cycles and returns poison with a DUMP_TIMEOUT verdict (R445). -/
  | observationReadTimeout (p : Fin 2)
  /-- Every 2^PCSHIFT cycles each tile in RUN contributes a program-counter sample (R465). -/
  | pcSample
  /-- An enabled dump point matches a command or problem step and starts a held dump (R469). -/
  | dumpMatch (t : TileNo)
  /-- A write of MSH_DUMP_NOW with GO = 1 performs a dump point at once without a hold (R469). -/
  | mshDumpNow (src : Fin 3) (v : Word)
  /-- The last byte of a dump is staged, its hold ends and its record is produced (R473). -/
  | dumpComplete (t : TileNo)
  /-- A write of MSH_OBS_CTRL.CLR clears every counter block (R456). -/
  | obsCounterClear (src : Fin 3) (v : Word)
  /-- A JTAG CTRL_ACCESS Update-DR performs one control-space read or write (R497). -/
  | ctrlAccess (op : Fin 4) (addr data : Word) (early : Bool)
  /-- TRST_N or five TCK cycles with TMS high reset the TAP to BYPASS (R496). -/
  | tapReset
  /-- The JTAG SAMPLE/PRELOAD instruction captures and loads the boundary register (R496). -/
  | samplePreload (balls load : BitVec 2048)
  /-- The JTAG EXTEST instruction drives the balls from the boundary register when permitted (R427). -/
  | extest (load : Option (BitVec 2048))
  /-- The IEEE 1149.6 EXTEST_PULSE instruction tests the Relay Link lanes (R496). -/
  | extestPulse (load : Option (BitVec 2048))
  /-- The IEEE 1149.6 EXTEST_TRAIN instruction tests the Relay Link lanes (R496). -/
  | extestTrain (load : Option (BitVec 2048))
  /-- The JTAG HIGHZ instruction puts every output in high impedance (R496). -/
  | highz
  /-- The JTAG CLAMP instruction holds outputs from the boundary register (R496). -/
  | clamp
  /-- The JTAG BYPASS instruction selects the bypass register (R496). -/
  | bypass
  /-- RST_N returns high and the device-reset sequence leaves its wait at the start of step 2 (R493). -/
  | rstNRelease
  /-- 10 µs after the DEVRESET response's last bit leaves the port, the device reset begins (R448). -/
  | devresetDelayExpiry
  /-- After power-good the LPDDR5 PLLs have not locked 10 ms after TRAIN starts them, and the boot fails with CLOCK, DETAIL 5 (R404). -/
  | lpddr5PllLockTimeout
  /-- A tile or cluster woken from IDLE or NAP reaches RUN, so its context restore and waiting prefetch transfers can begin (R290). -/
  | tileWakeComplete (t : TileNo)
  /-- On HOLD exit, CORE and the clusters reach RUN and MEM leaves self-refresh; the servo resumes and the partition reloads begin (R31). -/
  | holdExitWakeComplete
  /-- The written-back loan lines have been copied from the backing share, and the reclaimed BE heat's restore begins (R302). -/
  | loanCopyBackComplete (t : TileNo)
  /-- A trip input returns high, so LEVEL clears and LATCH becomes clearable (R270). -/
  | tripInputRelease (k : Fin 4)
  /-- A Sample Port's receive clock is present again and RXSTAT.CLKOK returns to 1 (R272). -/
  | rxClockReturn (p : Fin 16)
  /-- An Ethernet training attempt fails; the port counts it, sets TRAIN_FAIL after five, and trains again (R347). -/
  | ethernetTrainingFailed (p : Fin 2)
  /-- A received LINK packet acknowledges packets or returns credits, releasing replay-buffer space and packets waiting for credits (R386). -/
  | linkPacket (k : Fin 4) (ack : Option Word) (ctlCr lcCr beCr : BitVec 11)
  /-- A TFP frame with an invalid VER, LEN or OP, or a short payload, is answered with BAD_FORMAT and not executed (R351). -/
  | tfpMalformedFrame (h : TfpHdr) (op : Byte)
  /-- Marshal's memory or port bucket gathers enough tokens and a held record or telemetry frame is sent (R464). -/
  | obsPacerRelease
  /-- A channel's refresh interval expires and a per-bank refresh is issued (R326). -/
  | perBankRefresh (k : Fin 16)
  /-- An ACTIVE Relay Link enters NAP, electrical idle with lane lock kept (R27). -/
  | relayLinkNapEntry (k : Fin 4)
  /-- A Relay Link in NAP carries traffic again 2 µs after demand (R27). -/
  | relayLinkNapExit (k : Fin 4)
  /-- The MEM domain enters NAP, LPDDR5 power-down (R27). -/
  | memPowerDownEntry
  /-- MEM leaves power-down and is in RUN 1 µs after demand (R27). -/
  | memPowerDownExit
  /-- The anchor's setup sequences have been issued and the flash is in 8D-8D-8D, so step 6 reading begins (R401). -/
  | flashSetupComplete
  /-- VDD_IO18 falls below 1.6 V and every ball goes to the high-impedance state of R481 (R480). -/
  | vddIo18Low
  /-- VDD_IO33 falls below 2.2 V and the PWM bank goes high impedance whatever the die's state (R481). -/
  | vddIo33Low
  deriving DecidableEq, Repr

end Sys2Proof
end

