-- ==== Sys2Proof/WellFormed.lean ====
section
/-!
DEFINITION. The operands the manual admits where a command's type admits more: lengths of frames and
transfers, aligned register addresses, command and packet fields with reserved values.  A command that
breaks a check still has its meaning: what the device does with it is the manual's own answer.
-/

namespace Sys2Proof

/-- Scale selection codes SMODE of R196: NONE, BLOCK or CARRIED, with the headroom of R58. -/
def smodeWf (b : Byte) : Bool := b.toNat % 4 != 3 && b.toNat / 4 % 4 == 0 && decide (b.toNat < 128)

/-- MAC: MFLAGS has no reserved bit, and CPAIR stands only beside bit 0 and an accumulator (R196). -/
def MacOps.wf (o : MacOps) : Bool :=
  decide (o.mflags.toNat < 8) && smodeWf o.smode
    && (decide (o.mflags.toNat < 4) || (o.mflags.toNat % 2 == 1 && o.tc != 0xFFFF))
    && o.ta != 0xFFFF && o.tw != 0xFFFF && o.tout != 0xFFFF

/-- CONV: source and destination are descriptors (R196). -/
def ConvOps.wf (o : ConvOps) : Bool := smodeWf o.smode && o.ts != 0xFFFF && o.td != 0xFFFF

/-- The packet types of R384. -/
def packetType (t : Nat) : Bool :=
  [0x01, 0x02, 0x03, 0x04, 0x05, 0x10, 0x11, 0x12, 0x20, 0x21, 0x30].contains t

/-- The nodes of R432 by kind code: tiles, queues, clusters and banks, waits, batons, contexts, channels,
links and virtual channels. -/
def nodeWf (n : GNode) : Bool :=
  match n.kind with
  | 1 => decide (n.a < 32)
  | 2 => decide (n.a < 32) && decide (n.b < 4)
  | 3 => decide (n.a < 32)
  | 4 => decide (n.a < 4) && decide (n.b < 16)
  | 5 => decide (n.a < 48)
  | 6 => decide (n.a < 32768)
  | 7 => decide (n.a < 64)
  | 8 => decide (n.a < 16)
  | 9 => decide (n.a < 4) && decide (n.b < 3)
  | 10 => decide (n.a < 4) && decide (n.b < 3)
  | 11 => decide (n.a < 4) && decide (n.b < 3)
  | _ => false

/-- Whether a command's operands are those the manual admits. -/
def Instr.wf (i : Instr) : Bool :=
  match i with
  | .pwrgoodRise _ _ _ => true
  | .powerGoodFall => true
  | .railUndervoltage => true
  | .refclkStop => true
  | .rstNAssert => true
  | .refclkQualified => true
  | .timePllLockTimeout => true
  | .timePllLocked => true
  | .fclkPllLockTimeout _ => true
  | .resetPllLockTimeout _ => true
  | .clocksLocked => true
  | .flashResetDone => true
  | .anchorReadComplete bytes => bytes.length == 4096
  | .flashStrobeLost _ => true
  | .signatureReadComplete _ _ _ => true
  | .scriptFetchComplete bytes => bytes.length % 16 == 0 && decide (bytes.length ≤ 65536)
  | .bistComplete _ _ => true
  | .endScript => true
  | .write => true
  | .writeMask => true
  | .poll => true
  | .pollSatisfied => true
  | .pollTimeout => true
  | .train => true
  | .lpddr5TrainingComplete _ _ => true
  | .lpddr5ZeroFillComplete => true
  | .load => true
  | .loadComplete data => decide (data.length ≤ 2 ^ 28)
  | .verify => true
  | .lock => true
  | .registerWrite _ a _ => a.toNat % 4 == 0
  | .rcRegisterRead _ a => a.toNat % 4 == 0
  | .splNsRead _ => true
  | .splitLoRegisterRead _ a => a.toNat % 4 == 0
  | .cmdIdRead _ _ _ => true
  | .holdReq _ _ => true
  | .holdEntryComplete => true
  | .holdExit _ _ => true
  | .holdExitReloadComplete => true
  | .majorCycleBoundary => true
  | .arm _ => true
  | .scheduleTableWrite _ _ _ _ => true
  | .lookaheadRead => true
  | .wakeTime _ => true
  | .tileChoice _ => true
  | .wakeComplete _ => true
  | .slotTime _ => true
  | .prefetchTransferComplete _ => true
  | .cutPointFac _ _ => true
  | .cutPointOut _ _ => true
  | .deadlineTime _ _ => true
  | .beq _ _ _ => true
  | .bePlacement => true
  | .sliceExpiry _ => true
  | .loanReclaim _ => true
  | .reclaimWritebackComplete _ => true
  | .eventTrigger => true
  | .clusterNapEntry _ => true
  | .pacerRelease _ _ => true
  | .contextFault _ => true
  | .teardownComplete _ => true
  | .teardownTimeout _ => true
  | .hurdleDrainLimit _ => true
  | .contextReloadComplete _ => true
  | .bpost _ _ _ _ => true
  | .bwait _ _ _ _ => true
  | .post _ _ _ => true
  | .nop _ => true
  | .add _ _ _ _ _ => true
  | .sub _ _ _ _ _ => true
  | .adds _ _ _ _ _ => true
  | .subs _ _ _ _ _ => true
  | .neg _ _ _ _ => true
  | .negs _ _ _ _ => true
  | .and _ _ _ _ => true
  | .or _ _ _ _ => true
  | .xor _ _ _ _ => true
  | .shl _ _ _ _ _ _ => true
  | .shr _ _ _ _ _ _ => true
  | .shra _ _ _ _ _ _ => true
  | .clz _ _ _ _ => true
  | .cmpeq _ _ _ _ _ => true
  | .cmplt _ _ _ _ _ => true
  | .mov _ _ _ => true
  | .movi _ _ _ => true
  | .movhi _ _ _ => true
  | .addim _ _ _ _ _ => true
  | .mul _ _ _ _ _ => true
  | .mulx _ _ _ _ _ => true
  | .quo _ _ _ _ _ => true
  | .rmd _ _ _ _ _ => true
  | .vPipeResult _ => true
  | .flagrd _ _ => true
  | .flagclr _ _ => true
  | .trapen _ _ => true
  | .sret _ => true
  | .fadd _ _ _ _ _ => true
  | .fsub _ _ _ _ _ => true
  | .fmul _ _ _ _ _ => true
  | .fma _ _ _ _ _ _ => true
  | .fnma _ _ _ _ _ _ => true
  | .fdiv _ _ _ _ _ => true
  | .fsqrt _ _ _ _ => true
  | .fmin _ _ _ _ _ => true
  | .fmax _ _ _ _ _ => true
  | .feq _ _ _ _ _ => true
  | .flt _ _ _ _ _ => true
  | .fle _ _ _ _ _ => true
  | .fneg _ _ _ _ => true
  | .fabs _ _ _ _ => true
  | .fcopysign _ _ _ _ _ => true
  | .cvt _ _ _ _ _ _ _ => true
  | .ld _ _ _ _ _ => true
  | .st _ _ _ _ _ => true
  | .fmv _ _ _ => true
  | .mvgf _ _ _ _ => true
  | .mvfg _ _ _ _ => true
  | .jmp _ _ => true
  | .beqz _ _ _ => true
  | .bnez _ _ _ => true
  | .bltz _ _ _ => true
  | .bgez _ _ _ => true
  | .hend _ _ => true
  | .fence _ _ => true
  | .setmode _ _ _ => true
  | .copy _ _ _ _ len => len.toNat % 4 == 0 && decide (4 ≤ len.toNat) && decide (len.toNat ≤ 16777216)
  | .copyComplete _ => true
  | .solve _ _ _ count _ => decide (1 ≤ count.toNat) && decide (count.toNat ≤ 64)
  | .mac _ _ o => o.wf
  | .conv _ _ o => o.wf
  | .xtload _ _ _ _ _ => true
  | .tensorCommandCommit _ => true
  | .problemEnterAssemble _ => true
  | .stageHandoff _ _ => true
  | .factorCommit _ => true
  | .iterationComplete _ => true
  | .emitCommit _ => true
  | .heatComplete _ => true
  | .emitSetpointArrival => true
  | .abortReachesTile _ => true
  | .preemptionRequest _ => true
  | .unitStop _ _ => true
  | .saveComplete _ => true
  | .restoreComplete _ => true
  | .loopBoundary _ => true
  | .loopUpdateCommit _ => true
  | .ctrl _ _ _ => true
  | .coefficientWrite _ _ _ _ => true
  | .loopConfigWrite _ _ _ _ => true
  | .limitWrite _ _ _ _ => true
  | .target _ _ _ => true
  | .generatorEnWrite _ _ _ => true
  | .probeArm _ _ _ => true
  | .probeTrig _ _ _ => true
  | .frameCheck _ _ nch samples _ => samples.length == nch.val + 1
  | .markRecognised _ => true
  | .partToExpiry _ => true
  | .idleToExpiry _ => true
  | .rxClockLoss _ => true
  | .forgetExpiry _ => true
  | .sptRxcfgWrite _ _ _ => true
  | .sptTxcfgWrite _ _ _ => true
  | .txBoundary _ => true
  | .carrierBoundary _ => true
  | .tripAssert _ => true
  | .tripLatchClear _ _ => true
  | .pwmCfgWrite _ _ _ _ => true
  | .splitTimerTick => true
  | .acceptStepWrite _ _ => true
  | .sync _ _ _ _ _ _ _ => true
  | .followUp _ _ _ _ _ => true
  | .pdelayReq _ _ _ _ => true
  | .pdelayResp _ _ _ _ => true
  | .pdelayRespFollowUp _ _ _ ratio _ => decide (ratio.natAbs < 2 ^ 31)
  | .announce _ vec path => vec.length == 8 && decide (path.length ≤ 128)
  | .announceReceiptTimeout _ => true
  | .syncReceiptTimeout => true
  | .ptpMessageInterval _ _ => true
  | .ethernetLinkUp _ _ _ => true
  | .ethernetLinkLoss _ => true
  | .ethernetTrainRetry _ => true
  | .arpRequest _ _ _ _ => true
  | .frameDiscard _ => true
  | .cread _ _ count => decide (1 ≤ count.toNat) && decide (count.toNat ≤ 256)
  | .cwrite _ _ words => decide (1 ≤ words.length) && decide (words.length ≤ 256)
  | .cmodify _ _ _ _ => true
  | .dread _ _ len => decide (1 ≤ len.toNat) && decide (len.toNat ≤ 1024)
  | .dwrite _ _ data => decide (1 ≤ data.length) && decide (data.length ≤ 1024)
  | .abort _ ctx _ => decide (ctx.toNat < 64)
  | .echo _ data => decide (data.length ≤ 1440)
  | .tsub _ stream _ => decide (stream.toNat < 4)
  | .health _ => true
  | .reinit _ part _ => decide (part.toNat < 16)
  | .devreset _ _ => true
  | .pwrcycle _ _ => true
  | .telemetryFlush _ _ _ => true
  | .powerCycleRequest => true
  | .relayTrainingStepComplete _ _ _ _ _ _ => true
  | .relayTrainingStepTimeout _ => true
  | .relayLinkActive _ => true
  | .relayRetryTimer _ => true
  | .relayLinkLost _ _ => true
  | .rdReq _ _ len => decide (1 ≤ len.val)
  | .rdRsp _ _ data _ => decide (1 ≤ data.length) && decide (data.length ≤ 256)
  | .wrReq _ _ data _ => decide (1 ≤ data.length) && decide (data.length ≤ 256)
  | .wrAck _ _ => true
  | .errRsp _ _ code => decide (1 ≤ code.toNat) && decide (code.toNat ≤ 5)
  | .bpostPacket _ _ => true
  | .bwaitPacket _ _ => true
  | .bwaitRsp _ _ => true
  | .time _ _ _ _ _ _ _ _ _ _ => true
  | .timeSendInterval => true
  | .align _ _ _ _ _ _ _ => true
  | .linkNak _ b => match b with
    | some l => decide (20 ≤ l.length)
    | none => true
  | .packetForward _ _ ty data _ => packetType ty.code.toNat
    && (if ty.code.toNat = 0x02 ∨ ty.code.toNat = 0x03 then data.length == ty.len.val else data.isEmpty)
  | .patrolScrub _ _ => true
  | .mr4Read _ _ => true
  | .lpddr5ReadReply _ _ => true
  | .graphSnapshot env => env.all (fun g => nodeWf g.node && g.edges.all nodeWf)
  | .graphSearchEnd => true
  | .stallWatchdogExpiry node _ env => nodeWf node && env.all (fun g => nodeWf g.node && g.edges.all nodeWf)
  | .rholdExpiry => true
  | .tileResetComplete _ => true
  | .partitionResetComplete _ => true
  | .partitionReloadComplete _ => true
  | .observationReadTimeout _ => true
  | .pcSample => true
  | .dumpMatch _ => true
  | .mshDumpNow _ _ => true
  | .dumpComplete _ => true
  | .obsCounterClear _ _ => true
  | .ctrlAccess _ _ _ _ => true
  | .tapReset => true
  | .samplePreload _ _ => true
  | .extest _ => true
  | .extestPulse _ => true
  | .extestTrain _ => true
  | .highz => true
  | .clamp => true
  | .bypass => true
  | .rstNRelease => true
  | .devresetDelayExpiry => true
  | .lpddr5PllLockTimeout => true
  | .tileWakeComplete _ => true
  | .holdExitWakeComplete => true
  | .loanCopyBackComplete _ => true
  | .tripInputRelease _ => true
  | .rxClockReturn _ => true
  | .ethernetTrainingFailed _ => true
  | .linkPacket _ _ _ _ _ => true
  | .tfpMalformedFrame _ _ => true
  | .obsPacerRelease => true
  | .perBankRefresh _ => true
  | .relayLinkNapEntry _ => true
  | .relayLinkNapExit _ => true
  | .memPowerDownEntry => true
  | .memPowerDownExit => true
  | .flashSetupComplete => true
  | .vddIo18Low => true
  | .vddIo33Low => true

end Sys2Proof
end

