-- ==== Sys2Proof/Config.lean ====
section
/-!
DEFINITION. Values the manual leaves open: constants without a body, so that nothing can be proved
of what they are.  Those drawn by a running machine are applied to State.fresh, the count of free values drawn so far;
the vendor's key is one value for every run.
-/

namespace Sys2Proof.Config

/-- The G register a quad comparison (FEQ.S4, FLT.S4, FLE.S4) writes: R106 states the result of one
relation and R192 names one G destination, no rule places four lane results in it. -/
opaque quadCompare : Nat → DWord

/-- Bits of an F register above the bytes a load of fewer than 16 bytes brings: R192 names the
bytes loaded and no rule states the bits above them. -/
opaque loadUpper : Nat → QWord

/-- A byte of a section of the save area whose inner layout R210 does not give: the resume data of
a unit that had work. -/
opaque resumeByte : Nat → Byte

/-- How many 256-byte pieces of a local COPY have moved when it stops at a pre-emption point, modulo one more
than those left: R206 bounds the wait for the point and no rule gives a COPY's place in a cycle. -/
opaque copiedPieces : Nat → Nat

/-- TFAIL after an attempt whose IDENT or CREDIT step exceeded its maximum: R382 gives that case no
code. -/
opaque trainFail : Nat → BitVec 4

/-- The root of the vendor's public key in mask ROM (R411): 32 bytes the manual does not print. -/
opaque vendorRoot : List Byte

/-- The seed of the vendor's public key in mask ROM (R411). -/
opaque vendorSeed : List Byte

/-- The access of a scratchpad port in a cycle (cycle, tile, port): R333 orders claims and no rule says when a unit
makes them; an odd value claims, at a place among those its unit works on that half of it names. -/
opaque spadClaim : Nat → Nat → Nat → Nat

/-- The access of a tile's path to its cluster's Infield in a cycle (cycle, tile, path), as R334 has it. -/
opaque infClaim : Nat → Nat → Nat → Nat

/-- Marshal's access to a cluster's Infield in a cycle (cycle, cluster). -/
opaque infMarshal : Nat → Nat → Nat

/-- The stall reason inside a busy unit's work in a cycle (cycle, tile, unit): R455 names the reasons and no rule
gives the cycles. -/
opaque innerStall : Nat → Nat → Nat → BitVec 5

/-- The stall reason of a channel with requests in service in a cycle (cycle, channel). -/
opaque busStall : Nat → Nat → BitVec 5

/-- The section copy whose reload an uncorrectable error of the shadow directory stops (R341): no rule says which
section its verdict names. -/
opaque reloadSection : Nat → BitVec 16

/-- Byte `i` of what a TIME, ALIGN or LINK packet carries, by its TYPE and contents: 0 to 7 the ADDR field, then the
data field.  R384 refers to R394, R396 and R386, which name the contents and no layout. -/
opaque ctlByte : List Int → Nat → Byte

/-- What the clock of an event's domain did between the event and its crossing into AON (ring, SEQ, cycle): 1
stretched, 2 stopped, else undisturbed (R366); no row of the table says when. -/
opaque clockDist : Nat → Nat → Nat → BitVec 2

/-- From such an event to its stamp, in units of 2^-32 ns: R366 bounds it. -/
opaque clockLag : Nat → Nat → Nat → Nat

/-- Whether the partner of a link is farther from device 0 than this device: the wiring of the cascade, which no
register of this device holds (R394). -/
opaque farther : Nat → Bool

/-- Whether a claim that has won its bank writes less than 8 bytes (cycle, port): no rule says which writes of a unit
are partial (R335). -/
opaque partialWrite : Nat → Nat → Bool

/-- The 8D clock in MHz of an anchor whose FREQ is a code that R407 does not define. -/
opaque flashClock : Nat → Nat

/-- What the balls show when a boundary scan captures them: the board's side of them is not the device's (R496). -/
opaque ballCapture : Nat → BitVec 2048

/-- How many requests of a context that is torn down still stand, not accepted, modulo one more than those left: no
rule gives a request's place in a cycle (R443). -/
opaque droppedLocal : Nat → Nat

end Sys2Proof.Config
end

