-- ==== Sys2Proof/Machine/Tab.lean ====
section
/-!
DEFINITION. Sparse tables: a list of (key, value) pairs with strictly rising keys in which no entry
equals what an unlisted key reads as.  Register space, tile state, factor stores and every other
keyed collection of State is one of these; data memory uses the same operations over Host.Cell.
-/

namespace Sys2Proof.Machine

/-- A sparse table from natural-number keys. -/
abbrev Tab (α : Type) := List (Nat × α)

/-- Read key `k`; an unlisted key reads as `d`. -/
def tget {α : Type} (d : α) : Tab α → Nat → α
  | [], _ => d
  | (a, v) :: t, k => if a = k then v else tget d t k

/-- The entry at key `k`, if listed. -/
def tfind {α : Type} : Tab α → Nat → Option α
  | [], _ => none
  | (a, v) :: t, k => if a = k then some v else tfind t k

/-- Put `v` at key `k`, keeping the keys in rising order. -/
def tput {α : Type} : Tab α → Nat → α → Tab α
  | [], k, v => [(k, v)]
  | (a, w) :: t, k, v =>
    if a = k then (k, v) :: t
    else if k < a then (k, v) :: (a, w) :: t
    else (a, w) :: tput t k v

/-- Remove key `k`. -/
def tdel {α : Type} : Tab α → Nat → Tab α
  | [], _ => []
  | (a, w) :: t, k => if a = k then tdel t k else (a, w) :: tdel t k

/-- Write `v` at key `k`: writing what an unlisted key reads as removes the entry. -/
def tset {α : Type} [DecidableEq α] (d : α) (t : Tab α) (k : Nat) (v : α) : Tab α :=
  if v = d then tdel t k else tput t k v

/-- Every key of the table is at least `b`, rising, and no value is the default. -/
def twfFrom {α : Type} [DecidableEq α] (d : Nat → α) : Nat → Tab α → Bool
  | _, [] => true
  | b, (a, v) :: t => decide (b ≤ a) && decide (v ≠ d a) && twfFrom d (a + 1) t

/-- The canonical form: strictly rising keys, no entry equal to its key's default. -/
def twf {α : Type} [DecidableEq α] (d : Nat → α) (t : Tab α) : Bool := twfFrom d 0 t

/-- Replace element `n` of a list (nothing when `n` is past the end). -/
def lset {α : Type} : List α → Nat → α → List α
  | [], _, _ => []
  | _ :: t, 0, v => v :: t
  | x :: t, n + 1, v => x :: lset t n v

/-- Element `n` of a list, or `d` past its end. -/
def lget {α : Type} (d : α) : List α → Nat → α
  | [], _ => d
  | x :: _, 0 => x
  | _ :: t, n + 1 => lget d t n

/-- Insert `k` into a rising list of numbers without repeats. -/
def linsert : List Nat → Nat → List Nat
  | [], k => [k]
  | a :: t, k => if a = k then a :: t else if k < a then k :: a :: t else a :: linsert t k

/-- Remove every occurrence of `k`. -/
def lremove : List Nat → Nat → List Nat
  | [], _ => []
  | a :: t, k => if a = k then lremove t k else a :: lremove t k

/-- A list of `n` copies. -/
def lrep {α : Type} (n : Nat) (v : α) : List α := List.replicate n v

end Sys2Proof.Machine
end

