-- ==== Sys2Proof/Machine/Bits.lean ====
section
/-!
DEFINITION. Bit fields, sign extension, byte order (R6), exact logarithms and square roots.
-/

namespace Sys2Proof.Machine

/-- Bits [lo + n - 1 : lo] of a natural number (R4). -/
def bitsOf (w lo n : Nat) : Nat := (w >>> lo) % 2 ^ n

/-- Bit `i` of a natural number. -/
def bitAt (w i : Nat) : Bool := bitsOf w i 1 == 1

/-- Field [lo + n - 1 : lo] of a register word. -/
def fget (w : Word) (lo n : Nat) : Nat := bitsOf w.toNat lo n

/-- Bit `i` of a register word. -/
def fbit (w : Word) (i : Nat) : Bool := w.getLsbD i

/-- The mask with ones in [lo + n - 1 : lo]. -/
def fmask (lo n : Nat) : Word := BitVec.ofNat 32 ((2 ^ n - 1) <<< lo)

/-- Replace field [lo + n - 1 : lo] of a register word by `v`. -/
def fset (w : Word) (lo n v : Nat) : Word :=
  (w &&& ~~~(fmask lo n)) ||| (BitVec.ofNat 32 ((v % 2 ^ n) <<< lo))

/-- Set or clear one bit of a register word. -/
def fsetBit (w : Word) (i : Nat) (b : Bool) : Word := fset w i 1 (cond b 1 0)

/-- A Bool as a number. -/
def b2n (b : Bool) : Nat := cond b 1 0

/-- The signed value of the low `n` bits of `w` (two's complement). -/
def sext (w n : Nat) : Int :=
  let v := w % 2 ^ n
  if v < 2 ^ (n - 1) then (v : Int) else (v : Int) - (2 ^ n : Nat)

/-- The low `n` bits of an integer in two's complement. -/
def wrapN (i : Int) (n : Nat) : Nat := (i % ((2 ^ n : Nat) : Int)).toNat

/-- The integer clamped to lo..hi. -/
def clampI (lo hi i : Int) : Int := if i < lo then lo else if hi < i then hi else i

/-- Saturation to the signed range of `n` bits. -/
def satS (n : Nat) (i : Int) : Int :=
  clampI (-((2 ^ (n - 1) : Nat) : Int)) (((2 ^ (n - 1) : Nat) : Int) - 1) i

/-- Number of significant bits. -/
def bitLen (n : Nat) : Nat := if n = 0 then 0 else Nat.log2 n + 1

/-- `n` little-endian bytes of a number (R6). -/
def leBytes : Nat → Nat → List Byte
  | 0, _ => []
  | n + 1, v => BitVec.ofNat 8 v :: leBytes n (v >>> 8)

/-- The number of little-endian bytes (R6). -/
def ofLeBytes : List Byte → Nat
  | [] => 0
  | b :: t => b.toNat + 256 * ofLeBytes t

/-- `n` big-endian bytes of a number (network order, R352). -/
def beBytes (n v : Nat) : List Byte := (leBytes n v).reverse

/-- The number of big-endian bytes. -/
def ofBeBytes (l : List Byte) : Nat := ofLeBytes l.reverse

/-- Floor of the square root, one bit of the result at a time from the bit of weight 2^(k-1). -/
def isqrtGo (n : Nat) : Nat → Nat → Nat
  | 0, r => r
  | k + 1, r => let c := r + 2 ^ k; isqrtGo n k (if c * c ≤ n then c else r)

/-- Floor of the square root. -/
def isqrt (n : Nat) : Nat := isqrtGo n (bitLen n / 2 + 1) 0

/-- Rounding division of an integer by 2^k, to nearest with ties to even. -/
def rneShr (i : Int) (k : Nat) : Int :=
  if k = 0 then i else
  let q := i.fdiv ((2 ^ k : Nat) : Int)
  let r := (i - q * ((2 ^ k : Nat) : Int)).toNat
  let h := 2 ^ (k - 1)
  if r < h then q else if h < r then q + 1 else if q % 2 = 0 then q else q + 1

/-- The rounding of n / d to the nearest integer with ties to even (d positive). -/
def rneDiv (n : Int) (d : Nat) : Int :=
  let q := n.fdiv (d : Int)
  let r := (n - q * (d : Int)).toNat
  if 2 * r < d then q else if d < 2 * r then q + 1 else if q % 2 = 0 then q else q + 1

/-- The least multiple of `k` that is at least `n`. -/
def roundUp (n k : Nat) : Nat := (n + k - 1) / k * k

/-- Quotient rounded up. -/
def ceilDiv (n k : Nat) : Nat := (n + k - 1) / k

/-- Number of ones among the low `n` bits. -/
def popCount : Nat → Nat → Nat
  | 0, _ => 0
  | n + 1, w => (w % 2) + popCount n (w / 2)

/-- Positions of the ones among the low `n` bits, from the lowest. -/
def bitList (n w : Nat) : List Nat := (List.range n).filter (fun i => bitAt w i)

/-- Saturating addition to an `n`-bit counter. -/
def satAdd (n a b : Nat) : Nat := min (a + b) (2 ^ n - 1)

end Sys2Proof.Machine
end

