-- ==== Sys2Proof/Machine/RegMap.lean ====
section
/-!
DEFINITION. The control-space map (R7, R325): which addresses a register decodes, the access code of
every field (R16) as bit masks, and the Reset column (R11).
-/

namespace Sys2Proof.Machine

/-- The access masks of one register (R16): RW, RW1C, WO, RC and BL bits; every other bit is RO or
reserved.  `reset` is the Reset column. -/
structure RegSpec where
  rw : Word := 0
  w1c : Word := 0
  wo : Word := 0
  rc : Word := 0
  bl : Word := 0
  reset : Word := 0
  deriving DecidableEq, Repr

/-- A read-only register. -/
def regRO : RegSpec := ⟨0, 0, 0, 0, 0, 0⟩
/-- A read-only register with a reset value. -/
def regROv (v : Word) : RegSpec := ⟨0, 0, 0, 0, 0, v⟩
/-- RW bits. -/
def regRW (m : Word) (v : Word := 0) : RegSpec := ⟨m, 0, 0, 0, 0, v⟩
/-- RW1C bits. -/
def regW1C (m : Word) : RegSpec := ⟨0, m, 0, 0, 0, 0⟩
/-- WO bits. -/
def regWO (m : Word) : RegSpec := ⟨0, 0, m, 0, 0, 0⟩
/-- RC bits. -/
def regRC (m : Word) : RegSpec := ⟨0, 0, 0, m, 0, 0⟩
/-- BL bits. -/
def regBL (m : Word) (v : Word := 0) : RegSpec := ⟨0, 0, 0, 0, m, v⟩

/-! ## Addresses -/

/-- Tile base (R92). -/
def tileA (t off : Nat) : Nat := 0x01000000 + t * 0x10000 + off
/-- DSP_ registers (R320). -/
def dspA (off : Nat) : Nat := 0x00060000 + off
/-- DSP_PART_p (R321). -/
def partA (p off : Nat) : Nat := 0x00061000 + 0x40 * p + off
/-- DSP_CTX_c (R322). -/
def ctxA (c off : Nat) : Nat := 0x00064000 + 0x40 * c + off
/-- Word `w` of Schedule Table entry `i` (R279). -/
def tableA (i w : Nat) : Nat := 0x02000000 + 16 * i + 4 * w
/-- Word of baton `b` (R305): 0 COUNT, 4 CFG, 8 LINK, 12 POST. -/
def batonA (b off : Nat) : Nat := 0x03000000 + 16 * b + off
/-- CLK_HOLD, CLK_STAT, CLK_HOLD_CNT (R33). -/
def clkHoldA : Nat := 0x00010000
def clkStatA : Nat := 0x00010004
def clkHoldCntA : Nat := 0x00010008

/-- Split Timer and PTP registers (R378). -/
def splA (off : Nat) : Nat := 0x00020000 + off
/-- NET_k registers (R377). -/
def netA (k off : Nat) : Nat := 0x00030000 + 0x1000 * k + off
/-- RLY_ registers (R399). -/
def rlyA (off : Nat) : Nat := 0x00040000 + off
/-- RLY_ROUTE_d (R399). -/
def routeA (d : Nat) : Nat := 0x00040040 + 4 * d
/-- RLY_WIN_w (R399). -/
def winA (w off : Nat) : Nat := 0x00040100 + 16 * w + off
/-- RLY_k registers (R400). -/
def linkA (k off : Nat) : Nat := 0x00041000 + 0x100 * k + off
/-- MEM_ registers (R345). -/
def memA (off : Nat) : Nat := 0x00050000 + off
/-- MSH_ registers (R452, R476). -/
def mshA (off : Nat) : Nat := 0x00080000 + off
/-- Event ring q (R466). -/
def ringA (q off : Nat) : Nat := 0x000C0000 + 0x1000 * q + off
/-- LAP_LOOP_n registers (R246). -/
def loopA (n off : Nat) : Nat := 0x00100000 + 0x100 * n + off
/-- LAP_ global registers (R245). -/
def lapA (off : Nat) : Nat := 0x00140000 + off
/-- LAP_GEN_g registers (R247). -/
def genA (g off : Nat) : Nat := 0x00141000 + 0x40 * g + off
/-- LAP_PRB_p registers (R248). -/
def prbA (p off : Nat) : Nat := 0x00142000 + 0x40 * p + off
/-- Probe ring p (R242). -/
def probeA (p off : Nat) : Nat := 0x00180000 + 0x10000 * p + off
/-- SPT_p registers (R272). -/
def sptA (p off : Nat) : Nat := 0x00200000 + 0x100 * p + off
/-- PWM_c registers (R273). -/
def pwmA (c off : Nat) : Nat := 0x00201000 + 0x20 * c + off
/-- PWM_TRIP registers (R274). -/
def tripA (off : Nat) : Nat := 0x00202000 + off

/-! ## Blocks -/

/-- Starting Block registers (R3, R431). -/
def specSb (o : Nat) : Option RegSpec :=
  tfind [
    (0x00, (regROv 0x96403100)), (0x04, (regROv 0x10000000)), (0x08, regRO), (0x0C, regRO),
    (0x10, (regW1C 0x80000000)), (0x14, regRO), (0x18, regRO), (0x1C, regRO),
    (0x20, regRO), (0x24, (regBL 0xE0000000)), (0x28, regRO)] o

/-- Split Timer and PTP registers (R378). -/
def specSpl (o : Nat) : Option RegSpec :=
  tfind [
    (0x00, (regRW 0x80000000)), (0x04, ⟨0, 0x1C000000, 0, 0, 0, 0x80000000⟩),
    (0x08, regRO), (0x0C, regRO), (0x10, regRO), (0x14, regRO), (0x18, (regROv 4)),
    (0x1C, regRO), (0x20, (regBL 0x7FFFFFFF 0x3E8)), (0x24, (regBL 0x00001F0F 0x00000A04)),
    (0x28, regRO), (0x2C, regRO), (0x30, regRO), (0x34, (regRC 0xFFFFFFFF)),
    (0x38, (regBL 0xFFFFFFFF 0xFFFFF8FE)), (0x3C, (regBL 0x0000FFFF 0x436A)),
    (0x40, regRO), (0x44, regRO)] o

/-- Network Port registers (R377). -/
def specNet (o : Nat) : Option RegSpec :=
  tfind [
    (0x00, (regBL 0xFFE00000 0x27000000)), (0x04, (regBL 0xC000FFFF)),
    (0x08, (regBL 0x0000FFFF)), (0x0C, (regBL 0xFFFFFFFF)), (0x10, (regBL 0xFFFFFFFF)),
    (0x14, (regBL 0x0000FFFF 0x4CB8)), (0x18, ⟨0, 0x08000000, 0, 0, 0, 0x00800000⟩),
    (0x1C, (regBL 0x00FFFFF0 0x00D00330)), (0x20, (regRC 0xFFFFFFFF)),
    (0x24, (regRC 0xFFFFFFFF)), (0x28, (regRC 0xFFFFFFFF)), (0x2C, (regRC 0xFFFFFFFF)),
    (0x30, (regRC 0xFFFFFFFF)), (0x34, regRO), (0x38, regRO)] o

/-- RLY_k registers (R400). -/
def specLink (o : Nat) : Option RegSpec :=
  tfind [
    (0x00, (regBL 0xC0F00000)), (0x04, regRO), (0x08, regRO), (0x0C, (regRC 0xFFFFFFFF)),
    (0x10, (regRC 0xFFFFFFFF)), (0x14, (regRC 0xFFFFFFFF))] o

/-- Relay Link registers (R399). -/
def specRly (o : Nat) : Option RegSpec :=
  if 0x44 ≤ o ∧ o < 0x80 then some (regBL 0x80000703)
  else if 0x100 ≤ o ∧ o < 0x200 then
    match o % 16 with
    | 0 => some (regBL 0x00FFFFFF)
    | 4 => some (regBL 0x00FFFFFF)
    | 8 => some (regBL 0xF8F0FFFF)
    | _ => none
  else if 0x1000 ≤ o ∧ o < 0x1400 then specLink (o % 0x100)
  else
    tfind [
      (0x00, (regBL 0xC000000F)), (0x04, (regW1C 0x04000000)), (0x08, (regBL 0xFFFFFFFF)),
      (0x0C, (regBL 0x000000FF 1)), (0x10, regRO), (0x14, regRO)] o

/-- Memory registers (R345). -/
def specMem (o : Nat) : Option RegSpec :=
  if 0x100 ≤ o ∧ o < 0x140 then some (regROv 0xC0000000)
  else if 0x200 ≤ o ∧ o < 0x220 then
    (if o % 8 = 0 then some (regRC 0xFFFFFFFF) else some (regW1C 0x80000000))
  else
    tfind [
      (0x00, (regBL 0xE0000000)), (0x04, regRO), (0x08, (regBL 0x000FFFFF)),
      (0x0C, (regBL 0x000FFFFF)), (0x10, (regBL 0x0000FFFF 0x40)),
      (0x18, (regRC 0xFFFFFFFF)), (0x1C, (regRC 0xFFFFFFFF)), (0x20, regRO),
      (0x24, (regW1C 0x80000000))] o

/-- A counter block (R456). -/
def specCnt (o : Nat) : Option RegSpec :=
  if o < 0x28 then some regRO
  else if 0x84 ≤ o ∧ o < 0xFC then some regRO
  else none

/-- Observation control registers (R476). -/
def specObs (o : Nat) : Option RegSpec :=
  if 0x10 ≤ o ∧ o < 0x50 then
    match o % 16 with
    | 0 => some (regBL 0x000FFFFF)
    | 4 => some (regBL 0x0000FFFF)
    | 8 => some regRO
    | _ => some (regRC 0xFFFFFFFF)
  else
    tfind [
      (0x00, ⟨0xFFFFC0FF, 0, 0x00002000, 0, 0, 0x64⟩), (0x04, (regRW 0xFFFFFFFF 0x04EA0040)),
      (0x08, (regROv 0x00040000)), (0x0C, (regWO 0x800000FF))] o

/-- Marshal registers (R452, R456, R466, R468, R476). -/
def specMsh (o : Nat) : Option RegSpec :=
  if o < 0x100 then
    tfind [
      (0x00, (regBL 0x80FFFFFF 0x80000100)), (0x04, (regW1C 0xE0000000)), (0x08, regRO),
      (0x0C, regRO), (0x10, regRO), (0x14, regRO), (0x18, (regRC 0xFFFFFFFF)),
      (0x1C, (regRC 0xFFFFFFFF)), (0x20, (regRC 0xFFFFFFFF))] o
  else if o < 0x240 then some regRO
  else if 0x1000 ≤ o ∧ o < 0x2600 then specCnt (o % 0x100)
  else if 0x3000 ≤ o ∧ o < 0x3050 then specObs (o - 0x3000)
  else if 0x4000 ≤ o ∧ o < 0x6000 then
    some (regRW (if o % 32 = 0 then 0x3FFFFFFF else if o % 32 < 24 then 0xFFFFFFFF else 0))
  else if 0x40000 ≤ o ∧ o < 0x7F000 then
    (if o % 0x1000 < 0x804 then some regRO else none)
  else none

/-- Per-loop registers (R246). -/
def specLoop (o : Nat) : Option RegSpec :=
  tfind [
    (0x00, (regRW 0x00000203)), (0x04, (regRW 0x0000FFF0 0x00001000)),
    (0x08, (regRW 0x00FFFFFF 0x1F4)), (0x0C, (regRW 0x00FFFFFF)),
    (0x10, (regRW 0x03FF83FF)), (0x14, (regRW 0x000003FF)), (0x18, (regBL 0x8000000F)),
    (0x20, (regRW 0xFFFFFFFF)), (0x24, (regRW 0xFFFFFFFF)), (0x28, (regRW 0xFFFFFFFF)),
    (0x2C, (regRW 0xFFFFFFFF)), (0x30, (regRW 0xFFFFFFFF)), (0x34, (regRW 0xFFFFFFFF)),
    (0x38, (regRW 0xFFFFFFFF)), (0x3C, (regRW 0x000FFFFF)), (0x40, (regRW 0x00007FFF)),
    (0x44, (regRW 0xFFFFFFFF 0x80000000)), (0x48, (regRW 0xFFFFFFFF 0x7FFFFFFF)),
    (0x4C, (regRW 0xFFFFFFFF)), (0x50, (regRW 0x7FFFFFFF)), (0x54, (regRW 0xFFFFFFFF)),
    (0x58, (regRW 0xFFFFFFFF)), (0x60, (regROv 0x02000000)), (0x64, (regW1C 0x00001FFF)),
    (0x68, regRO), (0x6C, regRO), (0x70, regRO), (0x74, regRO), (0x78, regRO),
    (0x7C, regRO), (0x80, regRO), (0x84, regRO), (0x88, regRO), (0x8C, regRO),
    (0x90, regRO), (0x94, regRO), (0x98, regRO), (0x9C, (regRC 0xFFFFFFFF)),
    (0xA0, (regRC 0xFFFFFFFF))] o

/-- Generator registers (R247). -/
def specGen (o : Nat) : Option RegSpec :=
  tfind [
    (0x00, (regRW 0xE3FF07FF)), (0x04, (regRW 0x7FFFFFFF)), (0x08, (regRW 0xFFFFFFFF)),
    (0x0C, (regRW 0xFFFFFFFF)), (0x10, (regRW 0xFFFFFFFF)), (0x14, (regRW 0x0000FFFF)),
    (0x18, (regRW 0x7FFFFFFF 0x7FFFFFFF)), (0x1C, (regW1C 0x60000000))] o

/-- Probe registers (R248). -/
def specPrb (o : Nat) : Option RegSpec :=
  tfind [
    (0x00, (regRW 0xF3FFFF00)), (0x04, (regWO 1)), (0x08, (regRW 0x00001FFF)),
    (0x0C, (regRW 0x0000FFFF)), (0x10, (regRW 0x00000FFF)), (0x14, regRO)] o

/-- Lap Engine global, generator and probe registers (R245). -/
def specLap (o : Nat) : Option RegSpec :=
  if 0x1000 ≤ o ∧ o < 0x1200 then specGen (o % 0x40)
  else if 0x2000 ≤ o ∧ o < 0x2200 then specPrb (o % 0x40)
  else if 0x100 ≤ o ∧ o < 0x180 then some regRO
  else
    tfind [
      (0x00, regRO), (0x04, regRO), (0x08, regRO), (0x0C, regRO), (0x10, (regRC 0xFFFFFFFF)),
      (0x14, regRO)] o

/-- Sample Port registers (R272). -/
def specSpt (o : Nat) : Option RegSpec :=
  if 0x40 ≤ o ∧ o < 0x80 then some (regBL 0xFFFFFFFF)
  else
    tfind [
      (0x00, (regRW 0xFFF0FFFF 0x001003E8)), (0x04, (regRW 0xFFFFFFFF 0x000000C8)),
      (0x08, ⟨0, 0x08000000, 0, 0, 0, 0x10000000⟩), (0x0C, regRO), (0x10, regRO),
      (0x14, (regRC 0xFFFFFFFF)), (0x18, (regRC 0xFFFFFFFF)), (0x1C, (regRC 0xFFFFFFFF)),
      (0x20, (regRC 0xFFFFFFFF)), (0x24, (regRW 0xFF070000 0x00020000)),
      (0x28, (regRW 0x00FFFFFF 0x1F4)), (0x2C, (regRW 0x00FFFFFF))] o

/-- PWM channel registers (R273); `odd` for odd channels (COMP), whose even partner holds DT. -/
def specPwm (odd : Bool) (o : Nat) : Option RegSpec :=
  tfind [
    (0x00, ⟨0x00078000, 0, 0, 0, if odd then 0xF0000000 else 0x70000000, 0x40000000⟩),
    (0x04, (regBL (if odd then 0xFFFF0000 else 0xFFFF03FF) 0x000A0000)),
    (0x08, (regRW 0xFFFFFFFF)), (0x0C, (regRW 0xFFFFFFFF 0x7FFFFFFF)),
    (0x10, ⟨0, 0x10000000, 0, 0, 0, 0x80000000⟩)] o

/-- Trip registers (R274). -/
def specTrip (o : Nat) : Option RegSpec :=
  if o = 0x00 then some (regBL 0x00000FFF 4)
  else if o = 0x04 then some (regW1C 0x0000000F)
  else if 0x10 ≤ o ∧ o < 0x30 then some (regBL 0xFFFFFFFF) else none

/-- Tile registers (R92, R119, R151, R185, R212, R345, R456). -/
def specTile (o : Nat) : Option RegSpec :=
  if o < 0x1000 then none
  else if o < 0x2000 then
    (if o < 0x100C ∨ (0x1010 ≤ o ∧ o < 0x1034) then some regRO else none)
  else if o < 0x3000 then
    (if o < 0x2014 ∨ (0x2100 ≤ o ∧ o < 0x2208) ∨ (0x2400 ≤ o ∧ o < 0x2500)
        ∨ (0x2800 ≤ o ∧ o < 0x2A00) then some regRO else none)
  else if o < 0x4000 then (if o < 0x3018 then some regRO else none)
  else if o < 0x5000 then
    (if o < 0x4024 then some regRO
     else if o < 0x4030 then some (regRC 0xFFFFFFFF) else none)
  else if o < 0x6000 then
    (if o = 0x5000 then some (regRC 0xFFFFFFFF)
     else if o = 0x5004 then some (regW1C 0x80000000) else none)
  else if o < 0x6900 then specCnt (o % 0x100)
  else none


/-- Clock and power registers (R33). -/
def specClk (o : Nat) : Option RegSpec :=
  tfind [
    (0x0, ⟨0x23000000, 0, 0xC0000000, 0, 0, 0x03000000⟩), (0x4, (regW1C 0x20000000)),
    (0x8, regRO)] o

/-- Dispatcher registers below the partition and context blocks (R320). -/
def specDspTop (o : Nat) : Option RegSpec :=
  if 0x100 ≤ o ∧ o < 0x180 then some regRO else
  tfind [
    (0x00, regRO), (0x04, regRO), (0x08, regRO), (0x0C, (regBL 0x3FFFFFFF)),
    (0x10, (regRW 0x0000FFFF)), (0x14, (regRW 0x0001FFFF)), (0x18, (regRW 0x000FFFFF)),
    (0x1C, (regRW 0x80000000)), (0x24, regRO), (0x28, (regW1C 0x0000001F)),
    (0x2C, (regBL 0x0000FFFF 0x64)), (0x30, (regBL 0x0000FFFF 1)),
    (0x34, (regBL 0x000FFFFF)), (0x38, (regRC 0xFFFFFFFF)), (0x3C, (regRC 0xFFFFFFFF)),
    (0x40, (regRC 0xFFFFFFFF)), (0x44, (regRC 0xFFFFFFFF))] o

/-- Partition registers (R321). -/
def specPart (o : Nat) : Option RegSpec :=
  tfind [
    (0x00, (regBL 0xC0000000)), (0x04, (regBL 0xFFFFFFFF)), (0x08, (regBL 0x000FFFFF)),
    (0x0C, (regBL 0x000FFFFF)), (0x10, (regBL 0x01FF00FF)),
    (0x14, (regBL 0xFFFFFFFF 0xFFFF0400)), (0x18, (regBL 0xFFFFFFFF 0xFFFF0400)),
    (0x1C, regRO), (0x20, (regRC 0xFFFFFFFF)), (0x24, (regRC 0xFFFFFFFF))] o

/-- Context registers (R322). -/
def specCtx (o : Nat) : Option RegSpec :=
  tfind [
    (0x00, (regBL 0xEF0FFFFF)), (0x04, (regBL 0xFFFFFFFF)), (0x08, (regBL 0x0FFF00FF)),
    (0x0C, (regBL 0x0FFF0FFF)), (0x10, (regBL 0x000FFFFF)), (0x14, (regBL 0x000FFFFF)),
    (0x18, (regBL 0x000FFFFF)), (0x1C, (regBL 0x000FFFFF)),
    (0x20, (regBL 0x0000FFFF 0x100)), (0x24, regRO), (0x28, regRO),
    (0x2C, (regWO 0xFFFFFFFF)), (0x30, regRO), (0x34, (regW1C 0x0000007F)), (0x38, regRO),
    (0x3C, regRO)] o

/-- Dispatcher block (R320-R322). -/
def specDsp (o : Nat) : Option RegSpec :=
  if o < 0x1000 then specDspTop o
  else if o < 0x1400 then specPart ((o - 0x1000) % 0x40)
  else if 0x4000 ≤ o ∧ o < 0x5000 then specCtx ((o - 0x4000) % 0x40)
  else none

/-- Baton array word (R305). -/
def specBaton (o : Nat) : Option RegSpec :=
  match o % 16 with
  | 0 => some regRO
  | 4 => some ⟨0, 0x00010000, 0, 0, 0xFF00FFFF, 0⟩
  | 8 => some (regBL 0x7FFFFFFF)
  | 12 => some (regWO 0xFFFFFFFF)
  | _ => none

/-- The register an address decodes to, or none (R10, R325). -/
def regSpec (a : Nat) : Option RegSpec :=
  if a % 4 ≠ 0 then none
  else if a < 0x10000 then specSb a
  else if a < 0x20000 then specClk (a - 0x10000)
  else if a < 0x30000 then specSpl (a - 0x20000)
  else if a < 0x40000 then (if a < 0x32000 then specNet (a % 0x1000) else none)
  else if a < 0x50000 then specRly (a - 0x40000)
  else if a < 0x60000 then specMem (a - 0x50000)
  else if a < 0x80000 then specDsp (a - 0x60000)
  else if a < 0x100000 then specMsh (a - 0x80000)
  else if a < 0x140000 then specLoop (a % 0x100)
  else if a < 0x180000 then specLap (a - 0x140000)
  else if a < 0x200000 then some regRO
  else if a < 0x201000 then specSpt (a % 0x100)
  else if a < 0x201800 then specPwm (a % 0x40 ≥ 0x20) (a % 0x20)
  else if a < 0x202000 then none
  else if a < 0x203000 then specTrip (a - 0x202000)
  else if 0x01000000 ≤ a ∧ a < 0x01200000 then specTile (a % 0x10000)
  else if 0x02000000 ≤ a ∧ a < 0x02100000 then some (regRW 0xFFFFFFFF)
  else if 0x03000000 ≤ a ∧ a < 0x03080000 then specBaton (a - 0x03000000)
  else none

/-- The Reset column of an address; 0 where no register decodes (R10, R11). -/
def regReset (a : Nat) : Word :=
  match regSpec a with
  | some r => r.reset
  | none => 0

end Sys2Proof.Machine
end

