-- ==== Sys2Proof/Machine/Flags.lean ====
section
/-!
DEFINITION. The exceptional-outcome flags of R50, in the bit positions TILE_t_TFLAG (R94) and
TILE_t_SFLAG (R119) share.
-/

namespace Sys2Proof.Machine

/-- A set of flags: bits 0 INVALID, 1 OVERFLOW, 2 UNDERFLOW, 3 INEXACT, 4 SATURATED, 5 FLUSHED,
6 SCALE_HELD (R50, R94), 7 DIVZ, 8 DIVO (R119).  Union is `|||`. -/
abbrev FlagSet := BitVec 9

/-- No flag. -/
def flNone : FlagSet := 0
/-- INVALID (R50). -/
def flInvalid : FlagSet := 1
/-- OVERFLOW (R50). -/
def flOverflow : FlagSet := 2
/-- UNDERFLOW (R53). -/
def flUnderflow : FlagSet := 4
/-- INEXACT (R50). -/
def flInexact : FlagSet := 8
/-- SATURATED (R50). -/
def flSaturated : FlagSet := 16
/-- FLUSHED (R61, R62). -/
def flFlushed : FlagSet := 32
/-- SCALE_HELD (R58). -/
def flScaleHeld : FlagSet := 64
/-- DIVZ: division by zero (R119). -/
def flDivz : FlagSet := 128
/-- DIVO: signed integer division overflow (R119). -/
def flDivo : FlagSet := 256

/-- The flag when the condition holds. -/
def flIf (c : Bool) (f : FlagSet) : FlagSet := cond c f flNone

/-- Whether a flag is in the set. -/
def flHas (s f : FlagSet) : Bool := s &&& f != 0

/-- A saturated result: SATURATED, which always also sets INEXACT (R50). -/
def flSat : FlagSet := flSaturated ||| flInexact

end Sys2Proof.Machine
end

