-- ==== Sys2Proof/Machine/Formats.lean ====
section
/-!
DEFINITION. The number formats of chapter 2: what every encoding denotes (R40-R49), the single
rounding of every conversion (R51-R53), shared scales (R57, R58), and maximum and minimum
(R67, R68).  Values are exact: a sign, a natural significand and a binary exponent.
-/

namespace Sys2Proof.Machine

/-- The value of a source encoding: a NaN (signalling or not), an infinity, or (-1)^neg m 2^e
exactly; m = 0 is a signed zero. -/
inductive FVal where
  | nan (signalling : Bool)
  | inf (neg : Bool)
  | num (neg : Bool) (m : Nat) (e : Int)
  deriving DecidableEq, Repr

/-- How the special codes of a floating format are laid out (R40, R42). -/
inductive FKind where
  /-- FP64, FP32, BF16, FP16: infinities, quiet and signalling NaNs (R40, R41). -/
  | ieee
  /-- TF8: no infinity, one NaN code, no negative zero (R43). -/
  | tf8
  /-- E4M3: no infinity, NaN at the all-ones code (R42). -/
  | e4m3
  /-- E5M2: infinities and NaNs without a signalling form (R41, R42). -/
  | e5m2
  /-- E3M2, E2M3, E2M1: finite codes only (R42). -/
  | finite
  deriving DecidableEq, Repr

/-- A floating format: exponent bits, fraction bits, bias, the code of the largest finite
magnitude and the canonical NaN code (R40, R42). -/
structure FFmt where
  eb : Nat
  fb : Nat
  bias : Int
  maxCode : Nat
  nanCode : Nat
  kind : FKind
  deriving DecidableEq, Repr

/-- FP64 (R40). -/
def fFP64 : FFmt := ⟨11, 52, 1023, 0x7FEFFFFFFFFFFFFF, 0x7FF8000000000000, .ieee⟩
/-- FP32 (R40). -/
def fFP32 : FFmt := ⟨8, 23, 127, 0x7F7FFFFF, 0x7FC00000, .ieee⟩
/-- BF16 (R40). -/
def fBF16 : FFmt := ⟨8, 7, 127, 0x7F7F, 0x7FC0, .ieee⟩
/-- FP16 (R40). -/
def fFP16 : FFmt := ⟨5, 10, 15, 0x7BFF, 0x7E00, .ieee⟩
/-- TF8 (R42, R43). -/
def fTF8 : FFmt := ⟨4, 3, 7, 0x7F, 0x80, .tf8⟩
/-- E4M3 element (R42). -/
def fE4M3 : FFmt := ⟨4, 3, 7, 0x7E, 0x7F, .e4m3⟩
/-- E5M2 element (R42). -/
def fE5M2 : FFmt := ⟨5, 2, 15, 0x7B, 0x7E, .e5m2⟩
/-- E3M2 element (R42). -/
def fE3M2 : FFmt := ⟨3, 2, 3, 0x1F, 0, .finite⟩
/-- E2M3 element (R42). -/
def fE2M3 : FFmt := ⟨2, 3, 1, 0x1F, 0, .finite⟩
/-- E2M1 element (R42). -/
def fE2M1 : FFmt := ⟨2, 1, 1, 0x7, 0, .finite⟩

/-- The exponent of the least significant digit of a subnormal: 1 - bias - p (R40). -/
def FFmt.emin (f : FFmt) : Int := 1 - f.bias - (f.fb : Int)

/-- Width in bits of an encoding. -/
def FFmt.width (f : FFmt) : Nat := 1 + f.eb + f.fb

/-- The sign bit of an encoding. -/
def FFmt.sign (f : FFmt) (c : Nat) : Bool := bitAt c (f.eb + f.fb)

/-- The encoding of a sign and a magnitude code. -/
def FFmt.pack (f : FFmt) (neg : Bool) (mag : Nat) : Nat := cond neg (2 ^ (f.eb + f.fb)) 0 + mag

/-- The magnitude code of infinity in the formats that have one (R40, R42). -/
def FFmt.infCode (f : FFmt) : Nat := (2 ^ f.eb - 1) * 2 ^ f.fb

/-- The finite value of a magnitude code (R40). -/
def FFmt.finVal (f : FFmt) (neg : Bool) (mag : Nat) : FVal :=
  let e := mag / 2 ^ f.fb
  let fr := mag % 2 ^ f.fb
  if e = 0 then .num neg fr f.emin else .num neg (2 ^ f.fb + fr) (f.emin + (e : Int) - 1)

/-- The value of an encoding (R40-R43). -/
def FFmt.decode (f : FFmt) (c : Nat) : FVal :=
  let neg := f.sign c
  let mag := c % 2 ^ (f.eb + f.fb)
  match f.kind with
  | .ieee =>
    if mag < f.infCode then f.finVal neg mag
    else if mag = f.infCode then .inf neg
    else .nan (!(bitAt mag (f.fb - 1)))
  | .e5m2 =>
    if mag < f.infCode then f.finVal neg mag
    else if mag = f.infCode then .inf neg else .nan false
  | .tf8 => if neg && mag == 0 then .nan false else f.finVal neg mag
  | .e4m3 => if mag = 0x7F then .nan false else f.finVal neg mag
  | .finite => f.finVal neg mag

/-- Whether an encoding is a subnormal operand of an IEEE binary format (R61). -/
def FFmt.isSubnormal (f : FFmt) (c : Nat) : Bool :=
  let mag := c % 2 ^ (f.eb + f.fb)
  f.kind == .ieee && mag != 0 && decide (mag < 2 ^ f.fb)

/-- Under FLUSH a subnormal operand of FP64, FP32, BF16 or FP16 is replaced by zero of the same
sign, setting FLUSHED (R61). -/
def FFmt.flushIn (f : FFmt) (flush : Bool) (c : Nat) : Nat × FlagSet :=
  if flush && f.isSubnormal c then (f.pack (f.sign c) 0, flFlushed) else (c, flNone)

/-- The operand's value after the input flush (R61), and the flags of the flush. -/
def FFmt.load (f : FFmt) (flush : Bool) (c : Nat) : FVal × FlagSet :=
  let r := f.flushIn flush c
  (f.decode r.1, r.2)

/-- INVALID when a signalling NaN is consumed (R41). -/
def FVal.snanFlag : FVal → FlagSet
  | .nan true => flInvalid
  | _ => flNone

/-- Whether the value is a NaN. -/
def FVal.isNan : FVal → Bool
  | .nan _ => true
  | _ => false

/-- The sign of a value (a NaN has none: false). -/
def FVal.neg : FVal → Bool
  | .nan _ => false
  | .inf n => n
  | .num n _ _ => n

/-- Whether the value is finite. -/
def FVal.isFinite : FVal → Bool
  | .num _ _ _ => true
  | _ => false

/-- Whether the value is a zero. -/
def FVal.isZero : FVal → Bool
  | .num _ m _ => m == 0
  | _ => false

/-- The exact value multiplied by 2^k. -/
def FVal.scale (k : Int) : FVal → FVal
  | .num n m e => .num n m (e + k)
  | v => v

/-- The negated value. -/
def FVal.negate : FVal → FVal
  | .nan s => .nan s
  | .inf n => .inf (!n)
  | .num n m e => .num (!n) m e

/-- The significand as a signed integer, for finite values. -/
def FVal.sm : FVal → Int
  | .num n m _ => cond n (-(m : Int)) (m : Int)
  | _ => 0

/-- Round m 2^e (m positive) to a multiple of 2^q, to nearest with ties to even: the multiple and
whether it is exact. -/
def roundAt (m : Nat) (e q : Int) : Nat × Bool :=
  if q ≤ e then (m * 2 ^ (e - q).toNat, true)
  else
    let k := (q - e).toNat
    if bitLen m + 1 < k then (0, m == 0)
    else
      let n := m / 2 ^ k
      let r := m % 2 ^ k
      let h := 2 ^ (k - 1)
      (if r < h then n else if h < r then n + 1 else if n % 2 = 0 then n else n + 1, r == 0)

/-- The exponent of the unit in the last place for p significant bits. -/
def ulpExp (m : Nat) (e : Int) (p : Nat) : Int := e + (bitLen m : Int) - (p : Int)

/-- Whether the result is tiny: after rounding with an unbounded exponent it lies below the
smallest normal magnitude (R53). -/
def FFmt.tiny (f : FFmt) (m : Nat) (e : Int) : Bool :=
  let q := ulpExp m e (f.fb + 1)
  let n := (roundAt m e q).1
  decide ((bitLen n : Int) + q < f.emin + (f.fb : Int) + 1)

/-- Deliver the exact nonzero magnitude m 2^e of the given sign: one rounding, then the
destination's rule of R51, R53, R60, R62. -/
def FFmt.deliverNum (f : FFmt) (flush neg : Bool) (m : Nat) (e : Int) : Nat × FlagSet :=
  let q := max (ulpExp m e (f.fb + 1)) f.emin
  let r := roundAt m e q
  let code := ((q - f.emin).toNat) * 2 ^ f.fb + r.1
  let inex := flIf (!r.2) flInexact
  match f.kind with
  | .ieee =>
    if f.maxCode < code then (f.pack neg f.infCode, flOverflow ||| flInexact)
    else if f.tiny m e then
      if flush then (f.pack neg 0, flFlushed ||| flUnderflow ||| flInexact)
      else (f.pack neg code, inex ||| flIf (!r.2) flUnderflow)
    else (f.pack neg code, inex)
  | _ =>
    if f.maxCode < code then (f.pack neg f.maxCode, flSat)
    else if code = 0 then
      (if f.kind = .tf8 then 0 else f.pack neg 0, flUnderflow ||| flInexact)
    else (f.pack neg code, inex)

/-- Deliver an exact value in a floating format (R51). The flags of consuming the source's NaN
(R41) are the caller's. -/
def FFmt.deliver (f : FFmt) (flush : Bool) (v : FVal) : Nat × FlagSet :=
  match v with
  | .nan _ => (f.nanCode, flNone)
  | .inf n =>
    match f.kind with
    | .ieee => (f.pack n f.infCode, flNone)
    | .e5m2 => (f.pack n f.infCode, flNone)
    | _ => (f.pack n f.maxCode, flInvalid ||| flSaturated)
  | .num n m e =>
    if m = 0 then (if f.kind = .tf8 then 0 else f.pack n 0, flNone)
    else f.deliverNum flush n m e

/-- The element formats in which a number is encoded: the floating formats, the MXINT8 element,
the narrow integers and Q32. -/
inductive EFmt where
  | fp64 | fp32 | bf16 | fp16 | tf8 | e4m3 | e5m2 | e3m2 | e2m3 | e2m1
  | mxint8 | int8 | uint8 | int4 | int2 | int1 | q32
  deriving DecidableEq, Repr

/-- The floating layout of an element format, when it is a floating one. -/
def EFmt.float : EFmt → Option FFmt
  | .fp64 => some fFP64 | .fp32 => some fFP32 | .bf16 => some fBF16 | .fp16 => some fFP16
  | .tf8 => some fTF8 | .e4m3 => some fE4M3 | .e5m2 => some fE5M2 | .e3m2 => some fE3M2
  | .e2m3 => some fE2M3 | .e2m1 => some fE2M1
  | .mxint8 => none | .int8 => none | .uint8 => none | .int4 => none | .int2 => none
  | .int1 => none | .q32 => none

/-- Width in bits of one element (R40, R42, R45, R48, R49). -/
def EFmt.bits : EFmt → Nat
  | .fp64 => 64 | .fp32 => 32 | .bf16 => 16 | .fp16 => 16 | .tf8 => 8 | .e4m3 => 8 | .e5m2 => 8
  | .e3m2 => 6 | .e2m3 => 6 | .e2m1 => 4 | .mxint8 => 8 | .int8 => 8 | .uint8 => 8
  | .int4 => 4 | .int2 => 2 | .int1 => 1 | .q32 => 32

/-- An integer as an exact value; zero is +0. -/
def ofInt (i : Int) : FVal := .num (decide (i < 0)) i.natAbs 0

/-- The exact value of an element, after the input flush (R51, R61); `x` is the block exponent of
a Q32 source (R49) and the power of two by which a shared or carried scale multiplies any other
source (R44, R58). -/
def EFmt.load (f : EFmt) (flush : Bool) (x : Int) (c : Nat) : FVal × FlagSet :=
  match f with
  | .mxint8 => ((ofInt (sext c 8)).scale (x - 6), flNone)
  | .int8 => ((ofInt (sext c 8)).scale x, flNone)
  | .uint8 => ((ofInt ((c % 256 : Nat) : Int)).scale x, flNone)
  | .int4 => ((ofInt (sext c 4)).scale x, flNone)
  | .int2 => ((ofInt (sext c 2)).scale x, flNone)
  | .int1 => ((ofInt (if c % 2 = 0 then -1 else 1)).scale x, flNone)
  | .q32 => ((ofInt (sext c 32)).scale (x - 31), flNone)
  | f =>
    match f.float with
    | some ff => let r := ff.load flush c; (r.1.scale x, r.2)
    | none => (.nan false, flNone)

/-- The nearest integer, ties to even, of a signed exact value, and whether it is exact (R52). -/
def roundInt (neg : Bool) (m : Nat) (e : Int) : Int × Bool :=
  let r := roundAt m e 0
  (cond neg (-(r.1 : Int)) (r.1 : Int), r.2)

/-- Deliver a value in an integer range (R51, R52): round, saturate. -/
def deliverInt (lo hi : Int) (v : FVal) : Int × FlagSet :=
  match v with
  | .nan _ => (0, flInvalid)
  | .inf n => (cond n lo hi, flInvalid ||| flSaturated)
  | .num n m e =>
    let r := roundInt n m e
    if r.1 < lo then (lo, flSat) else if hi < r.1 then (hi, flSat)
    else (r.1, flIf (!r.2) flInexact)

/-- Deliver a value in an element format (R51): `x` is the block exponent of a Q32 destination, or
the power of two of the scale the element is stored under.  A NaN delivered to an MX element
without NaN codes is 0 here: the block becomes a NaN block (R51, R57). -/
def EFmt.deliver (f : EFmt) (flush : Bool) (x : Int) (v : FVal) : Nat × FlagSet :=
  match f with
  | .mxint8 =>
    match v with
    | .nan _ => (0, flNone)
    | v => let r := deliverInt (-127) 127 (v.scale (6 - x)); (wrapN r.1 8, r.2)
  | .int8 => let r := deliverInt (-128) 127 (v.scale (-x)); (wrapN r.1 8, r.2)
  | .uint8 => let r := deliverInt 0 255 (v.scale (-x)); (wrapN r.1 8, r.2)
  | .int4 => let r := deliverInt (-8) 7 (v.scale (-x)); (wrapN r.1 4, r.2)
  | .int2 => let r := deliverInt (-2) 1 (v.scale (-x)); (wrapN r.1 2, r.2)
  | .int1 =>
    match v.scale (-x) with
    | .nan _ => (1, flInvalid)
    | .inf n => (cond n 0 1, flInvalid)
    | .num n m e => (cond n 0 1, flIf (!(roundAt m e 0 == (1, true))) flInexact)
  | .q32 =>
    let r := deliverInt (-0x80000000) 0x7FFFFFFF (v.scale (31 - x)); (wrapN r.1 32, r.2)
  | f =>
    match f.float with
    | some ff => ff.deliver flush (v.scale (-x))
    | none => (0, flNone)

/-- One conversion (R51): the exact source value, with its scale or exponent, rounded once into
the destination; consuming a signalling NaN sets INVALID (R41). -/
def convert (src : EFmt) (sx : Int) (dst : EFmt) (dx : Int) (flush : Bool) (c : Nat) :
    Nat × FlagSet :=
  let v := src.load flush sx c
  let r := dst.deliver flush dx v.1
  (r.1, v.2 ||| v.1.snanFlag ||| r.2)

/-- Exact comparison of two finite values: whether the first is below the second (zeros equal). -/
def finLt : FVal → FVal → Bool
  | .num n1 m1 e1, .num n2 m2 e2 =>
    let e := min e1 e2
    let a := FVal.sm (.num n1 m1 e1) * ((2 ^ (e1 - e).toNat : Nat) : Int)
    let b := FVal.sm (.num n2 m2 e2) * ((2 ^ (e2 - e).toNat : Nat) : Int)
    decide (a < b)
  | _, _ => false

/-- IEEE less-than on values without NaN (R105). -/
def valLt : FVal → FVal → Bool
  | .nan _, _ => false
  | _, .nan _ => false
  | .inf n1, .inf n2 => n1 && !n2
  | .inf n1, .num _ _ _ => n1
  | .num _ _ _, .inf n2 => !n2
  | a, b => finLt a b

/-- IEEE equality on values without NaN: zeros of both signs are equal. -/
def valEq (a b : FVal) : Bool :=
  !a.isNan && !b.isNan && !(valLt a b) && !(valLt b a)

/-- The exact sum of two finite values; an exact zero sum of operands of opposite sign is +0, of
two -0 is -0 (R64). -/
def finAdd : FVal → FVal → FVal
  | .num n1 m1 e1, .num n2 m2 e2 =>
    let e := min e1 e2
    let s := FVal.sm (.num n1 m1 e1) * ((2 ^ (e1 - e).toNat : Nat) : Int)
      + FVal.sm (.num n2 m2 e2) * ((2 ^ (e2 - e).toNat : Nat) : Int)
    if s = 0 then .num (n1 && n2) 0 0 else .num (decide (s < 0)) s.natAbs e
  | a, _ => a

/-- IEEE addition of two values, before rounding: the exact value, and INVALID for opposite
infinities or a signalling NaN (R41, R64). -/
def valAdd (a b : FVal) : FVal × FlagSet :=
  let sn := a.snanFlag ||| b.snanFlag
  match a, b with
  | .nan _, _ => (.nan false, sn)
  | _, .nan _ => (.nan false, sn)
  | .inf n1, .inf n2 => if n1 = n2 then (.inf n1, flNone) else (.nan false, flInvalid)
  | .inf n1, .num _ _ _ => (.inf n1, flNone)
  | .num _ _ _, .inf n2 => (.inf n2, flNone)
  | a, b => (finAdd a b, flNone)

/-- IEEE multiplication of two values, before rounding (R64). -/
def valMul (a b : FVal) : FVal × FlagSet :=
  let sn := a.snanFlag ||| b.snanFlag
  match a, b with
  | .nan _, _ => (.nan false, sn)
  | _, .nan _ => (.nan false, sn)
  | .inf n1, .inf n2 => (.inf (n1 != n2), flNone)
  | .inf n1, .num n2 m2 _ =>
    if m2 = 0 then (.nan false, flInvalid) else (.inf (n1 != n2), flNone)
  | .num n1 m1 _, .inf n2 =>
    if m1 = 0 then (.nan false, flInvalid) else (.inf (n1 != n2), flNone)
  | .num n1 m1 e1, .num n2 m2 e2 => (.num (n1 != n2) (m1 * m2) (e1 + e2), flNone)

/-- IEEE division, before rounding: enough quotient bits for one rounding to `p` bits, the last
one sticky; DIVZ for a finite nonzero dividend over zero (R119). -/
def valDiv (p : Nat) (a b : FVal) : FVal × FlagSet :=
  let sn := a.snanFlag ||| b.snanFlag
  match a, b with
  | .nan _, _ => (.nan false, sn)
  | _, .nan _ => (.nan false, sn)
  | .inf _, .inf _ => (.nan false, flInvalid)
  | .inf n1, .num n2 _ _ => (.inf (n1 != n2), flNone)
  | .num n1 _ _, .inf n2 => (.num (n1 != n2) 0 0, flNone)
  | .num n1 m1 e1, .num n2 m2 e2 =>
    if m2 = 0 then
      if m1 = 0 then (.nan false, flInvalid) else (.inf (n1 != n2), flDivz)
    else if m1 = 0 then (.num (n1 != n2) 0 0, flNone)
    else
      let k := p + 3 + bitLen m2
      let q := (m1 * 2 ^ k) / m2
      let r := (m1 * 2 ^ k) % m2
      (.num (n1 != n2) (2 * q + b2n (r != 0)) (e1 - e2 - (k : Int) - 1), flNone)

/-- IEEE square root, before rounding: enough bits for one rounding to `p` bits, the last one
sticky. -/
def valSqrt (p : Nat) (a : FVal) : FVal × FlagSet :=
  match a with
  | .nan s => (.nan false, flIf s flInvalid)
  | .inf n => if n then (.nan false, flInvalid) else (.inf false, flNone)
  | .num n m e =>
    if m = 0 then (.num n 0 0, flNone)
    else if n then (.nan false, flInvalid)
    else
      let k := 2 * (p + 2) + (e % 2).toNat
      let x := m * 2 ^ k
      let r := isqrt x
      (.num false (2 * r + b2n (r * r != x)) ((e - (k : Int)) / 2 - 1), flNone)

/-- One rounded operation of a format: the exact result rounded once (R51, R62). -/
def FFmt.finish (f : FFmt) (flush : Bool) (r : FVal × FlagSet) : Nat × FlagSet :=
  let d := f.deliver flush r.1
  (d.1, r.2 ||| d.2)

/-- a + b in a format (R64, R70). -/
def FFmt.add (f : FFmt) (flush : Bool) (a b : Nat) : Nat × FlagSet :=
  let x := f.load flush a
  let y := f.load flush b
  let r := f.finish flush (valAdd x.1 y.1)
  (r.1, x.2 ||| y.2 ||| r.2)

/-- The encoding with its sign changed (a NaN stays the canonical NaN after arithmetic). -/
def FFmt.flipSign (f : FFmt) (a : Nat) : Nat :=
  f.pack (!(f.sign a)) (a % 2 ^ (f.eb + f.fb))

/-- a - b in a format. -/
def FFmt.sub (f : FFmt) (flush : Bool) (a b : Nat) : Nat × FlagSet :=
  f.add flush a (f.flipSign b)

/-- a × b in a format. -/
def FFmt.mul (f : FFmt) (flush : Bool) (a b : Nat) : Nat × FlagSet :=
  let x := f.load flush a
  let y := f.load flush b
  let r := f.finish flush (valMul x.1 y.1)
  (r.1, x.2 ||| y.2 ||| r.2)

/-- a × b + c fused: one rounding; `np` negates the product (FNMA). -/
def FFmt.fma (f : FFmt) (flush np : Bool) (a b c : Nat) : Nat × FlagSet :=
  let x := f.load flush a
  let y := f.load flush b
  let z := f.load flush c
  let p := valMul x.1 y.1
  let p1 := if np then p.1.negate else p.1
  let t := valAdd p1 z.1
  let r := f.finish flush (t.1, p.2 ||| t.2)
  (r.1, x.2 ||| y.2 ||| z.2 ||| r.2)

/-- a / b in a format. -/
def FFmt.div (f : FFmt) (flush : Bool) (a b : Nat) : Nat × FlagSet :=
  let x := f.load flush a
  let y := f.load flush b
  let r := f.finish flush (valDiv (f.fb + 1) x.1 y.1)
  (r.1, x.2 ||| y.2 ||| r.2)

/-- The square root in a format. -/
def FFmt.sqrt (f : FFmt) (flush : Bool) (a : Nat) : Nat × FlagSet :=
  let x := f.load flush a
  let r := f.finish flush (valSqrt (f.fb + 1) x.1)
  (r.1, x.2 ||| r.2)

/-- Total order used by maximum and minimum: -0 below +0 (R67). -/
def minLt (a b : FVal) : Bool :=
  if a.isZero && b.isZero then a.neg && !b.neg else valLt a b

/-- Maximum (`mx`) or minimum of two encodings: R67 for heats in SERVICE, R68 for boot, built-in
test and recovery.  A signalling NaN operand sets INVALID (R41, R68). -/
def FFmt.maxMin (f : FFmt) (service mx : Bool) (a b : Nat) : Nat × FlagSet :=
  let x := f.decode a
  let y := f.decode b
  let fl := x.snanFlag ||| y.snanFlag
  if x.isNan && y.isNan then (f.nanCode, fl)
  else if x.isNan then (if service then f.nanCode else b, fl)
  else if y.isNan then (if service then f.nanCode else a, fl)
  else if mx then (if minLt x y then b else a, fl)
  else (if minLt y x then b else a, fl)

/-- The largest finite magnitude of a destination of CARRIED scaling (R58). -/
def EFmt.largest : EFmt → FVal
  | .tf8 => .num false 480 0
  | .e4m3 => .num false 448 0
  | .e5m2 => .num false 57344 0
  | .e3m2 => .num false 28 0
  | .e2m3 => .num false 15 (-1)
  | .e2m1 => .num false 6 0
  | .mxint8 => .num false 127 (-6)
  | .uint8 => .num false 255 0
  | .int8 => .num false 127 0
  | _ => .num false 127 0

/-- emax of R42, 0 for MXINT8 (R57). -/
def EFmt.emax : EFmt → Int
  | .e4m3 => 8 | .e5m2 => 15 | .e3m2 => 4 | .e2m3 => 2 | .e2m1 => 2
  | .tf8 => 8
  | _ => 0

/-- Whether the element type of an MX format has no NaN code (R51). -/
def EFmt.noNan : EFmt → Bool
  | .e3m2 => true | .e2m3 => true | .e2m1 => true | .mxint8 => true
  | _ => false

/-- The smallest s from `s` upward (at most `n` tries) with M ≤ F 2^(s - h). -/
def carriedGo (m f : FVal) (h : Nat) : Nat → Int → Int
  | 0, s => s
  | n + 1, s => if finLt (f.scale (s - (h : Int))) m then carriedGo m f h n (s + 1) else s

/-- The CARRIED exponent chosen from a running maximum: the smallest s with M ≤ F 2^(s - h),
clamped to -127..127 (R58). -/
def carriedScale (dst : EFmt) (h : Nat) (m : FVal) : Int := carriedGo m dst.largest h 254 (-127)

/-- floor(log2) of a positive finite magnitude. -/
def floorLog2 (m : Nat) (e : Int) : Int := (bitLen m : Int) - 1 + e

/-- The larger of two finite magnitudes. -/
def magMax (a b : FVal) : FVal :=
  match a, b with
  | .num _ m1 e1, .num _ m2 e2 =>
    if finLt (.num false m1 e1) (.num false m2 e2) then .num false m2 e2 else .num false m1 e1
  | a, _ => a

/-- The largest finite magnitude of a list of values; NaNs and infinities do not enter (R57). -/
def blockMax (l : List FVal) : FVal :=
  l.foldl (fun a v => if v.isFinite then magMax a v else a) (.num false 0 0)

/-- The shared exponent of a BLOCK-mode conversion: floor(log2 M) - emax clamped; 0 when M = 0
(R57 step 2). -/
def blockExp (dst : EFmt) (m : FVal) : Int :=
  match m with
  | .num _ mm e => if mm = 0 then 0 else clampI (-127) 127 (floorLog2 mm e - dst.emax)
  | _ => 0

/-- Union of a list of flag sets. -/
def flUnion (l : List FlagSet) : FlagSet := l.foldl (· ||| ·) flNone

/-- Convert one block's values under exponent `x`: the scale code, the element codes and the
flags; a NaN source of an element type without NaN makes a NaN block that raises only INVALID for
a signalling NaN (R51, R57 step 4). -/
def convBlock (dst : EFmt) (flush : Bool) (x : Int) (l : List FVal) :
    Nat × List Nat × FlagSet :=
  let sn := flUnion (l.map FVal.snanFlag)
  if dst.noNan && l.any FVal.isNan then (0xFF, l.map (fun _ => 0), sn)
  else
    let r := l.map (fun v => dst.deliver flush x v)
    ((x + 127).toNat, r.map Prod.fst, sn ||| flUnion (r.map Prod.snd))

end Sys2Proof.Machine
end

