-- ==== Sys2Proof/Machine/State.lean ====
section
/-!
DEFINITION. The state of the TK9640: plain data holding every register, store, queue, buffer, mode
and pin the manual gives the device, beside the queue of commands that wait.  Control-space
registers are one sparse table of words keyed by control address (an unlisted address reads as its
Reset column, RegMap); data space is one canonical list of bytes.
-/

namespace Sys2Proof.Machine

/-- Why a step can stop with a fault.  No meaning of this model raises one: every effect the manual
gives is taken as a next state. -/
inductive Fault where
  /-- Raised by no command; kept so that the type is inhabited.  Safe: a stop proves nothing. -/
  | unreachable
  deriving DecidableEq, Repr

/-- Why a command has no meaning here. -/
inductive Refusal where
  /-- Raised by exec's arms for a command not modelled; safe: the model stops. -/
  | notModelled (mnemonic : String)
  /-- Raised by PWRGOOD_RISE when the TEST_EN ball is high: the manufacturing test modes are not
  described and no function of the manual is available (R494).  Safe: the model stops. -/
  | manufacturingTest
  deriving DecidableEq, Repr

/-! ## Tiles -/

/-- Sleep state of a tile (R18, R27). -/
inductive TilePower where
  | off | hold | nap | idle | run
  deriving DecidableEq, Repr

/-- What the tile sequencer does (TILE_t_SEQ_STAT.STATE, R212). -/
inductive SeqState where
  | idle | running | saving | restoring
  deriving DecidableEq, Repr

/-- One register write of a Scalar Lane instruction (R100). -/
inductive RegWrite where
  | g (r : Nat) (v : DWord)
  | f (r : Nat) (v : QWord)
  deriving DecidableEq, Repr

/-- What a Scalar Lane instruction delivers: its register writes and the flags each lane raises
(R116; one lane for every instruction that is not quad). -/
structure LaneOut where
  writes : List RegWrite := []
  raised : List FlagSet := []
  deriving DecidableEq, Repr

/-- A V-pipe instruction in flight (R108-R110): its result, the cycles it takes and its address. -/
structure VRun where
  out : LaneOut
  cycles : Nat
  pc : Nat
  deriving DecidableEq, Repr

/-- A stage command's operands (R196). -/
inductive StageOp where
  | solve (tmpl count xlist : Nat)
  | mac (o : MacOps)
  | conv (o : ConvOps)
  | xtload (table : Nat) (bf : Bool) (src : Nat)
  | copy (src dst len : Nat)
  | bpost (baton arg : Nat)
  deriving DecidableEq, Repr

/-- A stage command queued or in service: its place in program order, its WAIT mask and IDs
(R195), the heat that issued it and the modes in force at its issue (R63, R69). -/
structure QCmd where
  seq : Nat
  wait : Nat
  layer : Nat
  oper : Nat
  heat : Nat
  flush : Bool
  op : StageOp
  deriving DecidableEq, Repr

/-- A Tensor command in service: everything its commit writes (R94, R97-R99). -/
structure TensorRun where
  cmd : QCmd
  /-- output bytes: share-relative address and value -/
  bytes : List (Nat × Byte) := []
  flags : FlagSet := 0
  /-- counts of bins 0..63, ZERO, NAN; `none` for XTLOAD, which writes no tensor -/
  hist : Option (List Nat) := none
  hrec : Nat := 0
  slot : Nat := 0
  /-- the live accumulator of the slot after this command (R98) -/
  live : Option Word := none
  /-- expansion table words written by XTLOAD (R79) -/
  xtab : Option (Nat × Bool × List Nat) := none
  deriving DecidableEq, Repr

/-- A COPY in service (R206): bytes still to move; a remote copy waits for its replies. -/
structure CopyRun where
  cmd : QCmd
  src : Nat
  dst : Nat
  left : Nat
  remote : Bool
  /-- requests not yet answered (R384) -/
  outst : Nat
  /-- the first fault cause of a reply, 0 none (R392) -/
  err : Nat
  /-- waits for its partition's pacer (R303) -/
  held : Bool
  deriving DecidableEq, Repr

/-- What holds issue of later entries (R198, R199). -/
inductive Hold where
  | none
  | fence (seq mask : Nat)
  | bwait (baton arg : Nat)
  deriving DecidableEq, Repr

/-- A loop's entry in the Assemble snapshot of R23. -/
structure LoopSnap where
  y : Word
  splitSec : Nat
  splitNs : Nat
  stale : Bool
  deriving DecidableEq, Repr

/-- The SOLVE of a heat (R202). -/
structure SolveRun where
  tmpl : Nat
  count : Nat
  xlist : Nat
  layer : Nat
  oper : Nat
  seq : Nat
  /-- subnormals flush: the mode in force at its issue (R63) -/
  flush : Bool
  /-- the heat before it that ran the same template, 0 for none (R128 PREV) -/
  prevHeat : Nat := 0
  /-- next problem number to enter Assemble -/
  next : Nat
  /-- problems committed -/
  done : Nat
  /-- problems that have left each of the six stages -/
  left : List Nat
  /-- status-area bank of the heat (R182) -/
  bank : Nat
  /-- problems that have left Solve, and the OR of their PFLAG words on this tile (R151) -/
  solvDone : Nat := 0
  solvOr : Nat := 0
  deriving DecidableEq, Repr

/-- A heat on a tile (R201, R23). -/
structure Heat where
  ctx : Nat
  num : Nat
  lc : Bool
  entry : Nat
  /-- whether the heat has a deadline (DUR ≠ 0 and LC, R282) -/
  dead : Bool
  /-- STAMP of the heat's start; one of a BE heat is taken when its first entry issues (R168) -/
  stamp : Nat
  stampDue : Bool := false
  tiles : List Nat
  rank : Nat
  snap : Tab LoopSnap
  host : List Host.Cell
  /-- poisoned words of the copied block (R335) -/
  hostBad : List Nat
  hended : Bool
  layer : Nat
  oper : Nat
  solve : Option SolveRun
  worst : Nat
  nfb : Nat
  cutFac : Bool
  cutOut : Bool
  late : Bool
  /-- a cut point fell while the context was saved (R175) -/
  pendFac : Bool
  pendOut : Bool
  /-- Tensor flags of the heat on this tile (R94) -/
  tflags : FlagSet
  /-- commits: problem number and cycle (R178) -/
  commits : List (Nat × Nat)
  aborted : Bool
  /-- its heat record is written (R184) -/
  recd : Bool := false
  deriving DecidableEq, Repr

/-- The stages a problem passes (R120). -/
inductive StageName where
  | assemble | tensor | factor | solve | iterate | emit
  deriving DecidableEq, Repr

/-- A problem in one of the four slots of a tile (R120, R121). -/
structure Slot where
  heat : Nat
  prob : Nat
  tmpl : Nat
  stage : StageName
  /-- finished its previous stage and waits to enter `stage` -/
  waiting : Bool
  pflag : Nat
  entered : Nat
  /-- working copies and stage outputs, role code to element words -/
  arrs : Tab (Tab Word)
  /-- factor bank held: store address and bank (R145) -/
  bank : Option (Nat × Nat)
  /-- the problem is to factor, and has committed a factor of its own (R144) -/
  due : Bool
  own : Bool
  /-- heat number of the bank's commit -/
  bankHeat : Nat
  /-- STALE_FAC set at C_fac (R172) -/
  staleFac : Bool
  iter : Nat
  /-- the iterate of iteration k - 1: XI, Z, MU, V (R158) -/
  prev : Tab (Tab Word)
  resP : Word
  resD : Word
  resOk : Bool
  chk : Nat
  cert : Nat
  certPrimal : Bool
  warm : Nat
  drop : Nat
  /-- 0, or the code the problem is marked with: 3, 6 or 7 (R172, R173) -/
  mark : Nat
  deriving DecidableEq, Repr

/-- One bank of a factor store (R143). -/
structure FBank where
  l : Tab Word := []
  d : Tab Word := []
  rd : Tab Word := []
  deriving DecidableEq, Repr

/-- The factor store of a template (R143, R144). -/
structure FStore where
  ctx : Nat := 0
  tmpl : Nat := 0
  bank0 : FBank := {}
  bank1 : FBank := {}
  committed : Option Nat := none
  tag : Nat := 0
  heat : Nat := 0
  /-- HOST words the committed factorization used, by parameter (R144 RESIDENT) -/
  refw : Tab Word := []
  deriving DecidableEq, Repr

/-- Whom a record of a tile concerns: heat, LAYER and OPERATOR (R200, R459). -/
abbrev CmdIds := Nat × Nat × Nat

/-- A command of a counted unit (R453, R458, R461): its IDs, whether it is still in progress, its cycles, and its
stall cycles by reason. -/
structure UnitCmd where
  ctx : Nat := 0
  heat : Nat := 0
  layer : Nat := 0
  oper : Nat := 0
  /-- its sequence number; the heat number of the sequencer's, 0 of a Scalar Lane run -/
  seq : Nat := 0
  active : Bool := false
  busy : Nat := 0
  stall : Nat := 0
  why : Tab Nat := []
  deriving DecidableEq, Repr

/-- The context state a tile holds, and a save moves (R187, R205, R210, R211). -/
structure TCtx where
  g : Tab DWord := []
  f : Tab QWord := []
  sflag : FlagSet := 0
  strapEn : FlagSet := 0
  inTrap : Bool := false
  subn : Bool := false
  strapPc : Word := 0
  strapCause : Word := 0
  strapVec : Word := 0
  pc : Nat := 0
  /-- TILE_t_TFLAG and TILE_t_TFLAG_PREV (R94) and the heats they stand for -/
  tflag : Word := 0
  tflagPrev : Word := 0
  tfHeat : Option Nat := none
  tfPrev : Option Nat := none
  histGen : Word := 0
  histTag : Word := 0
  /-- HIST_0..63, ZERO (64), NAN (65) -/
  hist : Tab Word := []
  rmax : Tab Word := []
  live : Tab Word := []
  /-- slots already handed over by a heat: slot to heat number (R99) -/
  rmHeat : Tab Nat := []
  /-- the first heat that converted into a tensor, by descriptor (R58) -/
  convHeat : Tab Nat := []
  xtabFmt : Word := 0
  xtab : Tab Word := []
  heats : List Heat := []
  slots : Tab (Option Slot) := []
  qa : List QCmd := []
  qt : List QCmd := []
  qc : List QCmd := []
  qb : List QCmd := []
  nextSeq : Nat := 0
  /-- commands with unfinished work: sequence number and WAIT bit (R199) -/
  work : List (Nat × Nat) := []
  tensor : Option TensorRun := none
  /-- what has reached the Tensor stage and not started: a problem (false, heat, number) or the command
  at the head of queue T (true, its sequence number, 0) (R203) -/
  torder : List (Bool × Nat × Nat) := []
  copy : Option CopyRun := none
  hold : Hold := .none
  vpipe : Option VRun := none
  /-- stopped by a gang partner's trap, and the cycle of that trap (R118) -/
  stopped : Bool := false
  stopAt : Option Nat := none
  /-- commands that were in progress on its units when it was saved (R458, R459) -/
  cmds : Tab (List UnitCmd) := []
  /-- the command in progress on the tile when its last pre-emption was requested (R459) -/
  preIds : Option CmdIds := none
  deriving DecidableEq, Repr

/-- One tile. -/
structure Tile where
  power : TilePower := .off
  ctx : Option Nat := none
  seq : SeqState := .idle
  /-- pre-emption request: the cycle it reached the tile (R205) -/
  preq : Option Nat := none
  /-- units stopped so far: WAIT bit, the cycle of the stop, and whether the unit ran a span without
  pre-emption points (R207) -/
  stops : List (Nat × Nat × Bool) := []
  /-- units that were in such a span when the request arrived -/
  spans : List Nat := []
  preLat : Word := 0
  /-- a pre-emption request is on its way: the requesting entry, 65536 for none (R205) -/
  preDue : Option Nat := none
  /-- nanoseconds field of the Split Timer at the start of the save (R210) -/
  saveNs : Nat := 0
  /-- the context being restored (R205) -/
  incoming : Option Nat := none
  /-- the loan on the tile is being reclaimed or copied back (R300, R302) -/
  reclaim : Bool := false
  copyBack : Bool := false
  tc : TCtx := {}
  lastCode : Nat := 0
  warmDrop : Nat := 0
  dlnMissed : Nat := 0
  dlnCut : Nat := 0
  fbAborted : Nat := 0
  fbFallback : Nat := 0
  /-- the context and heat that TILE_t_SOLV_OR describes (R151) -/
  solvCtx : Nat := 64
  solvHeat : Nat := 0
  solvDone : Nat := 0
  solvOr : Nat := 0
  /-- the last heat the tile served, and its context and template (R122, R151, R212) -/
  lastHeat : Nat := 0
  served : Option (Nat × Nat) := none
  inReset : Bool := false
  deriving DecidableEq, Repr

/-- What a template carries from heat to heat: heats that have written its status area (R182), the last two
of them, and whose output vectors exist: heat and problem (R128 PREV). -/
structure TmplSt where
  heats : Nat := 0
  last : Nat := 0
  prior : Nat := 0
  outs : List (Nat × Nat) := []
  deriving DecidableEq, Repr

/-- A set-point write that has left Emit (R24, R171): loop, value, issuing context. -/
structure EmitWrite where
  loop : Nat
  value : Word
  ctx : Nat
  deriving DecidableEq, Repr

/-- Device phase (R34 dimension A, R401, R428): `off` without power-good, `reset` while a device
reset waits for RST_N, `failed` after a boot failure. -/
inductive Phase where
  | off | reset | boot | bist | service | failed
  deriving DecidableEq, Repr

/-- A fault reported by a context and not yet torn down (R312). -/
structure CtxFault where
  ctx : Nat
  cause : Nat
  tile : Nat
  /-- CLASS of the unit that reported it (R437) -/
  cls : Nat
  /-- the cycle that reported it (R319) -/
  cycle : Nat
  deriving DecidableEq, Repr

/-- An outstanding scratchpad loan (R299): borrower, tile, scratchpad offset and length, lending
partition, and the 4 KiB lines the borrower has written (R300). -/
structure Loan where
  ctx : Nat
  tile : Nat
  base : Nat
  len : Nat
  part : Nat
  dirty : List Nat
  deriving DecidableEq, Repr

/-! ## Relay Links -/

/-- What a TIME packet, its echo or an ALIGN packet carries. -/
inductive CtlMsg where
  /-- send time and residence in units of 2^-32 ns, device 0's time state, STEPS and FAB_BASE (R394) -/
  | time (sent residence state steps : Nat) (fabBase : Int)
  /-- the send time the TIME packet carried, its receipt, and the turnaround (R394) -/
  | echo (sent rx turn : Nat)
  /-- next boundary time, LEN, PHASE, index, armed switch index, HOLD order (R396, R32) -/
  | align (bound len phase idx : Nat) (switch hold : Option Nat)
  /-- a LINK packet: NAK or acknowledgement of a link sequence number, and credits returned by channel (R385, R386) -/
  | link (nak : Bool) (seq : Nat) (credits : List Nat)
  deriving DecidableEq, Repr

/-- A packet (R384). -/
structure Pkt where
  ty : Nat
  src : Nat
  dst : Nat
  vc : Nat
  part : Nat
  bib : Nat
  ctx : Nat
  ttl : Nat
  tag : Nat
  addr : Nat
  /-- bytes of the access; SIZE.LEN is this in 64-byte units -/
  len : Nat := 0
  data : List Byte := []
  /-- RD_RSP marked poisoned (R392) -/
  poison : Bool := false
  /-- contents of a TIME packet, its echo or an ALIGN packet -/
  ctl : Option CtlMsg := none
  /-- a packet on its way through: the link in whose receive buffer it stands until it is sent on (R385, R388) -/
  held : Option Nat := none
  deriving DecidableEq, Repr

/-- What a reply to a request of this device completes. -/
inductive ReqKind where
  /-- a COPY's read: data-space destination -/
  | copyRd (dst : Nat)
  | copyWr
  /-- a prefetch descriptor's read, and a write, of the list with a number -/
  | pfRd (job dst : Nat)
  | pfWr (job : Nat)
  /-- a wait on a proxy baton -/
  | bwait
  deriving DecidableEq, Repr

/-- A request of this device awaiting its reply (R384, R443). -/
structure Outst where
  tag : Nat
  link : Nat
  ctx : Nat
  tile : Nat
  bib : Nat
  kind : ReqKind
  deriving DecidableEq, Repr

/-- Dynamic state of a Relay Link beside its registers (R385, R386). -/
structure Link where
  /-- credits held per virtual channel, 16-byte units -/
  credits : List Nat := []
  /-- packets waiting to be sent -/
  wait : List Pkt := []
  /-- packets sent and not acknowledged, with their link sequence numbers -/
  replay : List (Nat × Pkt) := []
  nextSeq : Nat := 0
  /-- failed replays in a row of the oldest packet (R383) -/
  replays : Nat := 0
  /-- send timestamp of the TIME packet whose echo is awaited, units of 2^-32 ns (R394) -/
  timeSent : Option Nat := none
  /-- good packets received since the link became ACTIVE -/
  rxSeq : Nat := 0
  /-- credits of received LINK packets not yet returned, by channel -/
  owed : List Nat := []
  /-- cycle since which packets of a channel have waited without a credit returned (R432) -/
  dry : Tab Nat := []
  /-- the first cycle after the packets sent so far have left (R379, R453) -/
  busyTo : Nat := 0
  deriving DecidableEq, Repr

/-- What the device has sent to the outside. -/
inductive OutMsg where
  /-- an Ethernet frame of NET_k, header to payload -/
  | frame (port : Nat) (bytes : List Byte)
  /-- a packet on a link: its link sequence number, and its bytes, header to CRC (R384, R386) -/
  | packet (link seq : Nat) (p : Pkt) (bytes : List Byte)
  /-- a Sample Port frame: the bits of lane A and of lane B from MARK to CRC, in the order sent (R252) -/
  | sample (port : Nat) (a b : List Bool)
  /-- what a scan of the TAP's data register shifts out (R496, R497) -/
  | tdo (w : Nat)
  /-- what a scan of the TAP's instruction register shifts out (R496) -/
  | ir (w : Nat)
  /-- an xSPI command: chip select, clock in MHz, 8D-8D-8D or 1S-1S-1S, dummy cycles, and its bytes (R406, R407) -/
  | flash (device mhz : Nat) (octal : Bool) (dummy : Nat) (bytes : List Byte)
  /-- a gPTP message of NET_k: kind (0 Sync, 1 Follow_Up, 2 Pdelay_Req, 3 Pdelay_Resp,
  4 Pdelay_Resp_Follow_Up, 5 Announce), sequenceId, correctionField in units of 2^-16 ns, its
  timestamp in units of 2^-32 ns, and further fields (R367) -/
  | ptp (port kind seq : Nat) (corr : Int) (stamp : Nat) (data : List Nat)
  deriving DecidableEq, Repr

/-! ## Batons -/

/-- Where a pending wait comes from (R308, R309). -/
inductive WaitSrc where
  | tile (t : Nat)
  /-- a remote wait: arrival link, source device, context, bib, tag and channel -/
  | remote (link src ctx bib tag vc : Nat)
  deriving DecidableEq, Repr

/-- A pending wait on a local baton. -/
structure BWait where
  baton : Nat
  arg : Nat
  src : WaitSrc
  ctx : Nat
  part : Nat
  deriving DecidableEq, Repr

/-! ## Dispatcher -/

/-- States of a Schedule Table entry (R288); an entry that is done or skipped leaves the list. -/
inductive EntryState where
  | pending | waking | ready | running
  deriving DecidableEq, Repr

/-- An entry in the lookahead or in service (R280, R287, R288). -/
structure LookEntry where
  idx : Nat
  ctx : Nat
  evt : Bool
  release : Bool
  pfl : Nat
  lead : Nat
  g : Nat
  firstFree : Bool
  cluster : Nat
  tmask : Nat
  dur : Nat
  pc : Nat
  /-- boundary time T of its major cycle and slot time S, nanoseconds of the Split Timer (R282) -/
  base : Nat
  slot : Nat
  state : EntryState
  tiles : List Nat
  /-- the cycle in which S acted while the entry was WAKING -/
  pastS : Option Nat
  heat : Nat
  /-- order of the wakes (R289) -/
  wake : Nat
  /-- place of the entry in the order of reading (R287) -/
  place : Nat := 0
  deriving DecidableEq, Repr

/-- A BE heat (R295-R299). -/
structure BeRun where
  ctx : Nat
  g : Nat
  /-- cycles of its slice, 0 when that is empty (R297, R298) -/
  len : Nat
  /-- loan asked for and loan held, bytes -/
  want : Nat
  loan : Nat
  pc : Nat
  /-- its heat number, 0 until it begins -/
  heat : Nat
  tiles : List Nat
  /-- cycles since it began or resumed -/
  ran : Nat
  saved : Bool
  /-- its loan was reclaimed and must be granted again (R302) -/
  needLoan : Bool
  /-- lines of its loans that reclaims have written back: 32 × line + tile -/
  lines : List Nat
  /-- tiles whose loan has been reclaimed since the heat last ran (R302) -/
  back : List Nat := []
  deriving DecidableEq, Repr

/-- A prefetch list being issued (R291). -/
structure PfJob where
  ctx : Nat
  entry : Nat
  addr : Nat
  count : Nat
  post : Bool
  baton : Nat
  tiles : List Nat
  /-- descriptor in service -/
  pos : Nat
  /-- the current descriptor's state: remote source bytes left, destination, replies awaited -/
  started : Bool
  remote : Bool
  src : Nat
  dst : Nat
  left : Nat
  outst : Nat
  /-- number of the list, in the order of their start -/
  id : Nat := 0
  deriving DecidableEq, Repr

/-- A request held by a pacer (R303). -/
inductive Held where
  /-- a COPY of context `ctx` on tile `t`, LPDDR5 bytes -/
  | copy (part t ctx size : Nat)
  /-- a packet for a link -/
  | packet (part link : Nat) (p : Pkt)
  /-- the host data access in execution on a port, LPDDR5 bytes (R354) -/
  | host (part port size : Nat)
  deriving DecidableEq, Repr

/-- A teardown in progress (R313, R314). -/
structure Teardown where
  ctx : Nat
  hurdle : Bool
  oldBib : Nat
  deriving DecidableEq, Repr

/-- Accounting counters of a context (R317, R318). -/
structure Acct where
  heats : Nat := 0
  probs : Nat := 0
  late : Nat := 0
  skip : Nat := 0
  missed : Nat := 0
  faults : Nat := 0
  runCyc : Nat := 0
  wakes : Nat := 0
  ovrCyc : Nat := 0
  memB : Nat := 0
  rlyB : Nat := 0
  energy : Nat := 0
  tenCyc : Nat := 0
  deriving DecidableEq, Repr

/-- Dynamic state of the Dispatcher beside its registers. -/
structure Dsp where
  /-- lookahead and entries in service, in table order -/
  look : List LookEntry := []
  /-- next offset of the range to read, its boundary time, and whether it lies in the next range -/
  rdPos : Nat := 0
  rdTime : Nat := 0
  rdNext : Bool := false
  /-- START of the previous valid entry of the range being read (R284) -/
  rdPrev : Option Nat := none
  /-- the range being read, when another has become current beneath the reader: base, count, length -/
  rdFrom : Option (Nat × Nat × Nat) := none
  /-- entries read so far (R287) -/
  rdPlace : Nat := 0
  /-- wakes so far (R289) -/
  wakes : Nat := 0
  /-- boundary time of the major cycle in progress, once boundaries run -/
  bound : Option Nat := none
  /-- time of the next boundary, when boundaries are due (R281) -/
  nextBound : Option Nat := none
  /-- entry boundary of device HOLD and whether it has been passed (R30); on a member the cycle
  index that the master's order names (R32) -/
  holdAt : Option Nat := none
  holdIdx : Option Nat := none
  holdOn : Bool := false
  /-- the earliest boundary time of an armed switch, or its cycle index on a member -/
  armTime : Option Nat := none
  switchIdx : Option Nat := none
  /-- alignment received and not yet adopted (R396): boundary time, LEN, PHASE, index, earliest time -/
  align : Option (Nat × Nat × Nat × Nat × Nat) := none
  /-- triggers posted and not yet acted on, and triggers held, by entry (R292) -/
  trig : List Nat := []
  heldTrig : List Nat := []
  /-- queued records of BE contexts -/
  beq : Tab (List Word) := []
  /-- BE context served last (R295) -/
  lastBE : Nat := 63
  /-- BE heats, oldest save first among the saved -/
  be : List BeRun := []
  pf : List PfJob := []
  /-- prefetch lists started so far -/
  pfSeq : Nat := 0
  held : List Held := []
  teardowns : List Teardown := []
  acct : Tab Acct := []
  /-- tokens of the pacers in 1/256 bytes: 2p memory, 2p + 1 links -/
  tok : Tab Int := []
  /-- bank of the next snapshot, and boundaries since SERVICE entry (R318) -/
  bank : Nat := 0
  bounds : Nat := 0
  /-- problems committed by the heats that have ended: key 2^32 × context + heat (R179) -/
  ended : Tab Nat := []
  /-- contexts that become READY and partitions that enter SERVICE at the next boundary -/
  readyNext : List Nat := []
  serviceNext : List Nat := []
  deriving DecidableEq, Repr

/-! ## Lap Engine, Sample Ports, PWM -/

/-- State of a generator beside its registers (R239-R241). -/
structure GenSt where
  theta : Nat := 0
  f : Nat := 0
  prbs : Nat := 0
  bit : Bool := false
  /-- laps since its start -/
  lap : Nat := 0
  enAt : Option Nat := none
  enPrev : Bool := false
  deriving DecidableEq, Repr

/-- An update of a loop between its boundary and its commit (R217): what it writes in the commit
cycle. -/
structure LapRun where
  /-- the compensator ran: the history shifts (R218, R234) -/
  auto : Bool
  e0 : Word
  u : Word
  /-- output to apply at the next boundary (R232, R233) -/
  out : Word
  /-- FLAGS bits the update raises -/
  flags : Nat
  /-- a generator contributed, and its value -/
  inj : Bool
  g : Word
  /-- that generator with its STAT before the update, for an update that is taken back (R216) -/
  genWas : Option (Nat × GenSt × Word)
  /-- probes of the loop, with whether each records this lap and whether the generator's start triggers
  it (R242, R243) -/
  probes : List (Nat × Bool × Bool)
  deriving DecidableEq, Repr

/-- State of a loop beside its registers.  A cycle and a previous value stand beside each value that
an event of the same cycle must not yet see (R23, R228, R244). -/
structure LoopSt where
  /-- seconds field of the latched sample's split -/
  ySec : Nat := 0
  /-- ESEQ of the sample last latched; `none` when nothing has been latched (R224) -/
  eseq : Option Nat := none
  yAt : Option Nat := none
  yPrev : LoopSnap := ⟨0, 0, 0, false⟩
  reqAt : Option Nat := none
  reqPrev : Nat := 0
  tgtAt : Option Nat := none
  tgtPrev : Word := 0
  appAt : Option Nat := none
  appPrev : Word := 0
  manAt : Option Nat := none
  emitAt : Option Nat := none
  hostAt : Option Nat := none
  /-- the target in force at the last boundary (R229) -/
  force : Word := 0
  /-- the output computed and not yet applied -/
  out : Option Word := none
  flight : Option LapRun := none
  /-- the u history of a preset whose first update has not committed; its e history is 0 (R217, R220) -/
  pset : Option Word := none
  /-- FLAGS bits raised since the last lap's end (R242) -/
  raised : Nat := 0
  /-- the cycle in which FLAGS bits were last set, and those of that cycle (R244) -/
  flagAt : Option Nat := none
  flagNow : Nat := 0
  deriving DecidableEq, Repr

/-- State of a probe beside its registers (R242, R243). -/
structure ProbeSt where
  /-- boundaries since the one at which it was armed -/
  count : Nat := 0
  /-- entries still to record after the trigger -/
  left : Option Nat := none
  /-- a trigger waits for the next recorded entry -/
  trig : Bool := false
  armAt : Option Nat := none
  deriving DecidableEq, Repr

/-- An accepted Sample Port frame (R254-R256). -/
structure SptFrame where
  cycle : Nat
  eseq : Nat
  /-- split in units of 2^-32 ns -/
  split : Nat
  samples : List Word
  deriving DecidableEq, Repr

/-- State of a Sample Port beside its registers (R255-R261). -/
structure SptSt where
  eseq : Nat := 0
  /-- split of the frame in progress (R256) -/
  mark : Option Nat := none
  /-- accepted frames, newest first, as far back as a boundary of this cycle can see -/
  frames : List SptFrame := []
  /-- cycle of the last change of LOST, and the report before it (R258) -/
  lostAt : Option Nat := none
  lostPrev : Bool := true
  /-- SEQ of the next frame to send -/
  txNext : Nat := 0
  deriving DecidableEq, Repr

/-- What a PWM ball carries (R269). -/
inductive PwmBall where
  | resetSafe | safe | driven
  deriving DecidableEq, Repr

/-- A PWM channel beside its registers: the ball, the logical edges of the current carrier period in
100 ps units from its start (R265), and the logical level before it with the time of its last change
(R267); `t8` is 0 while the channel carries no signal. -/
structure PwmSt where
  ball : PwmBall := .resetSafe
  start : Nat := 0
  t8 : Nat := 0
  rise : Nat := 0
  fall : Nat := 0
  level : Bool := false
  since : Nat := 0
  /-- the cycle in which an asserted trip takes effect (R269) -/
  trip : Option Nat := none
  deriving DecidableEq, Repr

/-- The Lap Engine beside its registers. -/
structure Lap where
  /-- cycle of lap-base zero: entry to SERVICE (R214) -/
  zero : Option Nat := none
  loops : Tab LoopSt := []
  /-- the cycle in which each update pipeline last took an update, and its loop (R216) -/
  issued : Tab (Nat × Nat) := []
  gens : Tab GenSt := []
  probes : Tab ProbeSt := []
  spts : Tab SptSt := []
  pwms : Tab PwmSt := []
  /-- the cycle in which each trip latch was last cleared (R271) -/
  tripClear : Tab Nat := []
  deriving DecidableEq, Repr

/-! ## Observation -/

/-- A telemetry subscription (R359, R463). -/
structure Sub where
  port : Fin 2
  stream : Nat
  peer : Peer
  session : Nat
  seq : Nat
  recs : List (List Byte)
  /-- a full or flushed frame waits for the port bucket -/
  due : Bool
  dropped : Nat
  deriving DecidableEq, Repr

/-- A match of a dump point (R469): the unit and step it holds, and what it describes. -/
structure DumpReq where
  point : Nat
  tile : Nat
  ctx : Nat
  /-- unit in WAIT-bit order -/
  unit : Nat
  /-- WHEN of the match: 0 before a command, 1 after it, 2 to 7 a problem step -/
  step : Nat
  /-- sequence number of the command; problem number -/
  seq : Nat
  prob : Nat
  layer : Nat
  oper : Nat
  heat : Nat
  /-- FABCNT at the match -/
  stamp : Nat
  /-- from MSH_DUMP_NOW: nothing is held -/
  immediate : Bool
  /-- the staged record, once copying has begun -/
  record : Option (List Byte)
  deriving DecidableEq, Repr

/-- State of observation beside its registers. -/
structure Obs where
  subs : List Sub := []
  /-- records waiting for the memory bucket: stream and bytes (R464) -/
  buf : List (Fin 4 × List Byte) := []
  memTok : Int := 0
  portTok : List Nat := [0, 0]
  dumps : List DumpReq := []
  /-- command and problem steps whose dump points have been served: tile, command, step, problem -/
  gated : List (Nat × Nat × Nat × Nat) := []
  dumpSeq : Nat := 0
  drops : Nat := 0
  /-- matches counted by dump point since EN (R468) -/
  matched : Tab Nat := []
  /-- channels whose per-bank refresh falls in this cycle (R326, R455) -/
  refresh : List Nat := []
  /-- latches of split reads: key 4 × address + path (R364, R457, R458) -/
  latch : Tab Word := []
  /-- 64-bit cycle counters: counter block base plus offset (R456) -/
  cnt : Tab Nat := []
  /-- channels with data of a single line on their bus in this cycle (R454) -/
  bus : List Nat := []
  /-- the commands in progress on a tile's unit, newest first, or its last one: key 16 × tile + unit (R458) -/
  cmds : Tab (List UnitCmd) := []
  deriving DecidableEq, Repr

/-! ## Time -/

/-- Time beside the Split Timer registers. -/
structure Time where
  /-- the Split Timer in units of 2^-32 ns (R362) -/
  split : Nat := 0
  running : Bool := false
  /-- FCLK cycles since the last tick (R256) -/
  sub : Nat := 0
  /-- INC that the next tick uses (R363), units of 2^-32 ns -/
  inc : Nat := 0x400000000
  /-- INC that a servo output has asked for, and the cycle of its application (R363, R376) -/
  incNext : Nat := 0x400000000
  incAt : Nat := 0
  /-- latest qualified offset not yet used by the servo: offset in units of 2^-32 ns, its t2 and the
  cycle in which it was computed (R375) -/
  servo : Option (Int × Nat × Nat) := none
  /-- LOCKED has ended and no offset has qualified since (R375) -/
  servoStale : Bool := false
  /-- qualified offsets in a row within SPL_JUMP_LIMIT (R372) -/
  run : Nat := 0
  /-- grandmaster identity of the last qualified offset (R371) -/
  gmSeen : Option Nat := none
  /-- FAB_BASE in units of 2^-32 ns (R397) -/
  fabBase : Int := 0
  deriving DecidableEq, Repr

/-! ## Health -/

/-- A partition reset from its order to the end of its reload (R440, R441). -/
structure PartReset where
  part : Nat
  /-- ordered by REINIT or HOLD exit: reloaded whatever RESTART holds -/
  force : Bool
  /-- after a reload error: the partition goes down -/
  dead : Bool
  /-- contexts that were FAULTED when the reset was ordered -/
  faulted : List Nat
  deriving DecidableEq, Repr

/-- Marshal beside its registers (R435-R449). -/
structure Health where
  /-- waiting nodes of the last two snapshots -/
  last : List GSnap := []
  before : List GSnap := []
  /-- resets delayed under RHOLD: verdict DOMAIN and INDEX, and the nodes of the declared closed sets
  that the reset breaks (R445) -/
  delayed : List ((Nat × Nat) × List GNode) := []
  /-- tile (1) and cluster (2) resets in progress -/
  units : List (Nat × Nat) := []
  parts : List PartReset := []
  /-- partitions that a failed reload has taken down (R441) -/
  dead : List Nat := []
  /-- DEVRESETs (true) and power cycles ordered and not yet begun, with their port, or 2 for Marshal (R448, R449) -/
  ordered : List (Bool × Nat) := []
  /-- of the nodes of the last snapshot: the partition each belongs to, 16 for none, and whether its domain is the
  device (R432, R437) -/
  doms : List (GNode × Nat × Bool) := []
  /-- the cycle of the last snapshot, and the nodes that already waited in the one before it (R435) -/
  snapAt : Option Nat := none
  again : List GNode := []
  deriving DecidableEq, Repr

/-! ## Network Ports (R346-R371) -/

/-- A TFP command's operation and payload (R353, R447). -/
inductive TfpOp where
  | cread (addr count : Nat)
  | cwrite (addr : Nat) (words : List Word)
  | cmodify (addr : Nat) (mask value : Word)
  | dread (addr len : Nat)
  | dwrite (addr : Nat) (data : List Byte)
  | abort (ctx heat : Nat)
  | echo (data : List Byte)
  | tsub (stream : Nat) (en : Bool)
  | health
  | reinit (part expect : Nat)
  | devreset (expect : Nat)
  | pwrcycle (expect : Nat)
  deriving DecidableEq, Repr

/-- What an Announce says of its sender's grandmaster (R369). -/
structure AnnInfo where
  /-- the clockIdentities of its path trace (R367) -/
  path : List Nat := []
  /-- priority1, clockClass, clockAccuracy, offsetScaledLogVariance, priority2, clockIdentity of the
  grandmaster, then stepsRemoved and the sending port's identity -/
  vec : List Nat
  deriving DecidableEq, Repr

/-- A two-step Sync that waits for its Follow_Up (R371). -/
structure SyncRx where
  seq : Nat
  /-- receive timestamp t2 and the time of receipt, units of 2^-32 ns -/
  t2 : Nat
  at' : Nat
  deriving DecidableEq, Repr

/-- A Network Port beside its registers. -/
structure NetPort where
  /-- commands not yet answered, oldest first; the first is in execution when `busy` (R354, R355) -/
  queue : List (TfpHdr × TfpOp) := []
  busy : Bool := false
  /-- the word that the CMODIFY in execution has read; its write follows in the next cycle (R354) -/
  modify : Option Word := none
  /-- the last 32 executed commands: SEQ and the response, header to payload (R355) -/
  store : List (Nat × List Byte) := []
  /-- consecutive failed training attempts (R347) -/
  fails : Nat := 0
  /-- after five failures the 1 s retry interval runs (R347) -/
  waiting : Bool := false
  /-- sequenceIds of the next Sync, Announce and Pdelay_Req sent -/
  syncSeq : Nat := 0
  annSeq : Nat := 0
  pdSeq : Nat := 0
  /-- the Pdelay_Req awaiting its answer: sequenceId and t1; then t2 and t4 of its Pdelay_Resp -/
  pdReq : Option (Nat × Nat) := none
  pdResp : Option (Nat × Nat) := none
  /-- neighborRateRatio less 1 in units of 2^-41 -/
  ratio : Int := 0
  /-- meanLinkDelay, exact, in units of 2^-74 ns (R371) -/
  delay : Int := 0
  /-- Pdelay_Reqs in a row without an answer (R367) -/
  lost : Nat := 0
  sync : Option SyncRx := none
  /-- best Announce information received and not timed out -/
  ann : Option AnnInfo := none
  deriving DecidableEq, Repr

/-! ## Start-up (R401-R430) -/

/-- What the script entry in execution waits for. -/
inductive BootWait where
  | none
  | poll
  | memory
  | links (mask : Nat)
  /-- section being loaded -/
  | load (sec : Nat)
  deriving DecidableEq, Repr

/-- The Starting Block beside its registers. -/
structure Boot where
  /-- the sequence began at power-good; false: at a device reset (R403, R404) -/
  power : Bool := true
  /-- step 1: REFCLK is qualified and the time PLL is being locked (R404) -/
  qualified : Bool := false
  /-- RST_N is held low: step 2 has not started (R493) -/
  held : Bool := false
  /-- the flash is in 8D-8D-8D (step 5 has ended) -/
  octal : Bool := false
  /-- the cycle in which the sequence began (R431) -/
  start : Nat := 0
  anchor : List Byte := []
  /-- header and section table of the slot in use -/
  head : List Byte := []
  /-- the script buffer, and whether its first entry has executed (R427) -/
  script : List Byte := []
  ran : Bool := false
  wait : BootWait := .none
  /-- LOCK has completed -/
  locked : Bool := false
  /-- directory entries and bytes of the shadow used so far (R425) -/
  dirs : Nat := 0
  copies : Nat := 0
  /-- LPDDR5: 0 not started, 1 training, 2 trained and being filled, 3 ready (R422, R332) -/
  mem : Nat := 0
  deriving DecidableEq, Repr

/-! ## Pins and the test access port (R480-R497) -/

/-- The control pins and straps. -/
structure Pins where
  /-- CASC_ROLE_1 and CASC_ROLE_0, FLASH_DUAL as sampled at power-good (R494) -/
  role : Nat := 0
  dual : Bool := false
  /-- BOOT_FAIL_N and PWR_CYCLE_REQ_N are driven low (R495) -/
  bootFail : Bool := false
  pwrReq : Bool := false
  /-- every output is high impedance (R481) -/
  hiz : Bool := true
  /-- the PWM bank is high impedance for want of VDD_IO33 (R481) -/
  pwmHiz : Bool := false
  /-- VDD_IO18 is below 1.6 V: every ball is in the state of R481 (R480) -/
  io18 : Bool := false
  /-- RST_N is low (R493) -/
  rstLow : Bool := false
  deriving DecidableEq, Repr

/-- The TAP (R496, R497). -/
structure Tap where
  /-- the instruction selected -/
  instr : Nat := 0xFF
  /-- the boundary register; its length and order are those of Ihlera's BSDL description -/
  boundary : Nat := 0
  /-- what the next Capture-DR of CTRL_ACCESS captures: word and status -/
  word : Word := 0
  status : Nat := 0
  /-- the outcome of the access before it, for a Capture-DR that comes too soon -/
  oldWord : Word := 0
  oldStatus : Nat := 0
  deriving DecidableEq, Repr

/-- A cascade member's time, and a HOLD exit asked for early. -/
structure Casc where
  /-- STEPS of the last TIME packet (R395) -/
  steps : Option Nat := none
  /-- FAB_BASE has been set by the first entry to SERVICE (R397) -/
  fabSet : Bool := false
  /-- a qualified offset has arrived since power-good or the device reset (R395) -/
  synced : Bool := false
  /-- EXIT was written while the entry to HOLD was in progress (R31) -/
  exitReq : Bool := false
  deriving DecidableEq, Repr

/-- Bank claims (R333-R335): consecutive cycles lost by each scratchpad port (key 16 × tile + port) and by each path
to an Infield (key 2 × tile + path; Marshal's 64 + cluster), with the bank that the loser claims again; the last
winner of each Infield bank (key 16 × cluster + bank); and the banks that a partial write still occupies (key
32 × tile + bank, 16 × cluster + bank). -/
structure Banks where
  spad : Tab Nat := []
  inf : Tab Nat := []
  last : Tab Nat := []
  spadHeld : Tab Nat := []
  infHeld : Tab Nat := []
  spadBusy : List Nat := []
  infBusy : List Nat := []
  deriving DecidableEq, Repr

/-- What the present cycle began with: a read in the cycle of an update returns the value before it (R93, R119,
R151, R212), and a completion in the cycle of a snapshot is seen (R435). -/
structure Was where
  tiles : Tab Tile := []
  ctl : Tab Word := []
  stores : Tab FStore := []
  links : Tab Link := []
  outst : List Outst := []
  waits : List BWait := []
  pf : List PfJob := []
  cnt : Tab Nat := []
  cmds : Tab (List UnitCmd) := []
  deriving DecidableEq, Repr

/-- The state after reset is assembled from the defaults of every part. -/
structure State where
  /-- commands waiting, first in first out -/
  pending : List Instr := []
  phase : Phase := .off
  /-- faults of contexts awaiting their teardown (R312, R313) -/
  faults : List CtxFault := []
  /-- FCLK cycles since power-good (model's own clock) -/
  now : Nat := 0
  /-- free values drawn so far (model's own) -/
  fresh : Nat := 0
  ctl : Tab Word := []
  mem : List Host.Cell := []
  poison : List Nat := []
  /-- poisoned units whose uncorrectable read is already counted, their consumer still to come (R329) -/
  lost : List Nat := []
  /-- the last uncorrectable error by capture register: its cycle and the two words it captures (R343, R345) -/
  ue : Tab (Nat × Word × Word) := []
  /-- the ranges written in the last cycle that wrote, with that cycle (R343) -/
  wrote : Nat × List (Nat × Nat) := (0, [])
  banks : Banks := {}
  was : Was := {}
  /-- the line each channel's patrol scrub reads next, in units of 64 bytes of channel address over the
  ranks, check rows included (R331) -/
  scrub : Tab Nat := []
  tiles : Tab Tile := []
  loans : List Loan := []
  /-- factor stores by scratchpad address -/
  stores : Tab FStore := []
  /-- per-template state by scratchpad address of the header -/
  tmpls : Tab TmplSt := []
  /-- context state saved on a tile: key 32 × context + tile -/
  saved : Tab TCtx := []
  links : Tab Link := []
  /-- Emit set-point writes on their way to their loops (R24, R171) -/
  emitQ : List EmitWrite := []
  outst : List Outst := []
  nextTag : Nat := 0
  waits : List BWait := []
  dsp : Dsp := {}
  lap : Lap := {}
  obs : Obs := {}
  time : Time := {}
  health : Health := {}
  net0 : NetPort := {}
  net1 : NetPort := {}
  boot : Boot := {}
  pins : Pins := {}
  tap : Tap := {}
  casc : Casc := {}
  /-- messages sent, oldest first -/
  outs : List OutMsg := []
  deriving DecidableEq, Repr

/-- The machine right after reset. -/
def State.reset : State := {}

end Sys2Proof.Machine
end

