-- ==== Sys2Proof/Machine/Ops.lean ====
section
/-!
DEFINITION. The named operations over the state: control registers, data memory with its poison
marks, tiles and their contexts, the shares of a context, and reporting a fault of a context (the
block's only kind of exception: R312).
-/

namespace Sys2Proof.Machine

/-! ## Control registers -/

/-- The stored word of a register. -/
def State.rget (s : State) (a : Nat) : Word := tget (regReset a) s.ctl a

/-- Store a register word. -/
def State.rset (s : State) (a : Nat) (v : Word) : State :=
  { s with ctl := tset (regReset a) s.ctl a v }

/-- A field of a stored register. -/
def State.rfld (s : State) (a lo n : Nat) : Nat := fget (s.rget a) lo n

/-- Write a field of a stored register. -/
def State.rfldSet (s : State) (a lo n v : Nat) : State := s.rset a (fset (s.rget a) lo n v)

/-- A bit of a stored register. -/
def State.rbit (s : State) (a i : Nat) : Bool := fbit (s.rget a) i

/-- Set or clear a bit of a stored register. -/
def State.rbitSet (s : State) (a i : Nat) (b : Bool) : State := s.rset a (fsetBit (s.rget a) i b)

/-- Add to a saturating counter field. -/
def State.rcount (s : State) (a lo n k : Nat) : State :=
  s.rfldSet a lo n (satAdd n (s.rfld a lo n) k)

/-- Add to a wrapping counter field. -/
def State.rwrap (s : State) (a lo n k : Nat) : State := s.rfldSet a lo n (s.rfld a lo n + k)

/-- Apply `f` to every element of a list in turn. -/
def State.each {α : Type} (s : State) (l : List α) (f : State → α → State) : State := l.foldl f s

/-! ## Data memory -/

/-- What a byte that nothing has written reads as: 0.  LPDDR5 is zero-filled (R332) and on-chip
memories are cleared by built-in test (R337). -/
def emptyByte : Byte := 0

/-- One byte of local data space. -/
def State.mget (s : State) (a : Nat) : Byte := tget emptyByte s.mem a

/-- Write one byte of local data space. -/
def State.mset (s : State) (a : Nat) (b : Byte) : State := { s with mem := tset emptyByte s.mem a b }

/-- Write a list of (address, byte) pairs in order. -/
def mputs (m : List Host.Cell) (l : List (Nat × Byte)) : List Host.Cell :=
  l.foldl (fun m p => tset emptyByte m p.1 p.2) m

/-- Pair consecutive addresses from `a` with bytes. -/
def atAddr : Nat → List Byte → List (Nat × Byte)
  | _, [] => []
  | a, b :: t => (a, b) :: atAddr (a + 1) t

/-- `n` bytes from `a`. -/
def State.mread (s : State) (a : Nat) : Nat → List Byte
  | 0 => []
  | n + 1 => s.mget a :: s.mread (a + 1) n

/-- A little-endian value of `n` bytes at `a` (R6). -/
def State.mval (s : State) (a n : Nat) : Nat := ofLeBytes (s.mread a n)

/-- The size of the unit that carries one poison mark: a 64-byte LPDDR5 line, an 8-byte on-chip
word (R329, R335). -/
def poisonUnit (a : Nat) : Nat := if a < 0x100000000000 then 64 else 8

/-- The poison unit's key: its first address. -/
def poisonKey (a : Nat) : Nat := a / poisonUnit a * poisonUnit a

/-- Whether any of `n` bytes from `a` lies in a poisoned unit. -/
def State.poisoned (s : State) (a n : Nat) : Bool :=
  s.poison.any (fun k => decide (k < a + n) && decide (a < k + poisonUnit k))

/-- The first poisoned unit that meets `n` bytes from `a`. -/
def State.firstPoison (s : State) (a n : Nat) : Option Nat :=
  s.poison.find? (fun k => decide (k < a + n) && decide (a < k + poisonUnit k))

/-- The ranges written in this cycle. -/
def State.wroteNow (s : State) : List (Nat × Nat) := if s.wrote.1 = s.now then s.wrote.2 else []

/-- Whether this cycle has written the whole of the unit at `k`: a poison marking that meets such a write leaves
the word good (R343). -/
def State.fullNow (s : State) (k : Nat) : Bool :=
  s.wroteNow.any (fun r => decide (r.1 ≤ k) && decide (k + poisonUnit k ≤ r.1 + r.2))

/-- Write bytes: a full write of a unit clears its poison, a partial one keeps it (R329, R336). -/
def State.mwrite (s : State) (a : Nat) (l : List Byte) : State :=
  { s with
    mem := mputs s.mem (atAddr a l)
    poison := s.poison.filter
      (fun k => !(decide (a ≤ k) && decide (k + poisonUnit k ≤ a + l.length)))
    wrote := (s.now, (a, l.length) :: s.wroteNow) }

/-- Write an `n`-byte little-endian value. -/
def State.mwriteVal (s : State) (a n v : Nat) : State := s.mwrite a (leBytes n v)

/-- Mark a unit poisoned. -/
def State.mpoison (s : State) (a : Nat) : State := { s with poison := linsert s.poison (poisonKey a) }

/-- Base of tile `t`'s scratchpad in data space (R323). -/
def spadBase (t : Nat) : Nat := 0x200000000000 + t * 0x100000
/-- Base of cluster `c`'s Infield in data space (R323). -/
def infBase (c : Nat) : Nat := 0x100000000000 + c * 0x800000

/-! ## Tiles -/

/-- Tile `t`. -/
def State.tile (s : State) (t : Nat) : Tile := tget {} s.tiles t
/-- Replace tile `t`. -/
def State.setTile (s : State) (t : Nat) (x : Tile) : State := { s with tiles := tput s.tiles t x }
/-- Change tile `t`. -/
def State.modTile (s : State) (t : Nat) (f : Tile → Tile) : State := s.setTile t (f (s.tile t))
/-- The context state held by tile `t`. -/
def State.tc (s : State) (t : Nat) : TCtx := (s.tile t).tc
/-- Replace the context state held by tile `t`. -/
def State.setTc (s : State) (t : Nat) (x : TCtx) : State := s.setTile t { s.tile t with tc := x }
/-- Change the context state held by tile `t`. -/
def State.modTc (s : State) (t : Nat) (f : TCtx → TCtx) : State := s.setTc t (f (s.tc t))

/-- G register read (R100). -/
def TCtx.gr (c : TCtx) (r : Nat) : DWord := tget 0 c.g r
/-- F register read (R100). -/
def TCtx.fr (c : TCtx) (r : Nat) : QWord := tget 0 c.f r

/-- Apply one register write. -/
def TCtx.wr (c : TCtx) : RegWrite → TCtx
  | .g r v => { c with g := tput c.g r v }
  | .f r v => { c with f := tput c.f r v }

/-! ## Contexts and their shares (R275, R276) -/

/-- DSP_CTX_c_CFG.EN. -/
def State.ctxEn (s : State) (c : Nat) : Bool := s.rbit (ctxA c 0x00) 31
/-- DSP_CTX_c_CFG.CLASS: BE. -/
def State.ctxBE (s : State) (c : Nat) : Bool := s.rbit (ctxA c 0x00) 30
/-- DSP_CTX_c_CFG.RESTART. -/
def State.ctxRestart (s : State) (c : Nat) : Bool := s.rbit (ctxA c 0x00) 29
/-- DSP_CTX_c_CFG.LENDER. -/
def State.ctxLender (s : State) (c : Nat) : Nat := s.rfld (ctxA c 0x00) 24 4
/-- DSP_CTX_c_CFG.PART. -/
def State.ctxPart (s : State) (c : Nat) : Nat := s.rfld (ctxA c 0x00) 16 4
/-- DSP_CTX_c_CFG.SLICE. -/
def State.ctxSlice (s : State) (c : Nat) : Nat := s.rfld (ctxA c 0x00) 0 16
/-- DSP_CTX_c_TILES. -/
def State.ctxTiles (s : State) (c : Nat) : Nat := (s.rget (ctxA c 0x04)).toNat
/-- The scratchpad share: offset and size in bytes (R276). -/
def State.ctxSpad (s : State) (c : Nat) : Nat × Nat :=
  (s.rfld (ctxA c 0x08) 0 8 * 4096, s.rfld (ctxA c 0x08) 16 12 * 4096)
/-- The Infield share: offset and size in bytes (R276). -/
def State.ctxInf (s : State) (c : Nat) : Nat × Nat :=
  (s.rfld (ctxA c 0x0C) 0 12 * 4096, s.rfld (ctxA c 0x0C) 16 12 * 4096)
/-- DSP_CTX_c_STAT.STATE: 0 down, 1 loading, 2 READY, 3 teardown, 4 FAULTED (R322). -/
def State.ctxState (s : State) (c : Nat) : Nat := s.rfld (ctxA c 0x24) 29 3
/-- DSP_CTX_c_STAT.BIB. -/
def State.ctxBib (s : State) (c : Nat) : Nat := s.rfld (ctxA c 0x24) 8 8
/-- DSP_PART_p_CFG.EN. -/
def State.partEn (s : State) (p : Nat) : Bool := s.rbit (partA p 0x00) 31
/-- DSP_PART_p_CFG.TMODE: HURDLE. -/
def State.partHurdle (s : State) (p : Nat) : Bool := s.rbit (partA p 0x00) 30
/-- DSP_PART_p_STAT.STATE: 0 down, 1 SERVICE, 2 RECOVERY, 3 reset in progress (R321). -/
def State.partState (s : State) (p : Nat) : Nat := s.rfld (partA p 0x1C) 30 2

/-- Whether heats of a context run under the rules of SERVICE (R36, R67, R69). -/
def State.serves (s : State) (c : Nat) : Bool :=
  s.phase == .service && s.partState (s.ctxPart c) == 1

/-- CLK_STAT.STATE: 0 RUN, 1 ENTERING, 2 HOLD, 3 EXITING. -/
def State.clkState (s : State) : Nat := s.rfld clkStatA 30 2

/-- CORE is in HOLD (CLK_STAT.CORE, R33). -/
def State.coreHold (s : State) : Bool := s.rbit clkStatA 7

/-- Data-space address of offset `o` of context `c`'s share on tile `t`. -/
def State.shareA (s : State) (t c o : Nat) : Nat := spadBase t + (s.ctxSpad c).1 + o

/-- A field of the context block (R187). -/
def State.cblk (s : State) (t c o n : Nat) : Nat := s.mval (s.shareA t c o) n

/-- Change a context's accounting counters; only SERVICE is counted (R36, R317). -/
def State.acct (s : State) (c : Nat) (f : Acct → Acct) : State :=
  if s.serves c then
    { s with dsp := { s.dsp with acct := tput s.dsp.acct c (f (tget {} s.dsp.acct c)) } }
  else s

/-! ## Faults of a context -/

/-- Whether a fault of context `c` waits for its teardown. -/
def State.hasFault (s : State) (c : Nat) : Bool := s.faults.any (fun f => f.ctx == c)

/-- Whether a fault of partition scope of context `c` waits (R312). -/
def State.hasShared (s : State) (c : Nat) : Bool := s.faults.any (fun f => f.ctx == c && decide (7 ≤ f.cause))

/-- The heat number the tile is issuing, for the fault record. -/
def TCtx.heatNum (c : TCtx) : Nat :=
  match c.heats.getLast? with
  | some h => h.num
  | none => 0

/-- The heat of a fault of context c reported by tile t: the newest of the context on that tile, or, where
it has none there, the latest that the context has begun (R322). -/
def State.faultHeat (s : State) (c t : Nat) : Nat :=
  if (s.tile t).ctx = some c ∧ (s.tc t).heats.isEmpty = false then (s.tc t).heatNum
  else (s.rget (ctxA c 0x28)).toNat

/-- Report a fault of a context (R312): DSP_CTX_c_FAULT records it, the FAULT flag, the partition's count and
the context's accounting rise (R317), and issue stops until the teardown of R313.  During a teardown of the
same context the fault is recorded only (R315); behind one that waits, only a fault of partition scope adds
anything: its reset. -/
def State.reportFault (s : State) (cause c t : Nat) (cls : Nat := 1) : State :=
  let w : Word := BitVec.ofNat 32 (cause * 2 ^ 24 + t * 2 ^ 16 + s.faultHeat c t % 2 ^ 16)
  let s := s.acct c (fun a => { a with faults := a.faults + 1 })
  let s := (s.rset (ctxA c 0x3C) w).rbitSet (ctxA c 0x34) 6 true
  let s := s.rcount (partA (s.ctxPart c) 0x1C) 0 8 1
  if s.ctxState c = 3 || (s.hasFault c && (decide (cause < 7) || s.hasShared c)) then s
  else { s with faults := s.faults ++ [⟨c, cause, t, cls, s.now⟩] }

/-! ## Issue on a tile (R198) -/

/-- The heat whose program is issuing: the latest one that has not issued HEND. -/
def TCtx.curHeat (c : TCtx) : Option Heat :=
  match c.heats.getLast? with
  | some h => if h.hended then none else some h
  | none => none

/-- The newest heat of a tile waits, because a heat before its predecessor is not complete (R201). -/
def TCtx.third (c : TCtx) : Bool :=
  match c.heats.getLast? with
  | some h =>
    let prev := if h.num = 1 then 0xFFFFFFFF else h.num - 1
    c.heats.any (fun x => x.num != h.num && x.num != prev)
  | none => false

/-- The context on a tile (0 when none); a context number has six bits (R275). -/
def State.ctxOn (s : State) (t : Nat) : Nat := ((s.tile t).ctx).getD 0 % 64

/-- Whether the sequencer of tile `t` issues an entry of its context now: it is running, no
pre-emption is requested (R205), nothing holds issue (R198), no gang partner's trap stops it (R118: two
tiles that trap in one cycle each take their own trap, and each enters its handler), its heat's program has not ended, no third heat is in the way (R201) and the context has no fault (R313). -/
def State.canIssue (s : State) (t : Nat) : Bool :=
  let x := s.tile t
  match x.ctx with
  | none => false
  | some _ =>
    decide (x.seq = .running) && x.preq.isNone && decide (x.tc.hold = .none)
      && (!x.tc.stopped || x.tc.inTrap || x.tc.stopAt == some s.now)
      && x.tc.curHeat.isSome && !x.tc.third && !s.hasFault (s.ctxOn t) && !x.inReset

/-- Replace the newest heat of a tile. -/
def TCtx.modHeat (c : TCtx) (f : Heat → Heat) : TCtx :=
  match c.heats.getLast? with
  | some h => { c with heats := c.heats.dropLast ++ [f h] }
  | none => c

/-- Change the heat with a given number. -/
def TCtx.modHeatNum (c : TCtx) (n : Nat) (f : Heat → Heat) : TCtx :=
  { c with heats := c.heats.map (fun h => if h.num = n then f h else h) }

/-- The heat with a given number. -/
def TCtx.heat? (c : TCtx) (n : Nat) : Option Heat := c.heats.find? (fun h => h.num == n)

end Sys2Proof.Machine
end

