-- ==== Sys2Proof/Machine/Hash.lean ====
section
/-!
DEFINITION. The checks of chapter 14 that other standards define: CRC-32 (R407), SHAKE256 (R409, FIPS
202) and XMSS-SHAKE256_20_256 (R411, R412; RFC 8391 and NIST SP 800-208).
-/

namespace Sys2Proof.Machine

/-! ## CRC-32 (R407) -/

/-- One bit of CRC-32, least significant bit first. -/
def crc32Bit (c : Nat) : Nat := if c % 2 = 1 then (c / 2) ^^^ 0xEDB88320 else c / 2

/-- One byte of CRC-32. -/
def crc32Byte (c : Nat) (b : Byte) : Nat :=
  (List.range 8).foldl (fun c _ => crc32Bit c) (c ^^^ b.toNat)

/-- CRC-32 with the IEEE 802.3 polynomial. -/
def crc32 (l : List Byte) : Nat := (l.foldl crc32Byte 0xFFFFFFFF) ^^^ 0xFFFFFFFF

/-! ## SHAKE256 -/

/-- Rotations of the lanes, at x + 5y. -/
def keccakRot : List Nat :=
  [0, 1, 62, 28, 27, 36, 44, 6, 55, 20, 3, 10, 43, 25, 39, 41, 45, 15, 21, 8, 18, 2, 61, 56, 14]

/-- Round constants. -/
def keccakRc : List DWord :=
  [0x0000000000000001, 0x0000000000008082, 0x800000000000808A, 0x8000000080008000,
   0x000000000000808B, 0x0000000080000001, 0x8000000080008081, 0x8000000000008009,
   0x000000000000008A, 0x0000000000000088, 0x0000000080008009, 0x000000008000000A] ++
  [0x000000008000808B, 0x800000000000008B, 0x8000000000008089, 0x8000000000008003,
   0x8000000000008002, 0x8000000000000080, 0x000000000000800A, 0x800000008000000A,
   0x8000000080008081, 0x8000000000008080, 0x0000000080000001, 0x8000000080008008]

/-- Lane (x, y) of the permutation's state. -/
def lane5 (a : List DWord) (x y : Nat) : DWord := lget 0 a (x % 5 + 5 * (y % 5))

/-- A round of the permutation. -/
def keccakRound (a : List DWord) (rc : DWord) : List DWord :=
  let c := (List.range 5).map (fun x =>
    lane5 a x 0 ^^^ lane5 a x 1 ^^^ lane5 a x 2 ^^^ lane5 a x 3 ^^^ lane5 a x 4)
  let d := (List.range 5).map (fun x => lget 0 c ((x + 4) % 5) ^^^ (lget 0 c ((x + 1) % 5)).rotateLeft 1)
  let a := (List.range 25).map (fun i => lget 0 a i ^^^ lget 0 d (i % 5))
  let b := (List.range 25).map (fun i =>
    let x := (i % 5 + 3 * (i / 5)) % 5
    let y := i % 5
    (lane5 a x y).rotateLeft (lget 0 keccakRot (x + 5 * y)))
  let a := (List.range 25).map (fun i =>
    let x := i % 5
    let y := i / 5
    lane5 b x y ^^^ (~~~(lane5 b (x + 1) y) &&& lane5 b (x + 2) y))
  lset a 0 (lget 0 a 0 ^^^ rc)

/-- Absorb one block of 136 bytes. -/
def keccakAbsorb (a : List DWord) (blk : List Byte) : List DWord :=
  let a := (List.range 25).map (fun i =>
    lget 0 a i ^^^ BitVec.ofNat 64 (ofLeBytes ((blk.drop (8 * i)).take 8)))
  keccakRc.foldl keccakRound a

/-- Absorb `n` blocks. -/
def keccakBlocks (a : List DWord) (l : List Byte) : Nat → List DWord
  | 0 => a
  | n + 1 => keccakBlocks (keccakAbsorb a (l.take 136)) (l.drop 136) n

/-- SHAKE256 with a 256-bit output. -/
def shake256 (m : List Byte) : List Byte :=
  let k := 136 - m.length % 136
  let pad : List Byte := if k = 1 then [0x9F] else 0x1F :: (lrep (k - 2) 0 ++ [0x80])
  let a := keccakBlocks (lrep 25 0) (m ++ pad) (m.length / 136 + 1)
  (a.take 4).flatMap (fun x => leBytes 8 x.toNat)

/-! ## XMSS -/

/-- The keyed functions of RFC 8391 for n = 32: 0 F, 1 H, 2 H_msg, 3 PRF. -/
def xmssHash (kind : Nat) (key m : List Byte) : List Byte := shake256 (beBytes 32 kind ++ key ++ m)

/-- An address: type and its four words (layer and tree are 0 for a single tree). -/
def xmssAdrs (ty a b c d : Nat) : List Byte :=
  lrep 12 0 ++ beBytes 4 ty ++ beBytes 4 a ++ beBytes 4 b ++ beBytes 4 c ++ beBytes 4 d

/-- Bytewise exclusive or. -/
def xorBytes (x y : List Byte) : List Byte := List.zipWith (fun a b => a ^^^ b) x y

/-- The hash of two nodes under masks; `ad` gives the address for each keyAndMask. -/
def xmssNode (seed : List Byte) (ad : Nat → List Byte) (l r : List Byte) : List Byte :=
  let f (k : Nat) : List Byte := xmssHash 3 seed (ad k)
  xmssHash 1 (f 0) (xorBytes l (f 1) ++ xorBytes r (f 2))

/-- A WOTS+ chain from step i, n steps. -/
def wotsChain (seed : List Byte) (idx ch : Nat) : Nat → Nat → List Byte → List Byte
  | _, 0, x => x
  | i, n + 1, x =>
    let f (k : Nat) : List Byte := xmssHash 3 seed (xmssAdrs 0 idx ch i k)
    wotsChain seed idx ch (i + 1) n (xmssHash 0 (f 0) (xorBytes x (f 1)))

/-- The 67 base-16 digits of a message hash and its checksum. -/
def wotsDigits (m : List Byte) : List Nat :=
  let d := m.flatMap (fun b => [b.toNat / 16, b.toNat % 16])
  let c := (d.map (fun x => 15 - x)).sum
  d ++ [c / 256 % 16, c / 16 % 16, c % 16]

/-- One level of an L-tree; an odd last node moves up. -/
def ltreeLevel (seed : List Byte) (idx h : Nat) : Nat → List (List Byte) → List (List Byte)
  | i, l :: r :: t => xmssNode seed (xmssAdrs 1 idx h i) l r :: ltreeLevel seed idx h (i + 1) t
  | _, l => l

/-- The root of an L-tree of 67 leaves: seven levels. -/
def ltree (seed : List Byte) (idx : Nat) (l : List (List Byte)) : List Byte :=
  ((List.range 7).foldl (fun l h => ltreeLevel seed idx h 0 l) l).headD []

/-- The root from a leaf and its authentication path. -/
def xmssRoot (seed : List Byte) (idx : Nat) : Nat → List (List Byte) → List Byte → List Byte
  | _, [], x => x
  | h, a :: t, x =>
    let ad := xmssAdrs 2 0 h (idx / 2 ^ (h + 1))
    xmssRoot seed idx (h + 1) t
      (if idx / 2 ^ h % 2 = 0 then xmssNode seed ad x a else xmssNode seed ad a x)

/-- `n` pieces of 32 bytes. -/
def chunks32 : Nat → List Byte → List (List Byte)
  | 0, _ => []
  | n + 1, l => l.take 32 :: chunks32 n (l.drop 32)

/-- XMSS verification (R411, R412): a signature of 2,820 bytes of a message under a root and seed. -/
def xmssVerify (root seed m sig : List Byte) : Bool :=
  let idx := ofBeBytes (sig.take 4)
  let r := (sig.drop 4).take 32
  let h := xmssHash 2 (r ++ root ++ beBytes 32 idx) m
  let parts := chunks32 87 (sig.drop 36)
  let leaf := (List.zip (List.range 67) (List.zip (parts.take 67) (wotsDigits h))).map (fun p =>
    wotsChain seed idx p.1 p.2.2 (15 - p.2.2) p.2.1)
  sig.length == 2820 && decide (idx < 2 ^ 20)
    && xmssRoot seed idx 0 (parts.drop 67) (ltree seed idx leaf) == root

end Sys2Proof.Machine
end

