-- ==== Sys2Proof/Machine/Event.lean ====
section
/-!
DEFINITION. Time and observation shared by every block: Split Timer values and splits (R362, R365),
FABCNT (R397, R474), event rings (R466, R467), stream records, memory rings and telemetry frames
(R460-R464), and the frames of the Network Ports (R350-R352).
-/

namespace Sys2Proof.Machine

/-! ## Time -/

/-- The time of the present cycle in units of 2^-32 / 5 ns: the value at the last tick plus a fifth of
INC for every cycle since (R256). -/
def State.fifths (s : State) : Nat := 5 * s.time.split + s.time.sub * s.time.inc
/-- The time of the present cycle in units of 2^-32 ns, rounded down (R256). -/
def State.cycleTime (s : State) : Nat := s.fifths / 5
/-- The Split Timer time in nanoseconds (R281). -/
def State.ns (s : State) : Nat := s.cycleTime / 2 ^ 32
/-- The first whole nanosecond at or after this cycle's time: a time of whole nanoseconds is at or after this
cycle's exactly when it is at or after this one. -/
def State.nsUp (s : State) : Nat := ceilDiv s.fifths (5 * 2 ^ 32)
/-- The nanoseconds field. -/
def State.nsField (s : State) : Nat := s.ns % 1000000000
/-- The seconds field. -/
def State.secField (s : State) : Nat := s.ns / 1000000000 % 2 ^ 48

/-- FABCNT at a time in units of 2^-32 ns: the time less FAB_BASE in units of 2^-4 ns (R397). -/
def State.fabAt (s : State) (t : Nat) : Nat := wrapN (((t : Int) - s.time.fabBase).fdiv (2 ^ 28)) 64
/-- FABCNT in this cycle. -/
def State.fabCount (s : State) : Nat := s.fabAt s.cycleTime

/-- RLY_CFG.ROLE: 0 STANDALONE, 1 MASTER, 2 MEMBER (R399). -/
def State.role (s : State) : Nat := s.rfld (rlyA 0x00) 30 2
/-- RLY_CFG.DEVNUM. -/
def State.devnum (s : State) : Nat := s.rfld (rlyA 0x00) 0 4
/-- SPL_STAT.STATE: 0 FREE, 1 LOCKED, 2 HOLDOVER (R378). -/
def State.timeState (s : State) : Nat := s.rfld (splA 0x04) 30 2

/-- RLY_STAT.FAB_OK: FABCNT is formed, and the device is LOCKED or is device 0 (R397, R474). -/
def State.fabOk (s : State) : Bool :=
  if s.role = 2 then s.timeState == 1
  else s.casc.fabSet && (s.devnum == 0 || s.timeState == 1)

/-- A 12-byte split record of a time in units of 2^-32 ns, with its CLK_ADJ (1) and LATE (2) flags (R365). -/
def splitRecord (t flags : Nat) : List Byte :=
  let n := t / 2 ^ 32
  leBytes 6 (n / 1000000000) ++ leBytes 4 (n % 1000000000 + flags * 2 ^ 30) ++ leBytes 2 (t % 2 ^ 32 / 2 ^ 16)

/-- The flags and the time of the stamp of an event with number `n` of ring q: in AON and on an undisturbed clock the
event's cycle; after a stretched clock at most 20 ns later with CLK_ADJ (1), after a stopped one later with LATE (2); before the
time runs there is none to adjust (R366; log entry 62). -/
def State.stampOf (s : State) (q n : Nat) : Nat × Nat :=
  let lag := Config.clockLag q n s.now
  if q = 57 ∨ q = 58 ∨ q = 62 ∨ s.time.running = false then (0, s.cycleTime)
  else if Config.clockDist q n s.now = 1 then (1, s.cycleTime + lag % (20 * 2 ^ 32 + 1))
  else if Config.clockDist q n s.now = 2 then (2, s.cycleTime + lag)
  else (0, s.cycleTime)

/-! ## Ethernet frames -/

/-- Sum of the 16-bit big-endian words of a list of bytes. -/
def sum16 : List Byte → Nat
  | a :: b :: t => a.toNat * 256 + b.toNat + sum16 t
  | [a] => a.toNat * 256
  | [] => 0

/-- The one's complement checksum of the Internet protocols. -/
def inetSum (l : List Byte) : Nat :=
  let f (n : Nat) := n / 65536 + n % 65536
  65535 - f (f (f (sum16 l)))

/-- NET_k_MAC as a 48-bit number (R377). -/
def State.portMac (s : State) (k : Nat) : Nat :=
  s.rfld (netA k 0x08) 0 16 * 2 ^ 32 + (s.rget (netA k 0x0C)).toNat
/-- NET_k_IP. -/
def State.portIp (s : State) (k : Nat) : Nat := (s.rget (netA k 0x10)).toNat
/-- NET_k_STAT.LINK. -/
def State.linkUp (s : State) (k : Nat) : Bool := s.rbit (netA k 0x18) 31

/-- A UDP datagram in an IPv4 packet without options, with both checksums (R350). -/
def udpPacket (sip dip sport dport : Nat) (pl : List Byte) : List Byte :=
  let ul := 8 + pl.length
  let ip (ck : Nat) := [0x45, 0x00] ++ beBytes 2 (20 + ul) ++ beBytes 4 0x00004000
    ++ [0x40, 0x11] ++ beBytes 2 ck ++ beBytes 4 sip ++ beBytes 4 dip
  let ud (ck : Nat) := beBytes 2 sport ++ beBytes 2 dport ++ beBytes 2 ul ++ beBytes 2 ck
  let u := inetSum (beBytes 4 sip ++ beBytes 4 dip ++ [0x00, 0x11] ++ beBytes 2 ul ++ ud 0 ++ pl)
  ip (inetSum (ip 0)) ++ ud (if u = 0 then 65535 else u) ++ pl

/-- The frame that carries a TFP header and payload back to a peer (R350, R352). -/
def State.tfpFrame (s : State) (k : Nat) (p : Peer) (pl : List Byte) : List Byte :=
  let tag := match p.vlan with
    | some v => beBytes 2 0x8100 ++ beBytes 2 v.toNat
    | none => []
  beBytes 6 p.mac.toNat ++ beBytes 6 (s.portMac k) ++ tag
    ++ (if p.udp then beBytes 2 0x0800
          ++ udpPacket (s.portIp k) p.ip.toNat (s.rfld (netA k 0x14) 0 16) p.udpPort.toNat pl
        else beBytes 2 0x88B5 ++ pl)

/-- A TFP header (R351). -/
def tfpHeader (ty op status session len seq tag : Nat) : List Byte :=
  [0x02, BitVec.ofNat 8 ty, BitVec.ofNat 8 op, BitVec.ofNat 8 status]
    ++ beBytes 2 session ++ beBytes 2 len ++ beBytes 4 seq ++ beBytes 4 tag

/-- Every output ball is high impedance: step 1 has not ended, or VDD_IO18 is low (R480, R481). -/
def State.hiZ (s : State) : Bool := s.pins.hiz || s.pins.io18

/-- Put a message on the list of what the device has sent. -/
def State.out (s : State) (m : OutMsg) : State := { s with outs := s.outs ++ [m] }

/-- Drive a Sample Port, the xSPI bus or TDO, unless the balls are high impedance (R481). -/
def State.ballOut (s : State) (m : OutMsg) : State := if s.hiZ then s else s.out m

/-- Send an Ethernet frame: padded to 60 bytes before the FCS and counted in NET_k_TX_CNT; a port
without link sends nothing and counts a drop (R359). -/
def State.sendFrame (s : State) (k : Nat) (b : List Byte) : State :=
  if s.linkUp k then
    (s.out (.frame k (b ++ lrep (60 - b.length) 0))).rcount (netA k 0x24) 0 32 1
  else s.rcount (netA k 0x28) 0 32 1

/-! ## Streams (R460-R464) -/

/-- MSH_OBS_CTRL.EN bit of a stream. -/
def State.streamOn (s : State) (k : Nat) : Bool := s.rbit (mshA 0x3000) (28 + k)

/-- MSH_OBUF_k registers (R476). -/
def obufA (k off : Nat) : Nat := mshA (0x3010 + 16 * k + off)

/-- Write ring bytes from an offset, continuing at offset 0 (R462). -/
def State.ringWrite (s : State) (base size o : Nat) (l : List Byte) : State :=
  let n := size - o
  if l.length ≤ n then s.mwrite (base + o) l
  else (s.mwrite (base + o) (l.take n)).mwrite base (l.drop n)

/-- A record reaches stream k's memory ring (R462). -/
def State.ringPut (s : State) (k : Nat) (l : List Byte) : State :=
  let size := s.rfld (obufA k 4) 0 16 * 65536
  let o := (s.rget (obufA k 8)).toNat
  let s := s.ringWrite (s.rfld (obufA k 0) 0 20 * 65536) size o l
  s.rset (obufA k 8) (BitVec.ofNat 32 (if size = 0 then 0 else (o + l.length) % size))

/-- Bytes of the memory bucket's capacity (R303, R464). -/
def State.obsCap (s : State) : Int := ((64 * s.rfld (mshA 0x3004) 0 16 : Nat) : Int) * 256

/-- Bytes of the dump staging buffer become free again (R472, R476). -/
def State.stageFree (s : State) (n : Nat) : State :=
  s.rfldSet (mshA 0x3008) 0 19 (s.rfld (mshA 0x3008) 0 19 + n)

/-- Send the held records that the memory bucket admits, in order (R303, R464). -/
def State.obsDrain (s : State) : Nat → State
  | 0 => s
  | n + 1 =>
    match s.obs.buf with
    | [] => s
    | (k, l) :: t =>
      if s.obs.memTok < 0 then s
      else
        let tok := max (s.obs.memTok - ((256 * l.length : Nat) : Int)) (-s.obsCap)
        let s := { s with obs := { s.obs with buf := t, memTok := tok } }
        State.obsDrain ((if k = 3 then s.stageFree l.length else s).ringPut k.val l) n

/-- Bytes held in the 16 KiB buffer for the memory bucket; dumps wait in the staging buffer (R464,
R472). -/
def State.obsHeld (s : State) : Nat :=
  ((s.obs.buf.filter (fun p => p.1 != 3)).map (fun p => p.2.length)).sum

/-- Queue a record for a memory ring, or drop it when the 16 KiB buffer is full (R464, R472). -/
def State.toMemory (s : State) (k : Fin 4) (l : List Byte) : State :=
  if s.rfld (obufA k.val 4) 0 16 = 0 then (if k = 3 then s.stageFree l.length else s)
  else if k ≠ 3 ∧ 16384 < s.obsHeld + l.length then s.rcount (obufA k.val 12) 0 16 1
  else
    let s := { s with obs := { s.obs with buf := s.obs.buf ++ [(k, l)] } }
    s.obsDrain s.obs.buf.length

/-- Whole records that fit a telemetry frame (R463). -/
def fitRecs : Nat → List (List Byte) → List (List Byte)
  | _, [] => []
  | room, r :: t => if r.length ≤ room then r :: fitRecs (room - r.length) t else []

/-- The telemetry frame of a subscription (R359, R463). -/
def State.telemFrame (s : State) (b : Sub) : List Byte :=
  let rs := fitRecs 1424 b.recs
  let pl := beBytes 8 s.fabCount
    ++ [BitVec.ofNat 8 s.devnum, BitVec.ofNat 8 b.stream] ++ beBytes 2 rs.length
    ++ beBytes 4 b.dropped ++ rs.flatten
  s.tfpFrame b.port.val b.peer (tfpHeader 2 b.stream 0 b.session pl.length b.seq 0 ++ pl)

/-- Bytes of a frame from destination address to FCS. -/
def wireLen (f : List Byte) : Nat := max 64 (f.length + 4)

/-- Replace subscription `i`. -/
def State.setSub (s : State) (i : Nat) (b : Sub) : State :=
  { s with obs := { s.obs with subs := lset s.obs.subs i b } }

/-- Send the frame of subscription `i` when it is due and its port's bucket holds its length
(R464). -/
def State.telemSend (s : State) (i : Nat) : State :=
  match s.obs.subs[i]? with
  | none => s
  | some b =>
    let f := s.telemFrame b
    let need := wireLen f * 10000
    if !b.due || b.recs.isEmpty then s
    else if s.linkUp b.port.val && decide (lget 0 s.obs.portTok b.port.val < need) then s
    else
      let n := (fitRecs 1424 b.recs).length
      let tok := lget 0 s.obs.portTok b.port.val - need
      let s := s.sendFrame b.port.val f
      let s := { s with obs := { s.obs with portTok := lset s.obs.portTok b.port.val tok } }
      let rest := b.recs.drop n
      s.setSub i { b with
        recs := rest, seq := (b.seq + 1) % 2 ^ 32, dropped := 0
        due := decide (1424 < (rest.map List.length).sum) }

/-- Send every frame of subscription `i` that is due and admitted (R463, R464). -/
def State.telemAll (s : State) (i : Nat) : State :=
  s.each (List.range (((s.obs.subs[i]?).map (fun b => b.recs.length)).getD 0)) (fun s _ => s.telemSend i)

/-- Bytes of records held for a port (R464). -/
def State.portHeld (s : State) (p : Fin 2) : Nat :=
  ((s.obs.subs.filter (fun b => b.port == p)).map
    (fun b => (b.recs.map List.length).sum)).sum

/-- Give a record to subscription `i` of its stream (R463, R464). -/
def State.toPort (s : State) (k : Nat) (l : List Byte) (i : Nat) : State :=
  match s.obs.subs[i]? with
  | none => s
  | some b =>
    if b.stream ≠ k then s
    else if 16384 < s.portHeld b.port + l.length then
      (s.setSub i { b with dropped := b.dropped + 1 }).rcount (obufA k 12) 16 16 1
    else
      let full := decide (1424 < (b.recs.map List.length).sum + l.length) && !b.recs.isEmpty
      (s.setSub i { b with recs := b.recs ++ [l], due := b.due || full }).telemAll i

/-- Produce a record on stream k (R460); `pl` is what ports carry of it (R463). -/
def State.streamRec (s : State) (k : Fin 4) (l pl : List Byte) : State :=
  if s.streamOn k.val && !s.coreHold then
    (s.toMemory k l).each (List.range s.obs.subs.length) (fun s i => s.toPort k.val pl i)
  else if k = 3 then s.stageFree l.length
  else s

/-! ## Event rings (R466, R467) -/

/-- The words of a list of bytes, little-endian (R6). -/
def wordsOf : List Byte → List Word
  | a :: b :: c :: d :: t => BitVec.ofNat 32 (ofLeBytes [a, b, c, d]) :: wordsOf t
  | _ => []

/-- Store consecutive words from control address `a`. -/
def State.rsetWords (s : State) (a : Nat) : List Word → State
  | [] => s
  | w :: t => State.rsetWords (s.rset a w) (a + 4) t

/-- Who an event concerns. -/
structure EvOf where
  ctx : Nat := 0
  bib : Nat := 0
  layer : Nat := 0
  oper : Nat := 0
  heat : Nat := 0
  deriving DecidableEq, Repr

/-- Write an event to ring q, and a record of stream 2 (R460, R466, R467). -/
def State.event (s : State) (q code : Nat) (w : EvOf) (d0 d1 : Nat) : State :=
  let n := (s.rget (ringA q 0x800)).toNat
  let st := s.stampOf q n
  let b := leBytes 8 (s.fabAt st.2)
    ++ [BitVec.ofNat 8 code, BitVec.ofNat 8 (st.1 + if s.fabOk then 0 else 4), BitVec.ofNat 8 w.ctx,
      BitVec.ofNat 8 w.bib]
    ++ leBytes 2 w.layer ++ leBytes 2 w.oper ++ leBytes 4 w.heat ++ leBytes 4 d0 ++ leBytes 4 d1
    ++ leBytes 4 n
  let s := s.rsetWords (ringA q (32 * (n % 64))) (wordsOf b)
  (s.rset (ringA q 0x800) (BitVec.ofNat 32 (n + 1))).streamRec 2 b b

/-- An event that concerns a context (R467). -/
def State.eventCtx (s : State) (q code c heat layer oper d0 d1 : Nat) : State :=
  s.event q code ⟨c, s.ctxBib c, layer, oper, heat⟩ d0 d1

/-! ## The commands of counted units (R453, R458) -/

/-- The commands of a unit of a tile: those in progress, newest first, or its last one. -/
def State.cmds (s : State) (t u : Nat) : List UnitCmd := tget [] s.obs.cmds (16 * t + u)
/-- Replace the commands of a unit. -/
def State.setCmds (s : State) (t u : Nat) (l : List UnitCmd) : State :=
  { s with obs := { s.obs with cmds := tput s.obs.cmds (16 * t + u) l } }
/-- The current command of a list of them, or the last one. -/
def headCmd (l : List UnitCmd) : UnitCmd := l.head?.getD {}
/-- The unit's current command, or its last one. -/
def State.cmd (s : State) (t u : Nat) : UnitCmd := headCmd (s.cmds t u)
/-- Whether the command with sequence number `seq` is in progress on the unit. -/
def State.hasCmd (s : State) (t u seq : Nat) : Bool := (s.cmds t u).any (fun k => k.active && k.seq == seq)

/-- Whom a command's records concern. -/
def UnitCmd.ids (k : UnitCmd) : CmdIds := (k.heat, k.layer, k.oper)
/-- Whom the command in progress on a unit concerns. -/
def State.unitIds (s : State) (t u : Nat) : Option CmdIds :=
  if (s.cmd t u).active then some (s.cmd t u).ids else none
/-- Whom the command in progress on a tile concerns, of its lowest unit that has one (R459; DEDUCED, log entry 77). -/
def State.workIds (s : State) (t : Nat) : Option CmdIds := (List.range 8).findSome? (s.unitIds t)
/-- Whom a queued stage command's records concern. -/
def QCmd.ids (q : QCmd) : CmdIds := (q.heat, q.layer, q.oper)

/-- The IDs of the latest stage command of the tile's newest heat, and that heat (R200). -/
def State.tileIds (s : State) (t : Nat) : CmdIds :=
  match (s.tc t).heats.getLast? with
  | some h => (h.num, h.layer, h.oper)
  | none => (0, 0, 0)

/-- An event of a tile: of the command that caused it, `ids`, or of the entry that the tile executes
(R200, R459). -/
def State.eventTile (s : State) (t code d0 d1 : Nat) (ids : Option CmdIds := none) : State :=
  let i := ids.getD (s.tileIds t)
  s.eventCtx t code (s.ctxOn t) i.1 i.2.1 i.2.2 d0 d1

/-! ## Faults and traps with their events -/

/-- Report a fault of a context from a tile, with its FAULT event, and a FALSE_START event for that
cause; `ids`: the command that caused it (R312, R459, R467). -/
def State.faultTile (s : State) (t c cause : Nat) (cls : Nat := 1) (ids : Option CmdIds := none) : State :=
  let s := s.reportFault cause c t cls
  let s := s.eventTile t 0x06 cause t ids
  if cause = 4 then s.eventTile t 0x0C t cause ids else s

/-- Report a fault of a context from the Dispatcher (R312, R467). -/
def State.faultDsp (s : State) (c cause : Nat) (cls : Nat := 5) : State :=
  let s := s.reportFault cause c 0 cls
  let s := s.eventCtx 56 0x06 c 0 0 0 cause 0
  if cause = 4 then s.eventCtx 56 0x0C c 0 0 0 c cause else s

end Sys2Proof.Machine
end

