-- ==== Sys2Proof/Machine/Operands.lean ====
section
/-!
DEFINITION. Operand forms: the fields of Scalar Lane entries (R191, R192), format codes (R193),
tensor descriptors (R197) and element placement in the scratchpad (R47, R500), and which
scratchpad bytes a context may reach (R189, R276, R299).
-/

namespace Sys2Proof.Machine

/-! ## Scalar Lane fields -/

/-- The width W of an integer operation: AUX bit 0 (R192). -/
def auxW (aux : Byte) : Nat := if bitAt aux.toNat 0 then 64 else 32

/-- An integer operand: the low W bits of a G register (R100). -/
def TCtx.gi (c : TCtx) (w r : Nat) : Nat := (c.gr r).toNat % 2 ^ w

/-- A W-bit result as a G register value: 32-bit results are sign-extended (R100). -/
def gres (w : Nat) (v : Int) : DWord :=
  if w = 64 then BitVec.ofInt 64 v else BitVec.ofInt 64 (sext (wrapN v 32) 32)

/-- An instruction that writes one G register and raises `f`. -/
def outG (r : Nat) (v : DWord) (f : FlagSet) : LaneOut := ⟨[.g r v], [f]⟩

/-- The sign-extended immediate (R191). -/
def immS (imm : BitVec 16) : Int := imm.toInt

/-- Lane `j` of an F register (R100). -/
def flane (q : QWord) (j : Nat) : Nat := bitsOf q.toNat (32 * j) 32

/-- The low 64 bits of an F register (R100). -/
def fdbl (q : QWord) : Nat := q.toNat % 2 ^ 64

/-- Replace lane `j` of an F register. -/
def fsetLane (q : QWord) (j v : Nat) : QWord :=
  BitVec.ofNat 128 (q.toNat - flane q j * 2 ^ (32 * j) + (v % 2 ^ 32) * 2 ^ (32 * j))

/-- Replace the low 64 bits of an F register (R100). -/
def fsetDbl (q : QWord) (v : Nat) : QWord :=
  BitVec.ofNat 128 (q.toNat - fdbl q + v % 2 ^ 64)

/-- The form of a floating operation: AUX bits [1:0] (R192). -/
def fpForm (aux : Byte) : Nat := aux.toNat % 4

/-- Apply a floating operation in the form of AUX (R100, R103): `h fmt src` computes one lane from
a reader of that lane of each F register. -/
def TCtx.fpApply (c : TCtx) (aux : Byte) (rd : Nat)
    (h : FFmt → (Nat → Nat) → Nat × FlagSet) : LaneOut :=
  match fpForm aux with
  | 0 =>
    let r := h fFP32 (fun n => flane (c.fr n) 0)
    ⟨[.f rd (fsetLane (c.fr rd) 0 r.1)], [r.2]⟩
  | 1 =>
    let l := [0, 1, 2, 3].map (fun j => h fFP32 (fun n => flane (c.fr n) j))
    let q := l.foldr (fun r a => a * 2 ^ 32 + r.1 % 2 ^ 32) 0
    ⟨[.f rd (BitVec.ofNat 128 q)], l.map Prod.snd⟩
  | _ =>
    let r := h fFP64 (fun n => fdbl (c.fr n))
    ⟨[.f rd (fsetDbl (c.fr rd) r.1)], [r.2]⟩

/-- The G value of a comparison from its lanes, `none` for a lane with a NaN operand: 0 with a NaN operand,
1 when the relation holds in every lane and 0 when it holds in none (R106); `free` when it holds in some only
(no rule places four results in one register). -/
def cmpWord (free : DWord) (l : List (Option Bool)) : DWord :=
  if l.contains none then 0
  else if l.all (· == some true) then 1
  else if l.contains (some true) then free else 0

/-- Apply a comparison in the form of AUX, writing its one G register (R106, R192). -/
def TCtx.fpCompare (c : TCtx) (aux : Byte) (rd : Nat) (free : DWord)
    (h : FFmt → (Nat → Nat) → Option Bool × FlagSet) : LaneOut :=
  let l := match fpForm aux with
    | 0 => [h fFP32 (fun n => flane (c.fr n) 0)]
    | 1 => [0, 1, 2, 3].map (fun j => h fFP32 (fun n => flane (c.fr n) j))
    | _ => [h fFP64 (fun n => fdbl (c.fr n))]
  ⟨[.g rd (cmpWord free (l.map Prod.fst))], l.map Prod.snd⟩

/-! ## Format codes (R193) -/

/-- What a format code names. -/
inductive FmtCode where
  | elem (e : EFmt)
  /-- 0x5 MXFP8, 0x6 MXFP6, 0x7 MXFP4, 0x8 MXINT8, by element type -/
  | mx (e : EFmt)
  /-- 0xF: integer register in CVT, INT32 in tensors -/
  | int32
  deriving DecidableEq, Repr

/-- The format a code names; ETYPE bit 0 names the element type of MXFP8 and MXFP6 (R193, R197). -/
def fmtCode (code : Nat) (etype : Bool) : FmtCode :=
  match code with
  | 0x0 => .elem .fp64
  | 0x1 => .elem .fp32
  | 0x2 => .elem .bf16
  | 0x3 => .elem .fp16
  | 0x4 => .elem .tf8
  | 0x5 => .mx (if etype then .e5m2 else .e4m3)
  | 0x6 => .mx (if etype then .e2m3 else .e3m2)
  | 0x7 => .mx .e2m1
  | 0x8 => .mx .mxint8
  | 0x9 => .elem .int8
  | 0xA => .elem .uint8
  | 0xB => .elem .int4
  | 0xC => .elem .int2
  | 0xD => .elem .int1
  | 0xE => .elem .q32
  | _ => .int32

/-- Bits of one element. -/
def FmtCode.bits : FmtCode → Nat
  | .elem e => e.bits
  | .mx e => e.bits
  | .int32 => 32

/-! ## Tensor descriptors (R197) -/

/-- A tensor descriptor. -/
structure TDesc where
  addr : Nat
  fmt : Nat
  etype : Bool
  bdir : Bool
  xmode : Nat
  percol : Bool
  sfmt : Bool
  xtabNo : Nat
  zp : Int
  s : Int
  s0 : Int
  sigma : Nat
  rows : Nat
  cols : Nat
  rstride : Nat
  saddr : Nat
  deriving DecidableEq, Repr

/-- Share-relative address of descriptor `i` on tile `t` of context `c`. -/
def State.tdAddr (s : State) (t c i : Nat) : Nat := s.cblk t c 0x10 4 + 32 * i

/-- Read the descriptor at share-relative address `o`. -/
def State.tdescAt (s : State) (t c o : Nat) : TDesc :=
  let f (k n : Nat) := s.mval (s.shareA t c (o + k)) n
  { addr := f 0 4
    fmt := f 4 1
    etype := bitAt (f 5 1) 0
    bdir := bitAt (f 5 1) 7
    xmode := f 6 1 % 4
    percol := bitAt (f 6 1) 2
    sfmt := bitAt (f 6 1) 3
    xtabNo := f 6 1 / 16
    zp := sext (f 7 1) 8
    s := sext (f 8 1) 8
    s0 := sext (f 9 1) 8
    sigma := f 0xA 2
    rows := f 0xC 2
    cols := f 0xE 2
    rstride := f 0x10 4
    saddr := f 0x14 4 }

/-- Descriptor `i`. -/
def State.tdesc (s : State) (t c i : Nat) : TDesc := s.tdescAt t c (s.tdAddr t c i)

/-- The format a descriptor names. -/
def TDesc.code (d : TDesc) : FmtCode := fmtCode d.fmt d.etype

/-- Bit position of element (r, j) from ADDR: rows lie RSTRIDE bytes apart, elements of a row are
packed in column order, lowest-indexed in the least significant bits (R47, R48, R500). -/
def TDesc.bitPos (d : TDesc) (r j : Nat) : Nat := 8 * d.rstride * r + d.code.bits * j

/-- Scale byte address of element (r, j) of an MX tensor (R500). -/
def TDesc.scaleAddr (d : TDesc) (r j : Nat) : Nat :=
  if d.bdir then d.saddr + (r / 32) * d.cols + j
  else d.saddr + r * ceilDiv d.cols 32 + j / 32

/-- The raw code of element (r, j), read from the share. -/
def State.elemCode (s : State) (t c : Nat) (d : TDesc) (r j : Nat) : Nat :=
  let p := d.bitPos r j
  let n := d.code.bits
  let a := s.shareA t c (d.addr + p / 8)
  bitsOf (s.mval a (n / 8 + 2)) (p % 8) n

/-- Bytes one packed row of the element array occupies; MX rows are padded to blocks when the
blocks run along the row, and end with a whole 3-byte group of 6-bit elements otherwise (R47, R500). -/
def TDesc.rowBytes (d : TDesc) : Nat :=
  match d.code with
  | .mx e =>
    if d.bdir then (if e.bits = 6 then 3 * ceilDiv d.cols 4 else ceilDiv (d.cols * e.bits) 8)
    else ceilDiv d.cols 32 * 4 * e.bits
  | c => ceilDiv (d.cols * c.bits) 8

/-- Bytes of its scale array or PERCOL scales (R500). -/
def TDesc.scaleBytes (d : TDesc) : Nat :=
  match d.code with
  | .mx _ => if d.bdir then ceilDiv d.rows 32 * d.cols else d.rows * ceilDiv d.cols 32
  | _ => if d.percol then 2 * d.cols else 0

/-- Rows the element array holds: blocks down the columns pad to a multiple of 32 (R500). -/
def TDesc.storedRows (d : TDesc) : Nat :=
  match d.code with
  | .mx _ => if d.bdir then ceilDiv d.rows 32 * 32 else d.rows
  | _ => d.rows

/-! ## Reach of a context on its tile -/

/-- The loan context `c` holds on tile `t`. -/
def State.loanOf (s : State) (t c : Nat) : Option Loan :=
  s.loans.find? (fun l => l.ctx == c && l.tile == t)

/-- Scratchpad offset of a 64-bit share offset (it wraps at 2^64, so an offset below the share can
name a loan). -/
def State.spadOff (s : State) (c : Nat) (o : Nat) : Nat := ((s.ctxSpad c).1 + o) % 2 ^ 64

/-- Whether `n` bytes from scratchpad offset `a` lie in the context's share or in a loan it holds
on the tile (R276, R299). -/
def State.spadAdmits (s : State) (t c a n : Nat) : Bool :=
  let sp := s.ctxSpad c
  (decide (sp.1 ≤ a) && decide (a + n ≤ sp.1 + sp.2)) ||
  (match s.loanOf t c with
   | some l => decide (l.base ≤ a) && decide (a + n ≤ l.base + l.len)
   | none => false)

/-- Whether two byte ranges meet. -/
def meets (a n b m : Nat) : Bool := decide (a < b + m) && decide (b < a + n) && n != 0 && m != 0

/-- Whether `n` bytes from share offset `o` meet a protected region of the context: the context
block, the program region or the save area (R189). -/
def State.protects (s : State) (t c o n : Nat) : Bool :=
  meets o n 0 64 || meets o n (s.cblk t c 0x00 4) (s.cblk t c 0x04 4)
    || meets o n (s.cblk t c 0x08 4) 6144

/-- The fault of a port of tile `t` at `n` bytes from data address `a` in the name of context `c`: ADDR (1)
outside the context's share and the loan it holds there, PROTECT (2) for a write of a protected region
(R26, R189, R276, R340). -/
def State.portFault (s : State) (t c a n : Nat) (write : Bool) : Nat :=
  let o := a - spadBase t
  if n = 0 then 0
  else if a < spadBase t ∨ s.spadAdmits t c o n = false then 1
  else if write && decide ((s.ctxSpad c).1 ≤ o) && s.protects t c (o - (s.ctxSpad c).1) n then 2
  else 0

/-- The first fault among ranges (data address, length). -/
def State.portFaults (s : State) (t c : Nat) (l : List (Nat × Nat)) (write : Bool) : Nat :=
  ((l.map (fun r => s.portFault t c r.1 r.2 write)).find? (· ≠ 0)).getD 0

/-- Record the lines of a loan that a write touches (R300). -/
def State.loanDirty (s : State) (t c a n : Nat) : State :=
  { s with loans := s.loans.map (fun l =>
      if n ≠ 0 ∧ l.ctx = c ∧ l.tile = t ∧ l.base ≤ a ∧ a + n ≤ l.base + l.len then
        { l with dirty := ((List.range ((a + n - 1) / 4096 + 1 - a / 4096)).foldl
            (fun d i => linsert d (a / 4096 + i)) l.dirty) }
      else l) }

end Sys2Proof.Machine
end

