-- ==== Sys2Proof/Machine/Memory.lean ====
section
/-!
DEFINITION. Data space: the decode of R323, the rights of contexts (R340), refused accesses (R324),
ECC outcomes with their counts and captures (R329, R335, R345), and moving bytes with their poison
marks (R329, R336).
-/

namespace Sys2Proof.Machine

/-- The usable LPDDR5 size U (R328). -/
def State.usable (s : State) : Nat :=
  if s.rbit (memA 0x00) 29 then 0xF80000000 else 0x7C0000000

/-- A decoded data-space address (R323). -/
inductive Place where
  | lpddr (o : Nat)
  | infield (cluster o : Nat)
  | spad (tile o : Nat)
  /-- device at the distance, local address there -/
  | remote (dist a : Nat)
  | none
  deriving DecidableEq, Repr

/-- Decode a 48-bit address; the first row that matches decides (R323). -/
def State.place (s : State) (a : Nat) : Place :=
  let top := bitsOf a 44 4
  if top = 0 ∧ a < s.usable then .lpddr a
  else if top = 1 ∧ bitsOf a 25 19 = 0 then .infield (bitsOf a 23 2) (bitsOf a 0 23)
  else if top = 2 ∧ bitsOf a 25 19 = 0 then .spad (bitsOf a 20 5) (bitsOf a 0 20)
  else if top ≠ 0 ∧ bitsOf a 43 1 = 1 ∧ bitsOf a 42 1 = 0 ∧ bitsOf a 40 2 ≠ 3 then
    .remote top (bitsOf a 40 2 * 2 ^ 44 + bitsOf a 0 40)
  else .none

/-- Which row of R323 and which device decodes a place. -/
def Place.row : Place → Nat
  | .lpddr _ => 1 | .infield _ _ => 2 | .spad _ _ => 3 | .remote d _ => 4 + d | .none => 0

/-- Whether first and last byte decode under one row (R324). -/
def State.oneRow (s : State) (a n : Nat) : Bool :=
  let r := (s.place a).row
  r != 0 && n != 0 && (s.place (a + n - 1)).row == r && decide (a + n ≤ 2 ^ 48)

/-- Bounds of a context's LPDDR5 share (R276). -/
def State.ctxMem (s : State) (c : Nat) : Nat × Nat :=
  (s.rfld (ctxA c 0x10) 0 20 * 65536, s.rfld (ctxA c 0x14) 0 20 * 65536)

/-- Loan region of a partition: scratchpad offset and size in bytes (R321). -/
def State.loanRegion (s : State) (p : Nat) : Nat × Nat :=
  (s.rfld (partA p 0x10) 0 8 * 4096, s.rfld (partA p 0x10) 16 9 * 4096)

/-- Whether a context has a lender: BE, and the partition's loan SIZE is nonzero (R322). -/
def State.hasLender (s : State) (c : Nat) : Bool :=
  s.ctxBE c && decide ((s.loanRegion (s.ctxLender c)).2 ≠ 0)

/-- The backing share: base and size (R276). -/
def State.ctxBack (s : State) (c : Nat) : Nat × Nat :=
  (s.rfld (ctxA c 0x18) 0 20 * 65536,
    if s.hasLender c then (s.loanRegion (s.ctxLender c)).2 else 0)

/-- Whether `n` bytes at `a` lie in [lo, hi). -/
def inside (a n lo hi : Nat) : Bool := decide (lo ≤ a) && decide (a + n ≤ hi)

/-- Clusters that hold a tile of the context. -/
def State.ctxInCluster (s : State) (c k : Nat) : Bool := bitsOf (s.ctxTiles c) (8 * k) 8 != 0

/-- The fault of a COPY of context `c` on tile `t` on `n` bytes at `a`: 0 none, ADDR (1), or
PROTECT (2) for a write of a protected region (R189, R324, R340). -/
def State.copyFault (s : State) (t c a n : Nat) (write : Bool) : Nat :=
  if !s.oneRow a n || a % 4 != 0 then 1
  else
    match s.place a with
    | .lpddr o =>
      let m := s.ctxMem c
      let b := s.ctxBack c
      if inside o n m.1 m.2 || inside o n b.1 (b.1 + b.2) then 0 else 1
    | .infield k o =>
      let i := s.ctxInf c
      if k = t / 8 ∧ inside o n i.1 (i.1 + i.2) = true then 0 else 1
    | .spad k o =>
      if k = t ∧ s.spadAdmits t c o n = true then
        (if write && decide ((s.ctxSpad c).1 ≤ o) && s.protects t c (o - (s.ctxSpad c).1) n then 2
         else 0)
      else 1
    | .remote _ _ => 0
    | .none => 1

/-- The fault of a prefetch descriptor's address: LPDDR5 share, Infield shares, the heat's tiles and
remote addresses (R291, R340). -/
def State.pfFault (s : State) (c : Nat) (tiles : List Nat) (a n : Nat) (write : Bool) : Nat :=
  if !s.oneRow a n || a % 64 != 0 || n % 64 != 0 then 1
  else
    match s.place a with
    | .lpddr o => let m := s.ctxMem c; if inside o n m.1 m.2 then 0 else 1
    | .infield k o =>
      let i := s.ctxInf c
      if s.ctxInCluster c k && inside o n i.1 (i.1 + i.2) then 0 else 1
    | .spad k o =>
      let sp := s.ctxSpad c
      if tiles.contains k && inside o n sp.1 (sp.1 + sp.2) then
        (if write && s.protects k c (o - sp.1) n then 2 else 0)
      else 1
    | .remote _ _ => 0
    | .none => 1

/-! ## ECC outcomes -/

/-- Channel of a local LPDDR5 address (R327). -/
def lpChannel (a : Nat) : Nat := (bitsOf a 6 4) ^^^ (bitsOf a 18 4)

/-- ECC count register of the memory that holds `a`: LPDDR5, Infield or scratchpad (R345). -/
def eccReg (a : Nat) : Nat :=
  if a < 0x100000000000 then memA 0x18
  else if a < 0x200000000000 then memA (0x200 + 8 * ((a - 0x100000000000) / 0x800000))
  else tileA ((a - 0x200000000000) / 0x100000) 0x5000

/-- The event ring of the memory that holds `a` (R466). -/
def eccRing (a : Nat) : Nat :=
  if a < 0x100000000000 then 36 + lpChannel a
  else if a < 0x200000000000 then 32 + (a - 0x100000000000) / 0x800000
  else (a - 0x200000000000) / 0x100000

/-- The register with the VALID bit of the capture for `a` (R345). -/
def eccCap (a : Nat) : Nat := if a < 0x100000000000 then memA 0x24 else eccReg a + 4

/-- What an uncorrectable error at `a` captures: the word with VALID, and MEM_ERR_LO (R345). -/
def eccWords (a : Nat) : Word × Word :=
  if a < 0x100000000000 then
    (BitVec.ofNat 32 (2 ^ 31 + lpChannel a * 2 ^ 16 + a / 2 ^ 32 % 2 ^ 16), BitVec.ofNat 32 (a / 64 * 64))
  else
    (BitVec.ofNat 32 (2 ^ 31 + (if a < 0x200000000000 then a % 0x800000 else a % 0x100000) / 8), 0)

/-- Put a captured error into its registers (R345). -/
def State.eccShow (s : State) (r : Nat) (w : Word × Word) : State :=
  (if r = memA 0x24 then s.rset (memA 0x20) w.2 else s).rset r w.1

/-- Capture the first uncorrectable error after VALID was last cleared; a write of this cycle that clears VALID will
find this one (R343, R345). -/
def State.eccCapture (s : State) (a : Nat) : State :=
  let r := eccCap a
  let w := eccWords a
  let s := { s with ue := tput s.ue r (s.now, w.1, w.2) }
  if s.rbit r 31 then s else s.eccShow r w

/-- A write has cleared the VALID bit of capture register `r`: an error of the same cycle keeps it set, with its own
address (R16, R343). -/
def State.eccCleared (s : State) (r : Nat) : State :=
  match tfind s.ue r with
  | some e => if e.1 = s.now then s.eccShow r e.2 else s
  | none => s

/-- An uncorrectable error at `a`: counted, captured and written to the ring (R329, R335, R467). -/
def State.eccUE (s : State) (a : Nat) : State :=
  let s := (s.rcount (eccReg a) 16 16 1).eccCapture a
  s.event (eccRing a) 0x0D {} (a % 2 ^ 32) (2 ^ 31 + a / 2 ^ 32 % 2 ^ 16)

/-- A corrected error at `a` (R329, R335, R467). -/
def State.eccCE (s : State) (a : Nat) : State :=
  (s.rcount (eccReg a) 0 16 1).event (eccRing a) 0x0D {} (a % 2 ^ 32) (a / 2 ^ 32 % 2 ^ 16)

/-- Poisoned units met by `n` bytes from `a`. -/
def State.poisonedUnits (s : State) (a n : Nat) : List Nat :=
  s.poison.filter (fun k => decide (k < a + n) && decide (a < k + poisonUnit k))

/-- A consumer takes a poisoned unit: an uncorrectable outcome counts once, with the read that met it or here
(R329, R335). -/
def State.takePoison (s : State) (k : Nat) : State :=
  if s.lost.contains k then { s with lost := s.lost.erase k } else s.eccUE k

/-- A read of poisoned units: each counts as an uncorrectable outcome. -/
def State.readPoison (s : State) (a n : Nat) : State := s.each (s.poisonedUnits a n) State.takePoison

/-- The fault cause of a context that read poison at `a` on tile `t`: SHARE_ECC in its own shares or
a loan it holds, SHARED otherwise (R329, R335). -/
def State.poisonCause (s : State) (t c a n : Nat) : Nat :=
  if s.copyFault t c (a / 4 * 4) n false = 0 then 6 else 7

/-- Whether any of several ranges (address, length) meets a poisoned unit. -/
def State.poisonIn (s : State) (l : List (Nat × Nat)) : Bool := l.any (fun r => s.poisoned r.1 r.2)

/-- A stage of a tile reads poisoned units: each counts, and the context faults (R335). -/
def State.readUnits (s : State) (t c : Nat) (ids : Option CmdIds) : List Nat → State
  | [] => s
  | k :: l => (s.each (k :: l) State.takePoison).faultTile t c (s.poisonCause t c k 4) 1 ids

/-- A stage of a tile reads ranges of bytes, and faults on poison among them. -/
def State.stagePoison (s : State) (t c : Nat) (l : List (Nat × Nat)) (ids : Option CmdIds := none) : State :=
  s.readUnits t c ids (l.flatMap (fun r => s.poisonedUnits r.1 r.2)).eraseDups

/-- A stage of a tile reads ranges of bytes: ADDR where one leaves the context's share and loan (R324, R340),
else a fault on poison among them (R335). -/
def State.stageReads (s : State) (t c : Nat) (l : List (Nat × Nat)) (ids : Option CmdIds := none) : State :=
  match s.portFaults t c l false with
  | 0 => s.stagePoison t c l ids
  | f => s.faultTile t c f 1 ids

/-- A stage of a tile writes bytes: the whole write, or its fault (R189, R300, R324, R340). -/
def State.portWrite (s : State) (t c a : Nat) (l : List Byte) (ids : Option CmdIds := none) : State :=
  match s.portFault t c a l.length true with
  | 0 => (s.loanDirty t c (a - spadBase t) l.length).mwrite a l
  | f => s.faultTile t c f 1 ids

/-! ## Moving bytes -/

/-- The units that carry marks among `n` bytes from `a`. -/
def unitsOf (a n : Nat) : List Nat :=
  let u := poisonUnit a
  if n = 0 then [] else (List.range ((a + n - 1) / u + 1 - a / u)).map (fun i => (a / u + i) * u)

/-- Mark a unit written with poison: its next read is one not yet counted (R336). -/
def State.markUnit (s : State) (a : Nat) : State :=
  { s with lost := s.lost.erase (poisonKey a) }.mpoison a

/-- Mark the units that `n` bytes from `a` touch, but for those that `good` names: written whole in this cycle by
another (R336, R343). -/
def State.poisonRange (s : State) (good : Nat → Bool) (a n : Nat) : State :=
  s.each ((unitsOf a n).filter (fun k => !good k)) State.markUnit

/-- Move `n` bytes, marking the destination of every poisoned source unit (R329, R336). -/
def State.moveBytes (s : State) (src dst n : Nat) : State :=
  let bad := s.poisonedUnits src n
  let good := s.fullNow
  let s := s.readPoison src n
  let s := s.mwrite dst (s.mread src n)
  s.each bad (fun s k =>
    let lo := max k src
    let hi := min (k + poisonUnit k) (src + n)
    s.poisonRange good (dst + (lo - src)) (hi - lo))

/-- Write received bytes, poisoned when the reply was (R329, R392). -/
def State.writeMarked (s : State) (a : Nat) (l : List Byte) (poison : Bool) : State :=
  let good := s.fullNow
  let s := s.mwrite a l
  if poison then s.poisonRange good a l.length else s

/-! ## Ownership (R338) -/

/-- The bounds of partition p in LPDDR5 (R321). -/
def State.partMem (s : State) (p : Nat) : Nat × Nat :=
  (s.rfld (partA p 0x08) 0 20 * 65536, s.rfld (partA p 0x0C) 0 20 * 65536)

/-- The protected image shadow (R338). -/
def State.shadow (s : State) : Nat × Nat :=
  let b := s.rfld (memA 0x08) 0 20 * 65536
  (b, b + s.rfld (memA 0x0C) 0 20 * 65536)

/-- The partition whose bounds or shares hold `n` bytes at a local place: LPDDR5 bounds, or the share
of an enabled context (R338, R340). -/
def State.partOf (s : State) (pl : Place) (n : Nat) : Option Nat :=
  let ps := (List.range 16).filter s.partEn
  let cs := (List.range 64).filter s.ctxEn
  match pl with
  | .lpddr o => ps.find? (fun p => let m := s.partMem p; inside o n m.1 m.2)
  | .infield k o => (cs.find? (fun c =>
      let i := s.ctxInf c
      s.ctxInCluster c k && inside o n i.1 (i.1 + i.2))).map s.ctxPart
  | .spad t o => (cs.find? (fun c =>
      let p := s.ctxSpad c
      bitAt (s.ctxTiles c) t && inside o n p.1 (p.1 + p.2))).map s.ctxPart
  | _ => none

/-- Whether `n` bytes from LPDDR5 offset `o` lie wholly in device-owned memory (R338). -/
def State.deviceOwned (s : State) (o n : Nat) : Bool :=
  let sh := s.shadow
  decide (o + n ≤ s.usable) && !meets o n sh.1 (sh.2 - sh.1)
    && (List.range 16).all (fun p =>
      let m := s.partMem p; !s.partEn p || !meets o n m.1 (m.2 - m.1))

end Sys2Proof.Machine
end

