-- ==== Sys2Proof/Machine/Relay.lean ====
section
/-!
DEFINITION. Sending on the Relay Links: packets and credits (R384-R386), routes (R387, R388),
pacers (R303, R304) and the requests of a remote COPY (R206, R393).
-/

namespace Sys2Proof.Machine

/-! ## Accounting of traffic (R317) -/

/-- Charge LPDDR5 bytes (R317). -/
def State.chargeMem (s : State) (c n : Nat) : State :=
  s.acct c (fun a => { a with memB := a.memB + n, energy := a.energy + 30 * n })

/-- Charge Relay Link bytes sent (R317). -/
def State.chargeRly (s : State) (c n : Nat) : State :=
  s.acct c (fun a => { a with rlyB := a.rlyB + n, energy := a.energy + 20 * n })

/-! ## Pacers (R303) -/

/-- The pacer register of partition p: kind 0 memory, 1 links (R321). -/
def paceReg (p kind : Nat) : Nat := partA p (0x14 + 4 * kind)

/-- Capacity of a bucket in 1/256 bytes. -/
def State.paceCap (s : State) (p kind : Nat) : Int :=
  ((64 * 256 * s.rfld (paceReg p kind) 0 16 : Nat) : Int)

/-- Tokens of a bucket in 1/256 bytes. -/
def State.tokens (s : State) (p kind : Nat) : Int := tget 0 s.dsp.tok (2 * p + kind)

/-- Set a bucket. -/
def State.setTokens (s : State) (p kind : Nat) (v : Int) : State :=
  { s with dsp := { s.dsp with tok := tput s.dsp.tok (2 * p + kind) v } }

/-- Whether a bucket admits a request: LC, tokens not negative, or RATE 0xFFFF (R303, R304). -/
def State.paceAdmits (s : State) (p kind : Nat) (lc : Bool) : Bool :=
  lc || decide (0 ≤ s.tokens p kind) || s.rfld (paceReg p kind) 16 16 == 0xFFFF

/-- Take the tokens of an issued request of `n` bytes (R303). -/
def State.paceTake (s : State) (p kind n : Nat) : State :=
  s.setTokens p kind (max (s.tokens p kind - ((256 * n : Nat) : Int)) (-s.paceCap p kind))

/-- The partition and kind a held request waits for. -/
def Held.key : Held → Nat × Nat
  | .copy p _ _ _ => (p, 0)
  | .packet p _ _ => (p, 1)
  | .host p _ _ => (p, 0)

/-- Whether a request of the partition and kind is held. -/
def State.holds (s : State) (p kind : Nat) : Bool :=
  s.dsp.held.any (fun h => h.key == (p, kind))

/-- Hold a request, in order (R303). -/
def State.hold (s : State) (h : Held) : State :=
  { s with dsp := { s.dsp with held := s.dsp.held ++ [h] } }

/-! ## Links -/

/-- Dynamic state of link k. -/
def State.lnk (s : State) (k : Nat) : Link := tget {} s.links k
/-- Replace it. -/
def State.setLnk (s : State) (k : Nat) (l : Link) : State := { s with links := tput s.links k l }

/-- RLY_k_STAT.STATE: 7 ACTIVE, 8 NAP (R400). -/
def State.linkState (s : State) (k : Nat) : Nat := s.rfld (linkA k 0x04) 28 4

/-- Whether a packet type carries data (R384). -/
def carriesData (ty : Nat) : Bool := ty == 0x02 || ty == 0x03 || ty == 0x20 || ty == 0x21

/-- SIZE.LEN of a packet (R384). -/
def Pkt.lines (p : Pkt) : Nat := ceilDiv p.len 64

/-- Bytes of a packet on the link: header, data field and CRC (R384). -/
def Pkt.size (p : Pkt) : Nat := 20 + (if carriesData p.ty then 64 * p.lines else 0)

/-- Credits a packet needs, 16-byte units (R385). -/
def Pkt.cost (p : Pkt) : Nat := ceilDiv p.size 16

/-- The 16 bytes of a packet's header (R384). -/
def Pkt.header (p : Pkt) : List Byte :=
  [BitVec.ofNat 8 p.ty, BitVec.ofNat 8 (16 * p.src + p.dst), BitVec.ofNat 8 (64 * p.vc + p.part),
    BitVec.ofNat 8 p.bib, BitVec.ofNat 8 p.ctx, BitVec.ofNat 8 (32 * p.ttl + p.lines)]
    ++ leBytes 2 p.tag ++ leBytes 8 p.addr

/-- A packet's data field: 64 × LEN bytes, those past the access 0 (R384). -/
def Pkt.field (p : Pkt) : List Byte :=
  if carriesData p.ty then (p.data ++ lrep (64 * p.lines) 0).take (64 * p.lines) else []

/-- Append the CRC-32 of header and data (R384). -/
def withCrc (l : List Byte) : List Byte := l ++ leBytes 4 (crc32 l)

/-- A packet's bytes on the link: header, data field and CRC (R384). -/
def Pkt.wire (p : Pkt) : List Byte := withCrc (p.header ++ p.field)

/-- Whether the CRC of a received packet's bytes is good (R384, R386). -/
def crcGood (l : List Byte) : Bool := withCrc (l.take (l.length - 4)) == l

/-- TYPE and fields of a control packet's contents. -/
def CtlMsg.fields : CtlMsg → List Int
  | .time a b c d f =>
    (0x20 : Int) :: (splitRecord a 0).map (fun x => Int.ofNat x.toNat) ++ [(b : Int), (c : Int), (d : Int), f]
  | .echo a b c => [0x20, a, b, c]
  | .align a b c d sw h =>
    let o (x : Option Nat) : Int := match x with
      | some n => (n : Int)
      | none => -1
    [0x21, a, b, c, d, o sw, o h]
  | .link nak seq cr => [0x30, Int.ofNat (b2n nak), Int.ofNat seq] ++ cr.map Int.ofNat

/-- TYPE of a control packet. -/
def CtlMsg.ty : CtlMsg → Nat
  | .align _ _ _ _ _ _ => 0x21
  | .link _ _ _ => 0x30
  | _ => 0x20

/-- STEPS of device 0: its own on the device that steps, the last one received on a member (R394, R395). -/
def State.masterSteps (s : State) : Nat :=
  if s.role = 2 then s.casc.steps.getD 0 else s.rfld (splA 0x34) 0 16

/-- Contents of a control packet as it is sent: a TIME packet carries its send time and the time fields of that
moment, an echo the turnaround (R394). -/
def State.stampCtl (s : State) : CtlMsg → CtlMsg
  | .time _ r _ _ _ => .time s.cycleTime r s.timeState s.masterSteps s.time.fabBase
  | .echo sent rx _ => .echo sent rx (s.cycleTime - rx)
  | m => m

/-- A packet as it is sent. -/
def State.stamp (s : State) (p : Pkt) : Pkt :=
  match p.ctl with
  | none => { p with held := none }
  | some m =>
    let m := s.stampCtl m
    { p with
      ctl := some m, held := none
      addr := ofLeBytes ((List.range 8).map (Config.ctlByte m.fields))
      data := (List.range p.len).map (fun i => Config.ctlByte m.fields (8 + i)) }

/-- The device number of link k's partner (R382, R400). -/
def State.partner (s : State) (k : Nat) : Nat := s.rfld (linkA k 0x04) 19 4

/-- A packet of channel CTL for the partner of link k: TIME and ALIGN carry 64 bytes of data, LINK none (R384,
R385). -/
def State.ctlPkt (s : State) (k : Nat) (m : CtlMsg) : Pkt :=
  { ty := m.ty, src := s.devnum, dst := s.partner k, vc := 0, part := 0, bib := 0, ctx := 0, ttl := 1
    tag := 0, addr := 0, len := if m.ty = 0x30 then 0 else 64, ctl := some m }

/-- Credits returned by channel: those of a buffer that has become free, and those still owed (R385). -/
def addCredits (a b : List Nat) : List Nat := [0, 1, 2].map (fun v => lget 0 a v + lget 0 b v)

/-- Queue a LINK packet in channel CTL of link k: acknowledgement or NAK of a sequence number, with the credits that
return and those still owed (R385, R386). -/
def State.linkQueue (s : State) (k : Nat) (nak : Bool) (seq : Nat) (credits : List Nat) : State :=
  let l := s.lnk k
  s.setLnk k { l with
    owed := [], wait := l.wait ++ [s.ctlPkt k (.link nak seq (addCredits l.owed credits))] }

/-- The receive buffer that a packet on its way through stood in is free: its credits return in a LINK packet
(R385). -/
def State.freeBuf (s : State) (p : Pkt) : State :=
  match p.held with
  | some j =>
    if s.linkState j = 7 ∨ s.linkState j = 8 then
      s.linkQueue j false ((s.lnk j).rxSeq - 1) (lset [0, 0, 0] p.vc p.cost)
    else s
  | none => s

/-- FCLK cycles that a packet occupies the link: 31.5 GB/s is 25.2 bytes a cycle (R379). -/
def Pkt.cycles (p : Pkt) : Nat := ceilDiv (10 * p.size) 252

/-- The cycles since which the channels of a link have waited for a credit, `l` being the link as it was: from the
first packet that waits, and anew from every credit returned (R432). -/
def Link.dryAt (l l' : Link) (now : Nat) (credited : List Nat) : Tab Nat :=
  [0, 1, 2].foldl (fun m v =>
    if l'.wait.any (fun p => p.vc == v) then
      (if l.wait.any (fun p => p.vc == v) && lget 0 credited v == 0 then m else tput m v now)
    else tdel m v) l'.dry

/-- Bytes held in the replay buffer (R386). -/
def Link.replayBytes (l : Link) : Nat := (l.replay.map (fun q => q.2.size)).sum

/-- The first waiting packet of the lowest channel that has credits for it: CTL before LC before BE
(R385).  Packets of one channel keep their order. -/
def Link.pick (l : Link) : Option Pkt :=
  let head (v : Nat) := l.wait.find? (fun p => p.vc == v)
  let ok (v : Nat) := match head v with
    | some p => decide (p.cost ≤ lget 0 l.credits v) && decide (l.replayBytes + p.size ≤ 32768)
    | none => false
  if ok 0 then head 0 else if ok 1 then head 1 else if ok 2 then head 2 else none

/-- Send what credits and the replay buffer admit, while the link is ACTIVE (R385, R386). -/
def State.pump (s : State) (k : Nat) : Nat → State
  | 0 => s
  | n + 1 =>
    let l := s.lnk k
    if s.linkState k ≠ 7 then s
    else
      match l.pick with
      | none => s
      | some p =>
        let q := s.stamp p
        let l' := { l with
          wait := l.wait.erase p
          credits := lset l.credits p.vc (lget 0 l.credits p.vc - p.cost)
          replay := l.replay ++ [(l.nextSeq, q)]
          nextSeq := l.nextSeq + 1
          busyTo := max l.busyTo s.now + p.cycles
          timeSent := match q.ctl with
            | some (.time t _ _ _ _) => some t
            | _ => l.timeSent }
        let l' := { l' with dry := l.dryAt l' s.now [] }
        State.pump (((s.setLnk k l').out (.packet k l.nextSeq q q.wire)).freeBuf p) k n

/-- Send what link k can send, and the LINK packets that freed buffers queue on it and on other links (R385). -/
def State.pumpAll (s : State) (k : Nat) : State :=
  s.each (k :: (List.range 4).filter (fun j => j != k)) (fun s j => s.pump j (2 * (s.lnk j).wait.length))

/-- Queue a packet on a link (R385). -/
def State.queuePkt (s : State) (k : Nat) (p : Pkt) : State :=
  let l := s.lnk k
  let l' := { l with wait := l.wait ++ [p] }
  (s.setLnk k { l' with dry := l.dryAt l' s.now [] }).pumpAll k

/-- Send a LINK packet on link k (R385, R386). -/
def State.sendLink (s : State) (k : Nat) (nak : Bool) (seq : Nat) (credits : List Nat) : State :=
  (s.linkQueue k nak seq credits).pumpAll k

/-- Send a control packet to the partner of link k (R385, R394, R396). -/
def State.sendCtl (s : State) (k : Nat) (m : CtlMsg) : State := s.queuePkt k (s.ctlPkt k m)

/-- The route of distance d: outgoing link and hops, when V = 1 (R388). -/
def State.route (s : State) (d : Nat) : Option (Nat × Nat) :=
  let r := s.rget (routeA d)
  if d ≠ 0 ∧ fbit r 31 then some (fget r 0 2, fget r 8 3) else none

/-- Distance of a device number (R387). -/
def State.dist (s : State) (d : Nat) : Nat := (d + 16 - s.devnum) % 16

/-- The virtual channel of a context's class (R385). -/
def State.ctxVc (s : State) (c : Nat) : Nat := if s.ctxBE c then 2 else 1

/-- Issue a packet of a context: its bytes are charged and taken from its partition's bucket (R303, R317). -/
def State.issuePkt (s : State) (pt k : Nat) (p : Pkt) : State :=
  ((s.chargeRly p.ctx p.size).paceTake pt 1 p.size).queuePkt k p

/-- Send a packet of a context under its partition's pacer (R303, R304). -/
def State.pacedPkt (s : State) (c k : Nat) (p : Pkt) : State :=
  let pt := s.ctxPart c
  if s.paceAdmits pt 1 (!s.ctxBE c) && !(s.ctxBE c && s.holds pt 1) then s.issuePkt pt k p
  else s.hold (.packet pt k p)

/-- Send a packet that no pacer holds: a reply or a control packet. -/
def State.sendBack (s : State) (dst : Nat) (p : Pkt) : State :=
  match s.route (s.dist dst) with
  | some (k, h) => s.queuePkt k { p with ttl := h }
  | none => s

/-- A request of context `c` on tile `t` to the device at distance `d`: it is entered as outstanding
and sent.  `none` when no route leads there: error ROUTE (R388, R392). -/
def State.request (s : State) (c t d ty addr len : Nat) (data : List Byte) (poison : Bool)
    (kind : ReqKind) : Option State :=
  match s.route d with
  | none => none
  | some (k, h) =>
    let p : Pkt :=
      { ty := ty, src := s.devnum, dst := (s.devnum + d) % 16, vc := s.ctxVc c, part := s.ctxPart c
        bib := s.ctxBib c, ctx := c, ttl := h, tag := s.nextTag + 1, addr := addr, len := len
        data := data, poison := poison }
    let o : Outst := ⟨s.nextTag + 1, k, c, t, s.ctxBib c, kind⟩
    some ({ s with outst := s.outst ++ [o], nextTag := (s.nextTag + 1) % 65535 }.pacedPkt c k p)

/-! ## Remote COPY (R206, R393) -/

/-- Change a context's state where it is: on the tile, or saved there (R205). -/
def State.modCtx (s : State) (t c : Nat) (f : TCtx → TCtx) : State :=
  if (s.tile t).ctx = some c then s.modTc t f
  else { s with saved := s.saved.map (fun p => if p.1 = 32 * c + t then (p.1, f p.2) else p) }

/-- Change the COPY in service on a tile. -/
def State.modCopy (s : State) (t : Nat) (f : CopyRun → CopyRun) : State :=
  s.modTc t (fun x => { x with copy := x.copy.map f })

/-- Move one piece of at most 256 bytes between data-space addresses of which one is remote: a read
request for a remote source, a write request for a remote destination (R384).  `none` without a
route. -/
def State.remotePiece (s : State) (c t src dst n : Nat) (rd : Nat → ReqKind) (wr : ReqKind) :
    Option State :=
  match s.place src with
  | .remote d a => s.request c t d 0x01 a n [] false (rd dst)
  | _ =>
    match s.place dst with
    | .remote d a =>
      (s.readPoison src n).request c t d 0x03 a n (s.mread src n) (s.poisoned src n) wr
    | _ => none

/-- Issue the requests of the next 4 KiB block of the COPY on tile `t`, 256 bytes each; without a route no more is
issued (R206, R392). -/
def State.copyBlock (s : State) (t c : Nat) : Nat → State
  | 0 => s
  | n + 1 =>
    match (s.tc t).copy with
    | none => s
    | some r =>
      if r.left = 0 then s
      else
        let k := min r.left 256
        let r' := { r with src := r.src + k, dst := r.dst + k, left := r.left - k }
        let bad := if s.poisoned r.src k && (s.place r.src).row != 0 && decide ((s.place r.src).row < 4)
          then s.poisonCause t c r.src k else 0
        let e := if r.err = 0 then bad else r.err
        match s.remotePiece c t r.src r.dst k (fun d => .copyRd d) .copyWr with
        | some s2 =>
          State.copyBlock (s2.modCopy t (fun _ => { r' with outst := r.outst + 1, err := e })) t c n
        | none =>
          s.modCopy t (fun _ => { r' with left := 0, err := if e = 0 then 1031 else e })

end Sys2Proof.Machine
end

