-- ==== Sys2Proof/Machine/Baton.lean ====
section
/-!
DEFINITION. Batons: posts, waits, proxies and triggers (R305-R311).
-/

namespace Sys2Proof.Machine

/-- CFG.EN of baton b (R305). -/
def State.batonEn (s : State) (b : Nat) : Bool := s.rbit (batonA b 4) 31
/-- CFG.MODE: SEM. -/
def State.batonSem (s : State) (b : Nat) : Bool := s.rbit (batonA b 4) 30
/-- CFG.PROXY. -/
def State.batonProxy (s : State) (b : Nat) : Bool := s.rbit (batonA b 4) 29
/-- CFG.EVT. -/
def State.batonEvt (s : State) (b : Nat) : Bool := s.rbit (batonA b 4) 28
/-- CFG.HOME. -/
def State.batonHome (s : State) (b : Nat) : Nat := s.rfld (batonA b 4) 24 4
/-- CFG.PMASK. -/
def State.batonMask (s : State) (b : Nat) : Nat := s.rfld (batonA b 4) 0 16
/-- COUNT. -/
def State.batonCount (s : State) (b : Nat) : Nat := (s.rget (batonA b 0)).toNat

/-- Whether partition p can use baton b (R308). -/
def State.batonPermits (s : State) (b p : Nat) : Bool :=
  s.batonEn b && bitAt (s.batonMask b) p

/-- Whether a COUNT-mode wait is satisfied (R306). -/
def countSat (count arg : Nat) : Bool := decide ((count + 2 ^ 32 - arg % 2 ^ 32) % 2 ^ 32 < 2 ^ 31)

/-- Release a satisfied wait: a tile goes on issuing, a remote waiter gets its reply (R308, R309). -/
def State.releaseWait (s : State) (w : BWait) : State :=
  match w.src with
  | .tile t => s.modTc t (fun x => { x with hold := .none })
  | .remote _ src ctx bib tag vc =>
    s.sendBack src
      { ty := 0x12, src := s.devnum, dst := src, vc := vc, part := 0, bib := bib, ctx := ctx, ttl := 0
        tag := tag, addr := w.baton + w.arg * 2 ^ 32 }

/-- Release every satisfied waiter of a COUNT-mode baton, in order (R306). -/
def State.serveCount (s : State) (b : Nat) : State :=
  let sat (w : BWait) : Bool := w.baton == b && countSat (s.batonCount b) w.arg
  let rel := s.waits.filter sat
  { s with waits := s.waits.filter (fun w => !sat w) }.each rel State.releaseWait

/-- Serve the FIFO of a SEM baton: the head waiter while COUNT is at least its ARG (R307). -/
def State.serveSem (s : State) (b : Nat) : Nat → State
  | 0 => s
  | n + 1 =>
    match s.waits.find? (fun w => w.baton == b) with
    | none => s
    | some w =>
      if w.arg ≤ s.batonCount b then
        let s := s.rset (batonA b 0) (BitVec.ofNat 32 (s.batonCount b - w.arg))
        State.serveSem ({ s with waits := s.waits.erase w }.releaseWait w) b n
      else s

/-- Serve the waiters of a baton. -/
def State.serveBaton (s : State) (b : Nat) : State :=
  if s.batonSem b then s.serveSem b (s.waits.length + 1) else s.serveCount b

/-- Apply a post to a local baton: the count, its waiters, and the trigger of an EVT baton
(R306, R307, R310). -/
def State.postLocal (s : State) (b arg : Nat) : State :=
  let sum := s.batonCount b + arg
  let s1 := if s.batonSem b then
      (if 2 ^ 32 ≤ sum then
        (s.rset (batonA b 0) 0xFFFFFFFF).rbitSet (batonA b 4) 16 true
       else s.rset (batonA b 0) (BitVec.ofNat 32 sum))
    else s.rset (batonA b 0) (BitVec.ofNat 32 sum)
  let s2 := s1.serveBaton b
  if s.batonEvt b && decide (arg ≠ 0) && s.phase == .service then
    { s2 with dsp := { s2.dsp with trig := s2.dsp.trig ++ [s.rfld (batonA b 8) 0 16] } }
  else s2

/-- The packet of a post or wait on a proxy baton: number at the home device and ARG (R309, R384). -/
def State.proxyAddr (s : State) (b arg : Nat) : Nat :=
  s.rfld (batonA b 8) 16 15 + arg * 2 ^ 32

/-- BPOST of context `c`: `fault` gets the cause of a refusal, with CLASS 4 of a Relay Link above
bit 8 where no route leads to the home device (R306-R309, R392). -/
def State.post (s : State) (c b arg : Nat) (fault : State → Nat → State) : State :=
  if !s.batonPermits b (s.ctxPart c) then fault s 4
  else if s.batonProxy b then
    match s.route (s.batonHome b) with
    | none => fault s 1031
    | some (k, h) =>
      s.pacedPkt c k
        { ty := 0x10, src := s.devnum, dst := (s.devnum + s.batonHome b) % 16, vc := s.ctxVc c
          part := s.ctxPart c, bib := s.ctxBib c, ctx := c, ttl := h, tag := 0
          addr := s.proxyAddr b arg }
  else s.postLocal b arg

/-- A post with no context: the host's (R311) or the boot script's.  A post on a proxy carries the
lowest partition of PMASK. -/
def State.postHost (s : State) (b arg : Nat) : State :=
  if s.batonProxy b then
    match s.route (s.batonHome b) with
    | none => s
    | some (k, h) =>
      s.queuePkt k
        { ty := 0x10, src := s.devnum, dst := (s.devnum + s.batonHome b) % 16, vc := 0
          part := ((bitList 16 (s.batonMask b)).head?).getD 0, bib := 0, ctx := 0, ttl := h, tag := 0
          addr := s.proxyAddr b arg }
  else s.postLocal b arg

/-- Enter a local wait and serve its baton (R306-R308). -/
def State.enterWait (s : State) (w : BWait) : State :=
  { s with waits := s.waits ++ [w] }.serveBaton w.baton

/-- Whether a context's state holds a wait on a baton of this device. -/
def State.waitsHere (s : State) (x : TCtx) : Bool :=
  match x.hold with
  | .bwait b _ => !s.batonProxy b
  | _ => false

/-- Waits pending on this device: remote ones, and those of its tiles and of its saved contexts, which wait
on when they are restored (R206, R308). -/
def State.waitCount (s : State) : Nat :=
  (s.waits.filter (fun w => match w.src with | .tile _ => false | .remote _ _ _ _ _ _ => true)).length
    + ((List.range 32).filter (fun t => s.waitsHere (s.tc t))).length
    + (s.saved.filter (fun p => s.waitsHere p.2)).length

/-- Whether a wait is satisfied as it issues: its post is in COUNT, or no waiter stands before it in the FIFO
and COUNT is at least its ARG (R306, R307). -/
def State.satNow (s : State) (b arg : Nat) : Bool :=
  if s.batonSem b then !s.waits.any (fun w => w.baton == b) && decide (arg ≤ s.batonCount b)
  else countSat (s.batonCount b) arg

/-- A wait of tile `t` on a baton it may use: held until satisfied; a wait that would be the 513th pending
one of the device is refused (R308). -/
def State.waitTile (s : State) (t c b arg : Nat) : State :=
  let full := decide (512 ≤ s.waitCount) && !s.satNow b arg
  let s := s.modTc t (fun x => { x with hold := .bwait b arg, nextSeq := x.nextSeq + 1 })
  if s.batonProxy b then
    match s.request c t (s.batonHome b) 0x11 (s.proxyAddr b arg) 0 [] false .bwait with
    | some s2 => s2
    | none => (s.modTc t (fun x => { x with hold := .none })).faultTile t c 7 4
  else if full then
    (s.modTc t (fun x => { x with hold := .none })).faultTile t c 5
  else s.enterWait ⟨b, arg, .tile t, c, s.ctxPart c⟩

/-- BWAIT of context `c` on tile `t` (R306-R309). -/
def State.batonWait (s : State) (t c b arg : Nat) : State :=
  if !s.batonPermits b (s.ctxPart c) then s.faultTile t c 4 else s.waitTile t c b arg

/-- Withdraw the waits of tile `t` (R307, R313); a waiter behind a withdrawn head is served. -/
def State.withdraw (s : State) (t : Nat) : State :=
  let bs := (s.waits.filter (fun w => w.src == WaitSrc.tile t)).map BWait.baton
  { s with waits := s.waits.filter (fun w => w.src != WaitSrc.tile t) }.each bs State.serveBaton

end Sys2Proof.Machine
end

