-- ==== Sys2Proof/Machine/Tensor.lean ====
section
/-!
DEFINITION. Tensor stage arithmetic (chapter 3): operand values (R76-R78), products and the
summation tree (R80-R84), compensated pairs (R88, R89), output conversion in every scale-selection
mode (R57, R58, R91, R196), the exponent histogram (R96) and the running maximum (R98, R99).
-/

namespace Sys2Proof.Machine

/-! ## Operand values -/

/-- The exact value of tensor element (r, j), after input flush (R76); `qx` is the exponent of a
Q32 source. -/
def State.tval (s : State) (t c : Nat) (flush : Bool) (qx : Int) (d : TDesc) (r j : Nat) :
    FVal × FlagSet :=
  let code := s.elemCode t c d r j
  match d.code with
  | .mx e =>
    let sc := (s.mget (s.shareA t c (d.scaleAddr r j))).toNat
    if sc = 0xFF then (.nan false, flNone) else e.load false ((sc : Int) - 127) code
  | .int32 => (ofInt (sext code 32), flNone)
  | .elem .q32 => EFmt.q32.load false qx code
  | .elem .tf8 => EFmt.tf8.load flush d.s code
  | .elem .int8 => EFmt.int8.load flush d.s code
  | .elem .uint8 => EFmt.uint8.load flush d.s code
  | .elem e => e.load flush 0 code

/-- The layout of a 16-bit table entry or AFFINE scale: FP16, or BF16 (R78). -/
def half (bf : Bool) : FFmt := if bf then fBF16 else fFP16

/-- Entry `i` of expansion table `k` (R79). -/
def TCtx.xtabEntry (c : TCtx) (k i : Nat) : Nat :=
  fget (tget 0 c.xtab (8 * k + i / 2)) (16 * (i % 2)) 16

/-- The signed integer value of an INT4, INT2 or INT1 code (R48). -/
def narrowInt (d : TDesc) (code : Nat) : Int :=
  match d.code with
  | .elem .int4 => sext code 4
  | .elem .int2 => sext code 2
  | _ => if code % 2 = 0 then -1 else 1

/-- The expanded value of narrow weight code `code` in column `j` (R78).  An infinite scale times
zero is a NaN whose every product sets INVALID, as a signalling NaN scale does. -/
def State.expand (s : State) (t c : Nat) (flush : Bool) (d : TDesc) (code j : Nat) :
    FVal × FlagSet :=
  match d.xmode with
  | 1 =>
    let x := s.tc t
    (half (bitAt x.xtabFmt.toNat d.xtabNo)).load flush (x.xtabEntry d.xtabNo code)
  | 2 =>
    let sg := if d.percol then s.mval (s.shareA t c (d.saddr + 2 * j)) 2 else d.sigma
    let r := (half d.sfmt).load flush sg
    let k := narrowInt d code - d.zp
    match r.1 with
    | .nan sn => (.nan sn, r.2)
    | .inf n => if k = 0 then (.nan true, r.2) else (.inf (n != decide (k < 0)), r.2)
    | v => ((valMul v (ofInt k)).1, r.2)
  | _ => (ofInt (narrowInt d code), flNone)

/-- Whether a descriptor names INT4, INT2 or INT1. -/
def TDesc.narrow (d : TDesc) : Bool :=
  d.code == .elem .int4 || d.code == .elem .int2 || d.code == .elem .int1

/-- The value of weight element (r, j) (R76, R78). -/
def State.wval (s : State) (t c : Nat) (flush : Bool) (d : TDesc) (r j : Nat) : FVal × FlagSet :=
  if d.narrow then s.expand t c flush d (s.elemCode t c d r j) j else s.tval t c flush 0 d r j

/-! ## Products, nodes and the tree -/

/-- An FP32 product: exact, rounded once (R81). -/
def prod32 (flush : Bool) (a w : FVal × FlagSet) : Nat × FlagSet :=
  let r := fFP32.finish flush (valMul a.1 w.1)
  (r.1, a.2 ||| w.2 ||| r.2)

/-- An FP32 node (R83). -/
def node32 (flush : Bool) (x y : Nat) : Nat × FlagSet :=
  fFP32.finish flush (valAdd (fFP32.decode x) (fFP32.decode y))

/-- An INT32 node: exact, saturating (R84). -/
def nodeInt (x y : Int) : Int × FlagSet :=
  let r := satS 32 (x + y)
  (r, flIf (r != x + y) flSat)

/-- A node with absent operands: one absent operand passes the other unchanged (R82). -/
def node {α : Type} (f : α → α → α × FlagSet) (x y : Option α) : Option α × FlagSet :=
  match x, y with
  | some a, some b => let r := f a b; (some r.1, r.2)
  | some a, none => (some a, flNone)
  | none, some b => (some b, flNone)
  | none, none => (none, flNone)

/-- One level of the tree: results 2i and 2i + 1 added (R82). -/
def treeLevel {α : Type} (f : α → α → α × FlagSet) :
    List (Option α) → List (Option α) × FlagSet
  | x :: y :: t =>
    let r := node f x y
    let q := treeLevel f t
    (r.1 :: q.1, r.2 ||| q.2)
  | l => (l, flNone)

/-- The segment sum of 32 terms: five levels (R82). -/
def treeSum {α : Type} (f : α → α → α × FlagSet) (l : List (Option α)) : Option α × FlagSet :=
  let step := fun (p : List (Option α) × FlagSet) =>
    let q := treeLevel f p.1
    (q.1, p.2 ||| q.2)
  let r := step (step (step (step (step (l, flNone)))))
  (lget none r.1 0, r.2)

/-- Segments chain onto the accumulator in order (R82): `seg k` is segment k's sum. -/
def chain {α : Type} (f : α → α → α × FlagSet) (seg : Nat → Option α × FlagSet) :
    List Nat → Option α × FlagSet → Option α × FlagSet
  | [], acc => acc
  | k :: t, acc =>
    let v := seg k
    let r := node f acc.1 v.1
    chain f seg t (r.1, acc.2 ||| v.2 ||| r.2)

/-- A segment's sum from its terms: indices l and above are absent (R82). -/
def segTerms {α : Type} (f : α → α → α × FlagSet) (l : Nat) (term : Nat → α × FlagSet) (k : Nat) :
    Option α × FlagSet :=
  let ts := (List.range 32).map (fun i =>
    if 32 * k + i < l then (let r := term (32 * k + i); (some r.1, r.2)) else (none, flNone))
  let r := treeSum f (ts.map Prod.fst)
  (r.1, flUnion (ts.map Prod.snd) ||| r.2)

/-- The reduction of R82: `l` terms, an optional initial accumulator. -/
def reduce {α : Type} (f : α → α → α × FlagSet) (l : Nat) (seg : Nat → Option α × FlagSet)
    (init : Option α) : Option α × FlagSet :=
  chain f seg (List.range (ceilDiv l 32)) (init, flNone)

/-! ## The narrow path (R80) -/

/-- The exact bucket sum of R80 step 1, absent when no index carries the code: a NaN term makes it
the canonical NaN, infinities of both signs the canonical NaN with INVALID.  Of a bucket that holds both,
the NaN decides and INVALID is not set (DESIGN CHOICE, log entry 65). -/
def bucketSum (l : List (FVal × FlagSet)) : Option (FVal × FlagSet) :=
  match l with
  | [] => none
  | v :: t =>
    let fl := flUnion (l.map Prod.snd)
    let vs := l.map Prod.fst
    let infP := vs.any (fun x => x == .inf false)
    let infN := vs.any (fun x => x == .inf true)
    if vs.any FVal.isNan then some (.nan false, fl)
    else if infP && infN then some (.nan false, fl ||| flInvalid)
    else if infP then some (.inf false, fl)
    else if infN then some (.inf true, fl)
    else some ((t.map Prod.fst).foldl finAdd v.1, fl)

/-- The segment sum of the narrow path (R80): `codes` and `acts` are the segment's weight codes in
this column and its activation values; `tc` gives t_c; `n` is 4 for INT2 and 2 for INT1. -/
def narrowSeg (flush : Bool) (n : Nat) (tc : Nat → FVal × FlagSet)
    (l : List (Nat × (FVal × FlagSet))) : Option Nat × FlagSet :=
  let p := (List.range n).map (fun c =>
    match bucketSum ((l.filter (fun x => x.1 == c)).map Prod.snd) with
    | none => ((none : Option Nat), flNone)
    | some s => let r := prod32 flush (tc c) s; (some r.1, r.2))
  let r1 := treeLevel (node32 flush) (p.map Prod.fst)
  let r2 := treeLevel (node32 flush) r1.1
  (lget none (if n = 4 then r2.1 else r1.1) 0,
    flUnion (p.map Prod.snd) ||| r1.2 ||| (if n = 4 then r2.2 else flNone))

/-! ## Compensated pairs (R88, R89) -/

/-- A rounding that produces hi or s: it sets no INEXACT unless it overflows (R89). -/
def rnHi (flush : Bool) (v : FVal × FlagSet) : Nat × FlagSet :=
  let r := fFP32.finish flush v
  (r.1, if flHas r.2 flOverflow then r.2 else r.2 &&& ~~~flInexact)

/-- Whether an FP32 code is an infinity or a NaN. -/
def fp32Special (c : Nat) : Bool := decide (0x7F800000 ≤ c % 0x80000000)

/-- prod() of R88. -/
def pairProd (flush : Bool) (a w : FVal × FlagSet) : (Nat × Nat) × FlagSet :=
  let p := valMul a.1 w.1
  let hi := rnHi flush p
  if fp32Special hi.1 then ((hi.1, 0), a.2 ||| w.2 ||| hi.2)
  else
    let lo := fFP32.finish flush (valAdd p.1 (fFP32.decode hi.1).negate)
    ((hi.1, lo.1), a.2 ||| w.2 ||| hi.2 ||| lo.2)

/-- add() of R88. -/
def pairAdd (flush : Bool) (x y : Nat × Nat) : (Nat × Nat) × FlagSet :=
  let d := fFP32.decode
  let sx := valAdd (d x.1) (d y.1)
  let sm := rnHi flush sx
  if fp32Special sm.1 then ((sm.1, 0), sm.2)
  else
    let e := (valAdd sx.1 (d sm.1).negate).1
    let l := fFP32.finish flush (valAdd (d x.2) (d y.2))
    let tt := fFP32.finish flush (valAdd (d l.1) e)
    let hi := rnHi flush (valAdd (d sm.1) (d tt.1))
    let fl := sm.2 ||| l.2 ||| tt.2 ||| hi.2
    if fp32Special hi.1 then ((hi.1, 0), fl)
    else
      let lo := (valAdd (d tt.1) (valAdd (d hi.1) (d sm.1).negate).1.negate).1
      ((hi.1, (fFP32.deliver false lo).1), fl)

/-! ## MAC -/

/-- Whether a descriptor is INT8 or UINT8 with S = 0 (R73). -/
def TDesc.intZero (d : TDesc) : Bool :=
  (d.code == .elem .int8 || d.code == .elem .uint8) && decide (d.s = 0)

/-- Whether a format is an 8-bit activation of the narrow path (R80). -/
def TDesc.act8 (d : TDesc) : Bool :=
  match d.code with
  | .elem .tf8 => true | .elem .int8 => true | .elem .uint8 => true
  | .mx .e4m3 => true | .mx .e5m2 => true | .mx .mxint8 => true
  | _ => false

/-- Whether a format is an operand format of the Tensor stage (R39). -/
def TDesc.operandFmt (d : TDesc) : Bool :=
  match d.code with
  | .int32 => false | .elem .fp64 => false | .elem .q32 => false
  | _ => true

/-- The path of a MAC: accumulator kind (R73, R80, R88). -/
inductive MacPath where
  | int | float | narrow | pair
  deriving DecidableEq, Repr

/-- The path a MAC takes from its descriptors at its start (R73, R80, R88). -/
def macPath (o : MacOps) (a w : TDesc) : MacPath :=
  if bitAt o.mflags.toNat 0 then .pair
  else if a.intZero && w.intZero then .int
  else if (w.code == .elem .int2 || w.code == .elem .int1) && a.act8 then .narrow
  else .float

/-- Whether a MAC's descriptors agree in shape and format (R73, R77, R88, R90, R91, R196): INT32 is written
only from an INT32 accumulator.  On the FP32 path an initial accumulator has any of the thirteen operand
formats of R39 (DESIGN CHOICE, log entry 24). -/
def macAgrees (o : MacOps) (a w : TDesc) (c? : Option (TDesc × TDesc)) (d : TDesc)
    (d2 : Option TDesc) : Bool :=
  let pr := bitAt o.mflags.toNat 0
  let shapeOk := a.cols == w.rows && d.rows == a.rows && d.cols == w.cols
  let fmtOk := a.operandFmt && w.operandFmt && !a.narrow
    && (match a.code with | .mx _ => !a.bdir | _ => true)
    && (match w.code with | .mx _ => w.bdir | _ => true)
    && (!pr || (a.code == .elem .fp32 && w.code == .elem .fp32))
  let cOk := match c? with
    | none => true
    | some (c, c2) =>
      c.rows == d.rows && c.cols == d.cols
        && (if pr then c.code == .elem .fp32
              && (!(bitAt o.mflags.toNat 2)
                  || (c2.code == .elem .fp32 && c2.rows == d.rows && c2.cols == d.cols))
            else if a.intZero && w.intZero then c.intZero || c.code == .int32
            else c.operandFmt)
  let oOk := if bitAt o.mflags.toNat 1 then
      pr && d.code == .elem .fp32
        && (match d2 with
            | some e => e.code == .elem .fp32 && e.rows == d.rows && e.cols == d.cols
            | none => false)
    else true
  let wOk := d.code != .int32 || (!pr && a.intZero && w.intZero)
  let named (x : TDesc) : Bool := decide (x.fmt < 16)
  let mOk := match o.smode.toNat % 4 with
    | 0 => true
    | 1 => (match d.code with | .mx _ => true | _ => false)
    | 2 => (match d.code with
            | .mx _ => true | .elem .tf8 => true | .elem .int8 => true | .elem .uint8 => true
            | _ => false)
    | _ => false
  named d && (c?.map (fun q => named q.1)).getD true && shapeOk && fmtOk && cOk && oOk && wOk && mOk

/-- The accumulator of output element (i, j): its exact value for the conversion, hi for a pair,
and the low word of a pair.  An initial accumulator that is not INT32 enters the integer path by its
significand, and one that is not FP32 is rounded to FP32 before the chain node adds it (DESIGN CHOICE, log
entry 66). -/
def State.macElem (s : State) (t c : Nat) (flush : Bool) (o : MacOps) (a w : TDesc)
    (c? : Option (TDesc × TDesc)) (i j : Nat) : FVal × Nat × Nat × FlagSet :=
  let l := a.cols
  let av (k : Nat) := s.tval t c flush 0 a i k
  let wv (k : Nat) := s.wval t c flush w k j
  match macPath o a w with
  | .int =>
    let term (k : Nat) : Int × FlagSet := (FVal.sm (av k).1 * FVal.sm (wv k).1, flNone)
    let init := c?.map (fun p => FVal.sm (s.tval t c flush 0 p.1 i j).1)
    let r := reduce nodeInt l (segTerms nodeInt l term) init
    let v := r.1.getD 0
    (ofInt v, wrapN v 32, 0, r.2)
  | .pair =>
    let term (k : Nat) := pairProd flush (av k) (wv k)
    let ini (d : TDesc) : Nat × FlagSet :=
      let x := fFP32.flushIn flush (s.elemCode t c d i j); x
    let cpair := bitAt o.mflags.toNat 2
    let init := c?.map (fun p => ((ini p.1).1, if cpair then (ini p.2).1 else 0))
    let ifl := match c? with
      | some p => (ini p.1).2 ||| (if cpair then (ini p.2).2 else flNone)
      | none => flNone
    let r := reduce (pairAdd flush) l (segTerms (pairAdd flush) l term) init
    let v := r.1.getD (0, 0)
    (fFP32.decode v.1, v.1, v.2, ifl ||| r.2)
  | p =>
    let seg (k : Nat) : Option Nat × FlagSet :=
      if p = .narrow then
        let ix := (List.range 32).map (fun i => 32 * k + i) |>.filter (fun x => decide (x < l))
        narrowSeg flush (if w.code = .elem .int2 then 4 else 2) (fun cd => s.expand t c flush w cd j)
          (ix.map (fun x => (s.elemCode t c w x j, av x)))
      else segTerms (node32 flush) l (fun x => prod32 flush (av x) (wv x)) k
    let init := c?.map (fun q =>
      match q.1.code with
      | .elem .fp32 => fFP32.flushIn flush (s.elemCode t c q.1 i j)
      | _ =>
        let v := s.tval t c flush 0 q.1 i j
        match v.1 with
        -- a signalling initial accumulator keeps its signal until the node consumes it (R83)
        | .nan true => (0x7F800001, v.2)
        | x => let r := fFP32.deliver flush x; (r.1, v.2 ||| r.2))
    let r := reduce (node32 flush) l seg (init.map Prod.fst)
    let v := r.1.getD 0
    let ifl := match init with
      | some q => q.2
      | none => flNone
    (fFP32.decode v, v, 0, ifl ||| r.2)

/-! ## Output conversion (R91, R196) -/

/-- Deliver one value in a non-MX destination (R51, R196): `x` the carried exponent S for TF8,
INT8 and UINT8, `qx` the exponent of Q32. -/
def deliverElem (cd : FmtCode) (flush : Bool) (x qx : Int) (v : FVal) : Nat × FlagSet :=
  match cd with
  | .int32 => let r := deliverInt (-0x80000000) 0x7FFFFFFF v; (wrapN r.1 32, r.2)
  | .elem .q32 => EFmt.q32.deliver flush qx v
  | .elem .tf8 => EFmt.tf8.deliver flush x v
  | .elem .int8 => EFmt.int8.deliver flush x v
  | .elem .uint8 => EFmt.uint8.deliver flush x v
  | .elem e => e.deliver flush 0 v
  | .mx e => e.deliver flush x v

/-- The value an output code is written as, including its scale (R96). -/
def writtenVal (cd : FmtCode) (x qx : Int) (c : Nat) : FVal :=
  match cd with
  | .int32 => ofInt (sext c 32)
  | .elem .q32 => (EFmt.q32.load false qx c).1
  | .elem .tf8 => (EFmt.tf8.load false x c).1
  | .elem .int8 => (EFmt.int8.load false x c).1
  | .elem .uint8 => (EFmt.uint8.load false x c).1
  | .elem e => (e.load false 0 c).1
  | .mx e => (e.load false x c).1

/-- A converted tensor: element codes by row, scale bytes (share-relative address, code), the
values written, and the flags. -/
structure TOut where
  rows : List (List Nat)
  scales : List (Nat × Nat)
  vals : List FVal
  flags : FlagSet
  deriving DecidableEq, Repr

/-- Cut a list into pieces of 32. -/
def chunk32 {α : Type} : Nat → List α → List (List α)
  | 0, _ => []
  | n + 1, l => if l.isEmpty then [] else l.take 32 :: chunk32 n (l.drop 32)

/-- One block converted: exponent code, codes, flags and values (R57, R58). -/
def blockOut (e : EFmt) (flush : Bool) (blk : Bool) (x : Int) (l : List FVal) :
    Nat × List Nat × FlagSet × List FVal :=
  let ex := if blk then blockExp e (blockMax l) else x
  let r := convBlock e flush ex l
  let vs := r.2.1.map (fun c =>
    if r.1 = 0xFF then FVal.nan false else (e.load false ((r.1 : Int) - 127) c).1)
  (r.1, r.2.1, r.2.2, vs)

/-- Element `j` of every row of a list of rows. -/
def column {α : Type} (d : α) (l : List (List α)) (j : Nat) : List α := l.map (fun r => lget d r j)

/-- Convert a whole tensor of values into a destination (R57, R58, R91, R196, R500). -/
def convTensor (d : TDesc) (blk flush : Bool) (x qx : Int) (src : List (List FVal)) : TOut :=
  match d.code with
  | .mx e =>
    if d.bdir then
      let groups := chunk32 (src.length + 1) src
      let outs := groups.map (fun g =>
        (g.length, (List.range d.cols).map (fun j => blockOut e flush blk x (column (.nan false) g j))))
      let rows := (outs.map (fun o => (List.range o.1).map (fun r =>
        o.2.map (fun b => lget 0 b.2.1 r)))).flatten
      { rows := rows ++ List.replicate (d.storedRows - rows.length) []
        scales := ((List.range outs.length).zip outs).flatMap (fun p =>
          ((List.range d.cols).zip p.2.2).map (fun q => (d.saddr + p.1 * d.cols + q.1, q.2.1)))
        vals := (outs.map (fun o => (o.2.map (fun b => b.2.2.2)).flatten)).flatten
        flags := flUnion (outs.map (fun o => flUnion (o.2.map (fun b => b.2.2.1)))) }
    else
      let outs := src.map (fun r => (chunk32 (r.length + 1) r).map (blockOut e flush blk x))
      { rows := outs.map (fun r => (r.map (fun b => b.2.1)).flatten)
        scales := ((List.range outs.length).zip outs).flatMap (fun p =>
          ((List.range p.2.length).zip p.2).map (fun q =>
            (d.saddr + p.1 * ceilDiv d.cols 32 + q.1, q.2.1)))
        vals := (outs.map (fun r => (r.map (fun b => b.2.2.2)).flatten)).flatten
        flags := flUnion (outs.map (fun r => flUnion (r.map (fun b => b.2.2.1)))) }
  | cd =>
    let outs := src.map (fun r => r.map (fun v =>
      let q := deliverElem cd flush x qx v
      (q.1, q.2 ||| v.snanFlag)))
    { rows := outs.map (fun r => r.map Prod.fst)
      scales := []
      vals := (outs.map (fun r => r.map (fun q => writtenVal cd x qx q.1))).flatten
      flags := flUnion (outs.map (fun r => flUnion (r.map Prod.snd))) }

/-- Pack element codes of `n` bits, the first in the least significant bits (R47, R48). -/
def packCodes (n : Nat) : List Nat → Nat
  | [] => 0
  | c :: t => c + 2 ^ n * packCodes n t

/-- The share-relative bytes a converted tensor writes.  The bits of a row's last byte above its last packed
element are 0, where no rule completes the row (DESIGN CHOICE, log entry 73). -/
def TOut.bytes (o : TOut) (d : TDesc) : List (Nat × Byte) :=
  (((List.range o.rows.length).zip o.rows).flatMap (fun p =>
    atAddr (d.addr + p.1 * d.rstride) (leBytes d.rowBytes (packCodes d.code.bits p.2))))
  ++ o.scales.map (fun p => (p.1, BitVec.ofNat 8 p.2))

/-! ## Histogram and running maximum -/

/-- The histogram bin of a written value (R96): 0..63, 64 for ZERO, 65 for NAN. -/
def histBin (v : FVal) : Nat :=
  match v with
  | .nan _ => 65
  | .inf _ => 63
  | .num _ m e => if m = 0 then 64 else (clampI (-32) 31 (floorLog2 m e) + 32).toNat

/-- The counts of a list of written values, 66 words, each saturating (R96). -/
def histogram (l : List FVal) : List Nat :=
  (List.range 66).map (fun b => min (l.countP (fun v => histBin v == b)) 0xFFFFFFFF)

/-- The FP32 magnitude of a source value (R98); a magnitude beyond FP32 is +∞. -/
def magFP32 (v : FVal) : Word :=
  match v with
  | .nan _ => 0x7FC00000
  | .inf _ => 0x7F800000
  | .num _ m e => BitVec.ofNat 32 (fFP32.deliver false (.num false m e)).1

/-- Combine a live accumulator with one magnitude by the maximum rule in force (R67, R98). -/
def rmaxStep (service : Bool) (a b : Word) : Word :=
  BitVec.ofNat 32 (fFP32.maxMin service true a.toNat b.toNat).1

/-- The live accumulator after gathering a list of source values (R98). -/
def rmaxGather (service : Bool) (a : Word) (l : List FVal) : Word :=
  l.foldl (fun a v => rmaxStep service a (magFP32 v)) a

/-! ## Starting a Tensor command -/

/-- The bytes of a tensor's elements and scales: addresses and lengths. -/
def State.tensorData (s : State) (t c i : Nat) : List (Nat × Nat) :=
  let d := s.tdesc t c i
  let n := if d.storedRows = 0 then 0 else (d.storedRows - 1) * d.rstride + d.rowBytes
  [(s.shareA t c d.addr, n)]
    ++ (match d.code with
        | .mx _ => [(s.shareA t c d.saddr,
            if d.bdir then ceilDiv d.rows 32 * d.cols else d.rows * ceilDiv d.cols 32)]
        | _ => [])

/-- The bytes that a read of a tensor takes, its descriptor's among them. -/
def State.tensorBytes (s : State) (t c i : Nat) : List (Nat × Nat) :=
  (s.shareA t c (s.tdAddr t c i), 32) :: s.tensorData t c i

/-- The AFFINE scales of a weight tensor's columns (R78). -/
def State.scaleBytes (s : State) (t c i : Nat) : List (Nat × Nat) :=
  let d := s.tdesc t c i
  if d.narrow && d.xmode == 2 && d.percol then [(s.shareA t c d.saddr, 2 * d.cols)] else []

/-- The handover of a running-maximum slot at the first conversion of a heat that names it (R99). -/
def TCtx.handover (c : TCtx) (slot heat : Nat) : TCtx :=
  if c.rmHeat.any (fun p => p.1 == slot && p.2 == heat) then c
  else
    { c with
      rmax := tput c.rmax slot (tget 0 c.live slot)
      live := tput c.live slot 0
      rmHeat := tput c.rmHeat slot heat }

/-- The scale selection of a command (R57, R58, R196): the exponent in force, and SCALE_HELD. -/
def selectScale (d : TDesc) (smode : Nat) (first : Bool) (m : Word) : Int × FlagSet :=
  if smode % 4 = 2 then
    if first then (d.s0, flNone)
    else
      match fFP32.decode m.toNat with
      | .num _ mm e =>
        if mm = 0 then (d.s, flScaleHeld)
        else
          let e' := match d.code with
            | .mx e' => e'
            | .elem e' => e'
            | .int32 => .tf8
          (carriedScale e' (smode / 16 % 8) (.num false mm e), flNone)
      | _ => (d.s, flScaleHeld)
  else (d.s, flNone)

/-- Rows of values over a shape. -/
def tabulate {α : Type} (rows cols : Nat) (f : Nat → Nat → α) : List (List α) :=
  (List.range rows).map (fun i => (List.range cols).map (fun j => f i j))

/-- Start a conversion into descriptor `di` (R58, R59, R99): slot handover, scale selection with
the chosen s written into the descriptor, conversion of the source values, histogram and running
maximum; the result is held until the command commits. -/
def State.startOutput (s : State) (t c : Nat) (q : QCmd) (di slot smode : Nat) (qx : Int)
    (hrec : Nat) (src : List (List FVal)) (fl : FlagSet) (extra : List (Nat × Byte)) : State :=
  let d := s.tdesc t c di
  let x := (s.tc t).handover slot q.heat
  let first := tget q.heat x.convHeat di = q.heat
  let mark := if first then q.heat else 0
  let sel := selectScale d smode first (tget 0 x.rmax slot)
  let x := { x with
    convHeat := tput x.convHeat di mark }
  let o := convTensor d (smode % 4 == 1) q.flush sel.1 qx src
  let run : TensorRun :=
    { cmd := q
      bytes := o.bytes d ++ extra
      flags := fl ||| sel.2 ||| o.flags
      hist := some (histogram o.vals)
      hrec := hrec
      slot := slot
      live := some (rmaxGather (s.serves c) (tget 0 x.live slot) src.flatten) }
  let s := s.setTc t { x with tensor := some run }
  if smode % 4 = 2 then
    s.mwrite (s.shareA t c (s.tdAddr t c di + 8)) [BitVec.ofNat 8 (wrapN sel.1 8)]
  else s

/-- Start a MAC (R72-R91). -/
def State.startMac (s : State) (t c : Nat) (q : QCmd) (o : MacOps) : State :=
  let a := s.tdesc t c o.ta.toNat
  let w := s.tdesc t c o.tw.toNat
  let c? := if o.tc = 0xFFFF then none
    else some (s.tdesc t c o.tc.toNat, s.tdesc t c (o.tc.toNat + 1))
  let el := tabulate a.rows w.cols (fun i j => s.macElem t c q.flush o a w c? i j)
  let fl := flUnion (el.map (fun r => flUnion (r.map (fun e => e.2.2.2))))
  let extra := if bitAt o.mflags.toNat 1 then
      let d2 := s.tdesc t c o.tout2.toNat
      ((List.range el.length).zip el).flatMap (fun p =>
        atAddr (d2.addr + p.1 * d2.rstride)
          (leBytes d2.rowBytes (packCodes 32 (p.2.map (fun e => e.2.2.1)))))
    else []
  s.startOutput t c q o.tout.toNat o.rmslot.val o.smode.toNat o.qexp.toInt o.hrec.toNat
    (el.map (fun r => r.map (fun e => e.1))) fl extra

/-- Start a CONV (R91). -/
def State.startConv (s : State) (t c : Nat) (q : QCmd) (o : ConvOps) : State :=
  let d := s.tdesc t c o.ts.toNat
  let el := tabulate d.rows d.cols (fun i j => s.tval t c q.flush o.qexpSrc.toInt d i j)
  s.startOutput t c q o.td.toNat o.rmslot.val o.smode.toNat o.qexpDst.toInt o.hrec.toNat
    (el.map (fun r => r.map Prod.fst)) (flUnion (el.map (fun r => flUnion (r.map Prod.snd)))) []

/-- Start an XTLOAD: 32 bytes, 16-bit entries in index order (R79). -/
def State.startXtload (s : State) (t c : Nat) (q : QCmd) (k : Nat) (bf : Bool) (src : Nat) : State :=
  let ws := (List.range 8).map (fun m => s.mval (s.shareA t c (src + 4 * m)) 4)
  s.modTc t (fun x => { x with tensor := some { cmd := q, xtab := some (k, bf, ws) } })

/-- The bytes a Tensor command reads (R335). -/
def State.tensorReads (s : State) (t c : Nat) (op : StageOp) : List (Nat × Nat) :=
  let b (i : BitVec 16) := s.tensorBytes t c i.toNat
  match op with
  | .mac o => b o.ta ++ b o.tw ++ s.scaleBytes t c o.tw.toNat ++ (if o.tc = 0xFFFF then [] else
      b o.tc ++ (if bitAt o.mflags.toNat 2 then s.tensorBytes t c (o.tc.toNat + 1) else []))
      ++ [(s.shareA t c (s.tdAddr t c o.tout.toNat), 32)]
  | .conv o => b o.ts ++ [(s.shareA t c (s.tdAddr t c o.td.toNat), 32)]
  | .xtload _ _ src => [(s.shareA t c src, 32)]
  | _ => []

/-- The bytes a Tensor command writes: its outputs, the S of a CARRIED selection and the histogram record
(R58, R96, R196). -/
def State.tensorWrites (s : State) (t c : Nat) (op : StageOp) : List (Nat × Nat) :=
  let outp (i : BitVec 16) (smode : Byte) (hrec : Word) : List (Nat × Nat) :=
    s.tensorData t c i.toNat
      ++ (if smode.toNat % 4 = 2 then [(s.shareA t c (s.tdAddr t c i.toNat + 8), 1)] else [])
      ++ (if hrec = 0 then [] else [(s.shareA t c hrec.toNat, 264)])
  match op with
  | .mac o => outp o.tout o.smode o.hrec
      ++ (if bitAt o.mflags.toNat 1 then s.tensorData t c o.tout2.toNat else [])
  | .conv o => outp o.td o.smode o.hrec
  | _ => []

/-- The fault of a Tensor command that starts (R189, R299, R312, R340). -/
def State.tensorFault (s : State) (t c : Nat) (op : StageOp) : Nat :=
  let f := s.portFaults t c (s.tensorReads t c op) false
  if f = 0 then s.portFaults t c (s.tensorWrites t c op) true else f

/-- The tensor a conversion writes: the destination descriptor and the slot of a MAC or CONV. -/
def StageOp.dest : StageOp → Option (Nat × Nat)
  | .mac o => some (o.tout.toNat, o.rmslot.val)
  | .conv o => some (o.td.toNat, o.rmslot.val)
  | _ => none

/-- Whether a heat before heat `heat` on this tile may still convert into a tensor or slot (R59, R99): its
program has not ended, or a command of it that names one of them has not committed. -/
def TCtx.converts (c : TCtx) (heat : Nat) (d : Nat × Nat) : Bool :=
  let meetsD (q : QCmd) : Bool := q.op.dest.any (fun e => e.1 == d.1 || e.2 == d.2)
  let cmds := c.qt ++ (c.tensor.map TensorRun.cmd).toList
  (c.heats.takeWhile (fun h => h.num != heat)).any (fun h =>
    !h.hended || cmds.any (fun q => q.heat == h.num && meetsD q))

/-- Heats roll over in TILE_t_TFLAG when the Tensor stage accepts the first command of a new heat
(R94 steps 1 and 4); with no heat in TILE_t_TFLAG before it, TILE_t_TFLAG_PREV stays as it is (DESIGN
CHOICE, log entry 74). -/
def TCtx.tfRoll (c : TCtx) (heat : Nat) (final : Bool) : TCtx :=
  if c.tfHeat = some heat ∨ c.tfPrev = some heat then c
  else
    { c with
      tflagPrev := match c.tfHeat with
        | some _ => fsetBit (c.tflag &&& 0xFFFF007F) 15 final
        | none => c.tflagPrev
      tfPrev := c.tfHeat
      tflag := BitVec.ofNat 32 (heat % 2 ^ 16 * 2 ^ 16)
      tfHeat := some heat }

/-- Whether the Tensor stage accepts work of a heat: none of a third heat until FINAL is 1 (R94). -/
def TCtx.tfAccepts (c : TCtx) (heat : Nat) : Bool :=
  c.tfHeat == some heat || c.tfPrev == some heat || c.tfPrev.isNone || fbit c.tflagPrev 15

/-- Whether every Tensor command and product of heat `h` has committed (R94): the heat's program
has ended and no unfinished Tensor work carries its number. -/
def TCtx.tensorFinal (c : TCtx) (h : Nat) : Bool :=
  (match c.heat? h with
   | some x => x.hended
       && (match x.solve with
           | some r => decide (r.count ≤ lget 0 r.left 1)
           | none => true)
   | none => true)
  && !(c.qt.any (fun q => q.heat == h))
  && (match c.tensor with
      | some r => r.cmd.heat != h
      | none => true)
  && !(c.qa.any (fun q => q.heat == h))

/-- Add flags to the heat that raised them, wherever its flags stand (R94 step 2). -/
def TCtx.tfAdd (c : TCtx) (heat : Nat) (f : FlagSet) : TCtx :=
  let w : Word := BitVec.ofNat 32 (f.toNat % 128)
  let c := c.modHeatNum heat (fun h => { h with tflags := h.tflags ||| f })
  if c.tfHeat = some heat then { c with tflag := c.tflag ||| w }
  else if c.tfPrev = some heat then { c with tflagPrev := c.tflagPrev ||| w }
  else c

/-- FINAL is set once the previous heat's last Tensor command has committed (R94 step 3). -/
def TCtx.tfFinal (c : TCtx) : TCtx :=
  match c.tfPrev with
  | some h => if c.tensorFinal h then { c with tflagPrev := fsetBit c.tflagPrev 15 true } else c
  | none => c

end Sys2Proof.Machine
end

