-- ==== Sys2Proof/Machine/Template.lean ====
section
/-!
DEFINITION. Templates (R122-R126), exact block-exponent arithmetic (R132, R137), assembly
(R128-R130), Tensor products (R135), factorizations (R138-R141) and triangular solves (R146).
-/

namespace Sys2Proof.Machine

/-! ## Exact arithmetic -/

/-- An exact dyadic value m 2^e. -/
structure Dy where
  m : Int
  e : Int
  deriving DecidableEq, Repr

/-- Zero. -/
def Dy.zero : Dy := ⟨0, 0⟩

/-- m as a multiple of 2^k, k ≤ e. -/
def Dy.at (x : Dy) (k : Int) : Int := x.m * ((2 ^ (x.e - k).toNat : Nat) : Int)

/-- Exact sum. -/
def Dy.add (x y : Dy) : Dy := let k := min x.e y.e; ⟨x.at k + y.at k, k⟩
/-- Exact difference. -/
def Dy.sub (x y : Dy) : Dy := let k := min x.e y.e; ⟨x.at k - y.at k, k⟩
/-- Exact product. -/
def Dy.mul (x y : Dy) : Dy := ⟨x.m * y.m, x.e + y.e⟩
/-- Negation. -/
def Dy.neg (x : Dy) : Dy := ⟨-x.m, x.e⟩
/-- Magnitude. -/
def Dy.abs (x : Dy) : Dy := ⟨(x.m.natAbs : Int), x.e⟩
/-- Exact comparison. -/
def Dy.lt (x y : Dy) : Bool := let k := min x.e y.e; decide (x.at k < y.at k)
/-- x ≤ y. -/
def Dy.le (x y : Dy) : Bool := !(y.lt x)
/-- The larger of two values. -/
def Dy.max (x y : Dy) : Dy := if x.lt y then y else x
/-- The smaller of two values. -/
def Dy.min (x y : Dy) : Dy := if y.lt x then y else x
/-- Sum of a list. -/
def Dy.sum (l : List Dy) : Dy := l.foldl Dy.add Dy.zero
/-- Greatest magnitude of a list: the infinity norm. -/
def Dy.norm (l : List Dy) : Dy := l.foldl (fun a x => a.max x.abs) Dy.zero

/-- The value of a Q32 word at exponent E (R49). -/
def q32 (e : Int) (w : Word) : Dy := ⟨w.toInt, e - 31⟩

/-- Round m 2^e to a multiple of 2^u, ties to even. -/
def rneTo (m e u : Int) : Int :=
  if u ≤ e then m * ((2 ^ (e - u).toNat : Nat) : Int) else rneShr m (u - e).toNat

/-- Saturate to a Q32 word and say whether it saturated (R132 step 3). -/
def satQ (i : Int) : Word × Bool :=
  let c := satS 32 i
  (BitVec.ofInt 32 c, c != i)

/-- rnd(x, E) of R132, with the saturation. -/
def rnd (x : Dy) (e : Int) : Word × Bool := satQ (rneTo x.m x.e (e - 31))

/-- rnd(1/d, E) of the reciprocal unit, d positive (R137). -/
def rndRecip (d : Dy) (e : Int) : Word × Bool :=
  let k := -(d.e) - (e - 31)
  if 0 ≤ k then satQ (rneDiv ((2 ^ k.toNat : Nat) : Int) d.m.toNat)
  else satQ (rneDiv 1 (d.m.toNat * 2 ^ (-k).toNat))

/-- rnd(√d, E) of the reciprocal unit (R137). -/
def rndSqrt (d : Dy) (e : Int) : Word × Bool :=
  let u := e - 31
  let k0 := (d.e - 2 * (u - 2)).toNat
  let k := if (d.e - (k0 : Int)) % 2 = 0 then k0 else k0 + 1
  let x := d.m.toNat * 2 ^ k
  let r := isqrt x
  satQ (rneTo ((2 * r + b2n (r * r != x) : Nat) : Int) ((d.e - (k : Int)) / 2 - 1) u)

/-- rnd(1/√d, E) of the reciprocal unit (R137). -/
def rndRsqrt (d : Dy) (e : Int) : Word × Bool :=
  let u := e - 31
  let k := -(2 * u) - d.e
  let j := 2 + (-k).toNat
  let a := 2 ^ (k + 2 * (j : Int)).toNat
  let r := isqrt (a / d.m.toNat)
  satQ (rneTo ((2 * r + b2n (r * r * d.m.toNat != a) : Nat) : Int) (-(j : Int) - 1) 0)

/-! ## Template records (R124, R125) -/

/-- An array descriptor (R125). -/
structure ADesc where
  id : Nat
  exp : Int
  cexp : Int
  lower : Bool
  vary : Bool
  rows : Nat
  cols : Nat
  addr : Nat
  deriving DecidableEq, Repr

/-- A parameter descriptor (R125). -/
structure PDesc where
  src : Nat
  fmt : Nat
  exp : Int
  index : Nat
  stride : Nat
  lo : Word
  hi : Word
  deriving DecidableEq, Repr

/-- A term (R125). -/
structure TermD where
  arr : Nat
  par : Nat
  elem : Nat
  coef : Word
  deriving DecidableEq, Repr

/-- A product descriptor (R125). -/
structure ProdD where
  dst : Nat
  x : Nat
  y : Nat
  c : Nat
  pair : Bool
  syrk : Bool
  xt : Bool
  yt : Bool
  alpha : Int
  deriving DecidableEq, Repr

/-- A solve descriptor (R125). -/
structure SolvD where
  op : Nat
  src : Nat
  dst : Nat
  deriving DecidableEq, Repr

/-- A template (R124). -/
structure Tmpl where
  stag : Nat
  n : Nat
  m : Nat
  k : Nat
  fmeth : Nat
  fpol : Nat
  gang : Nat
  npar : Nat
  naux : Nat
  arrs : List ADesc
  pars : List PDesc
  terms : List TermD
  prods : List ProdD
  solvs : List SolvD
  pmin : Word
  fstore : Nat
  warm : Nat
  fallback : Nat
  out : Nat
  proof : Nat
  narr : Nat
  deriving DecidableEq, Repr

/-- Read an array descriptor at data address `a`. -/
def State.adescAt (s : State) (a : Nat) : ADesc :=
  { id := s.mval a 1, exp := sext (s.mval (a + 1) 1) 8, cexp := sext (s.mval (a + 2) 1) 8
    lower := bitAt (s.mval (a + 3) 1) 0, vary := bitAt (s.mval (a + 3) 1) 1
    rows := s.mval (a + 4) 2, cols := s.mval (a + 6) 2, addr := s.mval (a + 8) 4 }

/-- Read a parameter descriptor. -/
def State.pdescAt (s : State) (a : Nat) : PDesc :=
  { src := s.mval a 1, fmt := s.mval (a + 1) 1, exp := sext (s.mval (a + 2) 1) 8
    index := s.mval (a + 4) 4, stride := s.mval (a + 8) 4
    lo := BitVec.ofNat 32 (s.mval (a + 0xC) 4), hi := BitVec.ofNat 32 (s.mval (a + 0x10) 4) }

/-- Read a product descriptor. -/
def State.prodAt (s : State) (a : Nat) : ProdD :=
  let md := s.mval (a + 4) 1
  { dst := s.mval a 1, x := s.mval (a + 1) 1, y := s.mval (a + 2) 1, c := s.mval (a + 3) 1
    pair := bitAt md 0, syrk := bitAt md 1, xt := bitAt md 2, yt := bitAt md 3
    alpha := sext (s.mval (a + 5) 1) 8 }

/-- The term list up to its terminating entry (R125), at most `fuel` entries. -/
def State.termsAt (s : State) : Nat → Nat → List TermD
  | 0, _ => []
  | n + 1, a =>
    if s.mval a 1 = 0 then []
    else
      { arr := s.mval a 1, par := s.mval (a + 2) 2, elem := s.mval (a + 4) 4
        coef := BitVec.ofNat 32 (s.mval (a + 8) 4) } :: s.termsAt n (a + 12)

/-- Read the template whose header lies at data address `a` (R124); `lim` is the end of the share,
which bounds the term list (R127). -/
def State.tmplAt (s : State) (a lim : Nat) : Tmpl :=
  let f (o n : Nat) := s.mval (a + o) n
  let table {α : Type} (cnt off sz : Nat) (rd : Nat → α) : List α :=
    (List.range cnt).map (fun i => rd (a + f off 4 + sz * i))
  { stag := f 0x00 4, n := f 0x04 2, m := f 0x06 2, k := f 0x08 1, fmeth := f 0x09 1
    fpol := f 0x0A 1, gang := f 0x0B 1, npar := f 0x0C 2, narr := f 0x0E 1, naux := f 0x12 2
    arrs := table (f 0x0E 1) 0x18 12 s.adescAt
    pars := table (f 0x0C 2) 0x14 20 s.pdescAt
    terms := s.termsAt ((lim - (a + f 0x1C 4)) / 12) (a + f 0x1C 4)
    prods := table (f 0x0F 1) 0x20 8 s.prodAt
    solvs := table (f 0x10 2) 0x24 4 (fun o => ⟨s.mval o 1, s.mval (o + 1) 1, s.mval (o + 2) 1⟩)
    pmin := BitVec.ofNat 32 (f 0x28 4), fstore := f 0x2C 4, warm := f 0x30 4, fallback := f 0x34 4
    out := f 0x38 4, proof := f 0x3C 4 }

/-- The KIND of a structure tag (R122). -/
def Tmpl.kind (p : Tmpl) : Nat := p.stag / 2 ^ 28

/-- The descriptor of a role code. -/
def Tmpl.arr? (p : Tmpl) (id : Nat) : Option ADesc := p.arrs.find? (fun d => d.id == id)

/-- A descriptor for roles a template does not name: an empty array. -/
def noArr (id : Nat) : ADesc := ⟨id, 0, 0, false, false, 0, 0, 0⟩

/-- The descriptor of a role code, or an empty array. -/
def Tmpl.arr (p : Tmpl) (id : Nat) : ADesc := (p.arr? id).getD (noArr id)

/-- The template at share offset `off` (R124). -/
def State.tmpl (s : State) (t c off : Nat) : Tmpl :=
  let sp := s.ctxSpad c
  s.tmplAt (s.shareA t c off) (spadBase t + sp.1 + sp.2)

/-- Number of stored elements (R126). The L of QR holds its first N rows as a triangle and the rows
below as dense rows of N (R127). -/
def ADesc.size (d : ADesc) : Nat :=
  if d.lower then
    (if d.rows ≤ d.cols then d.rows * (d.rows + 1) / 2
     else d.cols * (d.cols + 1) / 2 + (d.rows - d.cols) * d.cols)
  else d.rows * d.cols

/-- Storage index of element (i, j) (R126). -/
def ADesc.idx (d : ADesc) (i j : Nat) : Nat :=
  if d.lower then
    if d.cols ≤ i ∧ d.cols < d.rows then d.cols * (d.cols + 1) / 2 + (i - d.cols) * d.cols + j
    else if j ≤ i then i * (i + 1) / 2 + j else j * (j + 1) / 2 + i
  else i * d.cols + j

/-! ## Assembly (R128-R130) -/

/-- PFLAG bits (R133). -/
def pfAsm : Nat := 0x001
def pfTen : Nat := 0x002
def pfFac : Nat := 0x004
def pfSol : Nat := 0x008
def pfItr : Nat := 0x010
def pfEmt : Nat := 0x020
def pfPivot : Nat := 0x040
def pfRange : Nat := 0x080
def pfNonfinite : Nat := 0x100
def pfStale : Nat := 0x200
def pfRefact : Nat := 0x400

/-- A flag when a condition holds. -/
def pfIf (b : Bool) (f : Nat) : Nat := if b then f else 0

/-- Bitwise OR of PFLAG words. -/
def pfOr (a b : Nat) : Nat := a ||| b

/-- The source format a HOST parameter's FMT names (R125, R128). -/
def parFmt (f : Nat) : EFmt :=
  match f with
  | 1 => .fp32 | 2 => .bf16 | 3 => .fp16 | 4 => .tf8 | 5 => .int8 | _ => .q32

/-- The raw value of a parameter as Q32 at its EXP, and the PFLAG bits it sets (R129 first two
items). -/
def parConv (p : PDesc) (v : FVal) : Word × Nat :=
  let r := EFmt.q32.deliver false p.exp v
  (BitVec.ofNat 32 r.1,
    match v with
    | .num _ _ _ => pfIf (flHas r.2 flSaturated) pfAsm
    | _ => pfNonfinite)

/-- Hold a parameter in its declared range (R129). -/
def parClamp (p : PDesc) (w : Word) : Word × Nat :=
  if w.toInt < p.lo.toInt then (p.lo, pfRange)
  else if p.hi.toInt < w.toInt then (p.hi, pfRange) else (w, 0)

/-- A word of the host parameter block copied at the heat's start (R128). -/
def hostWord (h : Heat) (base o : Nat) : Nat :=
  ofLeBytes ((List.range 4).map (fun k => tget emptyByte h.host (base + o + k)))

/-- The raw value of a HOST word in the format of its parameter (R128). -/
def hostVal (flush : Bool) (p : PDesc) (w : Nat) : FVal :=
  ((parFmt p.fmt).load flush (if p.fmt = 0 then p.exp else 0) w).1

/-- The output descriptor's header and entries (R169). -/
structure OutD where
  nout : Nat
  status : Nat
  ostore : Nat
  ents : List (Nat × Nat × Nat × Nat × Nat)
  deriving DecidableEq, Repr

/-- Read the output descriptor at data address `a`: entries are (ARR, DEST, LOOP, LSTRIDE, ELEM). -/
def State.outAt (s : State) (a : Nat) : OutD :=
  { nout := s.mval a 2, status := s.mval (a + 4) 4, ostore := s.mval (a + 8) 4
    ents := (List.range (s.mval a 2)).map (fun j =>
      let o := a + 16 + 12 * j
      (s.mval o 1, s.mval (o + 1) 1, s.mval (o + 2) 2, s.mval (o + 4) 2, s.mval (o + 8) 4)) }

/-- Whether problem i's output from the previous heat of the same template exists (R128 PREV). -/
def State.hasPrev (s : State) (ta i : Nat) (h : Heat) : Bool :=
  match h.solve with
  | some r => r.prevHeat != 0 && (tget {} s.tmpls ta).outs.contains (r.prevHeat, i)
  | none => false

/-- Parameter j of problem i after R129, with its PFLAG bits.  A LOOP number counts modulo 1024, a FCST element
is read in its descriptor's format, a Q32 one at the parameter's EXP, and SRC 5 to 255 are read as PREV (DESIGN
CHOICE, log entry 67). -/
def State.parVal (s : State) (t c : Nat) (flush : Bool) (h : Heat) (tp : Tmpl) (ta i : Nat)
    (p : PDesc) : Word × Nat :=
  let fin (r : Word × Nat) : Word × Nat := let k := parClamp p r.1; (k.1, r.2 ||| k.2)
  match p.src with
  | 0 => fin (p.lo, 0)
  | 1 =>
    let n := (p.index + i * p.stride) % 1024
    let sn := (tfind h.snap n).getD ⟨0, 0, 0, false⟩
    let r := parConv p (EFmt.q32.load false 0 sn.y.toNat).1
    fin (r.1, r.2 ||| pfIf sn.stale pfStale)
  | 2 =>
    let d := s.tdesc t c p.index
    let k := i * p.stride
    let v := s.tval t c flush p.exp d (k / max d.cols 1) (k % max d.cols 1)
    fin (parConv p v.1)
  | 3 =>
    let w := hostWord h (s.shareA t c (s.cblk t c 0x0C 4)) (p.index + 4 * i * p.stride)
    fin (parConv p (hostVal flush p w))
  | _ =>
    let od := s.outAt (ta + tp.out)
    if s.hasPrev ta i h then
      let e := lget (0, 0, 0, 0, 0) od.ents p.index
      let w := s.mval (s.shareA t c (od.ostore + 4 * od.nout * i + 4 * p.index)) 4
      fin (parConv p (EFmt.q32.load false (tp.arr e.1).exp w).1)
    else (p.lo, 0)

/-- The value of an array element with its terms (R130). -/
def termSum (d : ADesc) (b : Word) (pv : List (Word × Nat)) (ps : List PDesc) (l : List TermD) : Dy :=
  l.foldl (fun a k =>
    let p := (ps.map PDesc.exp)
    a.add ((q32 d.cexp k.coef).mul (q32 (lget 0 p k.par) (lget (0, 0) pv k.par).1))) (q32 d.exp b)

/-- The column that holds the element with storage index `e` (R126). -/
def ADesc.colOf (d : ADesc) (e : Nat) : Nat :=
  if d.lower then
    let tri := min d.rows d.cols
    let full := tri * (tri + 1) / 2
    if full ≤ e then (e - full) % max d.cols 1
    else
      let i := (isqrt (8 * e + 1) - 1) / 2
      e - i * (i + 1) / 2
  else e % max d.cols 1

/-- Whether the panel of column j, or the group of right-hand side j, belongs to rank `r` of a gang of `g`
tiles (R149). -/
def ownCol (r g j : Nat) : Bool := j / 16 % max g 1 == r

/-- The working copy of a varying array (R130), with the saturation of the columns that rank `rk` of the gang
assembles (R149). -/
def State.assembleArr (s : State) (ta : Nat) (tp : Tmpl) (pv : List (Word × Nat)) (rk : Nat) (d : ADesc) :
    Tab Word × Nat :=
  let el := (List.range d.size).map (fun e =>
    let b : Word := BitVec.ofNat 32 (s.mval (ta + d.addr + 4 * e) 4)
    let ts := tp.terms.filter (fun k => k.arr == d.id && k.elem == e)
    if ts.isEmpty then (e, b, false)
    else let r := rnd (termSum d b pv tp.pars ts) d.exp; (e, r.1, r.2))
  (el.map (fun x => (x.1, x.2.1)), pfIf (el.any (fun x => x.2.2 && ownCol rk tp.gang (d.colOf x.1))) pfAsm)

/-- Assemble problem i: its varying arrays and PFLAG (R128-R130, R133). -/
def State.assemble (s : State) (t c : Nat) (flush : Bool) (h : Heat) (tp : Tmpl) (ta i : Nat) :
    Tab (Tab Word) × Nat :=
  let pv := tp.pars.map (s.parVal t c flush h tp ta i)
  let vs := tp.arrs.filter (fun d => d.vary)
  let r := vs.map (fun d => (d.id, s.assembleArr ta tp pv h.rank d))
  (r.foldl (fun a x => tput a x.1 x.2.1) [],
    pv.foldl (fun a x => a ||| x.2) (r.foldl (fun a x => a ||| x.2.2) 0))

/-! ## Reading arrays of a problem -/

/-- Where a problem's arrays are read: the template, its address, the working copies, the factor bank in use,
and the rank whose share of the work sets the flags (R149). -/
structure Env where
  tp : Tmpl
  ta : Nat
  arrs : Tab (Tab Word)
  bank : FBank
  rank : Nat := 0
  deriving DecidableEq, Repr

/-- Whether the rank works on column j (R149). -/
def Env.owns (v : Env) (j : Nat) : Bool := ownCol v.rank v.tp.gang j

/-- Word at storage index `e` of a role (R121, R126, R143). -/
def State.aword (s : State) (v : Env) (id e : Nat) : Word :=
  let base := BitVec.ofNat 32 (s.mval (v.ta + (v.tp.arr id).addr + 4 * e) 4)
  match tfind v.arrs id with
  | some t => tget base t e
  | none =>
    match id with
    | 0x07 => tget 0 v.bank.l e
    | 0x08 => tget 0 v.bank.d e
    | 0x09 => tget 0 v.bank.rd e
    | _ => base

/-- The exact value of element (i, j) of a role; above its diagonal the triangular factor L is 0. -/
def State.aval (s : State) (v : Env) (id i j : Nat) : Dy :=
  let d := v.tp.arr id
  if id = 0x07 ∧ i < j then Dy.zero else q32 d.exp (s.aword v id (d.idx i j))

/-! ## Products (R135, R136) -/

/-- The FP32 conversion of a Q32 value scaled by 2^a (R135). -/
def toFP32 (flush : Bool) (x : Dy) (a : Int) : Nat × FlagSet :=
  fFP32.deliver flush (.num (decide (x.m < 0)) x.m.natAbs (x.e + a))

/-- One element of a product: the Q32 word, the Tensor flags and the PFLAG bits. -/
def prodElem (flush pair : Bool) (ed : Int) (k : Nat) (x y : Nat → Nat × FlagSet)
    (c : Option (Nat × FlagSet)) : Word × FlagSet × Nat :=
  let cf := match c with
    | some q => q.2
    | none => flNone
  let fin (v : FVal) (f : FlagSet) : Word × FlagSet × Nat :=
    let r := EFmt.q32.deliver flush ed v
    (BitVec.ofNat 32 r.1, f ||| r.2 ||| cf,
      match v with
      | .num _ _ _ => pfIf (flHas r.2 flSaturated) pfTen
      | _ => pfNonfinite ||| pfIf (flHas r.2 flSaturated) pfTen)
  let dv (p : Nat × FlagSet) : FVal × FlagSet := (fFP32.decode p.1, p.2)
  if pair then
    let r := reduce (pairAdd flush) k
      (segTerms (pairAdd flush) k (fun i => pairProd flush (dv (x i)) (dv (y i))))
      (c.map (fun q => (q.1, 0)))
    let p := r.1.getD (0, 0)
    fin (valAdd (fFP32.decode p.1) (fFP32.decode p.2)).1 r.2
  else
    let r := reduce (node32 flush) k
      (segTerms (node32 flush) k (fun i => prod32 flush (dv (x i)) (dv (y i)))) (c.map Prod.fst)
    fin (fFP32.decode (r.1.getD 0)) r.2

/-- Run one product descriptor (R135): the DST working array, and the flags and PFLAG bits of the columns that
the rank forms (R149). -/
def State.runProd (s : State) (flush : Bool) (v : Env) (p : ProdD) : Tab Word × FlagSet × Nat :=
  let dx := v.tp.arr p.x
  let dd := v.tp.arr p.dst
  let xt := p.syrk || p.xt
  let inner := if xt then dx.rows else dx.cols
  let xe (i k : Nat) := toFP32 flush (if xt then s.aval v p.x k i else s.aval v p.x i k) p.alpha
  let ye (k j : Nat) :=
    if p.syrk then toFP32 flush (s.aval v p.x k j) 0
    else toFP32 flush (if p.yt then s.aval v p.y j k else s.aval v p.y k j) 0
  let cells := (List.range dd.rows).flatMap (fun i =>
    (List.range (if dd.lower then min (i + 1) dd.cols else dd.cols)).map (fun j => (i, j)))
  let outs := cells.map (fun q =>
    let c := if p.c = 0 then none else some (toFP32 flush (s.aval v p.c q.1 q.2) 0)
    (q.2, dd.idx q.1 q.2, prodElem flush p.pair dd.exp inner (xe q.1) (fun k => ye k q.2) c))
  let own := outs.filter (fun o => v.owns o.1)
  (outs.foldl (fun a o => tput a o.2.1 o.2.2.1) [], flUnion (own.map (fun o => o.2.2.2.1)),
    own.foldl (fun a o => a ||| o.2.2.2.2) 0)

/-- Run every product in descriptor order (R136). -/
def State.runProds (s : State) (flush : Bool) (v : Env) : Env × FlagSet × Nat :=
  v.tp.prods.foldl (fun a p =>
    let r := s.runProd flush a.1 p
    ({ a.1 with arrs := tput a.1.arrs p.dst r.1 }, a.2.1 ||| r.2.1, a.2.2 ||| r.2.2)) (v, flNone, 0)

/-! ## Factorizations (R138-R142) -/

/-- A factorization in progress: the bank and the PFLAG bits of the rank's columns (R149). -/
structure FRun where
  b : FBank
  fl : Nat
  deriving DecidableEq, Repr

/-- Exact sum over t < k. -/
def dySum (k : Nat) (f : Nat → Dy) : Dy := Dy.sum ((List.range k).map f)

/-- L element of a bank. -/
def FBank.lval (b : FBank) (d : ADesc) (i j : Nat) : Dy := q32 d.exp (tget 0 b.l (d.idx i j))

/-- One column of CHOL (R138, R141). -/
def State.cholCol (s : State) (v : Env) (n : Nat) (r : FRun) (j : Nat) : FRun :=
  let dh := v.tp.arr 0x01
  let dl := v.tp.arr 0x07
  let er := (v.tp.arr 0x09).exp
  let dotL (i : Nat) := dySum j (fun t => (r.b.lval dl i t).mul (r.b.lval dl j t))
  let d0 := rnd ((s.aval v 0x01 j j).sub (dotL j)) dh.exp
  let low := decide (d0.1.toInt < v.tp.pmin.toInt)
  let d := q32 dh.exp (if low then v.tp.pmin else d0.1)
  let lj := rndSqrt d dl.exp
  let rd := rndRsqrt d er
  let rdv := q32 er rd.1
  let rows := ((List.range n).filter (fun i => decide (j < i))).map (fun i =>
    let x := rnd ((s.aval v 0x01 i j).sub (dotL i)) dh.exp
    let y := rnd ((q32 dh.exp x.1).mul rdv) dl.exp
    (i, y.1, x.2 || y.2))
  let l := tput r.b.l (dl.idx j j) lj.1
  { b := { r.b with
      l := rows.foldl (fun a q => tput a (dl.idx q.1 j) q.2.1) l
      rd := tput r.b.rd j rd.1 }
    fl := r.fl ||| pfIf (v.owns j && low) pfPivot
      ||| pfIf (v.owns j && (d0.2 || lj.2 || rd.2 || rows.any (fun q => q.2.2))) pfFac }

/-- The expected sign of LDLT column j (R139). -/
def ldltSign (n naux j : Nat) : Int := if j < n - naux then 1 else -1

/-- One column of LDLT (R139, R141). -/
def State.ldltCol (s : State) (v : Env) (n : Nat) (r : FRun) (j : Nat) : FRun :=
  let dh := v.tp.arr 0x01
  let dl := v.tp.arr 0x07
  let er := (v.tp.arr 0x09).exp
  let ew := (v.tp.arr 0x0A).exp
  let sg := ldltSign n v.tp.naux j
  let w := (List.range j).map (fun k =>
    rnd ((r.b.lval dl j k).mul (q32 dh.exp (tget 0 r.b.d k))) ew)
  let wv (k : Nat) := q32 ew (lget (0, false) w k).1
  let dotW (i : Nat) := dySum j (fun t =>
    (if i = j then r.b.lval dl j t else r.b.lval dl i t).mul (wv t))
  let d0 := rnd ((s.aval v 0x01 j j).sub (dotW j)) dh.exp
  let low := decide (sg * d0.1.toInt < v.tp.pmin.toInt)
  let dw : Word := if low then BitVec.ofInt 32 (sg * v.tp.pmin.toInt) else d0.1
  let mag := rndRecip (q32 dh.exp dw).abs er
  let rdw : Word × Bool := if dw.toInt < 0 then satQ (-(mag.1.toInt)) else mag
  let rdv := q32 er rdw.1
  let rows := ((List.range n).filter (fun i => decide (j < i))).map (fun i =>
    let x := rnd ((s.aval v 0x01 i j).sub (dotW i)) dh.exp
    let y := rnd ((q32 dh.exp x.1).mul rdv) dl.exp
    (i, y.1, x.2 || y.2))
  { b := { l := rows.foldl (fun a q => tput a (dl.idx q.1 j) q.2.1) r.b.l
           d := tput r.b.d j dw
           rd := tput r.b.rd j rdw.1 }
    fl := r.fl ||| pfIf (v.owns j && low) pfPivot
      ||| pfIf (v.owns j && (w.any Prod.snd || d0.2 || mag.2 || rdw.2 || rows.any (fun q => q.2.2))) pfFac }

/-- The state of QR: the triangular factor R (row-major, N rows of NC words), the row x as exact
values and the saturation in the rank's columns. -/
structure QRun where
  r : Tab Word
  x : List Dy
  sat : Bool
  deriving DecidableEq, Repr

/-- One rotation of QR (R140): column j of the row against row j of R; a zero element leaves the row
unchanged, with no rounding. -/
def qrStep (own : Nat → Bool) (nc : Nat) (el er ec : Int) (q : QRun) (j : Nat) : QRun :=
  let xv (k : Nat) := lget Dy.zero q.x k
  if (xv j).m = 0 then q
  else
    let rv (k : Nat) := q32 el (tget 0 q.r (j * nc + k))
    let s2 := ((rv j).mul (rv j)).add ((xv j).mul (xv j))
    let iv := rndRsqrt s2 er
    let c := rnd ((rv j).mul (q32 er iv.1)) ec
    let sn := rnd ((xv j).mul (q32 er iv.1)) ec
    let cv := q32 ec c.1
    let sv := q32 ec sn.1
    let d := rndSqrt s2 el
    let ks := (List.range nc).filter (fun k => decide (j < k))
    let ts := ks.map (fun k => (k, rnd ((cv.mul (rv k)).add (sv.mul (xv k))) el,
      rnd ((cv.mul (xv k)).sub (sv.mul (rv k))) el))
    { r := ts.foldl (fun a t => tput a (j * nc + t.1) t.2.1.1) (tput q.r (j * nc + j) d.1)
      x := ts.foldl (fun a t => lset a t.1 (q32 el t.2.2.1)) q.x
      sat := q.sat || (own j && (iv.2 || c.2 || sn.2 || d.2))
        || ts.any (fun t => own t.1 && (t.2.1.2 || t.2.2.2)) }

/-- One row of X streamed through QR (R140). -/
def State.qrRow (s : State) (v : Env) (n nc : Nat) (q : QRun) (p : Nat) : QRun :=
  let el := (v.tp.arr 0x07).exp
  let er := (v.tp.arr 0x09).exp
  let ec := (v.tp.arr 0x0C).exp
  (List.range (min nc n)).foldl (qrStep v.owns nc el er ec)
    { q with x := (List.range nc).map (fun k => s.aval v 0x0B p k) }

/-- QR (R140, R141): the result stored transposed in L. -/
def State.runQR (s : State) (v : Env) (n nc m : Nat) : FRun :=
  let dl := v.tp.arr 0x07
  let er := (v.tp.arr 0x09).exp
  let q := (List.range m).foldl (s.qrRow v n nc) ⟨[], [], false⟩
  let rows := (List.range n).map (fun j =>
    let w := tget 0 q.r (j * nc + j)
    let low := decide (w.toInt < v.tp.pmin.toInt)
    let w' := if low then v.tp.pmin else w
    (j, w', rndRecip (q32 dl.exp w') er, low))
  let cells := (List.range n).flatMap (fun j => (List.range nc).map (fun k => (j, k)))
  let l := cells.foldl (fun a c =>
    if c.1 ≤ c.2 then tput a (dl.idx c.2 c.1) (tget 0 q.r (c.1 * nc + c.2)) else a) []
  { b := { l := rows.foldl (fun a r => tput a (dl.idx r.1 r.1) r.2.1) l
           d := []
           rd := rows.map (fun r => (r.1, r.2.2.1.1)) }
    fl := pfIf (rows.any (fun r => v.owns r.1 && r.2.2.2)) pfPivot
      ||| pfIf (q.sat || rows.any (fun r => v.owns r.1 && r.2.2.1.2)) pfFac }

/-- Factor a problem (R138-R140). -/
def State.factor (s : State) (v : Env) : FRun :=
  match v.tp.fmeth with
  | 0 => (List.range v.tp.n).foldl (s.ldltCol v v.tp.n) ⟨⟨[], [], []⟩, 0⟩
  | 1 => (List.range v.tp.n).foldl (s.cholCol v v.tp.n) ⟨⟨[], [], []⟩, 0⟩
  | _ => s.runQR v v.tp.n (v.tp.n + v.tp.naux) v.tp.m

/-! ## Triangular solves (R146, R147) -/

/-- Forward or backward substitution of one column: `rows` in solving order; each later element
reads the rounded earlier ones. -/
def substCol (n : Nat) (unit bwd : Bool) (lv : Nat → Nat → Dy) (rdv : Nat → Dy) (b : Nat → Dy)
    (eb ed : Int) : Tab Word × Bool :=
  let rows := if bwd then (List.range n).reverse else List.range n
  rows.foldl (fun a i =>
    let y := a.1
    let done := if bwd then (List.range n).filter (fun k => decide (i < k)) else List.range i
    let dot := Dy.sum (done.map (fun k =>
      (if bwd then lv k i else lv i k).mul (q32 ed (tget 0 y k))))
    let diff := (b i).sub dot
    if unit then
      let r := rnd diff ed
      (tput y i r.1, a.2 || r.2)
    else
      let x := rnd diff eb
      let r := rnd ((q32 eb x.1).mul (rdv i)) ed
      (tput y i r.1, a.2 || x.2 || r.2)) ([], false)

/-- One solve descriptor over every column of SRC (R146), with the saturation of the groups of right-hand sides
that belong to the rank (R149). -/
def State.runSolve (s : State) (v : Env) (op src dst : Nat) : Tab Word × Bool :=
  let ds := v.tp.arr src
  let dd := v.tp.arr dst
  let er := (v.tp.arr 0x09).exp
  let unit := v.tp.fmeth == 0
  let lv (i k : Nat) := s.aval v 0x07 i k
  let rdv (i : Nat) := q32 er (s.aword v 0x09 i)
  let cols := (List.range (max ds.cols 1)).map (fun j =>
    let b (i : Nat) := s.aval v src i j
    if op = 2 then
      (List.range v.tp.n).foldl (fun (a : Tab Word × Bool) i =>
        let r := rnd ((b i).mul (rdv i)) dd.exp
        (tput a.1 i r.1, a.2 || r.2)) ([], false)
    else substCol v.tp.n unit (op == 3) lv rdv b ds.exp dd.exp)
  let ix := (List.range cols.length).zip cols
  (ix.foldl (fun a q => q.2.1.foldl (fun a w => tput a (dd.idx w.1 q.1) w.2) a) [],
    ix.any (fun q => v.owns q.1 && q.2.2))

/-- Every solve in descriptor order (R147). -/
def State.runSolves (s : State) (v : Env) : Env × Nat :=
  v.tp.solvs.foldl (fun a d =>
    let r := s.runSolve a.1 d.op d.src d.dst
    ({ a.1 with arrs := tput a.1.arrs d.dst r.1 }, a.2 ||| pfIf r.2 pfSol)) (v, 0)

end Sys2Proof.Machine
end

