-- ==== Sys2Proof/Machine/Observe.lean ====
section
/-!
DEFINITION. Counter blocks (R456-R458), command records (R461) and the holds of dump points
(R468-R471).
-/

namespace Sys2Proof.Machine

/-! ## Counter blocks -/

/-- Base address of the counter block of unit `u` of tile `t` (R456). -/
def cntA (t u : Nat) : Nat := tileA t (0x6000 + 0x100 * u)
/-- Base address of the counter block of engine `e` (R456). -/
def ecntA (e : Nat) : Nat := mshA (0x1000 + 0x100 * e)

/-- A counter of a block: 0x00 BUSY, 0x08 STALL, 0x10 IDLE (R457). -/
def State.cnt (s : State) (a : Nat) : Nat := tget 0 s.obs.cnt a
/-- Set a counter. -/
def State.cntSet (s : State) (a v : Nat) : State :=
  { s with obs := { s.obs with cnt := tset 0 s.obs.cnt a v } }

/-- The reasons of R455, lowest code first. -/
def reasonCodes : List Nat := (List.range 31).drop 1

/-- The reason with the most stall cycles of a unit's current command, the lower code on a tie, and
its cycles (R458). -/
def UnitCmd.top (k : UnitCmd) : Nat × Nat :=
  reasonCodes.foldl (fun a r =>
    let n := tget 0 k.why r
    if a.2 < n then (r, n) else a) (0, 0)

/-- A command starts on a unit, its counts at 0; one still in progress, between two of its problems, stands behind
it (R458). -/
def State.cmdStart (s : State) (t u c seq : Nat) (i : CmdIds) : State :=
  let k : UnitCmd := { ctx := c, heat := i.1, layer := i.2.1, oper := i.2.2, seq := seq, active := true }
  s.setCmds t u (k :: (s.cmds t u).filter UnitCmd.active)

/-- A SOLVE starts on a stage with its first problem there (R453). -/
def State.solveStart (s : State) (t u c heat : Nat) (r : SolveRun) : State :=
  if s.hasCmd t u r.seq then s else s.cmdStart t u c r.seq (heat, r.layer, r.oper)

/-- MSH_OBS_CTRL.UNITS bit of a unit. -/
def State.unitOn (s : State) (u : Nat) : Bool := s.rbit (mshA 0x3000) (19 + u)

/-- The record of a command of a unit that finishes, or that a teardown abandons (R460, R461). -/
def State.cmdRecord (s : State) (t u : Nat) (k : UnitCmd) (abandoned : Bool) : State :=
  if s.unitOn u then
    let r := leBytes 8 s.fabCount
      ++ [BitVec.ofNat 8 t, BitVec.ofNat 8 (u + b2n abandoned * 128), BitVec.ofNat 8 k.ctx, BitVec.ofNat 8 k.top.1]
      ++ leBytes 2 k.layer ++ leBytes 2 k.oper ++ leBytes 4 k.heat
      ++ leBytes 4 k.busy ++ leBytes 4 k.stall ++ leBytes 4 k.top.2
    s.streamRec 0 r r
  else s

/-- A command in progress on a unit finishes; the one behind it is current again (R458, R460). -/
def State.cmdEnd (s : State) (t u seq : Nat) : State :=
  match (s.cmds t u).find? (fun k => k.active && k.seq == seq) with
  | none => s
  | some k =>
    let rest := (s.cmds t u).filter (fun x => x.active && x.seq != seq)
    (s.setCmds t u (if rest.isEmpty then [{ k with active := false }] else rest)).cmdRecord t u k false

/-- The commands in progress on a tile, by unit. -/
def State.liveCmds (s : State) (t : Nat) : Tab (List UnitCmd) :=
  (List.range 9).map (fun u => (u, (s.cmds t u).filter UnitCmd.active))

/-- The commands in progress on a tile leave it, with their counts. -/
def State.parkCmds (s : State) (t : Nat) : State :=
  s.each (List.range 9) (fun s u => s.setCmds t u (((s.cmds t u).take 1).map (fun k => { k with active := false })))

/-- A teardown abandons commands of a tile: their records (R460). -/
def State.cmdsAbandoned (s : State) (t : Nat) (l : Tab (List UnitCmd)) : State :=
  s.each l (fun s p => s.each p.2 (fun s k => s.cmdRecord t p.1 k true))

/-- A cycle of a counter block: BUSY, STALL with a reason, or IDLE (R454, R457). -/
def State.cntCycle (s : State) (b cls reason : Nat) : State :=
  let inc (s : State) (o : Nat) : State := s.cntSet (b + o) ((s.cnt (b + o) + 1) % 2 ^ 64)
  match cls with
  | 0 => inc s 0x00
  | 1 => (inc s 0x08).rwrap (b + 0x80 + 4 * reason) 0 32 1
  | _ => inc s 0x10

/-- A cycle of a command in progress, its counts saturating (R458). -/
def UnitCmd.cycle (k : UnitCmd) (cls reason : Nat) : UnitCmd :=
  match cls with
  | 0 => { k with busy := satAdd 32 k.busy 1 }
  | 1 => { k with stall := satAdd 32 k.stall 1, why := tput k.why reason (satAdd 27 (tget 0 k.why reason) 1) }
  | _ => k

/-- A cycle of a tile's unit counts in its block and to its current command (R454, R458). -/
def State.unitCnt (s : State) (t u cls reason : Nat) : State :=
  let s := s.cntCycle (cntA t u) cls reason
  match s.cmds t u with
  | k :: l => if k.active then s.setCmds t u (k.cycle cls reason :: l) else s
  | [] => s

/-! ## Dump points (R468, R469) -/

/-- Control address of dump-point entry i (R468). -/
def dumpA (i : Nat) : Nat := mshA (0x4000 + 32 * i)

/-- `n` bytes at offset `o` of dump-point entry i, as a number (R468). -/
def State.dumpFld (s : State) (i o n : Nat) : Nat :=
  bitsOf (s.rget (dumpA i + o / 4 * 4)).toNat (8 * (o % 4)) (8 * n)

/-- Whether the entry names tile `t`: TILE, or ANY on a tile of its context (R468). -/
def State.dumpTile (s : State) (i t : Nat) : Bool :=
  let w := s.dumpFld i 3 1
  if bitAt w 5 then bitAt (s.ctxTiles (s.dumpFld i 0 1 % 64)) t else w % 32 == t

/-- Whether dump point i matches a step (R469): EN, context, IDs, WHEN and tile; an ARRAY entry
matches only SOLVE commands, and never with WHEN 0 or 1. -/
def State.dumpMatches (s : State) (i t c layer oper step prob : Nat) (solve : Bool) : Bool :=
  let arr := s.dumpFld i 1 1 == 1
  bitAt (s.dumpFld i 0 1) 7 && s.dumpFld i 0 1 % 64 == c && s.dumpTile i t
    && s.dumpFld i 4 2 == layer && (s.dumpFld i 6 2 == oper || s.dumpFld i 6 2 == 0xFFFF)
    && s.dumpFld i 2 1 == step
    && (if arr then solve && decide (2 ≤ step) && s.dumpFld i 0xA 1 == prob else decide (step < 2))

/-- Count a match: dump one in EVERY + 1, counting from EN (R468). -/
def State.dumpCount (s : State) (i : Nat) : State × Bool :=
  let n := tget 0 s.obs.matched i
  ({ s with obs := { s.obs with matched := tput s.obs.matched i (n + 1) } }, n % (s.dumpFld i 0xB 1 + 1) == 0)

/-- Greatest data bytes of dump point i: a multiple of 64 from 64 to 65,536 (R468). -/
def State.dumpMax (s : State) (i : Nat) : Nat := min 65536 (max 64 (s.dumpFld i 0xC 4 / 64 * 64))

/-- Bytes of the object of dump point i on a tile, for a command of a heat (R470). -/
def State.dumpSize (s : State) (i t c heat : Nat) : Nat :=
  let obj := s.dumpFld i 8 2
  match s.dumpFld i 1 1 with
  | 0 =>
    let d := s.tdesc t c obj
    d.rows * d.rowBytes + d.scaleBytes
  | 1 => match ((s.tc t).heat? heat).bind Heat.solve with
    | some r => 4 * ((s.tmpl t c r.tmpl).arr obj).size
    | none => 0
  | _ => s.dumpFld i 0x14 4

/-- Bytes of the record of a dump: its header, and its data padded to 64 bytes (R473). -/
def State.dumpLen (s : State) (i t c heat : Nat) : Nat :=
  64 + roundUp (min (s.dumpSize i t c heat) (s.dumpMax i)) 64

/-- Free bytes of the staging buffer, behind the matches not yet copied (R472). -/
def State.dumpRoom (s : State) : Nat :=
  s.rfld (mshA 0x3008) 0 19
    - ((s.obs.dumps.filter (fun d => d.record.isNone)).map (fun d => s.dumpLen d.point d.tile d.ctx d.heat)).sum

/-- A counted match is dumped, and ONCE clears EN; without room it is neither held nor dumped (R468, R472).  A
hold that begins on a tile asked to stop is one of its spans (R207, R471). -/
def State.dumpTake (s : State) (d : DumpReq) : State :=
  if s.dumpRoom < s.dumpLen d.point d.tile d.ctx d.heat then
    { s with obs := { s.obs with drops := s.obs.drops + 1 } }
  else
    let s := if bitAt (s.dumpFld d.point 0 1) 6 then s.rbitSet (dumpA d.point) 7 false else s
    let s := s.modTile d.tile (fun x => if x.preq.isSome then { x with spans := linsert x.spans d.unit } else x)
    { s with obs := { s.obs with dumps := s.obs.dumps ++ [d] } }

/-- The step (tile, command, WHEN, problem) is reached: its matching dump points are registered once,
in ascending order, and hold it until their dumps end (R469, R471).  Answers whether it is held. -/
def State.dumpGate (s : State) (t c u step seq prob layer oper heat : Nat) (solve : Bool) :
    State × Bool :=
  let key := (t, seq, step, prob)
  let pts := if s.obs.gated.contains key then []
    else (List.range 256).filter (fun i => s.dumpMatches i t c layer oper step prob solve)
  let s := pts.foldl (fun s i =>
    let r := s.dumpCount i
    if r.2 then r.1.dumpTake ⟨i, t, c, u, step, seq, prob, layer, oper, heat, s.fabCount, false, none⟩
    else r.1) s
  let s := if pts.isEmpty then s
    else { s with obs := { s.obs with gated := s.obs.gated ++ [key] } }
  (s, s.obs.dumps.any (fun d => d.tile == t && d.seq == seq && d.step == step && d.prob == prob
    && !d.immediate))

/-- A dump AFTER a command holds the unit's next command (R471). -/
def State.unitHeld (s : State) (t u : Nat) : Bool :=
  s.obs.dumps.any (fun d => d.tile == t && d.unit == u && d.step == 1 && !d.immediate)

/-- Whether a dump holds a unit: a command before or after it, or a problem that stands in it (R471). -/
def State.dumpHolds (s : State) (t u : Nat) : Bool :=
  s.obs.dumps.any (fun d => d.tile == t && d.unit == u && !d.immediate)

/-- Whether a dump holds a problem that a stage has finished, or that C_fac or C_out has sent on (R471, R475). -/
def State.probHeld (s : State) (t heat prob : Nat) : Bool :=
  s.obs.dumps.any (fun d => d.tile == t && d.heat == heat && d.prob == prob && decide (2 ≤ d.step) && !d.immediate)

/-- Dumps of a tile are abandoned and counted as dropped (R472). -/
def State.dropDumps (s : State) (f : DumpReq → Bool) : State :=
  let staged := ((s.obs.dumps.filter f).map (fun d => match d.record with
    | some r => r.length
    | none => 0)).sum
  let s := { s with obs := { s.obs with
      drops := s.obs.drops + (s.obs.dumps.filter f).length
      dumps := s.obs.dumps.filter (fun d => !f d) } }
  s.stageFree staged

end Sys2Proof.Machine
end

