-- ==== Sys2Proof/Machine/Solver.lean ====
section
/-!
DEFINITION. Iterate and Emit arithmetic (chapter 6): warm starts (R165-R168), the ADMM iteration and
its checks (R156-R162), the Kalman update (R163), and the outputs and fallback of Emit (R169-R177).
-/

namespace Sys2Proof.Machine

/-! ## Arrays as vectors -/

/-- Store a column of rounded values in an array, with its saturation. -/
def putCol (e : Env) (id n : Nat) (f : Nat → Word × Bool) : Env × Bool :=
  let vs := (List.range n).map (fun i => (i, f i))
  ({ e with arrs := tput e.arrs id (vs.map (fun v => (v.1, v.2.1))) }, vs.any (fun v => v.2.2))

/-- Element i of a column array. -/
def State.col (s : State) (e : Env) (id i : Nat) : Dy := s.aval e id i 0

/-- Element i of a stored iterate (R158). -/
def prevCol (e : Env) (p : Tab (Tab Word)) (id i : Nat) : Dy :=
  q32 (e.tp.arr id).exp (tget 0 (tget [] p id) i)

/-- Element k of ITC: 0 RHO, 1 EPS_PINF, 2 EPS_DINF, 3 EPS_PRI, 4 EPS_DUA (R154). -/
def State.itc (s : State) (e : Env) (k : Nat) : Dy := s.aval e 0x18 0 k

/-- Exact sum of x_j over j < n. -/
def sumTo (n : Nat) (f : Nat → Dy) : Dy := Dy.sum ((List.range n).map f)

/-- Σ_j G_ij x_j. -/
def State.mv (s : State) (e : Env) (x : Nat → Dy) (i : Nat) : Dy :=
  sumTo e.tp.m (fun j => (s.aval e 0x10 i j).mul (x j))

/-- Σ_i G_ij x_i. -/
def State.mvt (s : State) (e : Env) (x : Nat → Dy) (j : Nat) : Dy :=
  sumTo e.tp.n (fun i => (s.aval e 0x10 i j).mul (x i))

/-- Whether the lower bound of element i is finite (R157). -/
def State.loBound (s : State) (e : Env) (i : Nat) : Bool :=
  s.aword e 0x05 ((e.tp.arr 0x05).idx i 0) != 0x80000000
/-- Whether the upper bound of element i is finite (R157). -/
def State.hiBound (s : State) (e : Env) (i : Nat) : Bool :=
  s.aword e 0x06 ((e.tp.arr 0x06).idx i 0) != 0x7FFFFFFF

/-- clamp() of R156; where l_i is above u_i the upper bound wins (DESIGN CHOICE, log entry 75). -/
def State.clampTo (s : State) (e : Env) (i : Nat) (x : Dy) : Dy :=
  let x := if s.loBound e i then x.max (s.col e 0x05 i) else x
  if s.hiBound e i then x.min (s.col e 0x06 i) else x

/-- w = rnd(ρ (z - μ)) (R156). -/
def State.formW (s : State) (e : Env) : Env × Bool :=
  putCol e 0x16 e.tp.m (fun i =>
    rnd ((s.itc e 0).mul ((s.col e 0x13 i).sub (s.col e 0x14 i))) (e.tp.arr 0x16).exp)

/-- The body of one iteration of R156: the new arrays and whether a rounding saturated. -/
def State.iterStep (s : State) (e : Env) : Env × Bool :=
  let r1 := putCol e 0x12 e.tp.n (fun i =>
    rnd ((s.mv e (s.col e 0x16) i).sub (s.col e 0x11 i)) (e.tp.arr 0x12).exp)
  let e1 := r1.1
  let r2 := putCol e1 0x15 e.tp.m (fun j => rnd (s.mvt e1 (s.col e1 0x12) j) (e.tp.arr 0x15).exp)
  let e2 := r2.1
  let r3 := putCol e2 0x13 e.tp.m (fun i =>
    rnd (s.clampTo e2 i ((s.col e2 0x15 i).add (s.col e2 0x14 i))) (e.tp.arr 0x13).exp)
  let e3 := r3.1
  let r4 := putCol e3 0x14 e.tp.m (fun i =>
    rnd (((s.col e3 0x14 i).add (s.col e3 0x15 i)).sub (s.col e3 0x13 i)) (e.tp.arr 0x14).exp)
  let r5 := s.formW r4.1
  (r5.1, r1.2 || r2.2 || r3.2 || r4.2 || r5.2)

/-! ## Checks (R158-R162) -/

/-- What a check finds: residuals rounded for the record, whether they are within tolerance, and the
certificates. -/
structure CheckRes where
  resP : Word
  resD : Word
  ok : Bool
  primal : Bool
  dual : Bool
  deriving DecidableEq, Repr

/-- A check on the iterate in `e` against the previous one (R158-R160). -/
def State.check (s : State) (e : Env) (p : Tab (Tab Word)) : CheckRes :=
  let n := e.tp.n
  let m := e.tp.m
  let ms := List.range m
  let ns := List.range n
  let d (id i : Nat) := (s.col e id i).sub (prevCol e p id i)
  let rho := s.itc e 0
  let rp := Dy.norm (ms.map (fun i => (s.col e 0x15 i).sub (s.col e 0x13 i)))
  let rd := rho.mul (Dy.norm (ns.map (fun i => s.mv e (d 0x13) i)))
  let dmu := Dy.norm (ms.map (d 0x14))
  let ep := (s.itc e 1).mul dmu
  let blocked := ms.any (fun i =>
    (Dy.zero.lt (d 0x14 i) && !s.hiBound e i) || ((d 0x14 i).lt Dy.zero && !s.loBound e i))
  let supp := sumTo m (fun i =>
    let x := d 0x14 i
    if Dy.zero.lt x then (s.col e 0x06 i).mul x
    else if x.lt Dy.zero then (s.col e 0x05 i).mul x else Dy.zero)
  let primal := Dy.zero.lt dmu
    && (Dy.norm (ns.map (fun i => s.mv e (d 0x14) i))).le ep
    && !blocked && supp.le ep.neg
  let dxi := Dy.norm (ns.map (d 0x12))
  let ed := (s.itc e 2).mul dxi
  let sq (k id : Nat) := sumTo k (fun i => (d id i).mul (d id i))
  let dual := Dy.zero.lt dxi
    && ((sq n 0x12).sub (rho.mul (sq m 0x15))).le ((s.itc e 2).mul (dxi.mul dxi))
    && (sumTo n (fun i => (s.col e 0x11 i).mul (d 0x12 i))).le ed.neg
    && ms.all (fun i => (!s.hiBound e i || (d 0x15 i).le ed)
        && (!s.loBound e i || ed.neg.le (d 0x15 i)))
  { resP := (rnd rp (e.tp.arr 0x13).exp).1
    resD := (rnd rd (e.tp.arr 0x12).exp).1
    ok := rp.le (s.itc e 3) && rd.le (s.itc e 4)
    primal := primal
    dual := dual }

/-- The iterate kept for the next check (R158). -/
def keepIter (e : Env) : Tab (Tab Word) :=
  [(0x12, tget [] e.arrs 0x12), (0x13, tget [] e.arrs 0x13), (0x14, tget [] e.arrs 0x14),
    (0x15, tget [] e.arrs 0x15)]

/-! ## Warm starts (R165-R168) -/

/-- A warm-start descriptor (R165). -/
structure WarmD where
  mode : Nat
  maxage : Nat
  src : Nat
  store : Nat
  deriving DecidableEq, Repr

/-- Read the descriptor; WARM_OFF 0 means none (R165). -/
def State.warmAt (s : State) (tp : Tmpl) (ta : Nat) : WarmD :=
  if tp.warm = 0 then ⟨0, 0, 0, 0⟩
  else
    let a := ta + tp.warm
    ⟨s.mval a 1, s.mval (a + 2) 2, s.mval (a + 4) 4, s.mval (a + 8) 4⟩

/-- The element format of a learned block (R167). -/
def learnedFmt (f : Nat) : EFmt :=
  match f with
  | 0 => .q32 | 1 => .fp32 | 2 => .bf16 | 3 => .fp16 | _ => .tf8

/-- Whether a value is a NaN or an infinity. -/
def FVal.special (v : FVal) : Bool :=
  match v with
  | .num _ _ _ => false
  | _ => true

/-- The outcome of taking a warm start: z and μ, WARM, DROP and whether a conversion saturated. -/
structure WarmRes where
  z : Tab Word := []
  mu : Tab Word := []
  warm : Nat := 0
  drop : Nat := 0
  sat : Bool := false
  deriving DecidableEq, Repr

/-- A discarded warm start (R168). -/
def warmDropped (code : Nat) : WarmRes := { warm := 3, drop := code }

/-- The warm start of problem i on tile `t` (R61, R166-R168); `stamp` is that of the heat's start. -/
def State.warmStart (s : State) (t c : Nat) (flush : Bool) (e : Env) (i stamp : Nat) : WarmRes :=
  let w := s.warmAt e.tp e.ta
  let m := e.tp.m
  match w.mode with
  | 1 =>
    let a := s.shareA t c (w.src + i * (8 + 8 * m))
    if s.mval (a + 6) 1 % 2 = 0 then warmDropped 5
    else if s.mval a 4 ≠ e.tp.stag then warmDropped 1
    else
      let rd (o : Nat) : Tab Word := (List.range m).map (fun k =>
        (k, BitVec.ofNat 32 (s.mval (a + 8 + 4 * (o + k)) 4)))
      { z := rd 0, mu := rd m, warm := 1 }
  | 2 =>
    let a := s.shareA t c w.src
    let fmt := s.mval (a + 0xC) 1
    let np := s.mval (a + 0xE) 1
    let f := learnedFmt fmt
    let age := (stamp + 2 ^ 32 - s.mval (a + 8) 4 % 2 ^ 32) % 2 ^ 32
    let wd := f.bits / 8
    let vals (k : Nat) (x : Int) : FVal :=
      let raw := s.mval (a + 0x10 + wd * (2 * m * i + k)) wd
      (f.load flush (if fmt = 0 then x else if fmt = 4 then sext (s.mval (a + 0xD) 1) 8 else 0) raw).1
    let ez := (e.tp.arr 0x13).exp
    let em := (e.tp.arr 0x14).exp
    if np ≤ i then warmDropped 5
    else if s.mval a 4 ≠ e.tp.stag then warmDropped 1
    else if 4 < fmt then warmDropped 6
    else if w.maxage ≠ 0 ∧ w.maxage < age then warmDropped 2
    else if s.mval (a + 0x10 + wd * (2 * m * np)) 4 ≠ s.mval (a + 4) 4 then warmDropped 3
    else
      let zs := (List.range m).map (fun k => vals k ez)
      let us := (List.range m).map (fun k => vals (m + k) em)
      if zs.any FVal.special || us.any FVal.special then warmDropped 4
      else
        let cv (x : Int) (l : List FVal) : List (Nat × FlagSet) :=
          l.map (fun v => EFmt.q32.deliver false x v)
        let num (l : List (Nat × FlagSet)) : Tab Word :=
          ((List.range l.length).zip l).map (fun p => (p.1, BitVec.ofNat 32 p.2.1))
        let z := cv ez zs
        let u := cv em us
        { z := num z, mu := num u, warm := 2
          sat := (z ++ u).any (fun p => flHas p.2 flSaturated) }
  | _ => {}

/-! ## Kalman update (R163) -/

/-- XP = rnd(XS + L21 e) for a Kalman template with an XS array; a pass-through otherwise (R163, R164). -/
def State.kalman (s : State) (e : Env) : Env × Bool :=
  match if e.tp.kind = 2 then e.tp.arr? 0x1A else none with
  | none => (e, false)
  | some xs =>
    let nx := xs.rows
    let p := e.tp.n + e.tp.naux - nx
    let r := (List.range nx).map (fun i =>
      (i, rnd ((s.aval e 0x1A i 0).add (sumTo p (fun k =>
        (s.aval e 0x07 (p + i) k).mul (s.aval e 0x19 k 0)))) (e.tp.arr 0x1B).exp))
    ({ e with arrs := tput e.arrs 0x1B (r.map (fun v => ((e.tp.arr 0x1B).idx v.1 0, v.2.1))) },
      r.any (fun v => v.2.2))

/-! ## Emit (R169-R177) -/

/-- Whether a template runs the iteration of R156: QP or moving-horizon estimation. -/
def Tmpl.iterates (p : Tmpl) : Bool := p.kind == 1 || p.kind == 3

/-- X = L⁻ᵀ ξ by the non-unit BWD (R170). -/
def State.formX (s : State) (e : Env) : Env × Bool :=
  let r := s.runSolve e 3 0x12 0x17
  ({ e with arrs := tput e.arrs 0x17 r.1 }, r.2)

/-- The status code of a problem: the highest that applies (R161, R162, R172-R174, R181); STALE_FAC counts for a
problem of a K = 0 template too (DESIGN CHOICE, log entry 75). -/
def codeOf (sl : Slot) (k : Nat) : Nat :=
  let base := if k = 0 then 0 else if sl.resOk then 0 else 1
  let cert := if sl.cert = 0 then 0 else if sl.certPrimal then 5 else 4
  max (max (if sl.mark = 0 then base else sl.mark) cert) (if sl.staleFac then 2 else 0)

/-- Whether the fallback acts (R177). -/
def State.fallsBack (s : State) (tp : Tmpl) (ta code pflag : Nat) : Bool :=
  let mask := s.mval (ta + tp.fallback + 8) 1
  (decide (4 ≤ code) && decide (code ≤ 7))
    || (bitAt mask 0 && code == 1) || (bitAt mask 1 && code == 2) || (bitAt mask 2 && code == 3)
    || (bitAt mask 3 && bitAt pflag 8) || (bitAt mask 4 && bitAt pflag 9)

/-- One output element: the word written to the output vector, none under HOLD (R170, R177). -/
def State.outElem (s : State) (e : Env) (fb : Bool) (j arr elem : Nat) : Option Word :=
  if fb then
    let a := e.ta + e.tp.fallback + 16 + 8 * j
    if s.mval a 1 = 1 then some (BitVec.ofNat 32 (s.mval (a + 4) 4)) else none
  else some (s.aword e arr elem)

/-- A set-point: the element as Q32 at exponent 0, and its saturation (R52, R170). -/
def setPoint (x : Int) (w : Word) : Word × Bool := rnd (q32 x w) 0

end Sys2Proof.Machine
end

