-- ==== Sys2Proof/Machine/Stage.lean ====
section
/-!
DEFINITION. The six stages of a tile: queues and WAIT (R198, R199), the flow of problems through
their slots (R120, R202), factor stores (R143-R145), cut points (R172, R173), Emit's commit
(R171, R181-R183) and aborts (R178).
-/

namespace Sys2Proof.Machine

/-! ## Slots -/

/-- Position of a stage among the six (R120). -/
def StageName.idx : StageName → Nat
  | .assemble => 0 | .tensor => 1 | .factor => 2 | .solve => 3 | .iterate => 4 | .emit => 5

/-- The next stage. -/
def StageName.succ : StageName → StageName
  | .assemble => .tensor | .tensor => .factor | .factor => .solve | .solve => .iterate
  | .iterate => .emit | .emit => .emit

/-- Occupied slots with their numbers. -/
def TCtx.live4 (c : TCtx) : List (Nat × Slot) :=
  c.slots.filterMap (fun p => p.2.map (fun x => (p.1, x)))

/-- The slot with a number. -/
def TCtx.slotAt (c : TCtx) (k : Nat) : Option Slot := (tfind c.slots k).join

/-- Write or free a slot. -/
def TCtx.setSlot (c : TCtx) (k : Nat) (v : Option Slot) : TCtx := { c with slots := tput c.slots k v }

/-- The lowest free slot (R120). -/
def TCtx.freeSlot (c : TCtx) : Option Nat := [0, 1, 2, 3].find? (fun k => (c.slotAt k).isNone)

/-- The slot of a problem. -/
def TCtx.slotOf (c : TCtx) (heat prob : Nat) : Option (Nat × Slot) :=
  c.live4.find? (fun p => p.2.heat == heat && p.2.prob == prob)

/-- Whether a stage works on a problem. -/
def TCtx.busy (c : TCtx) (st : StageName) : Bool :=
  c.live4.any (fun p => p.2.stage == st && !p.2.waiting)

/-- Order of entry: heats in order of issue, then problem numbers (R120, R121). -/
def TCtx.before (c : TCtx) (a b : Slot) : Bool :=
  let pos (h : Nat) := c.heats.findIdx (fun x => x.num == h)
  decide (pos a.heat < pos b.heat) || (a.heat == b.heat && decide (a.prob < b.prob))

/-- Change the slot of a problem on a tile. -/
def State.modSlot (s : State) (t heat prob : Nat) (f : Slot → Slot) : State :=
  s.modTc t (fun c => match c.slotOf heat prob with
    | some (k, x) => c.setSlot k (some (f x))
    | none => c)

/-! ## Templates of a heat -/

/-- The factor store of a template (R143). -/
def State.store (s : State) (a : Nat) : FStore := tget {} s.stores a

/-- Scratchpad address of a template's factor store.  Its contents stand beside data space, because R143 gives
the store no byte layout (DESIGN CHOICE, log entry 15). -/
def State.storeA (s : State) (t c off : Nat) : Nat :=
  let ta := s.shareA t c off
  ta + s.mval (ta + 0x2C) 4

/-- A bank of a store. -/
def FStore.bank (f : FStore) (b : Nat) : FBank := if b = 0 then f.bank0 else f.bank1

/-- Where a problem's arrays are read. -/
def State.slotEnv (s : State) (t c : Nat) (sl : Slot) : Env :=
  { tp := s.tmpl t c sl.tmpl
    ta := s.shareA t c sl.tmpl
    arrs := sl.arrs
    bank := match sl.bank with
      | some (a, b) => (s.store a).bank b
      | none => {}
    rank := (((s.tc t).heat? sl.heat).map Heat.rank).getD 0 }

/-- The bytes of bank b of a template's factor store: L, D and RD, the second bank behind the first (R26, R143;
log entry 15). -/
def State.bankBytes (s : State) (t c : Nat) (tp : Tmpl) (off b : Nat) : List (Nat × Nat) :=
  let n := 4 * ((tp.arr 0x07).size + (tp.arr 0x08).size + (tp.arr 0x09).size)
  [(s.storeA t c off + b * n, n)]

/-- Subnormal mode of the context's commands on a tile: KEEP outside SERVICE (R60, X5 of R38). -/
def State.flushOn (s : State) (t : Nat) : Bool := s.serves (s.ctxOn t) && (s.tc t).subn

/-! ## Work in progress (R199) -/

/-- A unit has no more work of a command. -/
def TCtx.workDone (c : TCtx) (seq u : Nat) : TCtx :=
  { c with work := c.work.filter (fun w => !(w.1 == seq && w.2 == u)) }

/-- Every earlier command has finished its work on the stages a mask selects (R199). -/
def TCtx.waitOk (c : TCtx) (seq mask : Nat) : Bool :=
  c.work.all (fun w => !(decide (w.1 < seq) && bitAt mask w.2))

/-- Change the SOLVE of a heat on a tile. -/
def State.modSolve (s : State) (t heat : Nat) (f : SolveRun → SolveRun) : State :=
  s.modTc t (fun c => c.modHeatNum heat (fun h => { h with solve := h.solve.map f }))

/-- A problem leaves the stages `l`; the SOLVE's work on a stage ends when its last problem leaves it
(R202), with the unit's command record and, behind Emit, the dumps AFTER it (R469), and a heat's last Tensor work
sets FINAL (R94). -/
def State.leave (s : State) (t c heat : Nat) (l : List Nat) : State :=
  (s.each l (fun s u =>
    let s := s.modSolve t heat (fun r => { r with left := lset r.left u (lget 0 r.left u + 1) })
    match ((s.tc t).heat? heat).bind Heat.solve with
    | some r =>
      if lget 0 r.left u = r.count then
        let s := (s.modTc t (fun x => x.workDone r.seq u)).cmdEnd t u r.seq
        if u = 5 then (s.dumpGate t c 5 1 r.seq 0 r.layer r.oper heat true).1 else s
      else s
    | none => s)).modTc t TCtx.tfFinal

/-! ## Entering stages -/

/-- A problem of the heat is due to factor under R144, and sets REFACT: under FIRST and RESIDENT when the tag
differs or the store is empty. -/
def factorDue (tp : Tmpl) (f : FStore) (prob : Nat) : Bool × Bool :=
  if tp.fpol = 0 then (true, false)
  else
    let away := f.tag != tp.stag || f.committed.isNone
    (away || (tp.fpol == 1 && prob == 0), away)

/-- The word a HOST parameter reads for problem 0 (R144). -/
def State.refWords (s : State) (t c : Nat) (h : Heat) (tp : Tmpl) (prob : Nat) : Tab Word :=
  ((List.range tp.pars.length).zip tp.pars).filterMap (fun p =>
    let used := tp.terms.any (fun k => k.par == p.1 && [0x01, 0x02, 0x03, 0x0B].contains k.arr)
    if p.2.src = 3 ∧ used then
      some (p.1, BitVec.ofNat 32
        (hostWord h (s.shareA t c (s.cblk t c 0x0C 4)) (p.2.index + 4 * prob * p.2.stride)))
    else none)

/-- The slot's state on entering Factor (R144, R172).  REFACT is set here and stays set when the factorization
is stopped (DEDUCED, log entry 50). -/
def State.enterFactor (s : State) (t c : Nat) (cut : Bool) (sl : Slot) : Slot :=
  let tp := s.tmpl t c sl.tmpl
  let a := s.storeA t c sl.tmpl
  let f := s.store a
  let d := factorDue tp f sl.prob
  let sl := { sl with pflag := sl.pflag ||| pfIf (d.2 && !cut) pfRefact }
  let reuse (x : Slot) : Slot := match f.committed with
    | some b => { x with bank := some (a, b), bankHeat := f.heat, due := false }
    | none => x
  if d.1 then
    if cut then
      (if f.tag = tp.stag ∧ f.committed.isSome = true then reuse { sl with staleFac := true }
       else { sl with mark := 6, due := false })
    else { sl with due := true }
  else reuse sl

/-- A banked factor is stale when the problem iterates on it (R174). -/
def staleNow (tp : Tmpl) (sl : Slot) : Bool :=
  sl.staleFac || (tp.iterates &&
    ((tp.fpol == 0 && !sl.own) || (tp.fpol == 1 && sl.bankHeat != sl.heat)))

/-- The slot's state on entering Iterate: stale factor, warm start or z = 0 and μ = 0, and the first w
(R156, R165-R168, R174), and whether a warm start was discarded. -/
def State.enterIterate (s : State) (t c stamp : Nat) (flush : Bool) (sl : Slot) : Slot × Bool :=
  let e := s.slotEnv t c sl
  let sl := { sl with staleFac := staleNow e.tp sl }
  if !e.tp.iterates then (sl, false)
  else
    let w := s.warmStart t c flush e sl.prob stamp
    let zeros (n : Nat) : Tab Word := (List.range n).map (fun k => (k, 0))
    let cold := w.warm = 0 ∨ w.warm = 3
    let z := if cold then zeros e.tp.m else w.z
    let mu := if cold then zeros e.tp.m else w.mu
    let e1 := { e with
      arrs := tput (tput (tput (tput e.arrs 0x12 (zeros e.tp.n)) 0x15 (zeros e.tp.m)) 0x13 z) 0x14 mu }
    let r := s.formW e1
    ({ sl with
        arrs := r.1.arrs
        prev := keepIter e1
        warm := w.warm
        drop := w.drop
        pflag := sl.pflag ||| pfIf (w.sat || r.2) pfItr }, w.warm == 3)

/-! ## Bytes the stages read (R335) -/

/-- The base words of a role: none where a working copy or the factor bank stands for them. -/
def roleBytes (ta : Nat) (tp : Tmpl) (arrs : Tab (Tab Word)) (id : Nat) : List (Nat × Nat) :=
  match tp.arr? id with
  | some d =>
    if (tfind arrs id).isSome || [0x07, 0x08, 0x09].contains id then [] else [(ta + d.addr, 4 * d.size)]
  | none => []

/-- The template's own records (R124, R169). -/
def State.tmplBytes (s : State) (ta : Nat) (tp : Tmpl) : List (Nat × Nat) :=
  let r (o cnt sz : Nat) : Nat × Nat := (ta + s.mval (ta + o) 4, cnt * sz)
  [(ta, 64), r 0x18 tp.arrs.length 12, r 0x14 tp.pars.length 20, r 0x1C (tp.terms.length + 1) 12,
    r 0x20 tp.prods.length 8, r 0x24 tp.solvs.length 4,
    (ta + tp.out, 16 + 12 * s.mval (ta + tp.out) 2)]

/-- What Assemble reads for problem i: base words of varying arrays, forecast and earlier outputs
(R128, R130). -/
def State.asmBytes (s : State) (t c ta : Nat) (h : Heat) (tp : Tmpl) (i : Nat) : List (Nat × Nat) :=
  (tp.arrs.filter ADesc.vary).flatMap (fun d => roleBytes ta tp [] d.id)
    ++ tp.pars.flatMap (fun p =>
      match p.src with
      | 2 =>
        let d := s.tdesc t c p.index
        let k := i * p.stride
        let bit := d.bitPos (k / max d.cols 1) (k % max d.cols 1)
        [(s.shareA t c (s.tdAddr t c p.index), 32),
          (s.shareA t c d.addr + bit / 8, ceilDiv (bit % 8 + d.code.bits) 8)]
      | 4 =>
        let od := s.outAt (ta + tp.out)
        if s.hasPrev ta i h then
          [(s.shareA t c (od.ostore + 4 * od.nout * i + 4 * p.index), 4)]
        else []
      | _ => [])

/-- Poisoned words of the copied host block that problem i reads (R23, R128). -/
def State.hostBadFor (s : State) (t c : Nat) (h : Heat) (tp : Tmpl) (i : Nat) : List Nat :=
  let base := s.shareA t c (s.cblk t c 0x0C 4)
  h.hostBad.filter (fun k => tp.pars.any (fun p => p.src == 3 &&
    (let a := base + p.index + 4 * i * p.stride
     decide (a < k + 8) && decide (k < a + 4))))

/-- What a warm start reads (R165-R167). -/
def State.warmBytes (s : State) (t c ta : Nat) (tp : Tmpl) (i : Nat) : List (Nat × Nat) :=
  let w := s.warmAt tp ta
  match w.mode with
  | 1 => [(s.shareA t c (w.src + i * (8 + 8 * tp.m)), 8 + 8 * tp.m)]
  | 2 =>
    let a := s.shareA t c w.src
    let fmt := s.mval (a + 0xC) 1
    let wd := (learnedFmt fmt).bits / 8
    if 4 < fmt ∨ s.mval (a + 0xE) 1 ≤ i then [(a, 16)]
    else [(a, 16), (a + 0x10 + wd * (2 * tp.m * i), wd * (2 * tp.m)),
      (a + 0x10 + wd * (2 * tp.m * s.mval (a + 0xE) 1), 4)]
  | _ => []

/-- What a stage after Assemble reads for a problem that enters it: its arrays and the bank it holds. -/
def State.slotBytes (s : State) (t c : Nat) (sl : Slot) : List (Nat × Nat) :=
  let tp := s.tmpl t c sl.tmpl
  let ta := s.shareA t c sl.tmpl
  let roles (l : List Nat) := l.eraseDups.flatMap (roleBytes ta tp sl.arrs)
  let bank := match sl.bank with
    | some (_, b) => s.bankBytes t c tp sl.tmpl b
    | none => []
  match sl.stage with
  | .assemble => []
  | .tensor =>
    let ds := tp.prods.map ProdD.dst
    roles ((tp.prods.flatMap (fun p => p.x :: p.c :: (if p.syrk then [] else [p.y]))).filter
      (fun r => !ds.contains r))
  | .factor => if sl.due then roles (if tp.fmeth = 2 then [0x0B] else [0x01]) else []
  | .solve =>
    let ds := tp.solvs.map SolvD.dst
    roles ((tp.solvs.map SolvD.src).filter (fun r => !ds.contains r))
      ++ (if tp.solvs.isEmpty then [] else bank)
  | .iterate =>
    if tp.iterates then
      (if tp.warm = 0 then [] else (ta + tp.warm, 12) :: s.warmBytes t c ta tp sl.prob)
        ++ roles [0x05, 0x06, 0x10, 0x11, 0x18]
    else roles [0x19, 0x1A] ++ (if tp.kind = 2 ∧ (tp.arr? 0x1A).isSome = true then bank else [])
  | .emit =>
    let od := s.outAt (ta + tp.out)
    (if tp.fallback = 0 then [] else [(ta + tp.fallback, 16 + 8 * od.nout)])
      ++ (if sl.mark = 0 then roles (od.ents.map (fun e => e.1)) else [])
      ++ (if tp.iterates && decide (codeOf sl tp.k < 6) then bank else [])

/-- A bank of a factor store. -/
def FStore.target (f : FStore) : Nat := if f.committed = some 0 then 1 else 0

/-- What Factor writes for a problem that is to factor: the bank that is not committed (R143). -/
def State.slotWrites (s : State) (t c : Nat) (sl : Slot) : List (Nat × Nat) :=
  if sl.stage = .factor ∧ sl.due = true then
    s.bankBytes t c (s.tmpl t c sl.tmpl) sl.tmpl (s.store (s.storeA t c sl.tmpl)).target
  else []

/-- A problem's stage reads what it needs and Factor writes its bank, or a fault (R324, R335, R340). -/
def State.slotRead (s : State) (t c heat prob : Nat) : State :=
  match (s.tc t).slotOf heat prob with
  | some (_, y) =>
    if y.waiting then s
    else
      let ids := s.unitIds t y.stage.idx
      match s.portFaults t c (s.slotWrites t c y) true with
      | 0 => s.stageReads t c (s.slotBytes t c y) ids
      | f => s.faultTile t c f 1 ids
  | none => s

/-- A problem enters a stage on a tile. -/
def State.enterStage (s : State) (t c heat prob : Nat) (st : StageName) : State :=
  match (s.tc t).slotOf heat prob, (s.tc t).heat? heat with
  | some (k, sl), some h =>
    let s := match h.solve with
      | some r => s.solveStart t st.idx c heat r
      | none => s
    let sl := { sl with stage := st, waiting := false }
    match st with
    | .tensor =>
      let s := s.modTc t (fun x => x.setSlot k (some sl))
      if (s.tmpl t c sl.tmpl).prods.isEmpty then s
      else s.modTc t (fun x => x.tfRoll heat ((x.tfHeat.map x.tensorFinal).getD true))
    | .factor => s.modTc t (fun x => x.setSlot k (some (s.enterFactor t c h.cutFac sl)))
    | .iterate =>
      let r := s.enterIterate t c h.stamp ((h.solve.map SolveRun.flush).getD false) sl
      let s := s.modTc t (fun x => x.setSlot k (some r.1))
      if r.2 then s.modTile t (fun x => { x with warmDrop := satAdd 32 x.warmDrop 1 }) else s
    | _ => s.modTc t (fun x => x.setSlot k (some sl))
  | _, _ => s

/-- A problem leaves Solve: it counts in TILE_t_SOLV_OR with its PFLAG word as it stands then (R151; DEDUCED, log
entry 51). -/
def State.leftSolve (s : State) (t c heat pf : Nat) : State :=
  let s := s.modSolve t heat (fun r => { r with solvDone := r.solvDone + 1, solvOr := r.solvOr ||| pf })
  match ((s.tc t).heat? heat).bind Heat.solve with
  | some r => s.modTile t (fun x =>
      if x.solvCtx = c ∧ x.solvHeat = heat then { x with solvDone := r.solvDone, solvOr := r.solvOr } else x)
  | none => s

/-- A problem that stands in Solve leaves it. -/
def State.quitSolve (s : State) (t c : Nat) (sl : Slot) : State :=
  if sl.stage = .solve ∧ sl.waiting = false then s.leftSolve t c sl.heat sl.pflag else s

/-- A marked problem goes to Emit, leaving the stages between (R172, R173). -/
def State.skipToEmit (s : State) (t c heat prob mark : Nat) : State :=
  match (s.tc t).slotOf heat prob with
  | none => s
  | some (_, sl) =>
    let from' := sl.stage.idx
    let s := (s.quitSolve t c sl).modSlot t heat prob (fun x =>
      { x with stage := .emit, waiting := true, mark := mark, due := false })
    s.leave t c heat ((List.range 5).filter (fun u => decide (from' ≤ u)))

/-- A problem in Factor that C_fac has stopped leaves the stage at once: for Solve on the committed bank,
or for Emit (R172). -/
def State.leaveFactor (s : State) (t c heat prob : Nat) : State :=
  match (s.tc t).slotOf heat prob with
  | some (_, y) =>
    if y.stage = .factor ∧ y.waiting = false ∧ y.mark = 6 then s.skipToEmit t c heat prob 6
    else if y.stage = .factor ∧ y.waiting = false ∧ y.staleFac = true then
      (s.modSlot t heat prob (fun x => { x with stage := .solve, waiting := true })).leave t c heat [2]
    else s
  | none => s

/-- Whether a tile's stages work: its context is on it and not saved, stopped or torn down. -/
def State.working (s : State) (t : Nat) : Bool :=
  let x := s.tile t
  x.ctx.isSome && decide (x.seq = .running) && !s.hasFault (s.ctxOn t) && !x.inReset

/-- Whether the unit of a tile still runs: no pre-emption has stopped it (R205). -/
def State.unitRuns (s : State) (t u : Nat) : Bool :=
  s.working t && !(s.tile t).stops.any (fun p => p.1 == u)

/-- Whether the unit of a tile takes new work: after a pre-emption request none does (R205). -/
def State.unitTakes (s : State) (t u : Nat) : Bool := s.unitRuns t u && (s.tile t).preq.isNone

/-- What stands at the Tensor stage: problems that have left Assemble, and the command at the head of
queue T once its WAIT is satisfied (R203). -/
def TCtx.reached (c : TCtx) : List (Bool × Nat × Nat) :=
  (c.live4.filter (fun p => p.2.stage == .tensor && p.2.waiting)).map (fun p => (false, p.2.heat, p.2.prob))
    ++ (match c.qt with
        | q :: _ => if c.waitOk q.seq q.wait then [(true, q.seq, 0)] else []
        | [] => [])

/-- Keep the order in which work has reached the Tensor stage (R203). -/
def TCtx.tensorOrder (c : TCtx) : TCtx :=
  let r := c.reached
  { c with torder := c.torder.filter r.contains ++ r.filter (fun x => !c.torder.contains x) }

/-- Every copy command before a heat's SOLVE has committed (R128, R168). -/
def TCtx.copiesDone (c : TCtx) (heat : Nat) : Bool :=
  match (c.heat? heat).bind Heat.solve with
  | some r => c.waitOk r.seq 64
  | none => true

/-- What a stage asks of a waiting problem beside being free: Tensor serves in the order of arrival and
no third heat's products (R94, R203); Iterate reads a warm start behind the earlier copies (R168). -/
def State.admits (s : State) (t c : Nat) (sl : Slot) : Bool :=
  let x := s.tc t
  match sl.stage with
  | .tensor =>
    x.tensor.isNone && x.torder.head? == some (false, sl.heat, sl.prob)
      && ((s.tmpl t c sl.tmpl).prods.isEmpty || x.tfAccepts sl.heat)
  | .iterate =>
    let tp := s.tmpl t c sl.tmpl
    (s.warmAt tp (s.shareA t c sl.tmpl)).mode == 0 || x.copiesDone sl.heat
  | _ => true

/-- Whether a problem's SOLVE is in progress on the stage it waits for: an earlier problem of it has entered there. -/
def State.solveOn (s : State) (t : Nat) (sl : Slot) : Bool :=
  match ((s.tc t).heat? sl.heat).bind Heat.solve with
  | some r => s.hasCmd t sl.stage.idx r.seq
  | none => false

/-- Move every waiting problem whose stage is free, in order of entry, but for those that a dump holds
(R120, R471). -/
def State.advance (s : State) (t c : Nat) : Nat → State
  | 0 => s
  | n + 1 =>
    let x := s.tc t
    let ready := x.live4.filter (fun p => p.2.waiting && !x.busy p.2.stage && !s.probHeld t p.2.heat p.2.prob
      && (!s.unitHeld t p.2.stage.idx || s.solveOn t p.2)
      && s.unitTakes t p.2.stage.idx && s.admits t c p.2
      && x.live4.all (fun q => !(x.before q.2 p.2 && (decide (q.2.stage.idx < p.2.stage.idx)
        || (q.2.stage == p.2.stage && q.2.waiting)))))
    match ready with
    | [] => s
    | (_, sl) :: _ =>
      let s := s.enterStage t c sl.heat sl.prob sl.stage
      State.advance ((s.leaveFactor t c sl.heat sl.prob).slotRead t c sl.heat sl.prob) t c n

/-! ## Finishing stages -/

/-- The effect of a stage on its problem when it finishes (R135, R146, R163). -/
def State.stageWork (s : State) (t c : Nat) (sl : Slot) : State :=
  let e := s.slotEnv t c sl
  match sl.stage with
  | .tensor =>
    let fl := match (((s.tc t).heat? sl.heat).bind Heat.solve) with
      | some q => q.flush
      | none => false
    let r := s.runProds fl e
    let s := s.modSlot t sl.heat sl.prob (fun x =>
      { x with arrs := r.1.arrs, pflag := x.pflag ||| r.2.2 })
    s.modTc t (fun x => (x.tfAdd sl.heat r.2.1))
  | .solve =>
    let r := s.runSolves e
    let s := s.modSlot t sl.heat sl.prob (fun x =>
      { x with arrs := r.1.arrs, pflag := x.pflag ||| r.2 })
    s.leftSolve t c sl.heat (sl.pflag ||| r.2)
  | .iterate =>
    if e.tp.iterates then s
    else
      let r := s.kalman e
      s.modSlot t sl.heat sl.prob (fun x =>
        { x with arrs := r.1.arrs, pflag := x.pflag ||| pfIf r.2 pfItr })
  | _ => s

/-- Whether a problem may leave its stage: no earlier one stands in Assemble (R120), a factor is committed or in
hand (R143), every iteration has run (R156). -/
def State.stageDone (s : State) (t c : Nat) (sl : Slot) : Bool :=
  !sl.waiting &&
  (match sl.stage with
   | .factor => sl.bank.isSome && (!sl.due || sl.own)
   | .iterate =>
     let tp := s.tmpl t c sl.tmpl
     !tp.iterates || decide (tp.k ≤ sl.iter)
   | .emit => false
   | .assemble => !(s.tc t).live4.any (fun q =>
       q.2.stage == .assemble && !q.2.waiting && (s.tc t).before q.2 sl)
   | _ => true)

/-- A problem finishes its stage on a tile and waits for the next (R120). -/
def State.finishStage (s : State) (t c : Nat) (sl : Slot) : State :=
  let s := s.stageWork t c sl
  let s := s.modSlot t sl.heat sl.prob (fun x => { x with stage := x.stage.succ, waiting := true })
  s.leave t c sl.heat [sl.stage.idx]

/-- Tiles of a heat present on tile `t`. -/
def State.heatTiles (s : State) (t heat : Nat) : List Nat :=
  match (s.tc t).heat? heat with
  | some h => h.tiles
  | none => []

/-! ## Emit's commit (R171) -/

/-- A problem that never entered Assemble (R173). -/
def blankSlot (heat prob tmpl mark : Nat) : Slot :=
  { heat := heat, prob := prob, tmpl := tmpl, stage := .emit, waiting := false, pflag := 0
    entered := 0, arrs := [], bank := none, due := false, own := false, bankHeat := 0
    staleFac := false, iter := 0, prev := [], resP := 0, resD := 0, resOk := false, chk := 0
    cert := 0, certPrimal := false, warm := 0, drop := 0, mark := mark }

/-- A status record (R182, R183). -/
def statusRecord (stag heat : Nat) (sl : Slot) (code sflags pflag lat : Nat) : List Byte :=
  leBytes 4 stag ++ leBytes 4 heat
    ++ [BitVec.ofNat 8 sl.prob, BitVec.ofNat 8 code, BitVec.ofNat 8 sl.iter, BitVec.ofNat 8 sl.chk,
      BitVec.ofNat 8 sl.cert, 0]
    ++ leBytes 2 sflags ++ leBytes 2 pflag ++ leBytes 2 0
    ++ leBytes 4 sl.resP.toNat ++ leBytes 4 sl.resD.toNat ++ leBytes 4 lat

/-- Address of status record i of a heat on a tile (R182). -/
def State.recordA (s : State) (t c : Nat) (e : Env) (bank i : Nat) : Nat :=
  s.shareA t c (s.outAt (e.ta + e.tp.out)).status + 2064 * bank + 32 * i

/-- Write the output vector of a problem on a tile; answers the loop set-points (R170, R171), whose loop number
counts modulo 1024 (DESIGN CHOICE, log entry 67). -/
def State.writeOutputs (s : State) (t c : Nat) (e : Env) (fb : Bool) (prob : Nat) :
    State × List (Nat × Word × Bool) :=
  let od := s.outAt (e.ta + e.tp.out)
  let base := s.shareA t c (od.ostore + 4 * od.nout * prob)
  ((List.range od.ents.length).zip od.ents).foldl (fun a p =>
    match s.outElem e fb p.1 p.2.1 p.2.2.2.2.2 with
    | none => a
    | some w =>
      let s := a.1.portWrite t c (base + 4 * p.1) (leBytes 4 w.toNat) (a.1.unitIds t 5)
      if p.2.2.1 = 1 then
        let v := setPoint (e.tp.arr p.2.1).exp w
        (s, a.2 ++ [((p.2.2.2.1 + p.2.2.2.2.1 * prob) % 1024, v.1, v.2)])
      else (s, a.2)) (s, [])

/-- Update the iterate store at the commit (R166). -/
def State.writeIterStore (s : State) (t c : Nat) (e : Env) (sl : Slot) (code : Nat) : State :=
  let w := s.warmAt e.tp e.ta
  if e.tp.k = 0 ∨ w.store = 0 ∨ code = 8 then s
  else
    let m := e.tp.m
    let a := s.shareA t c (w.store + sl.prob * (8 + 8 * m))
    if 4 ≤ code then s.portWrite t c (a + 6) [0] (s.unitIds t 5)
    else
      let word (id k : Nat) : Nat := (s.aword e id ((e.tp.arr id).idx k 0)).toNat
      s.portWrite t c a (leBytes 4 e.tp.stag ++ leBytes 2 sl.heat ++ [1, 0]
        ++ ((List.range m).map (fun k => leBytes 4 (word 0x13 k))).flatten
        ++ ((List.range m).map (fun k => leBytes 4 (word 0x14 k))).flatten) (s.unitIds t 5)

/-- Commit a problem on tile `t` with the gang's PFLAG.  Every rank writes its output vector, record and iterate
store, and `first`, rank 0, sends the set-points (R171; DESIGN CHOICE, log entry 76). -/
def State.commitTile (s : State) (t c : Nat) (h : Heat) (r : SolveRun) (sl : Slot) (pf : Nat)
    (first : Bool) : State :=
  let e0 := s.slotEnv t c sl
  let code := codeOf sl e0.tp.k
  let fx := if e0.tp.iterates && decide (code < 6) then s.formX e0 else (e0, false)
  let e := fx.1
  let pf := pf ||| pfIf fx.2 pfEmt
  let fb := code != 8 && s.fallsBack e.tp e.ta code pf
  let w : State × List (Nat × Word × Bool) :=
    if code = 8 then (s, []) else s.writeOutputs t c e fb sl.prob
  let pf := pf ||| pfIf (w.2.any (fun x => x.2.2)) pfEmt
  let s := w.1.writeIterStore t c e sl code
  let late := h.dead && h.late
  let sfl := sl.warm % 4 + 4 * sl.drop + 32 * b2n fb + 128 * b2n sl.staleFac + 256 * b2n late
  let lat := if sl.entered = 0 then 0 else s.now + 1 - sl.entered
  let s := s.portWrite t c (s.recordA t c e r.bank sl.prob) (statusRecord e.tp.stag h.num sl code sfl pf lat)
    (some (h.num, r.layer, r.oper))
  let ts := tget {} s.tmpls e.ta
  let ew : List EmitWrite := if first then w.2.map (fun x => ⟨x.1, x.2.1, c⟩) else []
  let s := { s with
    tmpls := tput s.tmpls e.ta (if code = 8 ∨ ts.outs.contains (h.num, sl.prob) = true then ts
      else { ts with outs := ts.outs ++ [(h.num, sl.prob)] })
    emitQ := s.emitQ ++ ew }
  let s := s.modTile t (fun x =>
    { x with
      lastCode := code
      dlnMissed := satAdd 16 x.dlnMissed (b2n (code == 6 || code == 7))
      dlnCut := satAdd 16 x.dlnCut (b2n (code == 3))
      fbAborted := satAdd 16 x.fbAborted (b2n (code == 8))
      fbFallback := satAdd 16 x.fbFallback (b2n fb) })
  let s := s.modTc t (fun x => x.modHeatNum h.num (fun y =>
    { y with worst := max y.worst code, nfb := y.nfb + b2n fb
             commits := y.commits ++ [(sl.prob, s.now)] }))
  let s := s.modSolve t h.num (fun r => { r with done := r.done + 1 })
  let s := s.modTc t (fun x => match x.slotOf h.num sl.prob with
    | some (k, _) => x.setSlot k none
    | none => x)
  if code = 0 then s
  else s.eventCtx t 0x08 c h.num r.layer r.oper (code + 256 * sl.prob + 65536 * sl.iter)
    (sfl + 65536 * pf)

/-- What a problem stands at on a rank when it commits: its slot with the code it is marked with, or a blank
one when it never entered (R173, R178). -/
def State.slotOn (s : State) (u heat prob mark : Nat) : Slot :=
  match (s.tc u).slotOf heat prob, ((s.tc u).heat? heat).bind Heat.solve with
  | some (_, sl), _ => if mark = 0 then sl else { sl with mark := mark }
  | none, some r => blankSlot heat prob r.tmpl mark
  | none, none => blankSlot heat prob 0 mark

/-- The SAT_EMT that Emit's work on a rank sets: of X and of the loop set-points (R52, R133, R170). -/
def State.emitSat (s : State) (t c : Nat) (sl : Slot) (pf : Nat) : Nat :=
  let e0 := s.slotEnv t c sl
  let code := codeOf sl e0.tp.k
  let fx := if e0.tp.iterates && decide (code < 6) then s.formX e0 else (e0, false)
  let fb := s.fallsBack e0.tp e0.ta code (pf ||| pfIf fx.2 pfEmt)
  let od := s.outAt (e0.ta + e0.tp.out)
  let sats := ((List.range od.ents.length).zip od.ents).any (fun p =>
    match s.outElem fx.1 fb p.1 p.2.1 p.2.2.2.2.2 with
    | some w => p.2.2.1 == 1 && (setPoint (e0.tp.arr p.2.1).exp w).2
    | none => false)
  if code = 8 then 0 else pfIf (fx.2 || sats) pfEmt

/-- Commit a problem on one rank, which leaves every stage it has not left (R171, R202). -/
def State.commitRank (s : State) (u c heat prob mark pf : Nat) (first : Bool) : State :=
  let sl := s.slotOn u heat prob mark
  let entered := ((s.tc u).slotOf heat prob).isSome
  let from' := if entered then sl.stage.idx else 0
  match (s.tc u).heat? heat with
  | some h =>
    match h.solve with
    | some r =>
      let s := if mark = 8 then s else s.solveStart u 5 c heat r
      let s := (if entered then s.quitSolve u c sl else s).commitTile u c h r sl pf first
      let s := if entered then s
        else s.modSolve u heat (fun r => { r with next := max r.next (prob + 1) })
      s.leave u c heat ((List.range 6).filter (fun u => decide (from' ≤ u)))
    | none => s
  | none => s

/-- Commit a problem on every rank of its heat with the OR of their PFLAG words, Emit's SAT_EMT among them
(R134, R171), and account for it unless an abort stopped it, which commits nothing (R178, R317). -/
def State.commitProblem (s : State) (t c heat prob mark : Nat) : State :=
  let ts := s.heatTiles t heat
  let sl := s.slotOn t heat prob mark
  let pf0 := ts.foldl (fun a u => a ||| (s.slotOn u heat prob mark).pflag) 0
  let pf := ts.foldl (fun a u => a ||| s.emitSat u c (s.slotOn u heat prob mark) pf0) pf0
  let code := codeOf sl (s.tmpl t c sl.tmpl).k
  let s := ((List.range ts.length).zip ts).foldl (fun s p =>
    s.commitRank p.2 c heat prob mark pf (p.1 == 0)) s
  if code = 8 then s
  else s.acct c (fun a => { a with
    probs := a.probs + 1, missed := a.missed + b2n (code == 6 || code == 7) })

/-! ## Starting commands (R198, R199) -/

/-- Start the SOLVE at the head of queue A (R202, R182); in a heat that was aborted its problems stop at once
(R178; DEDUCED, log entry 70). -/
def State.startSolve (s : State) (t c : Nat) (q : QCmd) (tm count xl : Nat) : State :=
  let ta := s.shareA t c tm
  let s := s.stageReads t c (s.tmplBytes ta (s.tmpl t c tm)) (some q.ids)
  let x := tget {} s.tmpls ta
  let run : SolveRun :=
    { tmpl := tm, count := count, xlist := xl, layer := q.layer, oper := q.oper, seq := q.seq
      flush := q.flush, prevHeat := x.last, next := 0, done := 0, left := [0, 0, 0, 0, 0, 0], bank := x.heats % 2 }
  let s := s.modTc t (fun y => y.modHeatNum q.heat (fun h => { h with solve := some run }))
  let y : TmplSt := { heats := x.heats + 1, last := q.heat, prior := x.last
                      outs := x.outs.filter (fun e => e.1 == x.last || e.1 == x.prior) }
  let s := { s with tmpls := tput s.tmpls ta y }
  if (((s.tc t).heat? q.heat).map Heat.aborted).getD false then
    s.each (List.range count) (fun s i => s.commitRank t c q.heat i 8 0 false)
  else s

/-- Bytes of a copy or prefetch that touch this device's LPDDR5 (R303, R304, R317). -/
def State.lpBytes (s : State) (src dst n : Nat) : Nat :=
  (match s.place src with | .lpddr _ => n | _ => 0) + (match s.place dst with | .lpddr _ => n | _ => 0)

/-- Start the COPY at the head of queue C (R206, R303, R324). -/
def State.startCopy (s : State) (t c : Nat) (q : QCmd) (src dst len : Nat) : State :=
  let f1 := s.copyFault t c src len false
  let f := if f1 = 0 then s.copyFault t c dst len true else f1
  if f ≠ 0 then (s.faultTile t c f 1 (some q.ids)).modTc t (fun x => x.workDone q.seq 6)
  else
    let rem := decide (4 ≤ (s.place src).row) || decide (4 ≤ (s.place dst).row)
    let run : CopyRun := ⟨q, src, dst, len, rem, 0, 0, false⟩
    let s := (s.modTc t (fun x => { x with copy := some run })).cmdStart t 6 c q.seq q.ids
    let n := s.lpBytes src dst len
    let p := s.ctxPart c
    let go (s : State) : State := if rem then s.copyBlock t c 16 else s
    if n = 0 then go s
    else if s.paceAdmits p 0 (!s.ctxBE c) && !(s.ctxBE c && s.holds p 0) then go ((s.chargeMem c n).paceTake p 0 n)
    else (s.modCopy t (fun r => { r with held := true })).hold (.copy p t c n)

/-- Start the Tensor command at the head of queue T (R94, R203). -/
def State.startTensor (s : State) (t c : Nat) (q : QCmd) : State :=
  let f := s.tensorFault t c q.op
  let drop (s : State) : State := s.modTc t (fun x => x.workDone q.seq 1)
  let reads := s.tensorReads t c q.op
  if f ≠ 0 then drop (s.faultTile t c f 1 (some q.ids))
  else if s.poisonIn reads then drop (s.stagePoison t c reads (some q.ids))
  else
    let s := s.modTc t (fun x => x.tfRoll q.heat ((x.tfHeat.map x.tensorFinal).getD true))
    let s := s.cmdStart t 1 c q.seq q.ids
    match q.op with
    | .mac o => s.startMac t c q o
    | .conv o => s.startConv t c q o
    | .xtload k bf src => s.startXtload t c q k bf src
    | _ => s

/-- A command at the head of a queue may start now: its WAIT is satisfied, no dump holds the unit or
the command (R199, R471). -/
def State.mayStart (s : State) (t c u : Nat) (q : QCmd) (solve : Bool) : State × Bool :=
  if !(s.tc t).waitOk q.seq q.wait || s.unitHeld t u then (s, false)
  else
    let r := s.dumpGate t c u 0 q.seq 0 q.layer q.oper q.heat solve
    (r.1, !r.2)

/-- A conversion of a gang's heat waits until the heats before it have converted into its tensor and its slot
on every rank (R59, R99); on its own tile the queue's order says so. -/
def State.convFree (s : State) (t : Nat) (q : QCmd) : Bool :=
  match q.op.dest with
  | none => true
  | some d => (s.heatTiles t q.heat).all (fun u => u == t || !(s.tc u).converts q.heat d)

/-- Start what can start at the heads of queues B, T, C and A, once. -/
def State.startHeads (s : State) (t c : Nat) : State :=
  let s := match (s.tc t).qb with
    | q :: rest =>
      let r := if (s.tile t).preq.isSome then (s, false) else s.mayStart t c 16 q false
      if r.2 then
        let s := r.1.modTc t (fun x => { x with qb := rest })
        match q.op with
        | .bpost b a =>
          let s := s.post c b a (fun s f =>
            s.faultTile t c (f % 256) (if f < 256 then 1 else f / 256) (some q.ids))
          (s.dumpGate t c 16 1 q.seq 0 q.layer q.oper q.heat false).1
        | _ => s
      else r.1
    | [] => s
  let s := match (s.tc t).qt with
    | q :: rest =>
      if (s.tc t).tensor.isNone && !(s.tc t).busy .tensor && s.unitTakes t 1 && s.convFree t q
          && (s.tc t).torder.head? == some (true, q.seq, 0) && (s.tc t).tfAccepts q.heat then
        let r := s.mayStart t c 1 q false
        if r.2 then (r.1.modTc t (fun x => { x with qt := rest })).startTensor t c q else r.1
      else s
    | [] => s
  let s := match (s.tc t).qc with
    | q :: rest =>
      if (s.tc t).copy.isNone && s.unitTakes t 6 then
        let r := s.mayStart t c 6 q false
        if r.2 then
          let s := r.1.modTc t (fun x => { x with qc := rest })
          match q.op with
          | .copy src dst len => s.startCopy t c q src dst len
          | _ => s
        else r.1
      else s
    | [] => s
  match (s.tc t).qa with
  | q :: rest =>
    let r := if (s.tile t).preq.isSome then (s, false) else s.mayStart t c 0 q true
    if r.2 then
      let s := r.1.modTc t (fun x => { x with qa := rest })
      match q.op with
      | .solve tm n xl => s.startSolve t c q tm n xl
      | _ => s
    else r.1
  | [] => s

/-- A FENCE is satisfied (R199). -/
def TCtx.fenceDone (c : TCtx) : TCtx :=
  match c.hold with
  | .fence seq mask => if c.waitOk seq mask then { c with hold := .none } else c
  | _ => c

/-- Everything on a tile that can proceed without a further event does: waiting problems move, heads
start, fences end. -/
def State.kickN (s : State) (t : Nat) : Nat → State
  | 0 => s
  | n + 1 =>
    if s.working t then
      let c := s.ctxOn t
      let s := (s.modTc t TCtx.tensorOrder).advance t c 16
      let s := (s.modTc t TCtx.tensorOrder).startHeads t c
      State.kickN (s.modTc t TCtx.fenceDone) t n
    else s

/-- Whether the heat record is due: the last record of the heat is written and the Tensor stage shows FINAL for
it on every tile (R184). -/
def State.recordDue (s : State) (h : Heat) : Bool :=
  h.solve.isSome && !h.recd && h.tiles.all (fun u => match (s.tc u).heat? h.num with
    | some x => x.solve.any (fun r => r.count ≤ r.done) && (s.tc u).tensorFinal h.num
    | none => false)

/-- The heat record on one tile (R184); `fl` is the OR of the ranks' Tensor flags (R95). -/
def State.heatRecord (s : State) (t : Nat) (h : Heat) (fl : FlagSet) : State :=
  match h.solve with
  | none => s
  | some r =>
    let e := s.slotEnv t h.ctx (blankSlot h.num 0 r.tmpl 0)
    (s.portWrite t h.ctx (s.recordA t h.ctx e r.bank 64) (leBytes 4 e.tp.stag ++ leBytes 4 h.num
      ++ [BitVec.ofNat 8 r.count, BitVec.ofNat 8 h.worst, BitVec.ofNat 8 (fl.toNat % 128),
        BitVec.ofNat 8 h.nfb] ++ leBytes 4 s.nsField)).modTc t (fun x =>
          x.modHeatNum h.num (fun y => { y with recd := true }))

/-- Write the heat records that are due (R184). -/
def State.recordHeats (s : State) (t : Nat) : State :=
  s.each ((s.tc t).heats.filter s.recordDue) (fun s h =>
    let fl := flUnion (h.tiles.map (fun u => (((s.tc u).heat? h.num).map Heat.tflags).getD flNone))
    s.each h.tiles (fun s u => match (s.tc u).heat? h.num with
      | some x => s.heatRecord u x fl
      | none => s))

/-- Let a tile proceed, and write the heat records that become due. -/
def State.kick (s : State) (t : Nat) : State := (s.kickN t 5).recordHeats t

/-- Run `f` on each tile in turn. -/
def State.tilesDo (s : State) (ts : List Nat) (f : Nat → State → State) : State :=
  ts.foldl (fun s u => f u s) s

/-- Let every tile of a list proceed. -/
def State.kickAll (s : State) (ts : List Nat) : State := s.tilesDo ts (fun u s => s.kick u)

/-- Let a tile proceed, and then the other ranks of a heat, whose Tensor stages may wait for it (R59). -/
def State.kickGang (s : State) (t heat : Nat) : State :=
  (s.kick t).kickAll ((s.heatTiles t heat).filter (· ≠ t))

/-! ## Factor commit (R143) -/

/-- Whether another problem on the tile holds a bank (R145). -/
def TCtx.bankHeld (c : TCtx) (me : Slot) (a b : Nat) : Bool :=
  c.live4.any (fun p => p.2.bank == some (a, b) && !(p.2.heat == me.heat && p.2.prob == me.prob))

/-- The problem in the Factor stage that factors, when its bank is free (R143, R145). -/
def State.factoring (s : State) (t c : Nat) : Option Slot :=
  match (s.tc t).live4.find? (fun p => p.2.stage == .factor && !p.2.waiting && p.2.due && !p.2.own) with
  | some (_, sl) =>
    let a := s.storeA t c sl.tmpl
    if (s.tc t).bankHeld sl a (s.store a).target then none else some sl
  | none => none

/-- Mark the bytes of ranges as written whole: their units lose their poison (R336), and lines of a loan they lie
in have been written (R300). -/
def State.wroteWhole (s : State) (t c : Nat) (l : List (Nat × Nat)) : State :=
  s.each l (fun s r =>
    let s := s.loanDirty t c (r.1 - spadBase t) r.2
    { s with poison := s.poison.filter (fun k =>
        !(decide (r.1 ≤ k) && decide (k + poisonUnit k ≤ r.1 + r.2))) })

/-- Commit a factorization on one tile (R143, R144). -/
def State.commitFactor (s : State) (t c : Nat) (sl : Slot) : State :=
  let e := s.slotEnv t c sl
  let a := s.storeA t c sl.tmpl
  let f := s.store a
  let b := f.target
  let r := s.factor e
  let ref := match (s.tc t).heat? sl.heat with
    | some h => if e.tp.fpol = 2 then s.refWords t c h e.tp sl.prob else f.refw
    | none => f.refw
  let f := { f with
    ctx := c, tmpl := sl.tmpl, committed := some b, tag := e.tp.stag, heat := sl.heat
    bank0 := if b = 0 then r.b else f.bank0
    bank1 := if b = 0 then f.bank1 else r.b
    refw := ref }
  ({ s with stores := tput s.stores a f }.wroteWhole t c (s.bankBytes t c e.tp sl.tmpl b)).modSlot t sl.heat
    sl.prob (fun x =>
      { x with bank := some (a, b), bankHeat := sl.heat, own := true, pflag := x.pflag ||| r.fl })

/-! ## Cut points and aborts -/

/-- C_fac on one tile (R172). -/
def State.cutFacTile (s : State) (t c heat : Nat) : State :=
  let s := s.modTc t (fun x => x.modHeatNum heat (fun h => { h with cutFac := true }))
  s.each ((s.tc t).live4.map Prod.snd) (fun s sl =>
    if sl.heat = heat ∧ sl.stage = .factor ∧ sl.waiting = false ∧ sl.due = true ∧ sl.own = false then
      let y := s.enterFactor t c true sl
      (s.modSlot t heat sl.prob (fun _ => y)).leaveFactor t c heat sl.prob
    else s)

/-- C_out on one tile (R173). -/
def State.cutOutTile (s : State) (t c heat : Nat) : State :=
  let s := s.modTc t (fun x => x.modHeatNum heat (fun h => { h with cutOut := true }))
  s.each ((s.tc t).live4.map Prod.snd) (fun s sl =>
    if sl.heat ≠ heat ∨ sl.stage = .emit then s
    else if sl.stage = .iterate ∧ sl.waiting = false ∧ 0 < sl.iter then
      s.skipToEmit t c heat sl.prob (if sl.iter = (s.tmpl t c sl.tmpl).k then 0 else 3)
    else s.skipToEmit t c heat sl.prob 7)

/-- Set ABORT_RACE in the records of problems committed in the abort cycle (R178). -/
def State.raceRecords (s : State) (t c heat : Nat) : State :=
  match (s.tc t).heat? heat with
  | none => s
  | some h =>
    match h.solve with
    | none => s
    | some r =>
      s.each ((h.commits.filter (fun p => p.2 == s.now)).map Prod.fst) (fun s i =>
        let e := s.slotEnv t c (blankSlot heat i r.tmpl 0)
        let a := s.recordA t c e r.bank i + 0xE
        s.portWrite t c a [s.mget a ||| 0x40])

/-- A SOLVE of a heat that waits in queue A starts, for its problems to stop (R178). -/
def State.takeSolve (s : State) (t c heat : Nat) : State :=
  match (s.tc t).qa.find? (fun q => q.heat == heat) with
  | none => s
  | some q =>
    let s := s.modTc t (fun x => { x with qa := x.qa.filter (fun y => y.seq != q.seq) })
    match q.op with
    | .solve tm n xl => s.startSolve t c q tm n xl
    | _ => s

/-- Abort a heat on its tiles in this cycle: the counts of problems unaffected, completed and stopped
(R178, R179). -/
def State.abortHeat (s : State) (t c heat : Nat) : State × Nat × Nat × Nat :=
  let ts := s.heatTiles t heat
  let s := s.each ts (fun s u => s.takeSolve u c heat)
  match (s.tc t).heat? heat with
  | none => (s, 0, 0, 0)
  | some h =>
    let comp := h.commits.countP (fun p => p.2 == s.now)
    let unaff := h.commits.length - comp
    let total := ts.foldl (fun n u => max n
      ((((s.tc u).heat? heat).bind Heat.solve).map SolveRun.count |>.getD 0)) 0
    let probs := (List.range total).filter (fun i => !h.commits.any (fun p => p.1 == i))
    let s := s.each ts (fun s u => s.raceRecords u c heat)
    let s := s.each probs (fun s i => s.commitProblem t c heat i 8)
    let s := s.each ts (fun s u => s.modTc u (fun x => x.modHeatNum heat (fun y =>
      { y with aborted := true })))
    (s, unaff, comp, probs.length)

end Sys2Proof.Machine
end

