-- ==== Sys2Proof/Machine/Lane.lean ====
section
/-!
DEFINITION. The Scalar Lane's issue and retirement: precise traps (R114-R118), the V pipe (R102,
R108-R110), and the shared forms of its instructions.
-/

namespace Sys2Proof.Machine

/-- What a command answers. -/
abbrev Out := Host.Outcome State Fault Refusal

/-! ## Retirement -/

/-- The flags a context can enable as traps (R115). -/
def trapMask : FlagSet := 0x19F

/-- Bit mask of the lanes that raised an enabled exception (R119 STRAP_CAUSE.LANES). -/
def lanesMask (en : FlagSet) : List FlagSet → Nat
  | [] => 0
  | f :: t => b2n (f &&& en != 0) + 2 * lanesMask en t

/-- TILE_t_STRAP_CAUSE of an instruction that raised `raised` under mask `en` (R119). -/
def causeWord (en : FlagSet) (raised : List FlagSet) : Word :=
  let all := flUnion raised
  BitVec.ofNat 32 (lanesMask en raised * 2 ^ 28 + (all &&& en).toNat * 2 ^ 16 + all.toNat)

/-- The handler address of STRAP_VEC (R119). -/
def TCtx.handler (c : TCtx) : Nat := (c.strapVec &&& 0xFFFFFFFC).toNat

/-- The trap of an instruction at `pc` (R116): no destination is written, every raised flag is
recorded, STRAP_PC and STRAP_CAUSE are written, IN_TRAP is set, and the lane continues at the
handler when there is one. -/
def TCtx.trap (c : TCtx) (pc : Nat) (en : FlagSet) (raised : List FlagSet) : TCtx :=
  { c with
    sflag := c.sflag ||| flUnion raised
    strapPc := BitVec.ofNat 32 pc
    strapCause := causeWord en raised
    inTrap := true
    pc := if c.handler = 0 then c.pc else c.handler }

/-- The trap enable mask in force: none outside SERVICE (X5 of R38, R118). -/
def State.trapEn (s : State) (t : Nat) : FlagSet :=
  if s.serves (s.ctxOn t) then (s.tc t).strapEn else 0

/-- Other tiles of the gang stop at their next instruction boundary, the end of this cycle, or go on
(R118). -/
def State.stopPartners (s : State) (t : Nat) (stop : Bool) : State :=
  let gang := match (s.tc t).curHeat with
    | some h => h.tiles
    | none => []
  s.each (gang.filter (· ≠ t)) (fun s u => s.modTc u (fun x =>
    { x with
      stopped := stop
      stopAt := if stop && !x.stopped then some s.now else x.stopAt }))

/-- Take the trap: its record, its event, its partners, and the context's fault when there is no
handler (R116, R118, R467). -/
def State.takeTrap (s : State) (t pc : Nat) (raised : List FlagSet) : State :=
  let en := s.trapEn t
  let s := s.modTc t (fun c => c.trap pc en raised)
  let s := s.eventTile t 0x05 (causeWord en raised).toNat pc
  let s := s.stopPartners t true
  if (s.tc t).handler = 0 then s.faultTile t (s.ctxOn t) 3 else s

/-- Retire the instruction at `pc` whose next address is `npc` (R114-R117).  An enabled exception inside
a handler writes no destination and its flags are recorded (DESIGN CHOICE, log entry 11). -/
def State.retire (s : State) (t pc npc : Nat) (o : LaneOut) : State :=
  let c := s.tc t
  let all := flUnion o.raised
  if all &&& s.trapEn t = 0 then
    s.setTc t { (o.writes.foldl TCtx.wr c) with sflag := c.sflag ||| all, pc := npc }
  else if c.inTrap then
    (s.setTc t { c with sflag := c.sflag ||| all, pc := npc }).faultTile t (s.ctxOn t) 3
  else s.takeTrap t pc o.raised

/-- Remove the work mark of the Scalar Lane (WAIT bit 7, R199). -/
def TCtx.laneDone (c : TCtx) : TCtx := { c with work := c.work.filter (fun w => w.2 ≠ 7) }

/-- The V instruction in flight is abandoned: the lane stands at its address, to execute it from its first
cycle again (R110). -/
def TCtx.abandonV (c : TCtx) : TCtx :=
  match c.vpipe with
  | none => c
  | some v => { c.laneDone with vpipe := none, pc := v.pc }

/-- The V instruction in flight retires (R102: instructions retire in program order). -/
def State.drainV (s : State) (t : Nat) : State :=
  match (s.tc t).vpipe with
  | none => s
  | some v =>
    let s := s.modTc t (fun c => { c.laneDone with vpipe := none })
    (s.retire t v.pc (s.tc t).pc v.out).kick t

/-- The IDs of the heat whose program a tile executes (R200). -/
def State.runIds (s : State) (t : Nat) : CmdIds :=
  match (s.tc t).curHeat with
  | some h => (h.num, h.layer, h.oper)
  | none => (0, 0, 0)

/-- The Scalar Lane's run of instructions ends where the IDs change (R453; DEDUCED, log entry 79). -/
def State.endRun (s : State) (t : Nat) : State :=
  if (s.cmd t 7).active && (s.cmd t 7).ids != s.runIds t then s.cmdEnd t 7 0 else s

/-- An instruction of the lane issues: in its run, or as the first of a new one (R453, R458). -/
def State.laneIds (s : State) (t : Nat) : State :=
  let s := s.endRun t
  if s.hasCmd t 7 0 then s else s.cmdStart t 7 (s.ctxOn t) 0 (s.runIds t)

/-- The first entry of a BE heat issues on a rank: the heat's STAMP is taken (R168). -/
def State.takeStamp (s : State) (t : Nat) : State :=
  match (s.tc t).curHeat with
  | some h => if h.stampDue then s.modTc t (fun x => x.modHeatNum h.num (fun y =>
      { y with stamp := s.ns / 256 % 2 ^ 32, stampDue := false })) else s
  | none => s

/-- Run `f` as the entry at the tile's program address: the V instruction before it retires first, and a
trap of that one cancels it (R102, R116). -/
def State.issueDo (s : State) (t : Nat) (f : State → State) : State :=
  if s.canIssue t then
    let s1 := s.drainV t
    if s1.canIssue t && decide ((s1.tc t).pc = (s.tc t).pc) then f (s1.takeStamp t) else s1
  else s

/-- Run `f` as the lane instruction at the tile's program address (R102, R116, R453). -/
def State.laneDo (s : State) (t : Nat) (f : State → State) : State :=
  s.issueDo t (fun s => f (s.laneIds t))

/-- An instruction of one cycle or a fixed latency: computed from the registers and retired. -/
def State.lane (s : State) (t : Nat) (f : TCtx → LaneOut) : State :=
  s.laneDo t (fun s => s.retire t (s.tc t).pc ((s.tc t).pc + 8) (f (s.tc t)))

/-- A V-pipe instruction: its result waits in the pipe for its cycles (R108, R109). -/
def State.laneV (s : State) (t : Nat) (f : TCtx → LaneOut × Nat) : State :=
  s.laneDo t (fun s => s.modTc t (fun c =>
    { c with
      vpipe := some ⟨(f c).1, (f c).2, c.pc⟩
      pc := c.pc + 8
      work := c.work ++ [(c.nextSeq, 7)]
      nextSeq := c.nextSeq + 1 }))

/-- A sequencer control entry (R194): earlier instructions that write its register have retired. -/
def State.jump (s : State) (t : Nat) (imm : BitVec 16) (taken : TCtx → Bool) : State :=
  s.issueDo t (fun s => s.modTc t (fun c =>
    { c with pc := if taken c then wrapN ((c.pc : Int) + 8 * imm.toInt) 32 else c.pc + 8 }))

/-! ## Forms -/

/-- A two-operand integer instruction of width AUX bit 0 (R192). -/
def State.int2 (s : State) (t : TileNo) (rd a b : RegNo) (aux : Byte)
    (f : Nat → Nat → Nat → Int × FlagSet) : State :=
  s.lane t.val (fun c =>
    let w := auxW aux
    let r := f w (c.gi w a.val) (c.gi w b.val)
    outG rd.val (gres w r.1) r.2)

/-- A one-operand integer instruction. -/
def State.int1 (s : State) (t : TileNo) (rd a : RegNo) (aux : Byte)
    (f : Nat → Nat → Int × FlagSet) : State :=
  s.lane t.val (fun c =>
    let w := auxW aux
    let r := f w (c.gi w a.val)
    outG rd.val (gres w r.1) r.2)

/-- A 64-bit bitwise instruction. -/
def State.bit2 (s : State) (t : TileNo) (rd a b : RegNo) (f : DWord → DWord → DWord) : State :=
  s.lane t.val (fun c => outG rd.val (f (c.gr a.val) (c.gr b.val)) flNone)

/-- A saturating result (R111): a clamp sets SATURATED and INEXACT. -/
def satRes (w : Nat) (v : Int) : Int × FlagSet := (satS w v, flIf (satS w v != v) flSat)

/-- The amount of a shift: RS2, or IMM when AUX bit 1 = 1, modulo W (R111, R192). -/
def TCtx.shiftBy (c : TCtx) (rs2 : RegNo) (aux : Byte) (imm : BitVec 16) : Nat :=
  let w := auxW aux
  if bitAt aux.toNat 1 then (imm.toInt % (w : Int)).toNat else c.gi w rs2.val % w

/-- A shift. -/
def State.shift (s : State) (t : TileNo) (rd rs1 rs2 : RegNo) (aux : Byte) (imm : BitVec 16)
    (f : Nat → Nat → Nat → Int) : State :=
  s.lane t.val (fun c =>
    let w := auxW aux
    outG rd.val (gres w (f w (c.gi w rs1.val) (c.shiftBy rs2 aux imm))) flNone)

/-- A floating operation on two F registers in the form of AUX (R103). -/
def State.fp2 (s : State) (t : TileNo) (rd a b : RegNo) (aux : Byte)
    (f : FFmt → Bool → Nat → Nat → Nat × FlagSet) : State :=
  let fl := s.flushOn t.val
  s.lane t.val (fun c => c.fpApply aux rd.val (fun m r => f m fl (r a.val) (r b.val)))

/-- A floating operation on one F register. -/
def State.fp1 (s : State) (t : TileNo) (rd a : RegNo) (aux : Byte)
    (f : FFmt → Bool → Nat → Nat × FlagSet) : State :=
  let fl := s.flushOn t.val
  s.lane t.val (fun c => c.fpApply aux rd.val (fun m r => f m fl (r a.val)))

/-- A comparison of two F registers in the form of AUX (R106).  The G value of a quad comparison that
holds in some lanes only is a free value (DESIGN CHOICE, log entry 7). -/
def State.fpCmp (s : State) (t : TileNo) (rd a b : RegNo) (aux : Byte)
    (f : FFmt → Bool → Nat → Nat → Option Bool × FlagSet) : State :=
  let fl := s.flushOn t.val
  let free := Config.quadCompare s.fresh
  { s with fresh := s.fresh + 1 }.lane t.val
    (fun c => c.fpCompare aux rd.val free (fun m r => f m fl (r a.val) (r b.val)))

end Sys2Proof.Machine
end

