-- ==== Sys2Proof/Machine/Flow.lean ====
section
/-!
DEFINITION. Problems on their way through a tile's stages (R120, R202), factor commits (R143),
iterations (R156-R162), commits (R171), cut points and deadlines (R172-R175).
-/

namespace Sys2Proof.Machine

/-- Answer the state after the dump gates of a step on every rank, and whether none holds it
(R469, R471). -/
def State.gateAll (s : State) (ts : List Nat) (c u step prob heat : Nat) (r : SolveRun) :
    State × Bool :=
  ts.foldl (fun a t =>
    let g := a.1.dumpGate t c u step r.seq prob r.layer r.oper heat true
    (g.1, a.2 && !g.2)) (s, true)

/-! ## Assemble -/

/-- The heat whose problem enters Assemble next: the first on the tile whose SOLVE has problems left
to place (R202). -/
def TCtx.entering (x : TCtx) : Option (Heat × SolveRun) :=
  x.heats.findSome? (fun h =>
    match h.solve with
    | some r => if r.next < r.count then some (h, r) else none
    | none => none)

/-- Whether a rank can take problem `i` of a heat: it has started the SOLVE, a slot is free, and nothing
stopped the heat (R120, R173, R178, R204).  Assemble accepts a problem when its occupancy has passed,
which can be before it hands the one before it on (R152); a forecast is read behind the earlier copies
(R128). -/
def State.rankReady (s : State) (heat i u : Nat) : Bool :=
  let x := s.tc u
  s.unitTakes u 0 && x.freeSlot.isSome
    && (match x.entering with
        | some (h, r) =>
          let c := s.ctxOn u
          h.num == heat && r.next == i && !h.cutOut && !h.aborted
            && (x.copiesDone heat || (s.tmpl u c r.tmpl).pars.all (fun p => p.src != 2))
        | none => false)

/-- A problem enters Assemble on one rank: its slot, working copies and PFLAG (R120, R128-R130); the first of
a heat restarts TILE_t_SOLV_OR (R151). -/
def State.enterRank (s : State) (c heat i u : Nat) : State :=
  let x := s.tc u
  match x.heat? heat, x.freeSlot with
  | some h, some k =>
    match h.solve with
    | some r =>
      let s := s.solveStart u 0 c heat r
      let tp := s.tmpl u c r.tmpl
      let a := s.assemble u c r.flush h tp (s.shareA u c r.tmpl) i
      let sl := { blankSlot heat i r.tmpl 0 with
        stage := .assemble, entered := s.now + 1, arrs := a.1, pflag := a.2 }
      let s := (s.modTc u (fun y => y.setSlot k (some sl))).modSolve u heat (fun q =>
        { q with next := i + 1 })
      let s := if i = 0 then
          s.modTile u (fun x => { x with solvCtx := c, solvHeat := heat, solvDone := 0, solvOr := 0 })
        else s
      let reads := s.asmBytes u c (s.shareA u c r.tmpl) h tp i
      match s.portFaults u c reads false with
      | 0 => s.readUnits u c (some (heat, r.layer, r.oper)) (s.hostBadFor u c h tp i
          ++ (reads.flatMap (fun x => s.poisonedUnits x.1 x.2)).eraseDups)
      | f => s.faultTile u c f 1 (some (heat, r.layer, r.oper))
    | none => s
  | _, _ => s

/-- PROBLEM_ENTER_ASSEMBLE: the next problem of the tile's heat enters Assemble on every rank
(R120, R204). -/
def execProblemEnterAssemble (t : TileNo) (s : State) : Out :=
  .next (match (s.tc t.val).entering with
    | some (h, r) =>
      if h.tiles.all (s.rankReady h.num r.next) then
        s.tilesDo h.tiles (fun u s => s.enterRank h.ctx h.num r.next u)
      else s
    | none => s)

/-! ## Between stages -/

/-- Whether a rank's problem may leave its stage now. -/
def State.rankDone (s : State) (c heat prob : Nat) (st : StageName) (u : Nat) : Bool :=
  match (s.tc u).slotOf heat prob with
  | some (_, y) => y.stage == st && s.stageDone u c y && s.unitRuns u st.idx
  | none => false

/-- STAGE_HANDOFF: the problem in a slot finishes its stage on every rank, and enters the next one
when it is free (R120, R204); a dump of one of its arrays holds it (R471). -/
def execStageHandoff (t : TileNo) (slot : Fin 4) (s : State) : Out :=
  let c := s.ctxOn t.val
  .next (match (s.tc t.val).slotAt slot.val with
    | none => s
    | some sl =>
      let ts := s.heatTiles t.val sl.heat
      if ts.all (s.rankDone c sl.heat sl.prob sl.stage) then
        match ((s.tc t.val).heat? sl.heat).bind Heat.solve with
        | some r =>
          let g := s.gateAll ts c sl.stage.idx (sl.stage.idx + 2) sl.prob sl.heat r
          if g.2 then
            (g.1.tilesDo ts (fun u s =>
              match (s.tc u).slotOf sl.heat sl.prob with
              | some (_, y) => s.finishStage u c y
              | none => s)).kickAll ts
          else g.1
        | none => s
      else s)

/-- FACTOR_COMMIT: the factorization in the Factor stage commits its bank on every rank (R143,
R144). -/
def execFactorCommit (t : TileNo) (s : State) : Out :=
  let c := s.ctxOn t.val
  .next (match s.factoring t.val c with
    | none => s
    | some sl =>
      let ts := s.heatTiles t.val sl.heat
      if ts.all (fun u => s.unitRuns u 2 && (s.factoring u c).isSome) then
        (s.tilesDo ts (fun u s =>
          match s.factoring u c with
          | some y => s.commitFactor u c y
          | none => s)).kickAll ts
      else s)

/-! ## Iteration (R156-R162) -/

/-- A check due after iteration k of K (R156). -/
def checkDue (k kk : Nat) : Bool := k % 8 == 0 || k == kk

/-- The slot after a check at iteration k (R158-R162). -/
def Slot.checked (x : Slot) (k : Nat) (r : CheckRes) : Slot :=
  let found := r.primal || r.dual
  { x with
    resP := r.resP, resD := r.resD, resOk := r.ok, chk := k
    cert := if x.cert = 0 ∧ found then k else x.cert
    certPrimal := if x.cert = 0 ∧ found then r.primal else x.certPrimal }

/-- One iteration of a problem on one rank (R156). -/
def State.iterateRank (s : State) (u c : Nat) (sl : Slot) : State :=
  let e := s.slotEnv u c sl
  let r := s.iterStep e
  let k := sl.iter + 1
  s.modSlot u sl.heat sl.prob (fun x =>
    let y := { x with
      arrs := r.1.arrs, iter := k, prev := keepIter r.1, pflag := x.pflag ||| pfIf r.2 pfItr }
    if checkDue k e.tp.k then y.checked k (s.check r.1 x.prev) else y)

/-- The problem in the Iterate stage with iterations left. -/
def State.iterating (s : State) (u c : Nat) : Option Slot :=
  ((s.tc u).live4.map Prod.snd).find? (fun y =>
    y.stage == .iterate && !y.waiting && (s.tmpl u c y.tmpl).iterates
      && decide (y.iter < (s.tmpl u c y.tmpl).k))

/-- ITERATION_COMPLETE: an iteration of the problem in the Iterate stage completes, with its check
(R156-R162). -/
def execIterationComplete (t : TileNo) (s : State) : Out :=
  let c := s.ctxOn t.val
  .next (match s.iterating t.val c with
    | none => s
    | some sl =>
      let ts := s.heatTiles t.val sl.heat
      if ts.all (fun u => s.unitRuns u 4 && (s.iterating u c).isSome) then
        s.tilesDo ts (fun u s =>
          match s.iterating u c with
          | some y => s.iterateRank u c y
          | none => s)
      else s)

/-! ## Commit (R171, R173) -/

/-- The heat whose problem commits next. -/
def TCtx.committing (x : TCtx) : Option (Heat × SolveRun) :=
  x.heats.findSome? (fun h =>
    match h.solve with
    | some r => if r.done < r.count then some (h, r) else none
    | none => none)

/-- Whether problem `i` of a heat can commit on a rank: it is in Emit, or it never entered and C_out
has passed (R171, R173). -/
def State.rankEmits (s : State) (heat i u : Nat) : Bool :=
  let x := s.tc u
  s.unitRuns u 5 &&
    (match x.slotOf heat i, x.heat? heat with
     | some (_, y), _ => y.stage == .emit && !y.waiting
     | none, some h => h.cutOut && !x.busy .emit
         && (match h.solve with | some r => decide (r.next ≤ i) | none => false)
     | none, none => false)

/-- EMIT_COMMIT: Emit commits the heat's next problem on every rank (R171). -/
def execEmitCommit (t : TileNo) (s : State) : Out :=
  let c := s.ctxOn t.val
  .next (match (s.tc t.val).committing with
    | none => s
    | some (h, r) =>
      let i := r.done
      if h.tiles.all (s.rankEmits h.num i) then
        let g := s.gateAll h.tiles c 5 7 i h.num r
        if g.2 then
          let mark := if ((s.tc t.val).slotOf h.num i).isNone then 7 else 0
          (g.1.commitProblem t.val c h.num i mark).kickAll h.tiles
        else g.1
      else s)

/-! ## Cut points and deadline (R172-R175) -/

/-- Change a heat wherever it stands: on a tile that runs it, or in a saved context. -/
def State.modHeatAny (s : State) (c n : Nat) (f : Heat → Heat) : State :=
  let s := s.tilesDo (List.range 32) (fun u s =>
    if (s.tile u).ctx = some c then s.modTc u (fun x => x.modHeatNum n f) else s)
  { s with saved := s.saved.map (fun p =>
      if p.1 / 32 = c then (p.1, p.2.modHeatNum n f) else p) }

/-- Tiles on which a heat of a context is present and its stages run. -/
def State.presentOn (s : State) (c n : Nat) : List Nat :=
  (List.range 32).filter (fun u =>
    (s.tile u).ctx == some c && ((s.tc u).heat? n).isSome && s.working u)

/-- Whether a heat of a context has a deadline. -/
def State.hasDeadline (s : State) (c n : Nat) : Bool :=
  let p (x : TCtx) := ((x.heat? n).map Heat.dead).getD false
  (List.range 32).any (fun u => (s.tile u).ctx == some c && p (s.tc u))
    || s.saved.any (fun q => q.1 / 32 == c && p q.2)

/-- CUT_POINT_FAC: C_fac of a heat, at once on its running tiles, and at the resume of a saved
context (R172, R175). -/
def execCutPointFac (c : Fin 64) (heat : Word) (s : State) : Out :=
  let n := heat.toNat
  .next (if s.hasDeadline c.val n then
      let on := s.presentOn c.val n
      let s := s.modHeatAny c.val n (fun h => { h with pendFac := true })
      (s.tilesDo on (fun u s =>
        (s.cutFacTile u c.val n).modTc u (fun x =>
          x.modHeatNum n (fun h => { h with pendFac := false })))).kickAll on
    else s)

/-- CUT_POINT_OUT: C_out of a heat (R173, R175). -/
def execCutPointOut (c : Fin 64) (heat : Word) (s : State) : Out :=
  let n := heat.toNat
  .next (if s.hasDeadline c.val n then
      let on := s.presentOn c.val n
      let s := s.modHeatAny c.val n (fun h => { h with pendOut := true })
      (s.tilesDo on (fun u s =>
        (s.cutOutTile u c.val n).modTc u (fun x =>
          x.modHeatNum n (fun h => { h with pendOut := false })))).kickAll on
    else s)

/-- DEADLINE_TIME: commits of the heat's problems after this cycle are late (R175, R282). -/
def execDeadlineTime (c : Fin 64) (heat : Word) (s : State) : Out :=
  .next (if s.hasDeadline c.val heat.toNat then
      s.modHeatAny c.val heat.toNat (fun h => { h with late := true })
    else s)

/-- Apply the cut points that fell while the context was away (R175). -/
def State.pendingCuts (s : State) (u c : Nat) : State :=
  s.each (s.tc u).heats (fun s h =>
    let s := if h.pendFac then s.cutFacTile u c h.num else s
    let s := if h.pendOut then s.cutOutTile u c h.num else s
    s.modTc u (fun x => x.modHeatNum h.num (fun y => { y with pendFac := false, pendOut := false })))

end Sys2Proof.Machine
end

