-- ==== Sys2Proof/Machine/Sequence.lean ====
section
/-!
DEFINITION. Stage commands and sequencer entries (R194-R202), and the commits of the Tensor stage
and the copy engine (R94-R99, R206).
-/

namespace Sys2Proof.Machine

/-! ## Issue (R195, R198) -/

/-- The tile's work takes the LAYER and OPERATOR of the entry (R200), and the next entry is 32 bytes
on. -/
def TCtx.entry (x : TCtx) (h : CmdHdr) : TCtx :=
  { x.modHeat (fun y => { y with layer := h.layer.toNat, oper := h.oper.toNat }) with pc := x.pc + 32 }

/-- The entry's IDs become those of the tile's work, and end the Scalar Lane's run of other IDs
(R200, R453). -/
def State.entryIds (s : State) (t : Nat) (h : CmdHdr) : State :=
  (s.modTc t (fun x => x.modHeat (fun y => { y with layer := h.layer.toNat, oper := h.oper.toNat }))).endRun t

/-- A 32-byte entry at the tile's program address acts in the sequencer, once the V instruction before
it has retired without a trap (R116, R198). -/
def State.seqEntry (s : State) (t : Nat) (h : CmdHdr) (f : State → State) : State :=
  s.issueDo t (fun s => f ((s.entryIds t h).modTc t (fun x => x.entry h)))

/-- The four queues of R198. -/
inductive Queue where
  | a | t | c | b
  deriving DecidableEq, Repr

/-- Entries of a queue. -/
def TCtx.queue (x : TCtx) : Queue → List QCmd
  | .a => x.qa | .t => x.qt | .c => x.qc | .b => x.qb

/-- Append to a queue. -/
def TCtx.push (x : TCtx) (q : QCmd) : Queue → TCtx
  | .a => { x with qa := x.qa ++ [q] }
  | .t => { x with qt := x.qt ++ [q] }
  | .c => { x with qc := x.qc ++ [q] }
  | .b => { x with qb := x.qb ++ [q] }

/-- Issue a stage command to its queue, when it has a free entry; the command counts as work on
`units` until it has finished there (R198, R199). -/
def State.enqueue (s : State) (t : Nat) (h : CmdHdr) (k : Queue) (units : List Nat) (op : StageOp) :
    State :=
  if ((s.tc t).queue k).length < 4 then s.issueDo t (fun s =>
    let fl := s.flushOn t
    let s := (s.entryIds t h).modTc t (fun x =>
      let q : QCmd := ⟨x.nextSeq, h.wait.toNat, h.layer.toNat, h.oper.toNat, x.heatNum, fl, op⟩
      { (x.entry h).push q k with
        nextSeq := x.nextSeq + 1
        work := x.work ++ units.map (fun u => (x.nextSeq, u)) })
    s.kick t)
  else s

/-- A fault of a command at its issue, when its queue has a free entry: it has no effect and the context's
teardown follows (R198, R312). -/
def State.issueFault (s : State) (t : Nat) (h : CmdHdr) (k : Queue) (cause : Nat) : State :=
  if ((s.tc t).queue k).length < 4 then
    s.issueDo t (fun s => (s.entryIds t h).faultTile t (s.ctxOn t) cause)
  else s

/-! ## Sequencer entries -/

/-- HEND: issue stops and the heat's program has ended (R201). -/
def execHend (t : TileNo) (hdr : CmdHdr) (s : State) : Out :=
  .next (s.seqEntry t.val hdr (fun s =>
    ((s.cmdEnd t.val 7 0).modTc t.val (fun x =>
      (x.modHeat (fun h => { h with hended := true })).tfFinal)).kickGang t.val (s.tc t.val).heatNum))

/-- FENCE: holds issue until every earlier command has finished on the stages WAIT selects (R199). -/
def execFence (t : TileNo) (hdr : CmdHdr) (s : State) : Out :=
  .next (s.seqEntry t.val hdr (fun s =>
    (s.modTc t.val (fun x =>
      { x with hold := .fence x.nextSeq hdr.wait.toNat, nextSeq := x.nextSeq + 1 })).kick t.val))

/-- SETMODE: the context's subnormal mode.  Every tile of a gang runs the same program and changes at the
same command boundary, that of its own SETMODE entry (R63; DEDUCED, log entry 63). -/
def execSetmode (t : TileNo) (hdr : CmdHdr) (subn : Bool) (s : State) : Out :=
  .next (s.seqEntry t.val hdr (fun s => s.modTc t.val (fun x => { x with subn := subn })))

/-- BWAIT (R306-R308). -/
def execBwait (t : TileNo) (hdr : CmdHdr) (baton : Fin 32768) (arg : Word) (s : State) : Out :=
  .next (s.seqEntry t.val hdr (fun s => s.batonWait t.val (s.ctxOn t.val) baton.val arg.toNat))

/-! ## Stage commands -/

/-- BPOST, through queue B (R198, R306). -/
def execBpost (t : TileNo) (hdr : CmdHdr) (baton : Fin 32768) (arg : Word) (s : State) : Out :=
  .next (s.enqueue t.val hdr .b [] (.bpost baton.val arg.toNat))

/-- COPY, through queue C (R26, R206). -/
def execCopy (t : TileNo) (hdr : CmdHdr) (src dst : BitVec 48) (len : Word) (s : State) : Out :=
  .next (s.enqueue t.val hdr .c [6] (.copy src.toNat dst.toNat len.toNat))

/-- SOLVE, through queue A; a second SOLVE of the heat, or a template whose GANG is not the number of
the heat's tiles, is a fault and a false start and places no problems (R202, R312). -/
def execSolve (t : TileNo) (hdr : CmdHdr) (tmpl : Word) (count : Byte) (xlist : Word) (s : State) :
    Out :=
  let x := s.tc t.val
  let c := s.ctxOn t.val
  let bad := match x.curHeat with
    | some h => h.solve.isSome || x.qa.any (fun q => q.heat == h.num)
        || (s.tmpl t.val c tmpl.toNat).gang != h.tiles.length
    | none => false
  .next (if bad then s.issueFault t.val hdr .a 4
    else s.enqueue t.val hdr .a [0, 1, 2, 3, 4, 5] (.solve tmpl.toNat count.toNat xlist.toNat))

/-- MAC, through queue T; descriptors that disagree in shape or format at issue are a fault and a
false start (R72-R91, R196). -/
def execMac (t : TileNo) (hdr : CmdHdr) (o : MacOps) (s : State) : Out :=
  let c := s.ctxOn t.val
  let d (i : Nat) := s.tdesc t.val c i
  let c? := if o.tc = 0xFFFF then none else some (d o.tc.toNat, d (o.tc.toNat + 1))
  let d2 := if o.tout2 = 0xFFFF then none else some (d o.tout2.toNat)
  .next (if macAgrees o (d o.ta.toNat) (d o.tw.toNat) c? (d o.tout.toNat) d2 then
      s.enqueue t.val hdr .t [1] (.mac o)
    else s.issueFault t.val hdr .t 4)

/-- Whether a CONV's descriptors agree in shape, format and scale selection (R39, R91, R196): INT32 is none
of the converter's fifteen formats. -/
def convAgrees (o : ConvOps) (a d : TDesc) : Bool :=
  decide (a.fmt < 16) && decide (d.fmt < 16) && a.rows == d.rows && a.cols == d.cols && a.code != .int32
    && d.code != .int32
    && (match o.smode.toNat % 4 with
        | 0 => true
        | 1 => (match d.code with | .mx _ => true | _ => false)
        | 2 => (match d.code with
                | .mx _ => true | .elem .tf8 => true | .elem .int8 => true | .elem .uint8 => true
                | _ => false)
        | _ => false)

/-- CONV, through queue T (R91, R196). -/
def execConv (t : TileNo) (hdr : CmdHdr) (o : ConvOps) (s : State) : Out :=
  let c := s.ctxOn t.val
  .next (if convAgrees o (s.tdesc t.val c o.ts.toNat) (s.tdesc t.val c o.td.toNat) then
      s.enqueue t.val hdr .t [1] (.conv o)
    else s.issueFault t.val hdr .t 4)

/-- XTLOAD, through queue T (R79). -/
def execXtload (t : TileNo) (hdr : CmdHdr) (table : Fin 16) (bf : Bool) (src : Word) (s : State) :
    Out :=
  .next (s.enqueue t.val hdr .t [1] (.xtload table.val bf src.toNat))

/-! ## Commits -/

/-- Write scattered bytes: a unit all of whose bytes are written loses its poison (R336). -/
def State.mwriteAll (s : State) (l : List (Nat × Byte)) : State :=
  { s with
    mem := mputs s.mem l
    wrote := (s.now, (((l.map (fun p => poisonKey p.1)).eraseDups).filter (fun k =>
      (List.range (poisonUnit k)).all (fun i => l.any (fun p => p.1 == k + i)))).map (fun k => (k, poisonUnit k))
      ++ s.wroteNow)
    poison := s.poison.filter (fun k =>
      !(List.range (poisonUnit k)).all (fun i => l.any (fun p => p.1 == k + i))) }

/-- The 66 words of a histogram record (R97). -/
def histBytes (h : List Nat) : List Byte := h.flatMap (fun n => leBytes 4 (min n 0xFFFFFFFF))

/-- Registers after the commit of a tensor's histogram (R97). -/
def TCtx.histCommit (x : TCtx) (r : TensorRun) : TCtx :=
  match r.hist with
  | none => x
  | some h =>
    { x with
      hist := ((List.range h.length).zip h).foldl
        (fun m p => tput m p.1 (BitVec.ofNat 32 (min p.2 0xFFFFFFFF))) x.hist
      histGen := x.histGen + 1
      histTag := BitVec.ofNat 32 (r.cmd.layer * 65536 + r.cmd.oper)
      live := match r.live with
        | some v => tput x.live r.slot v
        | none => x.live }

/-- Registers after the commit of an XTLOAD (R79, R93). -/
def TCtx.xtabCommit (x : TCtx) (r : TensorRun) : TCtx :=
  match r.xtab with
  | none => x
  | some (k, bf, ws) =>
    { x with
      xtab := ((List.range ws.length).zip ws).foldl
        (fun m p => tput m (8 * k + p.1) (BitVec.ofNat 32 p.2)) x.xtab
      xtabFmt := fsetBit x.xtabFmt k bf }

/-- A command that ends on a unit: its record, the hold of a dump AFTER it, and what waited for it
(R199, R461, R469). -/
def State.unitDone (s : State) (t c u : Nat) (q : QCmd) : State :=
  let s := s.modTc t (fun x => (x.workDone q.seq u).tfFinal)
  let s := s.cmdEnd t u q.seq
  let s := (s.dumpGate t c u 1 q.seq 0 q.layer q.oper q.heat false).1
  if u = 1 then s.kickGang t q.heat else s.kick t

/-- TENSOR_COMMAND_COMMIT: the command in the Tensor stage of the tile commits: its output, flags,
histogram, running maximum and table (R79, R91, R94-R99). -/
def execTensorCommandCommit (t : TileNo) (s : State) : Out :=
  let c := s.ctxOn t.val
  .next (match (s.tc t.val).tensor with
    | none => s
    | some r =>
      if s.unitRuns t.val 1 then
        let s := (s.tensorWrites t.val c r.cmd.op).foldl
          (fun s p => s.loanDirty t.val c (p.1 - spadBase t.val) p.2) s
        let s := s.mwriteAll (r.bytes.map (fun p => (s.shareA t.val c p.1, p.2)))
        let s := match r.hist with
          | some h => if r.hrec = 0 then s else s.mwrite (s.shareA t.val c r.hrec) (histBytes h)
          | none => s
        let s := s.modTc t.val (fun x =>
          { (((x.histCommit r).xtabCommit r).tfAdd r.cmd.heat r.flags) with tensor := none })
        s.unitDone t.val c 1 r.cmd
      else s)

/-- The fault of an ended COPY: the cause of its first error, with the class of the unit that met it
above bit 8 (R329, R335, R392, R437). -/
def State.copyEnd (s : State) (t c : Nat) (r : CopyRun) (err : Nat) : State :=
  let s := s.modTc t (fun x => { x with copy := none })
  let s := if err = 0 then s
    else s.faultTile t c (err % 256) (if err < 256 then 1 else err / 256) (some r.cmd.ids)
  s.unitDone t c 6 r.cmd

/-- The next `n` bytes of a local COPY are in place, with the fault of poison among them (R206, R300,
R335). -/
def State.copyMove (s : State) (t c : Nat) (r : CopyRun) (n : Nat) : State :=
  let err := if r.err ≠ 0 then r.err
    else if s.poisoned r.src n then s.poisonCause t c r.src n else 0
  let s := match s.place r.dst with
    | .spad u o => s.loanDirty u c o n
    | _ => s
  (s.moveBytes r.src r.dst n).modTc t (fun x => { x with
    copy := some { r with src := r.src + n, dst := r.dst + n, left := r.left - n, err := err } })

/-- COPY_COMPLETE: a local COPY's bytes are in place, or a remote COPY's last block is answered
(R206, R342). -/
def execCopyComplete (t : TileNo) (s : State) : Out :=
  let c := s.ctxOn t.val
  .next (match (s.tc t.val).copy with
    | none => s
    | some r =>
      if s.unitRuns t.val 6 && !r.held then
        if r.remote then
          if r.left = 0 ∧ r.outst = 0 then s.copyEnd t.val c r r.err else s
        else
          let s := s.copyMove t.val c r r.left
          s.copyEnd t.val c r (((s.tc t.val).copy.map CopyRun.err).getD 0)
      else s)

end Sys2Proof.Machine
end

