-- ==== Sys2Proof/Machine/Preempt.lean ====
section
/-!
DEFINITION. Pre-emption, save and restore (R205-R211), and which context a tile serves next
(R289, R290, R295, R296).
-/

namespace Sys2Proof.Machine

/-! ## Who a tile serves -/

/-- Change the lookahead entries that `f` selects. -/
def State.modLook (s : State) (f : LookEntry → Bool) (g : LookEntry → LookEntry) : State :=
  { s with dsp := { s.dsp with look := s.dsp.look.map (fun e => if f e then g e else e) } }

/-- Change the BE heats that `f` selects. -/
def State.modBe (s : State) (f : BeRun → Bool) (g : BeRun → BeRun) : State :=
  { s with dsp := { s.dsp with be := s.dsp.be.map (fun r => if f r then g r else r) } }

/-- Whether an LC entry holds its tiles: from its W until its heat is complete (R289). -/
def LookEntry.reserves (e : LookEntry) : Bool := e.state != .pending

/-- The LC entry that a tile serves: of those that reserve it, the one woken first (R289). -/
def State.tileEntry (s : State) (t : Nat) : Option LookEntry :=
  (s.dsp.look.filter (fun e => e.reserves && e.tiles.contains t)).foldl
    (fun (a : Option LookEntry) e => match a with
      | some x => if x.wake ≤ e.wake then a else some e
      | none => some e) none

/-- The BE heat placed on a tile and not saved. -/
def State.tileBe (s : State) (t : Nat) : Option BeRun :=
  s.dsp.be.find? (fun r => !r.saved && r.tiles.contains t)

/-- The context a tile is to serve now: its LC entry's, else its BE heat's. -/
def State.wants (s : State) (t : Nat) : Option Nat :=
  match s.tileEntry t with
  | some e => some e.ctx
  | none => (s.tileBe t).map BeRun.ctx

/-- The key of a context saved on a tile. -/
def savedKey (c t : Nat) : Nat := 32 * c + t

/-- Tiles that a restore on tile `t` completes together: every rank of a saved heat (R209). -/
def State.restoreGang (s : State) (t c : Nat) : List Nat :=
  match (tfind s.saved (savedKey c t)).bind (fun x => x.heats.getLast?) with
  | some h => h.tiles
  | none => [t]

/-- Tiles of the heat on tile `t`, or of the one that is being restored there: the tile alone when it has none
(R209). -/
def State.gangOn (s : State) (t : Nat) : List Nat :=
  match (s.tile t).incoming, (s.tc t).heats.getLast? with
  | some c, _ => s.restoreGang t c
  | none, some h => h.tiles
  | none, none => [t]

/-- Whether context `c` is on tile `t` in RUN and no save, restore or request is under way. -/
def State.readyOn (s : State) (t c : Nat) : Bool :=
  let x := s.tile t
  x.power == .run && x.ctx == some c && decide (x.seq = .running) && x.preq.isNone
    && x.preDue.isNone && !x.reclaim && !x.copyBack && !x.inReset

/-- Ask for a pre-emption of the heat on tile `t`, and of its whole gang (R205, R209, X21). -/
def State.requestPreempt (s : State) (t entry : Nat) : State :=
  s.tilesDo (s.gangOn t) (fun u s => s.modTile u (fun x =>
    if x.preDue.isSome || x.preq.isSome then x else { x with preDue := some entry }))

/-- Whether the context on a tile is at a heat boundary: no heat of it is on the tile (R205). -/
def State.atBoundary (s : State) (t : Nat) : Bool := (s.tc t).heats.isEmpty

/-- The loan on a tile that the entry's partition lent (R290, R300). -/
def State.lentOn (s : State) (t : Nat) : Option Loan := s.loans.find? (fun l => l.tile == t)

/-- Start the reclaim of the loan on tile `t`: the borrower is pre-empted if it runs there
(R300). -/
def State.startReclaim (s : State) (t entry : Nat) : State :=
  match s.lentOn t with
  | none => s
  | some l =>
    if (s.tile t).reclaim then s
    else
      let s := s.modTile t (fun x => { x with reclaim := true })
      let s := (s.rbitSet (ctxA l.ctx 0x34) 5 true).eventCtx 56 0x0B l.ctx 0 0 0 t
        (l.len + 2 ^ 31)
      if ((s.tile t).ctx = some l.ctx ∧ s.atBoundary t = false) ∨ (s.tile t).incoming = some l.ctx then
        s.requestPreempt t entry
      else s

/-- Whether a partition in RECOVERY keeps the tile in RUN (X1 of R38). -/
def State.recoveryHolds (s : State) (t : Nat) : Bool :=
  (List.range 16).any (fun p =>
    s.partState p == 2 && bitAt (s.rget (partA p 0x04)).toNat t)

/-- A tile in IDLE, or in a cluster in NAP whose other tiles come to IDLE with it, reaches RUN (R18). -/
def State.tileRuns (s : State) (t : Nat) : State :=
  let s := if (s.tile t).power = .nap then
      s.tilesDo ((List.range 8).map (fun i => t / 8 * 8 + i)) (fun u s =>
        s.modTile u (fun y => if y.power = .nap then { y with power := .idle } else y))
    else s
  s.modTile t (fun y => { y with
    power := .run, seq := if y.ctx.isSome then SeqState.running else y.seq })

/-- The commands that a saved context left in progress stand on the tile's units again (R454, R459). -/
def State.unpark (s : State) (t c : Nat) : State :=
  match tfind s.saved (savedKey c t) with
  | some x =>
    let s := s.each (x.cmds.filter (fun p => !p.2.isEmpty)) (fun s p => s.setCmds t p.1 p.2)
    { s with saved := tput s.saved (savedKey c t) { x with cmds := [] } }
  | none => s

/-- Bring tile `t` towards the context it is to serve: begin a save at a heat boundary, ask for a
pre-emption of a BE occupant, one being restored too, begin a restore, gate an idle tile, or keep it in RUN for
a partition in RECOVERY (R205, R208, R290, R293, X1 of R38). -/
def State.settle (s : State) (t : Nat) : State :=
  let x := s.tile t
  if x.inReset || x.power == .off || x.power == .hold then s
  else
    match s.wants t with
    | none =>
      if x.power = .run ∧ x.seq = .running ∧ s.atBoundary t = true
          ∧ s.recoveryHolds t = false then
        s.setTile t { x with power := .idle }
      else if x.power = .run ∧ x.seq = .idle ∧ s.recoveryHolds t = false then
        s.setTile t { x with power := .idle }
      else if (x.power = .idle ∨ x.power = .nap) ∧ s.recoveryHolds t = true then s.tileRuns t
      else s
    | some c =>
      if x.power ≠ .run ∨ x.reclaim = true ∨ x.copyBack = true then s
      else
        match x.ctx with
        | none =>
          if x.seq = .restoring then
            match x.incoming, s.tileEntry t with
            | some d, some e => if d ≠ c ∧ s.ctxBE d = true then s.requestPreempt t e.idx else s
            | _, _ => s
          else (s.unpark t c).setTile t { x with seq := .restoring, incoming := some c }
        | some d =>
          if d = c ∨ x.seq ≠ .running ∨ x.preq.isSome = true then s
          else if s.atBoundary t then
            s.setTile t { x with
              seq := .saving, saveNs := s.nsField, stops := [], tc := { x.tc with preIds := none } }
          else
            match s.tileEntry t with
            | some e =>
              if s.ctxBE d then s.requestPreempt t e.idx else s
            | none => s

/-- Settle every tile. -/
def State.settleAll (s : State) (ts : List Nat) : State := s.tilesDo ts (fun u s => s.settle u)

/-- A remote COPY that stands between two blocks, restored or released by the pacer, issues its next block
(R206, R209, R303). -/
def State.resumeCopy (s : State) (t : Nat) : State :=
  match (s.tile t).ctx, (s.tc t).copy with
  | some c, some r => if r.remote ∧ r.held = false ∧ r.outst = 0 ∧ r.left ≠ 0 ∧ (s.tile t).preq = none then s.copyBlock t c 16 else s
  | _, _ => s

/-! ## Stopping (R205-R207) -/

/-- Whether a unit of a tile, in WAIT-bit order, has work in it. -/
def TCtx.unitBusy (x : TCtx) (u : Nat) : Bool :=
  match u with
  | 0 => x.busy .assemble
  | 1 => x.busy .tensor || x.tensor.isSome
  | 2 => x.busy .factor
  | 3 => x.busy .solve
  | 4 => x.busy .iterate
  | 5 => x.busy .emit
  | 6 => x.copy.isSome
  | _ => x.vpipe.isSome

/-- Whether the work in a unit has no pre-emption point: Emit and XTLOAD (R206). -/
def TCtx.unitSpan (x : TCtx) (u : Nat) : Bool :=
  match u with
  | 5 => x.busy .emit
  | 1 => (match x.tensor with | some r => r.xtab.isSome | none => false)
  | _ => false

/-- Whether a unit stands at a pre-emption point: Emit and XTLOAD complete, a Kalman or pass-through
problem has left Iterate, a remote COPY's block is answered (R206), and no dump holds the unit (R471). -/
def State.atPoint (s : State) (t u : Nat) : Bool :=
  let x := s.tc t
  !x.unitSpan u
    && (match u, x.copy with
        | 6, some r => r.outst == 0
        | _, _ => true)
    && (u != 4 || x.live4.all (fun p => p.2.stage != .iterate || p.2.waiting
        || (s.tmpl t (s.ctxOn t) p.2.tmpl).iterates))
    && !s.dumpHolds t u

/-- A unit stops in this cycle. -/
def State.stopUnit (s : State) (t u : Nat) (span : Bool) : State :=
  s.modTile t (fun x => { x with stops := x.stops ++ [(u, s.now, span)] })

/-- Whether all eight units of a tile have stopped. -/
def Tile.allStopped (x : Tile) : Bool :=
  (List.range 8).all (fun u => x.stops.any (fun p => p.1 == u))

/-- The latest stop among the units that `f` selects, or the request's cycle. -/
def Tile.lastStop (x : Tile) (f : Nat × Nat × Bool → Bool) : Nat :=
  (x.stops.filter f).foldl (fun a p => max a p.2.1) (x.preq.getD 0)

/-- The overrun of a stop: the cycles by which spans without pre-emption points delay it (R207). -/
def Tile.overrun (x : Tile) : Nat :=
  x.lastStop (fun _ => true) - x.lastStop (fun p => !p.2.2)

/-- The cycles by which the stop of a borrower whose loan is reclaimed exceeds STOPMAX, an overrun too
(R300). -/
def Tile.overStop (x : Tile) (stopmax : Nat) : Nat :=
  if x.reclaim then x.lastStop (fun _ => true) - x.preq.getD 0 - stopmax else 0

/-- TILE_t_PRE_LAT of a finished stop (R212). -/
def Tile.preLatWord (x : Tile) : Word :=
  let stop := min (x.lastStop (fun _ => true) - x.preq.getD 0) 0xFFFF
  BitVec.ofNat 32 (stop * 65536 + min x.overrun 0xFFFF)

/-- Whom the PREEMPT and RESTORE events of a tile concern: its heat, with the command in progress at the request, or
0 and 0 (R459). -/
def State.moveIds (s : State) (t : Nat) : CmdIds := ((s.tc t).preIds).getD ((s.tileIds t).1, 0, 0)

/-- The save of every rank begins (R205, R209): PRE_LAT, the PREEMPT event, the overrun's charge to
a BE context (R298) and the waiters' leave from their FIFOs (R307). -/
def State.beginSave (s : State) (ts : List Nat) (c : Nat) : State :=
  let sm := s.rfld (ctxA c 0x20) 0 16
  let ov := ts.foldl (fun a u => max a (max (s.tile u).overrun ((s.tile u).overStop sm))) 0
  let s := s.tilesDo ts (fun u s =>
    let x := s.tile u
    let w := x.preLatWord
    let e := x.preDue.getD 65536
    let s := s.setTile u { x with
      seq := .saving, preq := none, preDue := none, preLat := w, stops := [], saveNs := s.nsField }
    (s.eventTile u 0x03 w.toNat (if e < 65536 then e else 0xFFFFFFFF) (some (s.moveIds u))).withdraw u)
  if s.ctxBE c && decide (ov ≠ 0) then
    let s := s.rset (ctxA c 0x38) (BitVec.ofNat 32 (min ((s.rget (ctxA c 0x38)).toNat + ov) 0xFFFFFFFF))
    (s.rbitSet (ctxA c 0x34) 1 true).acct c (fun a => { a with ovrCyc := a.ovrCyc + ov })
  else s

/-- Begin the save when the last unit of the last rank has stopped (R205, R209). -/
def State.trySave (s : State) (t : Nat) : State :=
  let ts := s.gangOn t
  if ts.all (fun u => (s.tile u).preq.isSome && (s.tile u).allStopped && !s.dumpHolds u 16) then
    s.beginSave ts (s.ctxOn t)
  else s

/-- PREEMPTION_REQUEST: a request on its way reaches the tile and every rank of its heat; units
without work and without a dump stop at once, and a request during a restore lets the restore finish (R205, R208,
R209). -/
def execPreemptionRequest (t : TileNo) (s : State) : Out :=
  let x := s.tile t.val
  .next (if x.preDue.isSome && x.preq.isNone && (decide (x.seq = .running) || decide (x.seq = .restoring))
    then
      let s := s.tilesDo (s.gangOn t.val) (fun u s =>
        let s := s.modTile u (fun y => { y with
          preq := some s.now, preDue := x.preDue, stops := []
          spans := (List.range 8).filter (fun k => y.tc.unitSpan k || s.dumpHolds u k) })
        if (s.tile u).seq = .restoring then s
        else (s.modTc u (fun y => { y with preIds := s.workIds u })).each
            ((List.range 8).filter (fun k => !(s.tc u).unitBusy k && !s.dumpHolds u k)) (fun s k =>
          s.stopUnit u k false))
      s.trySave t.val
    else s)

/-- What a stop makes of the work in a unit: the V instruction in flight is abandoned and will execute again
(R110), and a local COPY stands after some of its 256-byte pieces (R206). -/
def State.stopWork (s : State) (t u : Nat) : State :=
  match u with
  | 6 =>
    match (s.tc t).copy with
    | some r =>
      if r.remote || r.held then s
      else
        let k := Config.copiedPieces s.fresh % (r.left / 256 + 1)
        { s with fresh := s.fresh + 1 }.copyMove t (s.ctxOn t) r (256 * k)
    | none => s
  | 7 => s.modTc t TCtx.abandonV
  | _ => s

/-- UNIT_STOP: a unit of the tile reaches its pre-emption point; the last one lets the save begin
(R205-R207). -/
def execUnitStop (t : TileNo) (unit : Fin 8) (s : State) : Out :=
  let x := s.tile t.val
  .next (if x.preq.isSome && decide (x.seq = .running)
      && !x.stops.any (fun p => p.1 == unit.val) && s.atPoint t.val unit.val then
      ((s.stopWork t.val unit.val).stopUnit t.val unit.val (x.spans.contains unit.val)).trySave t.val
    else s)

/-! ## The save area (R210) -/

/-- The 32 bytes of a queued stage command (R195, R196). -/
def QCmd.bytes (q : QCmd) : List Byte :=
  let hd (op : Nat) : List Byte := [BitVec.ofNat 8 op, BitVec.ofNat 8 q.wait]
    ++ leBytes 2 q.layer ++ leBytes 2 q.oper ++ leBytes 2 0
  let b (v : Byte) : List Byte := [v]
  let l := match q.op with
    | .solve tm n xl => hd 0x90 ++ leBytes 4 tm ++ leBytes 4 n ++ leBytes 4 xl
    | .mac o => hd 0xA0 ++ leBytes 2 o.ta.toNat ++ leBytes 2 o.tw.toNat ++ leBytes 2 o.tc.toNat
        ++ leBytes 2 o.tout.toNat ++ leBytes 2 o.tout2.toNat ++ b o.mflags
        ++ leBytes 1 o.rmslot.val ++ leBytes 4 o.hrec.toNat ++ b o.smode ++ b o.qexp
    | .conv o => hd 0xA1 ++ leBytes 2 o.ts.toNat ++ leBytes 2 o.td.toNat ++ leBytes 1 o.rmslot.val
        ++ b o.smode ++ b o.qexpSrc ++ b o.qexpDst ++ leBytes 4 o.hrec.toNat
    | .xtload k bf src => hd 0xA2 ++ leBytes 1 k ++ leBytes 1 (b2n bf) ++ leBytes 2 0 ++ leBytes 4 src
    | .copy src dst n => hd 0x88 ++ leBytes 8 src ++ leBytes 8 dst ++ leBytes 4 n
    | .bpost ba arg => hd 0x85 ++ leBytes 2 ba ++ leBytes 2 0 ++ leBytes 4 arg
  l ++ lrep (32 - l.length) 0

/-- Four queue entries; empty ones are 0. -/
def queueBytes (l : List QCmd) : List Byte :=
  let b := (l.take 4).flatMap QCmd.bytes
  b ++ lrep (128 - b.length) 0

/-- A section whose inner layout R210 leaves open: zero without work, resume bytes with it. -/
def resumeSec (draw n : Nat) (work : Bool) : List Byte :=
  if work then (List.range n).map (fun i => Config.resumeByte (draw + i)) else lrep n 0

/-- Words of a table at keys 0 to n - 1. -/
def tabWords (m : Tab Word) (n : Nat) : List Byte :=
  (List.range n).flatMap (fun k => leBytes 4 (tget 0 m k).toNat)

/-- USTATE of a unit: 0 idle, 1 stopped with resume data, 2 at a command boundary (R210). -/
def TCtx.ustate (x : TCtx) (u : Nat) : Nat :=
  if x.unitBusy u then 1 else if x.work.any (fun w => w.2 == u) then 2 else 0

/-- The header of a save area (R210). -/
def State.saveHeader (s : State) (t c : Nat) : List Byte :=
  let x := s.tc t
  let h := x.heats.getLast?
  let stag := match h.bind Heat.solve with
    | some r => (s.tmpl t c r.tmpl).stag
    | none => 0
  [1, BitVec.ofNat 8 c, BitVec.ofNat 8 (s.ctxBib c), BitVec.ofNat 8 (b2n x.subn + 2 * b2n x.inTrap)]
    ++ leBytes 4 x.pc ++ leBytes 4 ((h.map Heat.num).getD (s.rget (ctxA c 0x28)).toNat) ++ leBytes 4 x.sflag.toNat
    ++ leBytes 4 x.strapEn.toNat ++ leBytes 4 x.strapPc.toNat ++ leBytes 4 x.strapCause.toNat
    ++ leBytes 4 x.strapVec.toNat ++ leBytes 4 stag
    ++ leBytes 1 ((h.map (fun y => y.tiles.length)).getD 1) ++ leBytes 1 ((h.map Heat.rank).getD 0)
    ++ leBytes 2 0 ++ leBytes 4 (s.tile t).saveNs ++ leBytes 4 0
    ++ (List.range 8).map (fun u => BitVec.ofNat 8 (x.ustate u)) ++ leBytes 8 0

/-- The 6,144 bytes of a save (R210). -/
def State.saveBytes (s : State) (t c : Nat) : List Byte :=
  let x := s.tc t
  let d := s.fresh
  s.saveHeader t c
    ++ (List.range 32).flatMap (fun r => leBytes 8 (x.gr r).toNat)
    ++ (List.range 32).flatMap (fun r => leBytes 16 (x.fr r).toNat)
    ++ leBytes 4 x.tflag.toNat ++ leBytes 4 x.tflagPrev.toNat ++ leBytes 4 x.histGen.toNat
    ++ leBytes 4 x.histTag.toNat ++ leBytes 4 x.xtabFmt.toNat ++ lrep 12 0
    ++ tabWords x.hist 66 ++ lrep 24 0 ++ tabWords x.live 64 ++ tabWords x.rmax 64
    ++ (List.range 16).flatMap (fun k => (List.range 8).flatMap (fun w =>
        leBytes 4 (tget 0 x.xtab (8 * k + w)).toNat))
    ++ resumeSec d 576 (x.unitBusy 1)
    ++ resumeSec (d + 576) 2240 (x.unitBusy 2)
    ++ resumeSec (d + 2816) 288 (x.unitBusy 3)
    ++ resumeSec (d + 3104) 64 (x.unitBusy 4)
    ++ queueBytes x.qa ++ queueBytes x.qt ++ queueBytes x.qc ++ queueBytes x.qb
    ++ resumeSec (d + 3168) 64 (x.unitBusy 0)
    ++ resumeSec (d + 3232) 64 (!x.live4.isEmpty)
    ++ resumeSec (d + 3296) 64 (x.unitBusy 6)
    ++ resumeSec (d + 3360) 64 (!x.heats.isEmpty)
    ++ lrep 32 0

/-- Data address of the context's save area on a tile (R187). -/
def State.saveA (s : State) (t c : Nat) : Nat := s.shareA t c (s.cblk t c 0x08 4)

/-- Save the context on a tile and free the tile (R205, R210). -/
def State.saveTile (s : State) (t c : Nat) : State :=
  let x := { s.tc t with cmds := s.liveCmds t }
  let s := { (s.mwrite (s.saveA t c) (s.saveBytes t c)) with
    fresh := s.fresh + 6144, saved := tput s.saved (savedKey c t) x }
  (s.parkCmds t).modTile t (fun y => { y with seq := .idle, ctx := none, tc := { pc := y.tc.pc }, stops := [] })

/-- A BE heat all of whose tiles are saved joins the saved heats as the youngest (R296). -/
def State.beSaved (s : State) (t c : Nat) : State :=
  match s.dsp.be.find? (fun r => r.ctx == c && !r.saved && r.tiles.contains t && r.heat != 0) with
  | none => s
  | some r =>
    if r.tiles.all (fun u => (s.tile u).ctx != some c && (tfind s.saved (savedKey c u)).isSome) then
      { s with dsp := { s.dsp with be := s.dsp.be.erase r ++ [{ r with saved := true, ran := 0 }] } }
    else s

/-- SAVE_COMPLETE: the save of the tile's context ends, and the tile turns to the context it is to
serve (R205, R210). -/
def execSaveComplete (t : TileNo) (s : State) : Out :=
  let x := s.tile t.val
  .next (match x.ctx with
    | some c =>
      if x.seq = .saving ∧ x.inReset = false then ((s.saveTile t.val c).beSaved t.val c).settle t.val else s
    | none => s)

/-! ## Restore (R211) -/

/-- The context load state of a tile (R211). -/
def State.freshTc (s : State) (t c : Nat) : TCtx :=
  { subn := bitAt (s.cblk t c 0x16 1) 0
    strapEn := BitVec.ofNat 9 (s.cblk t c 0x18 4) &&& trapMask
    strapVec := BitVec.ofNat 32 (s.cblk t c 0x1C 4) }

/-- A table of `n` words of `w` bytes from an address; words of 0 are not listed. -/
def State.readTab {k : Nat} (s : State) (a w n : Nat) : Tab (BitVec k) :=
  (List.range n).filterMap (fun i =>
    let v := BitVec.ofNat k (s.mval (a + w * i) w)
    if v = 0 then none else some (i, v))

/-- The registers of a save area over the rest of the context's state (R210, R211). -/
def State.readArea (s : State) (a : Nat) (x : TCtx) : TCtx :=
  let w (o : Nat) : Word := BitVec.ofNat 32 (s.mval (a + o) 4)
  let m := s.mval (a + 3) 1
  { x with
    subn := bitAt m 0, inTrap := bitAt m 1, pc := s.mval (a + 4) 4
    sflag := BitVec.ofNat 9 (s.mval (a + 0x0C) 4), strapEn := BitVec.ofNat 9 (s.mval (a + 0x10) 4)
    strapPc := w 0x14, strapCause := w 0x18, strapVec := w 0x1C
    g := s.readTab (a + 0x40) 8 32, f := s.readTab (a + 0x140) 16 32
    tflag := w 0x340, tflagPrev := w 0x344, histGen := w 0x348, histTag := w 0x34C, xtabFmt := w 0x350
    hist := s.readTab (a + 0x360) 4 66, live := s.readTab (a + 0x480) 4 64
    rmax := s.readTab (a + 0x580) 4 64, xtab := s.readTab (a + 0x680) 4 128 }

/-- The context state that a restore brings to a tile, and whether it was saved: the registers from the save
area, the units' work from State.saved (R211; log entry 18). -/
def State.restored (s : State) (t c : Nat) : TCtx × Bool :=
  if s.mval (s.saveA t c) 1 = 1 then
    match tfind s.saved (savedKey c t) with
    | some x => (s.readArea (s.saveA t c) x, true)
    | none => (s.freshTc t c, false)
  else (s.freshTc t c, false)

/-- A held BWAIT resumes: a local wait is entered again at the tail, a proxy wait still waits for
its reply (R206, R307, R309). -/
def State.resumeWait (s : State) (t c : Nat) : State :=
  match (s.tc t).hold with
  | .bwait b a => if s.batonProxy b then s else s.enterWait ⟨b, a, .tile t, c, s.ctxPart c⟩
  | _ => s

/-- TILE_t_SOLV_OR of a restored heat: the counts its SOLVE had at the save (R151). -/
def State.showSolv (s : State) (t c : Nat) : State :=
  match (s.tc t).heats.reverse.findSome? (fun h => h.solve.bind (fun r =>
      if r.next = 0 then none else some (h.num, r))) with
  | some (n, r) => s.modTile t (fun x =>
      { x with solvCtx := c, solvHeat := n, solvDone := r.solvDone, solvOr := r.solvOr })
  | none => s

/-- Restore a context on one tile (R205, R211). -/
def State.restoreTile (s : State) (t c : Nat) : State :=
  let a := s.saveA t c
  let bad := s.poisoned a 6144
  let s := s.readPoison a 6144
  let r := s.restored t c
  let s := s.modTile t (fun y => { y with seq := .running, ctx := some c, tc := r.1, incoming := none })
  let s := { s with saved := tdel s.saved (savedKey c t) }
  let s := if r.2 then s else (s.cmdsAbandoned t (s.liveCmds t)).parkCmds t
  let s := s.eventTile t 0x04 r.1.pc (b2n r.2) (some (s.moveIds t))
  let s := ((s.resumeWait t c).showSolv t c).pendingCuts t c
  if bad then s.faultTile t c 6 else s

/-! ## Heats begin (R23, R201, R278) -/

/-- State of loop n beside its registers. -/
def State.loop (s : State) (n : Nat) : LoopSt := tget {} s.lap.loops n

/-- The latched sample of loop n with its split. -/
def State.latched (s : State) (n : Nat) : LoopSnap :=
  ⟨s.rget (loopA n 0x68), (s.loop n).ySec, (s.rget (loopA n 0x6C)).toNat, s.rbit (loopA n 0x60) 28⟩

/-- The sample of every enabled loop, as latched before the present cycle (R23). -/
def State.loopSnap (s : State) : Tab LoopSnap :=
  (List.range 1024).filterMap (fun n =>
    if s.rbit (loopA n 0x18) 31 then
      some (n, if (s.loop n).yAt = some s.now then (s.loop n).yPrev else s.latched n)
    else none)

/-- The host parameter block as it stands at the heat's start: the cells from HPB to the end of the
share (R23, R128). -/
def State.hostCells (s : State) (t c : Nat) : List Host.Cell :=
  let lo := s.shareA t c (s.cblk t c 0x0C 4)
  let hi := s.shareA t c (s.ctxSpad c).2
  s.mem.filter (fun p => decide (lo ≤ p.1) && decide (p.1 < hi))

/-- Poisoned words of the host parameter block (R335). -/
def State.hostPoison (s : State) (t c : Nat) : List Nat :=
  let lo := s.shareA t c (s.cblk t c 0x0C 4)
  let hi := s.shareA t c (s.ctxSpad c).2
  s.poison.filter (fun k => decide (lo < k + 8) && decide (k < hi))

/-- The next heat number of a context (R278). -/
def State.nextHeat (s : State) (c : Nat) : Nat :=
  let n := (s.rget (ctxA c 0x28)).toNat
  if n = 0xFFFFFFFF then 1 else n + 1

/-- The tag of a RESIDENT factor is invalidated when a HOST word that its factorization used reads
otherwise in the copied block (R144). -/
def State.residentCheck (s : State) (t c : Nat) (h : Heat) : State :=
  let base := s.shareA t c (s.cblk t c 0x0C 4)
  { s with stores := s.stores.map (fun p =>
      let f := p.2
      if f.ctx = c ∧ spadBase t ≤ p.1 ∧ p.1 < spadBase (t + 1) then
        let tp := s.tmpl t c f.tmpl
        let par (j : Nat) : Nat := ((tp.pars[j]?).map PDesc.index).getD 0
        let differs := tp.fpol == 2 && f.refw.any (fun w =>
          BitVec.ofNat 32 (hostWord h base (par w.1)) != w.2)
        if differs then (p.1, { f with tag := 2 ^ 32 }) else p
      else p) }

/-- A heat of a context begins on its tiles: its number, its snapshot and its first entry
(R23, R201, R278). -/
def State.beginHeat (s : State) (c : Nat) (ts : List Nat) (pc entry : Nat) (lc dead : Bool)
    (startNs : Nat) : State :=
  let n := s.nextHeat c
  let s := s.rset (ctxA c 0x28) (BitVec.ofNat 32 n)
  let snap := s.loopSnap
  ((List.range ts.length).zip ts).foldl (fun (s : State) p =>
    let h : Heat :=
      { ctx := c, num := n, lc := lc, entry := entry, dead := dead, stamp := startNs / 256 % 2 ^ 32
        tiles := ts, rank := p.1, snap := snap, host := s.hostCells p.2 c, hostBad := s.hostPoison p.2 c, hended := false
        layer := 0, oper := 0, solve := none, worst := 0, nfb := 0, cutFac := false
        cutOut := false, late := false, pendFac := false, pendOut := false, tflags := 0
        commits := [], aborted := false, stampDue := decide (entry = 65536) }
    let s := s.modTc p.2 (fun x =>
      { x with heats := x.heats ++ [h], pc := pc, hold := .none, stopped := false, stopAt := none })
    let s := s.cmdStart p.2 8 c n (n, 0, 0)
    (s.residentCheck p.2 c h).eventTile p.2 0x01 pc (if entry < 65536 then entry else 0xFFFFFFFF)) s

/-- BE heats that have not begun and whose tiles are all ready begin: G31 of each tile takes the
granted loan (R295). -/
def State.beginBe (s : State) : State :=
  s.each (s.dsp.be.filter (fun r => r.heat == 0
      && r.tiles.all (fun u => s.readyOn u r.ctx && s.atBoundary u))) (fun s r =>
    let s := s.tilesDo r.tiles (fun u s =>
      s.modTc u (fun x => { x with g := tput x.g 31 (BitVec.ofNat 64 r.loan) }))
    let s := s.beginHeat r.ctx r.tiles r.pc 65536 false false s.ns
    s.modBe (fun q => q == r) (fun q => { q with heat := (s.rget (ctxA r.ctx 0x28)).toNat }))

/-- RESTORE_COMPLETE: the restore of the incoming context ends on the tile, on every rank of a saved
heat together; a pre-emption requested meanwhile begins its save at once (R205, R208, R209, R211). -/
def execRestoreComplete (t : TileNo) (s : State) : Out :=
  .next (match (s.tile t.val).incoming with
    | some c =>
      let ts := s.restoreGang t.val c
      if ts.all (fun u => (s.tile u).seq == .restoring && (s.tile u).incoming == some c
          && !(s.tile u).inReset) then
        let s := s.tilesDo ts (fun u s => s.restoreTile u c)
        if ts.any (fun u => (s.tile u).preq.isSome) then s.beginSave ts c
        else (((s.tilesDo ts (fun u s => s.resumeCopy u)).kickAll ts).settleAll ts).beginBe
      else s
    | none => s)

end Sys2Proof.Machine
end

