-- ==== Sys2Proof/Machine/Sched.lean ====
section
/-!
DEFINITION. The Dispatcher: the Schedule Table and its lookahead (R279-R288), wakes and tile choice
(R289, R290), prefetch lists (R291), heats' starts and ends (R184, R201, R288), event entries (R292),
sleep (R293) and pacers (R303).
-/

namespace Sys2Proof.Machine

/-! ## Entries (R279, R280, R284) -/

/-- A Schedule Table entry's fields (R280). -/
structure TabEntry where
  v : Bool
  evt : Bool
  pfl : Nat
  start : Nat
  lead : Nat
  ctx : Nat
  firstFree : Bool
  g : Nat
  cluster : Nat
  tmask : Nat
  dur : Nat
  pc : Nat
  /-- a reserved field is nonzero -/
  rsv : Bool
  deriving DecidableEq, Repr

/-- Read entry i (R279, R280). -/
def State.tabEntry (s : State) (i : Nat) : TabEntry :=
  let w0 := s.rget (tableA i 0)
  let w1 := s.rget (tableA i 1)
  let w2 := s.rget (tableA i 2)
  { v := fbit w0 31, evt := fbit w0 30, pfl := fget w0 20 10, start := fget w0 0 20
    lead := fget w1 0 16, ctx := fget w1 16 6, firstFree := fbit w1 31, g := 2 ^ fget w1 29 2
    cluster := fget w1 24 2, tmask := fget w2 0 8, dur := fget w2 8 20, pc := (s.rget (tableA i 3)).toNat
    rsv := fget w1 22 2 != 0 || fget w1 26 3 != 0 || fget w2 28 4 != 0 }

/-- Tiles of TMASK of a FIXED entry. -/
def TabEntry.fixedTiles (e : TabEntry) : List Nat := (bitList 8 e.tmask).map (fun k => 8 * e.cluster + k)

/-- Tiles of a context in a cluster. -/
def State.ctxTilesIn (s : State) (c k : Nat) : List Nat :=
  ((List.range 8).map (fun i => 8 * k + i)).filter (fun t => bitAt (s.ctxTiles c) t)

/-- The checks of R284 that do not concern START. -/
def State.entryBad (s : State) (e : TabEntry) : Bool :=
  !e.v || !s.ctxEn e.ctx || e.rsv
    || (if e.firstFree then
          e.tmask != 0 || (List.range 4).all (fun k => decide ((s.ctxTilesIn e.ctx k).length < e.g))
        else
          popCount 8 e.tmask != e.g || !e.fixedTiles.all (fun t => bitAt (s.ctxTiles e.ctx) t))

/-- Skip an entry: the counters, the context's flag and the SKIP event (R284, R288, R317, R467). -/
def State.skipEntry (s : State) (idx c reason : Nat) : State :=
  let s := s.rcount (dspA 0x38) 0 32 1
  let s := if reason = 1 then s.rbitSet (dspA 0x28) 1 true else s
  let s := if s.ctxEn c then
      (s.rbitSet (ctxA c 0x34) 2 true).acct c (fun a => { a with skip := a.skip + 1 })
    else s
  s.eventCtx 56 0x0A c 0 0 0 idx reason

/-- Why an entry of context c cannot start: 2 partition not in SERVICE, 0 context not READY
(R36, R288). -/
def State.notReady (s : State) (c : Nat) : Option Nat :=
  if !s.serves c then some 2
  else if s.ctxState c != 2 || s.hasFault c then some 0 else none

/-- The current range: base, count and length. -/
def State.curRange (s : State) : Nat × Nat × Nat :=
  (s.rfld (dspA 0x00) 0 16, s.rfld (dspA 0x04) 0 17, s.rfld (dspA 0x08) 0 20)

/-- The range being read: base, count and length: one that a switch has replaced beneath the reader, the next
range past a pending switch, or the current one (R285, R287). -/
def State.rdRange (s : State) : Nat × Nat × Nat :=
  match s.dsp.rdFrom with
  | some r => r
  | none =>
    if s.dsp.rdNext then
      (s.rfld (dspA 0x10) 0 16, s.rfld (dspA 0x14) 0 17, s.rfld (dspA 0x18) 0 20)
    else s.curRange

/-- A MEMBER that has had a boundary: its later ranges switch at the master's index (R285, R286). -/
def State.member (s : State) : Bool := s.role == 2 && s.dsp.bound.isSome

/-- The boundary time at which the next range becomes current: the first at least 10 µs after the ARM, or,
on a member, that of the index the master's alignment names (R285, R286). -/
def State.switchTime (s : State) : Option Nat :=
  let len := 8 * s.rfld (dspA 0x08) 0 20
  match s.dsp.nextBound with
  | none => none
  | some nb =>
    if s.member then
      s.dsp.switchIdx.bind (fun i =>
        let n := (i + 2 ^ 32 - ((s.rget (dspA 0x24)).toNat + 1) % 2 ^ 32) % 2 ^ 32
        if n < 2 ^ 31 then some (nb + n * len) else none)
    else
      s.dsp.armTime.map (fun at' => if len = 0 ∨ at' ≤ nb then nb else nb + ceilDiv (at' - nb) len * len)

/-- The reader stands in a major cycle before the one in progress (R287). -/
def State.rdBehind (s : State) : Option Nat :=
  s.dsp.bound.bind (fun b => if s.dsp.rdTime < b then some b else none)

/-- Move the reader past the end of its range, into the next major cycle, or into the one in progress when it
stands before that (R283, R287). -/
def State.rdWrap (s : State) : State :=
  let r := s.rdRange
  if s.dsp.rdPos < r.2.1 ∨ r.2.1 = 0 then s
  else
    match s.rdBehind with
    | some b => { s with dsp := { s.dsp with
        rdPos := 0, rdTime := b, rdPrev := none, rdNext := false, rdFrom := none } }
    | none =>
      let t := s.dsp.rdTime + 8 * r.2.2
      let sw := !s.dsp.rdNext && s.rfld (dspA 0x14) 0 17 != 0 && s.switchTime.any (fun x => decide (x ≤ t))
      { s with dsp := { s.dsp with
          rdPos := 0, rdTime := t, rdPrev := none, rdNext := s.dsp.rdNext || sw, rdFrom := none } }

/-! ## Waking (R289, R290) -/

/-- Tiles that an LC entry of another heat reserves (R289). -/
def State.reservedTile (s : State) (t : Nat) : Bool :=
  s.dsp.look.any (fun e => e.reserves && e.tiles.contains t)

/-- The tiles an entry takes: those of TMASK, or the G lowest free tiles of the first cluster that has
them; none when no set exists (R289). -/
def State.chooseTiles (s : State) (e : LookEntry) : List Nat :=
  if !e.firstFree then (bitList 8 e.tmask).map (fun k => 8 * e.cluster + k)
  else
    (([0, 1, 2, 3].map (fun k =>
      ((s.ctxTilesIn e.ctx k).filter (fun t => !s.reservedTile t)).take e.g)).find?
        (fun l => l.length == e.g)).getD []

/-- Address of a context's prefetch list (R291). -/
def State.pfAddr (s : State) (c pfl : Nat) : Nat := s.rfld (ctxA c 0x1C) 0 20 * 65536 + 256 * pfl

/-- The data address of a prefetch destination: a local scratchpad address names a rank of the heat
(R291, R323). -/
def pfPlace (tiles : List Nat) (a : Nat) : Nat :=
  if bitsOf a 44 4 = 2 ∧ bitsOf a 25 19 = 0 then spadBase (lget 32 tiles (bitsOf a 20 5)) + a % 0x100000
  else a

/-- Change a prefetch job. -/
def State.modPf (s : State) (j j' : PfJob) : State :=
  { s with dsp := { s.dsp with pf := s.dsp.pf.map (fun x => if x == j then j' else x) } }

/-- Remove a prefetch job. -/
def State.dropPf (s : State) (j : PfJob) : State :=
  { s with dsp := { s.dsp with pf := s.dsp.pf.filter (fun x => x != j) } }

/-- Whether a scratchpad destination's tile has reached RUN (R291). -/
def State.pfTileRuns (s : State) (dst : Nat) : Bool :=
  match s.place dst with
  | .spad t _ => (s.tile t).power == .run
  | _ => true

/-- Issue the requests of the next 4 KiB of a remote prefetch, 256 bytes each (R291, R384). -/
def State.pfBlock (s : State) (j : PfJob) : Nat → State × PfJob × Bool
  | 0 => (s, j, true)
  | n + 1 =>
    if j.left = 0 then (s, j, true)
    else
      let k := min j.left 256
      let t := (j.tiles.head?).getD 0
      match s.remotePiece j.ctx t j.src j.dst k (fun d => .pfRd j.id d) (.pfWr j.id) with
      | some s2 =>
        State.pfBlock s2 { j with src := j.src + k, dst := j.dst + k, left := j.left - k,
                                   outst := j.outst + 1 } n
      | none => (s, j, false)

/-- Start the current descriptor of a job whose destination is ready (R291): its addresses are
checked, its bytes of this device's LPDDR5 paced and charged (R304, R317), a remote one's requests sent. -/
def State.pfStart (s : State) (j : PfJob) : State :=
  let a := j.addr + 16 + 16 * j.pos
  let src := s.mval a 6
  let dst := pfPlace j.tiles (s.mval (a + 6) 6)
  let n := s.mval (a + 12) 4
  let f1 := s.pfFault j.ctx j.tiles src n false
  let f2 := if f1 = 0 then s.pfFault j.ctx j.tiles dst n true else f1
  let f := if 0x1000000 < n then 1 else f2
  if j.started ∨ s.pfTileRuns dst = false then s
  else if f ≠ 0 then (s.dropPf j).faultDsp j.ctx f
  else
    let rem := decide (4 ≤ (s.place src).row) || decide (4 ≤ (s.place dst).row)
    let j' := { j with started := true, remote := rem, src := src, dst := dst, left := n, outst := 0 }
    let b := s.lpBytes src dst n
    let s := (s.chargeMem j.ctx b).paceTake (s.ctxPart j.ctx) 0 b
    if rem then
      let r := s.pfBlock j' 16
      if r.2.2 then r.1.modPf j r.2.1 else (r.1.dropPf j).faultDsp j.ctx 7 4
    else s.modPf j j'

/-- Start what can start among the prefetch jobs. -/
def State.pfKick (s : State) : State := s.each s.dsp.pf State.pfStart

/-- Start an entry's prefetch list (R290, R291): COUNT outside 1 to 15 starts nothing. -/
def State.pfBegin (s : State) (c pfl : Nat) (tiles : List Nat) : State :=
  if pfl = 0 then s
  else
    let a := s.pfAddr c pfl
    let m := s.ctxMem c
    let n := s.mval a 1
    if !inside a 256 m.1 m.2 then s.faultDsp c 1
    else if s.poisoned a 256 then (s.readPoison a 256).faultDsp c 6 3
    else if n = 0 ∨ 15 < n then s
    else
      let j : PfJob :=
        { ctx := c, entry := pfl, addr := a, count := n, post := bitAt (s.mval (a + 1) 1) 0
          baton := s.mval (a + 2) 2, tiles := tiles, pos := 0, started := false, remote := false
          src := 0, dst := 0, left := 0, outst := 0, id := s.dsp.pfSeq }
      ({ s with dsp := { s.dsp with pf := s.dsp.pf ++ [j], pfSeq := s.dsp.pfSeq + 1 } }).pfStart j

/-- The wake actions of an entry on its chosen tiles: loans of its partition are reclaimed, BE
occupants asked to leave, the prefetch list started (R290, R300). -/
def State.wakeTiles (s : State) (e : LookEntry) : State :=
  let p := s.ctxPart e.ctx
  let s := s.tilesDo e.tiles (fun u s =>
    match s.lentOn u with
    | some l => if l.part = p then s.startReclaim u e.idx else s
    | none => s)
  (s.pfBegin e.ctx e.pfl e.tiles).settleAll e.tiles

/-- At W: the entry's tiles are chosen and reserved and its wake actions begin, or it is skipped
(R288-R290). -/
def State.wakeEntry (s : State) (e : LookEntry) : State :=
  match s.notReady e.ctx with
  | some r =>
    { s with dsp := { s.dsp with look := s.dsp.look.erase e } }.skipEntry e.idx e.ctx r
  | none =>
    let e' := { e with state := .waking, tiles := s.chooseTiles e, wake := s.dsp.wakes }
    let s := { s with dsp := { s.dsp with
        look := s.dsp.look.map (fun x => if x == e then e' else x), wakes := s.dsp.wakes + 1 } }
    if e'.tiles.isEmpty then s else s.wakeTiles e'

/-- Whether the entry 64 places before the next one, and with it every earlier one, has been started or skipped
(R287). -/
def State.lookOpen (s : State) : Bool :=
  !s.dsp.look.any (fun e => !e.evt && e.state != .running && decide (e.place + 64 ≤ s.dsp.rdPlace))

/-- Entries whose wake time has passed before SERVICE begin their wake at its start (R36, R287). -/
def State.wakeDue (s : State) : State :=
  s.each (s.dsp.look.filter (fun e => e.state == .pending && !e.release && !e.evt
    && decide (e.slot ≤ s.ns + 8 * e.lead))) State.wakeEntry

/-- LOOKAHEAD_READ: the next entry of the range enters the lookahead, checked; one whose wake time has
passed begins its wake at once, in SERVICE (R36, R284, R287).  From the entry boundary of HOLD on none is read
(R30). -/
def execLookaheadRead (s : State) : Out :=
  let s1 := s.rdWrap
  let r := s1.rdRange
  .next (if s.phase ≠ .service ∧ s.phase ≠ .boot ∨ s.dsp.nextBound = none ∨ s.dsp.holdOn = true
      ∨ s.lookOpen = false ∨ r.2.1 ≤ s1.dsp.rdPos then s
    else
      let i := r.1 + s1.dsp.rdPos
      let e := s.tabEntry i
      let adv (p : Option Nat) : State :=
        { s1 with dsp := { s1.dsp with rdPos := s1.dsp.rdPos + 1, rdPrev := p, rdPlace := s1.dsp.rdPlace + 1 } }
      let late := match s1.dsp.rdPrev with
        | some p => decide (e.start < p)
        | none => false
      if e.v && e.evt then adv s1.dsp.rdPrev
      else if s.entryBad e || decide (r.2.2 ≤ e.start) || late then
        (adv s1.dsp.rdPrev).skipEntry i e.ctx 1
      else
        let slot := s1.dsp.rdTime + 8 * e.start
        let l : LookEntry :=
          { idx := i, ctx := e.ctx, evt := false, release := s.ctxBE e.ctx, pfl := e.pfl
            lead := e.lead, g := e.g, firstFree := e.firstFree, cluster := e.cluster, tmask := e.tmask
            dur := e.dur, pc := e.pc, base := s1.dsp.rdTime, slot := slot, state := .pending
            tiles := [], pastS := none, heat := 0, wake := 0, place := s1.dsp.rdPlace }
        let s := adv (some e.start)
        let s := { s with dsp := { s.dsp with look := s.dsp.look ++ [l] } }
        if !l.release && decide (slot ≤ s.ns + 8 * e.lead) && s.phase == .service then s.wakeEntry l
        else s)

/-- The oldest pending LC entry of the lookahead with a table index. -/
def State.pendingEntry (s : State) (i : Nat) : Option LookEntry :=
  s.dsp.look.find? (fun e => e.idx == i && e.state == .pending && !e.release && !e.evt)

/-- WAKE_TIME: the wake time W of an entry (R288-R290). -/
def execWakeTime (entry : Fin 65536) (s : State) : Out :=
  .next (match s.pendingEntry entry.val with
    | some e =>
      if s.dsp.holdOn then { s with dsp := { s.dsp with look := s.dsp.look.erase e } }
      else s.wakeEntry e
    | none => s)

/-- TILE_CHOICE: an entry that found no free set of tiles at its W takes one now (R289), but not from the entry
boundary of HOLD on (R30). -/
def execTileChoice (entry : Fin 65536) (s : State) : Out :=
  .next (match s.dsp.look.find? (fun e => e.idx == entry.val && e.state == .waking && e.tiles.isEmpty)
    with
    | some e =>
      let ts := s.chooseTiles e
      if ts.isEmpty || s.dsp.holdOn then s
      else
        let e' := { e with tiles := ts }
        ({ s with dsp := { s.dsp with
            look := s.dsp.look.map (fun x => if x == e then e' else x) } }).wakeTiles e'
    | none => s)

/-! ## Starts (R288) -/

/-- Whether every tile of an entry is in RUN with its context restored, and every earlier heat there is one
of the same context that has begun and issued HEND (R201, R288, R289). -/
def State.tilesReady (s : State) (e : LookEntry) : Bool :=
  !e.tiles.isEmpty && e.tiles.all (fun t =>
    s.readyOn t e.ctx && (s.tc t).curHeat.isNone
      && s.dsp.look.all (fun x => !(x.reserves && x.tiles.contains t && decide (x.wake < e.wake))
        || (x.ctx == e.ctx && x.state == .running)))

/-- The heat of an entry begins (R23, R288); `late` is the cycles since S, when S has passed. -/
def State.startEntry (s : State) (e : LookEntry) (late : Nat) : State :=
  let s := s.beginHeat e.ctx e.tiles e.pc e.idx true (e.dur != 0) e.slot
  let n := (s.rget (ctxA e.ctx 0x28)).toNat
  let s := s.modLook (fun x => x == e) (fun x => { x with state := .running, heat := n })
  if late = 0 then s
  else
    let s := (s.rcount (dspA 0x3C) 0 32 1).rbitSet (ctxA e.ctx 0x34) 0 true
    let s := s.acct e.ctx (fun a => { a with late := a.late + 1 })
    s.eventCtx 56 0x09 e.ctx n 0 0 e.idx (min late 0xFFFFFFFF)

/-- An entry whose tiles are ready becomes READY, or begins when S has passed (R288, R319). -/
def State.wakeDone (s : State) (e : LookEntry) : State :=
  match e.pastS with
  | some c => s.startEntry e (s.now - c)
  | none => s.modLook (fun x => x == e) (fun x => { x with state := .ready })

/-- WAKE_COMPLETE: the wake actions of an entry are complete (R288, X10). -/
def execWakeComplete (entry : Fin 65536) (s : State) : Out :=
  .next (match s.dsp.look.find? (fun e => e.idx == entry.val && e.state == .waking) with
    | some e => if s.tilesReady e && !s.dsp.holdOn then s.wakeDone e else s
    | none => s)

/-- Push a heat record on a BE context's queue (R294). -/
def State.beqPush (s : State) (c idx : Nat) (w : Word) : State × Bool :=
  let q := tget [] s.dsp.beq c
  let lost (s : State) : State :=
    let s := (s.rcount (dspA 0x38) 0 32 1).acct c (fun a => { a with skip := a.skip + 1 })
    s.eventCtx 56 0x0A c 0 0 0 idx 3
  if !s.ctxEn c || (s.notReady c).isSome then
    (lost (s.rbitSet (ctxA c 0x34) 2 true), false)
  else if 16 ≤ q.length then (lost (s.rbitSet (ctxA c 0x34) 3 true), false)
  else ({ s with dsp := { s.dsp with beq := tput s.dsp.beq c (q ++ [w]) } }, true)

/-- The record a release entry pushes (R294). -/
def relRecord (g dur pc : Nat) : Word :=
  BitVec.ofNat 32 (Nat.log2 g * 2 ^ 30 + dur % 512 * 2 ^ 21 + pc / 8 % 2 ^ 17)

/-- SLOT_TIME: the slot time S of an entry acts: a READY entry's heat begins, a WAKING one will be
late, an unready context's entry is skipped, a release pushes its record (R288, R294). -/
def execSlotTime (entry : Fin 65536) (s : State) : Out :=
  let drop (e : LookEntry) : State := { s with dsp := { s.dsp with look := s.dsp.look.erase e } }
  .next (match s.dsp.look.find? (fun e => e.idx == entry.val && e.pastS.isNone
      && e.state != .running && (e.release || e.state != .pending)) with
    | none => s
    | some e =>
      if s.dsp.holdOn then (drop e).settleAll e.tiles
      else if e.release then ((drop e).beqPush e.ctx e.idx (relRecord e.g e.dur e.pc)).1
      else
        match s.notReady e.ctx with
        | some r => ((drop e).skipEntry e.idx e.ctx r).settleAll e.tiles
        | none =>
          if s.tilesReady e then s.startEntry e 0
          else s.modLook (fun x => x == e) (fun x => { x with state := .waking, pastS := some s.now }))

/-! ## Event entries (R292) -/

/-- Start an event entry at its trigger (R292): S and W are the trigger cycle. -/
def State.startEvent (s : State) (i : Nat) : State :=
  let e := s.tabEntry i
  if s.entryBad e || !e.evt then s.skipEntry i e.ctx 1
  else if s.ctxBE e.ctx then (s.beqPush e.ctx i (relRecord e.g e.dur e.pc)).1
  else
    let l : LookEntry :=
      { idx := i, ctx := e.ctx, evt := true, release := false, pfl := e.pfl, lead := 0, g := e.g
        firstFree := e.firstFree, cluster := e.cluster, tmask := e.tmask, dur := e.dur, pc := e.pc
        base := s.ns, slot := s.ns, state := .pending, tiles := [], pastS := some s.now, heat := 0
        wake := 0 }
    let s := ({ s with dsp := { s.dsp with look := s.dsp.look ++ [l] } }).wakeEntry l
    match s.dsp.look.find? (fun x => x.idx == i && x.evt && x.state == .waking) with
    | some x => if s.tilesReady x then s.wakeDone x else s
    | none => s

/-- EVENT_TRIGGER: the oldest trigger acts: its event entry starts, or is held, or is lost
(R292, R310, R30). -/
def execEventTrigger (s : State) : Out :=
  .next (match s.dsp.trig with
    | [] => s
    | i :: rest =>
      let s := { s with dsp := { s.dsp with trig := rest } }
      if s.dsp.holdOn || s.phase != .service then s
      else if s.dsp.look.any (fun e => e.idx == i && e.evt) then
        if s.dsp.heldTrig.contains i then s.rcount (dspA 0x44) 0 32 1
        else { s with dsp := { s.dsp with heldTrig := linsert s.dsp.heldTrig i } }
      else s.startEvent i)

/-! ## Heats end (R184, R201) -/

/-- Whether every command of a heat on a tile has committed (R201); a fault of the same cycle does not keep
it from being complete (R319). -/
def State.heatDone (s : State) (t : Nat) (h : Heat) : Bool :=
  let x := s.tc t
  let own (q : QCmd) : Bool := q.heat == h.num
  (x.heat? h.num).isSome && decide ((s.tile t).seq = .running)
    && h.hended && (match h.solve with | some r => r.done == r.count | none => true)
    && !(x.qa.any own || x.qt.any own || x.qc.any own || x.qb.any own)
    && (match x.tensor with | some r => !own r.cmd | none => true)
    && (match x.copy with | some r => !own r.cmd | none => true)
    && ((x.heats.getLast?.map Heat.num) != some h.num || x.vpipe.isNone)
    && x.tensorFinal h.num && !s.faults.any (fun f => f.ctx == h.ctx && f.cycle != s.now)

/-- End the loans of a context on tiles: no write-back (R302). -/
def State.endLoans (s : State) (c : Nat) (ts : List Nat) : State :=
  { s with loans := s.loans.filter (fun l => !(l.ctx == c && ts.contains l.tile)) }

/-- A held trigger of an event entry that has become free starts it (R292, R319). -/
def State.heldTrigger (s : State) (i : Nat) : State :=
  if s.dsp.heldTrig.contains i then
    ({ s with dsp := { s.dsp with heldTrig := lremove s.dsp.heldTrig i } }).startEvent i
  else s

/-- The newest heat of a tile, held until now, starts to issue: its start cycle is this one (R23,
R201). -/
def State.resnap (s : State) (t c : Nat) : State :=
  let snap := s.loopSnap
  let host := s.hostCells t c
  let bad := s.hostPoison t c
  let s := s.modTc t (fun x => x.modHeat (fun y => { y with
    snap := snap, host := host, hostBad := bad }))
  match (s.tc t).heats.getLast? with
  | some y => s.residentCheck t c y
  | none => s

/-- The completion of a heat: its records, events and accounting, and its tiles' release (R184, R201,
R289, R302, R317). -/
def State.endHeat (s : State) (h : Heat) : State :=
  let s := s.each (h.tiles.take 1) State.recordHeats
  let s := s.tilesDo h.tiles (fun u s =>
    match (s.tc u).heat? h.num with
    | some x =>
      let held := (s.tc u).third
      let s := (s.eventCtx u 0x02 h.ctx h.num x.layer x.oper x.worst x.nfb).cmdEnd u 8 h.num
      let s := s.modTc u (fun y => { y with heats := y.heats.filter (fun z => z.num != h.num) })
      let s := s.modTile u (fun y => { y with
        lastHeat := h.num, served := (x.solve.map (fun r => (h.ctx, r.tmpl))).or y.served })
      if held && !(s.tc u).third then s.resnap u h.ctx else s
    | none => s)
  let s := s.acct h.ctx (fun a => { a with heats := a.heats + 1 })
  let d := tput s.dsp.ended (h.ctx * 2 ^ 32 + h.num) h.commits.length
  let s := { s with dsp := { s.dsp with ended := d } }
  let ev := s.dsp.look.find? (fun e => e.state == .running && e.ctx == h.ctx && e.heat == h.num)
  let mine (r : BeRun) : Bool := r.ctx == h.ctx && r.heat == h.num
  let be := s.dsp.be.any mine
  let s := { s with dsp := { s.dsp with
      look := s.dsp.look.filter (fun e => !(e.state == EntryState.running && e.ctx == h.ctx && e.heat == h.num))
      be := s.dsp.be.filter (fun r => !mine r) } }
  let s := if be then s.endLoans h.ctx h.tiles else s
  let s := if be then s.tilesDo h.tiles (fun u s => s.modTile u (fun x => { x with preDue := none }))
    else s
  let s := ((s.kickAll h.tiles).settleAll h.tiles).beginBe
  match ev with
  | some e => if e.evt then s.heldTrigger e.idx else s
  | none => s

/-- HEAT_COMPLETE: the first of the tile's heats whose commands have all committed on every rank is
complete (R184, R201). -/
def execHeatComplete (t : TileNo) (s : State) : Out :=
  .next (match (s.tc t.val).heats.find? (fun h => h.tiles.all (fun u => s.heatDone u h)) with
    | some h => s.endHeat h
    | none => s)

/-! ## Sleep (R18, R293) -/

/-- Charge the wake of a tile to the context it wakes for (R317). -/
def State.chargeWake (s : State) (t pj : Nat) : State :=
  match s.wants t with
  | some c => s.acct c (fun a => { a with wakes := a.wakes + 1, energy := a.energy + pj })
  | none => s

/-- TILE_WAKE_COMPLETE: a tile woken from IDLE, or with its cluster from NAP, reaches RUN (R18,
R290). -/
def execTileWakeComplete (t : TileNo) (s : State) : Out :=
  let x := s.tile t.val
  .next (if (s.wants t.val).isNone then s
    else if x.power = .idle ∨ x.power = .nap then
      let s := (s.chargeWake t.val (if x.power = .nap then 800000 else 2000)).tileRuns t.val
      ((s.settle t.val).pfKick).beginBe
    else s)

/-- Whether a BE record or saved heat could take a tile of cluster k (R293, X9). -/
def State.beQueued (s : State) (k : Nat) : Bool :=
  s.dsp.beq.any (fun p => p.2.any (fun w => decide (2 ^ fget w 30 2 ≤ (s.ctxTilesIn p.1 k).length)))
    || s.dsp.be.any (fun r => r.tiles.any (fun t => t / 8 == k))

/-- Whether an entry of the lookahead can use a tile of cluster k: one that has its tiles uses those (R293). -/
def State.entryUses (s : State) (k : Nat) (e : LookEntry) : Bool :=
  !e.release
    && (if !e.tiles.isEmpty then e.tiles.any (fun t => t / 8 == k)
        else if e.firstFree then decide (e.g ≤ (s.ctxTilesIn e.ctx k).length)
        else e.cluster == k)

/-- CLUSTER_NAP_ENTRY: an idle cluster enters NAP (R293). -/
def execClusterNapEntry (k : Fin 4) (s : State) : Out :=
  let ts := (List.range 8).map (fun i => 8 * k.val + i)
  let min' := s.rfld (dspA 0x2C) 0 16
  let soon := s.dsp.look.any (fun e => s.entryUses k.val e
    && (e.reserves || decide (e.slot < s.ns + 8 * e.lead + 1000 * min')))
  .next (if s.phase = .service ∧ min' ≠ 0 ∧ ts.all (fun t => (s.tile t).power == .idle) = true
      ∧ ts.all (fun t => !s.recoveryHolds t) = true
      ∧ s.beQueued k.val = false ∧ s.loans.any (fun l => ts.contains l.tile) = false ∧ soon = false
    then s.tilesDo ts (fun u s => s.modTile u (fun x => { x with power := .nap }))
    else s)

/-! ## Prefetch transfers (R291) -/

/-- A descriptor has ended: the next one starts, or the list posts and leaves (R291). -/
def State.pfNext (s : State) (j : PfJob) : State :=
  if j.pos + 1 < j.count then
    let j' := { j with pos := j.pos + 1, started := false }
    (s.modPf j j').pfStart j'
  else
    let s := s.dropPf j
    if j.post then
      s.post j.ctx j.baton 1 (fun s f => s.faultDsp j.ctx (f % 256) (if f < 256 then 5 else f / 256))
    else s

/-- Whether the transfer of a list's current descriptor can end: every reply of a remote one has come, a local
one's tile runs (R291). -/
def State.pfReady (s : State) (j : PfJob) : Bool :=
  j.started && (if j.remote then j.left == 0 && j.outst == 0 else s.pfTileRuns j.dst)

/-- PREFETCH_TRANSFER_COMPLETE: the transfer of the current descriptor of a list of context c ends, that of the
oldest list whose transfer can (R291, R329). -/
def execPrefetchTransferComplete (c : Fin 64) (s : State) : Out :=
  .next (match s.dsp.pf.find? (fun j => j.ctx == c.val && s.pfReady j) with
    | none => s
    | some j =>
      if j.remote then s.pfNext j
      else
        let bad := s.poisoned j.src j.left
        let own := s.pfFault j.ctx j.tiles j.src j.left false == 0
        let cls := if (s.place j.src).row = 1 then 3 else if (s.place j.src).row = 2 then 2 else 1
        let s := (s.moveBytes j.src j.dst j.left).pfNext j
        if bad then s.faultDsp j.ctx (if own then 6 else 7) cls else s)

end Sys2Proof.Machine
end

