-- ==== Sys2Proof/Machine/Best.lean ====
section
/-!
DEFINITION. Best-effort work: queues and placement (R294-R296), slices and overruns (R297, R298),
scratchpad loans and their reclaim (R299-R302).
-/

namespace Sys2Proof.Machine

/-! ## The loan test (R299) -/

/-- The reclaim bound T_rc of a loan of `len` bytes of context c, cycles (R300). -/
def State.reclaimBound (s : State) (c len : Nat) : Nat :=
  s.rfld (ctxA c 0x20) 0 16 + 112 + ceilDiv len 32 + 16

/-- Whether a cyclic entry that no check skips can place a heat of partition p on tile t (R284, R299). -/
def State.lenderEntry (s : State) (e : TabEntry) (p t : Nat) : Bool :=
  !s.ctxBE e.ctx && s.ctxPart e.ctx == p
    && (if e.firstFree then
          bitAt (s.ctxTiles e.ctx) t && decide (e.g ≤ (s.ctxTilesIn e.ctx (t / 8)).length)
        else e.fixedTiles.contains t)

/-- The earliest wake time after `now'` of an entry at offset `off` (START less LEAD, in ns) of a
range whose major cycles of length `len` begin at `first` and, for the current range, end before
`stop`. -/
def wakeAfter (first len : Nat) (stop : Option Nat) (off : Int) (now' : Nat) : Option Int :=
  if len = 0 then none
  else
    let gap : Int := (now' : Int) - off - (first : Int)
    let m := if gap < 0 then 0 else (gap / (len : Int)).toNat + 1
    let t := first + m * len
    if stop.all (fun x => decide (t < x)) then some ((t : Int) + off) else none

/-- The smaller of two optional times. -/
def optMin (a b : Option Int) : Option Int :=
  match a, b with
  | some x, some y => some (min x y)
  | some x, none => some x
  | none, y => y

/-- The earliest wake time of the lender's entries of one range; entries that R284 skips place no heat. -/
def State.rangeWake (s : State) (base cnt first len : Nat) (stop : Option Nat) (p t now' : Nat) :
    Option Int :=
  ((List.range cnt).foldl (fun (a : Option Int × Nat) i =>
    let e := s.tabEntry (base + i)
    if (e.v && e.evt) || s.entryBad e || decide (len ≤ 8 * e.start) || decide (e.start < a.2) then a
    else if s.lenderEntry e p t then
      (optMin a.1 (wakeAfter first len stop (8 * (e.start : Int) - 8 * (e.lead : Int)) now'), e.start)
    else (a.1, e.start)) (none, 0)).1

/-- W_n: the earliest wake time after now of any cyclic entry of the lender that can place a heat on
the tile, in the current range and in an armed next range (R299). -/
def State.lenderWake (s : State) (p t : Nat) : Option Int :=
  let sw := s.switchTime
  let cur := match s.dsp.bound with
    | some b => s.rangeWake (s.rfld (dspA 0x00) 0 16) (s.rfld (dspA 0x04) 0 17) b
        (8 * s.rfld (dspA 0x08) 0 20) sw p t s.ns
    | none => none
  let nxt := match sw with
    | some b => s.rangeWake (s.rfld (dspA 0x10) 0 16) (s.rfld (dspA 0x14) 0 17) b
        (8 * s.rfld (dspA 0x18) 0 20) none p t s.ns
    | none => none
  optMin cur nxt

/-- Whether a loan of `len` bytes to context c passes the test of R299 on tile t; a loan of its own that it
still holds there is no other loan (R302). -/
def State.loanTest (s : State) (c len t : Nat) : Bool :=
  let p := s.ctxLender c
  let r := s.loanRegion p
  s.hasLender c && len != 0 && decide (len ≤ r.2)
    && !s.loans.any (fun l => l.tile == t && l.part == p && l.ctx != c)
    && (match s.lenderWake p t with
        | some w => decide (10 * (s.cycleTime : Int) + 2 ^ 32 * (8 * (s.reclaimBound c len : Int))
            ≤ 2 ^ 32 * (10 * w))
        | none => true)

/-- Grant a loan on every tile of a heat, with its events (R299, R467). -/
def State.grantLoan (s : State) (c len : Nat) (ts : List Nat) : State :=
  let p := s.ctxLender c
  let b := (s.loanRegion p).1
  s.tilesDo ts (fun u s =>
    if s.loans.any (fun l => l.ctx == c && l.tile == u) then s
    else ({ s with loans := s.loans ++ [Loan.mk c u b len p []] } : State).eventCtx 56 0x0B c 0 0 0 u len)

/-! ## Placement (R295, R296) -/

/-- A tile is free for BE work: not reserved by an LC entry, no BE heat running on it, in RUN or IDLE
(R295). -/
def State.beFree (s : State) (t : Nat) : Bool :=
  let x := s.tile t
  !s.reservedTile t && (s.tileBe t).isNone && (x.power == .run || x.power == .idle)
    && decide (x.seq ≠ .saving) && !x.inReset && !x.reclaim && !s.hasFault ((x.ctx).getD 64)

/-- Whether a tile holds a saved BE heat. -/
def State.beSavedOn (s : State) (t : Nat) : Bool :=
  s.dsp.be.any (fun r => r.saved && r.tiles.contains t)

/-- The slice a heat gets: SLICE × 64 cycles less the context's overrun debt, which falls by what it
took (R297, R298). -/
def State.takeSlice (s : State) (c : Nat) : State × Nat :=
  let full := 64 * s.ctxSlice c
  let debt := (s.rget (ctxA c 0x38)).toNat
  if full = 0 then (s, 0)
  else (s.rset (ctxA c 0x38) (BitVec.ofNat 32 (debt - full)), full - debt)

/-- Resume a saved heat: a loan it needs is granted again, and on the tiles where it was reclaimed its lines are
copied back before the restore (R296, R302). -/
def State.beResume (s : State) (r : BeRun) : State :=
  let sl := s.takeSlice r.ctx
  let s := sl.1
  let s := if r.needLoan then s.grantLoan r.ctx r.loan r.tiles else s
  let s := s.tilesDo r.tiles (fun u s =>
    if r.needLoan && r.back.contains u && r.lines.any (fun k => k % 32 == u) then s.modTile u (fun x => { x with copyBack := true }) else s)
  let s := s.modBe (fun q => q == r) (fun q => { q with
    saved := false, ran := 0, needLoan := false, len := sl.2, back := [] })
  s.settleAll r.tiles

/-- The tiles a new record takes: the G lowest-indexed free tiles of the first cluster that has them
(R295, X21). -/
def State.beTiles (s : State) (c g : Nat) : List Nat :=
  (([0, 1, 2, 3].map (fun k =>
    ((s.ctxTilesIn c k).filter (fun t => s.beFree t && !s.beSavedOn t)).take g)).find?
      (fun l => l.length == g)).getD []

/-- Place the head record of context c on tiles (R295, R299). -/
def State.bePlace (s : State) (c : Nat) (w : Word) (rest : List Word) (ts : List Nat) : State :=
  let want := 4096 * fget w 21 9
  let ok := decide (want ≠ 0) && ts.all (s.loanTest c want)
  let sl := s.takeSlice c
  let s := sl.1
  let s := if ok then s.grantLoan c want ts
    else if want = 0 then s else s.rbitSet (ctxA c 0x34) 4 true
  let r : BeRun :=
    { ctx := c, g := ts.length, len := sl.2, want := want, loan := if ok then want else 0
      pc := 8 * fget w 0 17, heat := 0, tiles := ts, ran := 0, saved := false, needLoan := false
      lines := [] }
  let s := { s with dsp := { s.dsp with
      beq := tput s.dsp.beq c rest, be := s.dsp.be ++ [r], lastBE := c } }
  (s.settleAll ts).beginBe

/-- A saved heat that can resume now, oldest save first (R296, R302). -/
def State.beResumable (s : State) : Option BeRun :=
  s.dsp.be.find? (fun r => r.saved && r.tiles.all s.beFree && (s.notReady r.ctx).isNone
    && (!r.needLoan || r.tiles.all (s.loanTest r.ctx r.loan)))

/-- The next BE context in round-robin order whose head record can be placed (R295). -/
def State.bePick (s : State) : Option (Nat × Word × List Word × List Nat) :=
  ((List.range 64).map (fun i => (s.dsp.lastBE + 1 + i) % 64)).findSome? (fun c =>
    if s.ctxEn c && s.ctxBE c && (s.notReady c).isNone then
      match tget [] s.dsp.beq c with
      | w :: rest =>
        let ts := s.beTiles c (2 ^ fget w 30 2)
        if ts.isEmpty then none else some (c, w, rest, ts)
      | [] => none
    else none)

/-- BE_PLACEMENT: free tiles serve a saved BE heat, or the head record of the next BE context
(R295, R296, R299). -/
def execBePlacement (s : State) : Out :=
  .next (if s.phase ≠ .service ∨ s.dsp.holdOn = true then s
    else
      match s.beResumable with
      | some r => s.beResume r
      | none =>
        match s.bePick with
        | some (c, w, rest, ts) => s.bePlace c w rest ts
        | none => s)

/-- Whether a record or saved heat of another BE context waits for a tile of a heat (R297). -/
def State.beWaits (s : State) (r : BeRun) : Bool :=
  s.dsp.be.any (fun q => q.saved && q.ctx != r.ctx && q.tiles.any (fun t => r.tiles.contains t))
    || s.dsp.beq.any (fun p => p.1 != r.ctx && !p.2.isEmpty && s.ctxEn p.1 && s.ctxBE p.1
        && r.tiles.any (fun t => bitAt (s.ctxTiles p.1) t))

/-- SLICE_EXPIRY: the slice of the BE heat on the tile has run out while other BE work waits
(R297, R298). -/
def execSliceExpiry (t : TileNo) (s : State) : Out :=
  .next (match s.tileBe t.val with
    | none => s
    | some r =>
      if r.heat ≠ 0 ∧ s.ctxSlice r.ctx ≠ 0 ∧ r.len ≤ r.ran ∧ s.beWaits r = true then
        { (s.requestPreempt t.val 65536) with dsp := { s.dsp with lastBE := r.ctx } }
      else s)

/-! ## Reclaim (R300-R302) -/

/-- LOAN_RECLAIM: the loan on the tile is to be returned to its lender (R300). -/
def execLoanReclaim (t : TileNo) (s : State) : Out := .next (s.startReclaim t.val 65536)

/-- Write a borrower's lines between the scratchpad and its backing share; `back` copies them to the
scratchpad (R300, R302). -/
def State.moveLines (s : State) (t c base : Nat) (lines : List Nat) (back : Bool) : State :=
  s.each lines (fun s k =>
    let sp := spadBase t + 4096 * k
    let bk := (s.ctxBack c).1 + (4096 * k - base)
    let s := if back then s.moveBytes bk sp 4096 else s.moveBytes sp bk 4096
    s.chargeMem c 4096)

/-- The tiles of a heat placed on tile `t` with a loan and not yet begun. -/
def State.unbegunTiles (s : State) (t c : Nat) : List Nat :=
  ((s.dsp.be.find? (fun r => r.ctx == c && r.heat == 0 && r.tiles.contains t && r.loan != 0)).map
    BeRun.tiles).getD []

/-- A heat placed on tile `t` and not yet begun has lost its loan there: none is granted, and it begins with 0
in G31 (R295, R299). -/
def State.unbegunLoan (s : State) (t c : Nat) : State :=
  match s.dsp.be.find? (fun r => r.ctx == c && r.heat == 0 && r.tiles.contains t && r.loan != 0) with
  | none => s
  | some r =>
    let s := s.modBe (fun q => q == r) (fun q => { q with loan := 0 })
    let s := { s with loans := s.loans.filter (fun l => !(l.ctx == c && r.tiles.contains l.tile)) }
    s.tilesDo r.tiles (fun u s => s.modTile u (fun x => { x with reclaim := false }))

/-- RECLAIM_WRITEBACK_COMPLETE: the written lines are in the backing share and the region is the
lender's again (R300); the heat waits among the saved ones for the same loan (R302). -/
def execReclaimWritebackComplete (t : TileNo) (s : State) : Out :=
  let k := t.val
  .next (match s.lentOn k with
    | none => s
    | some l =>
      let here := (s.tile k).ctx == some l.ctx
      if (s.tile k).reclaim && !(here && !s.atBoundary k) && (s.tile k).incoming != some l.ctx then
        let s := s.moveLines k l.ctx l.base l.dirty false
        let s := { s with loans := s.loans.erase l }
        let s := s.modBe (fun r => r.ctx == l.ctx && r.heat != 0 && r.tiles.contains k && (r.saved || !here))
          (fun r => { r with saved := true, needLoan := true
                             back := linsert r.back k
                             lines := (l.dirty.map (fun i => 32 * i + k)).foldl linsert r.lines })
        let gang := s.unbegunTiles k l.ctx
        let s := s.unbegunLoan k l.ctx
        ((s.modTile k (fun x => { x with reclaim := false, copyBack := false })).settleAll (k :: gang)).beginBe
      else s)

/-- LOAN_COPY_BACK_COMPLETE: the lines written back are in the scratchpad again and the heat's restore
can begin (R302). -/
def execLoanCopyBackComplete (t : TileNo) (s : State) : Out :=
  let k := t.val
  .next (match s.tileBe k with
    | none => s
    | some r =>
      if (s.tile k).copyBack then
        let mine := (r.lines.filter (fun i => i % 32 == k)).map (fun i => i / 32)
        let s := s.moveLines k r.ctx (s.loanRegion (s.ctxLender r.ctx)).1 mine true
        (s.modTile k (fun x => { x with copyBack := false })).settle k
      else s)

end Sys2Proof.Machine
end

