-- ==== Sys2Proof/Machine/Recover.lean ====
section
/-!
DEFINITION. Faults and teardown (R312-R315), the context load sequence and reloads from the shadow
(R341, R424, R425), verdicts (R437, R438) and the resets of tile, cluster and partition domains
(R440-R444).
-/

namespace Sys2Proof.Machine

/-! ## Verdicts (R437, R438, R452) -/

/-- A verdict code (R437). -/
def verdictCode (domain cls index cause detail : Nat) : Nat :=
  domain * 2 ^ 28 + cls * 2 ^ 25 + index * 2 ^ 20 + cause * 2 ^ 12 + min detail 0xFFF

/-- Write a verdict into the ring, with its event (R437, R452, R467). -/
def State.verdict (s : State) (domain cls index cause detail : Nat) : State :=
  let code := verdictCode domain cls index cause detail
  let i := s.rfld (mshA 0x04) 0 4
  let n : Word := s.rget (mshA 0x10) + 1
  let a := mshA (0x100 + 16 * i)
  let w : Word := BitVec.ofNat 32 code
  let s := ((s.rset a w).rset (a + 4) (BitVec.ofNat 32 s.nsField)).rset (a + 8)
    (BitVec.ofNat 32 s.secField)
  let s := ((s.rset (a + 12) n).rset (mshA 0x10) n).rset (mshA 0x08) w
  let s := (s.rset (mshA 0x0C) (BitVec.ofNat 32 s.nsField)).rfldSet (mshA 0x04) 0 4 (i + 1)
  s.event 58 0x14 {} code n.toNat

/-- Replace Marshal's state. -/
def State.setHealth (s : State) (h : Health) : State := { s with health := h }

/-! ## Context load (R144, R211, R424) -/

/-- SOLVE templates named by the program of a context block: entries are 8 or 32 bytes (R190). -/
def State.progTemplates (s : State) (base : Nat) : Nat → Nat → Nat → List Nat
  | 0, _, _ => []
  | n + 1, pc, size =>
    if size ≤ pc then []
    else
      let op := s.mval (base + pc) 1
      if op < 0x80 then State.progTemplates s base n (pc + 8) size
      else if op = 0x90 then
        linsert (State.progTemplates s base n (pc + 32) size) (s.mval (base + pc + 8) 4)
      else State.progTemplates s base n (pc + 32) size

/-- The heat that the arithmetic of a context load stands for: problem 0, the host block as loaded,
no samples latched (R144, X5). -/
def State.loadHeat (s : State) (t c : Nat) : Heat :=
  { ctx := c, num := 0, lc := true, entry := 65536, dead := false, stamp := 0, tiles := [t], rank := 0
    snap := [], host := s.hostCells t c, hostBad := [], hended := false, layer := 0, oper := 0, solve := none
    worst := 0, nfb := 0, cutFac := false, cutOut := false, late := false, pendFac := false
    pendOut := false, tflags := 0, commits := [], aborted := false }

/-- What the first factorization of a RESIDENT template reads: its records, what Assemble reads for problem 0,
and the operands of its products and of Factor (R144). -/
def State.loadReads (s : State) (t c off : Nat) (h : Heat) (tp : Tmpl) (arrs : Tab (Tab Word)) :
    List (Nat × Nat) :=
  let ta := s.shareA t c off
  let sl := { blankSlot 0 0 off 0 with arrs := arrs, due := true }
  s.tmplBytes ta tp ++ s.asmBytes t c ta h tp 0 ++ s.slotBytes t c { sl with stage := .tensor }
    ++ s.slotBytes t c { sl with stage := .factor, arrs := tp.prods.map (fun p => (p.dst, [])) ++ arrs }

/-- Factor a RESIDENT template of a context on a tile, or the fault of its reads and of its store (R144, R324,
R335, R340). -/
def State.loadFactor (s : State) (t c off : Nat) : State :=
  let tp := s.tmpl t c off
  if tp.fpol ≠ 2 then s
  else
    let h := s.loadHeat t c
    let ta := s.shareA t c off
    let a := s.assemble t c false h tp ta 0
    let e : Env := { tp := tp, ta := ta, arrs := a.1, bank := {} }
    let reads := s.loadReads t c off h tp a.1
    let writes := s.bankBytes t c tp off 0
    let f := s.portFaults t c reads false
    let f := if f = 0 then s.portFaults t c writes true else f
    if f ≠ 0 then s.faultTile t c f
    else if s.poisonIn reads then s.stagePoison t c reads
    else
    let r := s.factor (s.runProds false e).1
    let f : FStore := { ctx := c, tmpl := off, bank0 := r.b, bank1 := {}, committed := some 0
                        tag := tp.stag, heat := 0, refw := s.refWords t c h tp 0 }
    { s with stores := tput s.stores (s.storeA t c off) f }.wroteWhole t c writes

/-- The context load sequence on one tile (R424). -/
def State.loadTile (s : State) (t c : Nat) : State :=
  let s := s.mwriteVal (s.saveA t c) 1 0
  let lo := s.shareA t c 0
  let hi := lo + (s.ctxSpad c).2
  let away (a : Nat) : Bool := !(decide (lo ≤ a) && decide (a < hi))
  let s := { s with
    stores := s.stores.filter (fun p => away p.1)
    tmpls := s.tmpls.filter (fun p => away p.1)
    saved := tdel s.saved (savedKey c t) }
  let td := s.shareA t c (s.cblk t c 0x10 4)
  let s := s.each (List.range (s.cblk t c 0x14 2)) (fun s i =>
    let d := td + 32 * i
    s.mwriteVal (d + 8) 1 (s.mval (d + 9) 1))
  let size := s.cblk t c 0x04 4
  let ts := s.progTemplates (s.shareA t c (s.cblk t c 0x00 4)) (size / 8 + 1) 0 size
  s.each ts (fun s off => s.loadFactor t c off)

/-- The context load sequence of R424 but for its last step; `first`: the one that LOCK runs sets the
heat number to 0 and a reload leaves it (R278). -/
def State.loadContext (s : State) (c : Nat) (first : Bool) : State :=
  let s := if first then s.rset (ctxA c 0x28) 0 else s
  s.each (bitList 32 (s.ctxTiles c)) (fun s t => s.loadTile t c)

/-! ## Reload from the shadow (R341, R425) -/

/-- The directory entries of the shadow whose PART is p: section, FLAGS, length, destination, copy's
address (R425). -/
def State.shadowDir (s : State) (p : Nat) : List (Nat × Nat × Nat × Nat × Nat) :=
  let b := s.shadow.1
  (List.range 1024).filterMap (fun i =>
    let d := b + 32 * i
    let len := s.mval (d + 4) 4
    if len ≠ 0 ∧ s.mval (d + 2) 1 = p then
      some (s.mval d 2, s.mval (d + 3) 1, len, s.mval (d + 8) 8, b + s.mval (d + 16) 8)
    else none)

/-! ## Teardown (R313, R314) -/

/-- What a teardown leaves of a local COPY in service: the pieces accepted before it take effect; under BIB those
whose requests stand with the old bib are dropped and counted (R443, R444; DESIGN CHOICE, log entry 78). -/
def State.dropCopy (s : State) (t c : Nat) : State :=
  match (s.tc t).copy with
  | none => s
  | some r =>
    if r.remote || r.held then s
    else
      let n := ceilDiv r.left 256
      let k := Config.copiedPieces s.fresh % (n + 1)
      let d := if s.partHurdle (s.ctxPart c) then 0 else Config.droppedLocal s.fresh % (n - k + 1)
      (({ s with fresh := s.fresh + 1 }.moveBytes r.src r.dst (min r.left (256 * k))).rcount (mshA 0x18) 0 32 d)

/-- What a teardown leaves of the local descriptors in service of a context's prefetch lists, as of a COPY. -/
def State.dropPrefetch (s : State) (c : Nat) : State :=
  s.each (s.dsp.pf.filter (fun j => j.ctx == c && j.started && !j.remote)) (fun s j =>
    let n := ceilDiv j.left 256
    let k := Config.copiedPieces s.fresh % (n + 1)
    let d := if s.partHurdle (s.ctxPart c) then 0 else Config.droppedLocal s.fresh % (n - k + 1)
    (({ s with fresh := s.fresh + 1 }.moveBytes j.src j.dst (min j.left (256 * k))).rcount (mshA 0x18) 0 32 d))

/-- Abandon what a tile does for a context: records of unfinished commands, and the tile freed
(R180, R208, R313, R461). -/
def State.abandonTile (s : State) (t c : Nat) : State :=
  let x := s.tc t
  let heat := x.heatNum
  let s := (s.cmdsAbandoned t (s.liveCmds t)).parkCmds t
  let s := s.dropDumps (fun d => d.tile == t && d.ctx == c)
  let s := s.withdraw t
  s.modTile t (fun y => { y with
    lastHeat := if x.heats.isEmpty then y.lastHeat else heat
    ctx := none, tc := { pc := x.pc }, seq := .idle, preq := none, preDue := none, stops := [], spans := []
    copyBack := y.copyBack && (s.tileBe t).isSome
    reclaim := y.reclaim && s.loans.any (fun l => l.tile == t && l.ctx != c) })

/-- Remove the waits, queues, heats, loans and held requests of a context (R313, X19). -/
def State.dropContext (s : State) (c : Nat) : State :=
  let bs := (s.waits.filter (fun w => w.ctx == c && (match w.src with | .tile _ => true | _ => false))).map
    BWait.baton
  let local' (w : BWait) : Bool := match w.src with | .tile _ => w.ctx == c | _ => false
  let s := { s with
    waits := s.waits.filter (fun w => !local' w)
    loans := s.loans.filter (fun l => l.ctx != c)
    saved := s.saved.filter (fun p => p.1 / 32 != c)
    dsp := { s.dsp with
      beq := tput s.dsp.beq c []
      be := s.dsp.be.filter (fun r => r.ctx != c)
      pf := s.dsp.pf.filter (fun j => j.ctx != c)
      held := s.dsp.held.filter (fun h => match h with
        | .copy _ _ k _ => k != c
        | .packet _ _ p => p.ctx != c
        | .host _ _ _ => true) } }
  s.each bs State.serveBaton

/-- The teardown of a context (R313): its work is abandoned, its waits and loans dropped, its entries
in service skipped, its bib incremented or its traffic fenced. -/
def State.teardown (s : State) (c : Nat) : State :=
  let hurdle := s.partHurdle (s.ctxPart c)
  let old := s.ctxBib c
  let new := if hurdle then old else (old + 1) % 256
  let on := (List.range 32).filter (fun t => (s.tile t).ctx == some c || (s.tile t).incoming == some c)
  let lent := (s.loans.filter (fun l => l.ctx == c)).map Loan.tile
  let back := (s.dsp.be.filter (fun r => r.ctx == c && !r.saved)).flatMap BeRun.tiles
  let s := (s.tilesDo on (fun t s => if (s.tile t).ctx = some c then s.dropCopy t c else s)).dropPrefetch c
  let s := s.each (s.saved.filter (fun p => p.1 / 32 == c)) (fun s p => s.cmdsAbandoned (p.1 % 32) p.2.cmds)
  let s := s.dropContext c
  let s := s.tilesDo lent (fun t s => s.modTile t (fun y => { y with reclaim := false }))
  let s := s.tilesDo back (fun t s => s.modTile t (fun y => { y with copyBack := false }))
  let s := s.tilesDo on (fun t s =>
    let s := if (s.tile t).ctx = some c then s.abandonTile t c else s
    if (s.tile t).incoming = some c then
      ((s.cmdsAbandoned t (s.liveCmds t)).parkCmds t).modTile t (fun y =>
        { y with incoming := none, seq := .idle, preq := none, preDue := none })
    else s)
  let s := s.tilesDo (bitList 32 (s.ctxTiles c)) (fun t s => s.mwriteVal (s.saveA t c) 1 0)
  let mine (e : LookEntry) : Bool := e.ctx == c && e.reserves
  let es := s.dsp.look.filter mine
  let s := { s with
    faults := s.faults.filter (fun f => f.ctx != c)
    dsp := { s.dsp with
      look := s.dsp.look.filter (fun e => !mine e)
      teardowns := s.dsp.teardowns ++ [Teardown.mk c hurdle old] } }
  let s := s.each (es.filter (fun e => e.state != EntryState.running)) (fun s e => s.skipEntry e.idx c 0)
  let s := (s.rfldSet (ctxA c 0x24) 8 8 new).rfldSet (ctxA c 0x24) 29 3 3
  let s := s.eventCtx 56 0x07 c 0 0 0 old new
  (s.settleAll (List.range 32)).beginBe

/-! ## Partition resets (R314, R440, R441) -/

/-- Begin the reset of a partition (R440): its contexts are torn down, loans of its region reclaimed
from their borrowers, its state is 3 and its count advances.  A reset already in progress is not
started again; one that its reload has followed is (R441, R448). -/
def State.partReset (s : State) (p : Nat) (force dead : Bool) : State :=
  let old := s.health.parts.filter (fun r => r.part == p)
  if s.partState p = 3 ∧ old.isEmpty = false then
    s.setHealth { s.health with parts := s.health.parts.map (fun r =>
      if r.part = p then { r with force := r.force || force, dead := r.dead || dead } else r) }
  else
    let fs := (List.range 64).filter (fun c => s.ctxEn c && s.ctxPart c == p && s.ctxState c == 4)
    let s := s.setHealth { s.health with parts := s.health.parts.filter (fun r => r.part != p)
      ++ [⟨p, force || old.any PartReset.force, dead || old.any PartReset.dead, fs⟩] }
    let s := (s.rfldSet (partA p 0x1C) 30 2 3).rwrap (mshA (0x200 + 4 * p)) 0 16 1
    let s := { s with dsp := { s.dsp with serviceNext := lremove s.dsp.serviceNext p } }
    let s := s.each ((s.loans.filter (fun l => l.part == p)).map Loan.tile) (fun s t =>
      s.startReclaim t 65536)
    let cs := (List.range 64).filter (fun c => s.ctxEn c && s.ctxPart c == p
      && (s.ctxState c == 1 || s.ctxState c == 2))
    s.each cs State.teardown

/-- A partition goes down with its contexts; those that were FAULTED before its reset stay so (R441). -/
def State.partDown (s : State) (r : PartReset) : State :=
  let cs := (List.range 64).filter (fun c => s.ctxEn c && s.ctxPart c == r.part
    && !r.faulted.contains c)
  (s.rfldSet (partA r.part 0x1C) 30 2 0).each cs (fun s c => s.rfldSet (ctxA c 0x24) 29 3 0)

/-- CONTEXT_FAULT: a fault of a context tears it down; one of partition scope among those that wait also orders
a reset of its partition with its verdict (R312-R314, R437). -/
def execContextFault (c : Fin 64) (s : State) : Out :=
  let k := c.val
  .next (match (s.faults.find? (fun f => f.ctx == k && decide (7 ≤ f.cause))).or
      (s.faults.find? (fun f => f.ctx == k)) with
    | none => s
    | some f =>
      let s := { s with faults := s.faults.filter (fun x => x.ctx != k) }
      let s := if s.ctxState k = 2 ∨ s.ctxState k = 1 then s.teardown k else s
      if f.cause = 7 ∨ f.cause = 8 then
        let p := s.ctxPart k
        (s.verdict 3 f.cls p (if f.cause = 7 then 0x04 else 0x03) k).partReset p false false
      else s)

/-- Whether requests of a context are outstanding with a bib. -/
def State.outstanding (s : State) (c bib : Nat) : Bool :=
  s.outst.any (fun o => o.ctx == c && o.bib == bib)

/-- TEARDOWN_COMPLETE: the teardown of a context has ended: under HURDLE no request is outstanding
(R313, R314). -/
def execTeardownComplete (c : Fin 64) (s : State) : Out :=
  let k := c.val
  .next (match s.dsp.teardowns.find? (fun t => t.ctx == k) with
    | none => s
    | some t =>
      if t.hurdle && s.outstanding k t.oldBib then s
      else
        ({ s with dsp := { s.dsp with teardowns := s.dsp.teardowns.erase t } }).rfldSet
          (ctxA k 0x24) 29 3 4)

/-- HURDLE_DRAIN_LIMIT: requests still outstanding at the drain limit are answered with errors and
counted (R444). -/
def execHurdleDrainLimit (c : Fin 64) (s : State) : Out :=
  let k := c.val
  .next (match s.dsp.teardowns.find? (fun t => t.ctx == k && t.hurdle) with
    | none => s
    | some t =>
      let hit (o : Outst) : Bool := o.ctx == k && o.bib == t.oldBib
      let n := s.outst.countP hit
      ({ s with outst := s.outst.filter (fun o => !hit o) }).rcount (mshA 0x1C) 0 32 n)

/-- TEARDOWN_TIMEOUT: a teardown exceeds its bound: the fault is recorded and the partition reset
(R312, R314, R437). -/
def execTeardownTimeout (c : Fin 64) (s : State) : Out :=
  let k := c.val
  .next (match s.dsp.teardowns.find? (fun t => t.ctx == k) with
    | none => s
    | some t =>
      let p := s.ctxPart k
      let s := s.faultDsp k 8
      let s := ({ s with dsp := { s.dsp with teardowns := s.dsp.teardowns.erase t } }).rfldSet
        (ctxA k 0x24) 29 3 4
      (s.verdict 3 5 p 0x03 k).partReset p false false)

/-- Whether every teardown that a partition's reset started has ended. -/
def State.partQuiet (s : State) (p : Nat) : Bool :=
  !s.dsp.teardowns.any (fun t => s.ctxPart t.ctx == p)
    && !s.loans.any (fun l => l.part == p)

/-! ## Tile and cluster resets (R439, R440) -/

/-- Abandon a save at a heat boundary or a restore under way on a tile: VALID is 0, and the context returns
through its context load state (R208). -/
def State.abandonMove (s : State) (t : Nat) : State :=
  let void (s : State) (c : Nat) : State :=
    { s.mwriteVal (s.saveA t c) 1 0 with saved := tdel s.saved (savedKey c t) }
  let x := s.tile t
  match x.ctx, x.incoming with
  | some c, _ => if x.seq = .saving then (void s c).abandonTile t c else s
  | none, some c => (((void s c).cmdsAbandoned t (s.liveCmds t)).parkCmds t).modTile t (fun y => { y with
      incoming := none, seq := .idle, preq := none, preDue := none })
  | none, none => s

/-- Begin a tile (1) or cluster (2) reset: every context with a heat there is torn down, one whose heat is
being restored too, and any other save or restore is abandoned (R208, R440). -/
def State.unitReset (s : State) (domain index : Nat) : State :=
  let ts := if domain = 1 then [index] else (List.range 8).map (fun i => 8 * index + i)
  let cs := (List.range 64).filter (fun c => ts.any (fun t =>
    ((s.tile t).ctx == some c && !(s.tc t).heats.isEmpty)
      || ((s.tile t).incoming == some c
        && (tfind s.saved (savedKey c t)).any (fun x => !x.heats.isEmpty))))
  let s := s.setHealth { s.health with units := s.health.units ++ [(domain, index)] }
  let s := s.tilesDo ts (fun t s => s.modTile t (fun x => { x with inReset := true }))
  (s.each cs State.teardown).each ts State.abandonMove

/-- A tile's state after its reset: the scratchpad and saved heats stay, its counters clear
(R185, R440). -/
def State.resetTile (s : State) (t : Nat) : State :=
  let p := (s.tile t).power
  let inTile (a : Nat) : Bool := decide (tileA t 0x5000 ≤ a) && decide (a < tileA (t + 1) 0)
  let ring (a : Nat) : Bool := decide (ringA t 0 ≤ a) && decide (a < ringA t 0x1000)
  let s := s.dropDumps (fun d => d.tile == t)
  let s := { s with
    ctl := s.ctl.filter (fun e => !inTile e.1 && !ring e.1)
    obs := { s.obs with
      cnt := s.obs.cnt.filter (fun e => !inTile e.1)
      cmds := s.obs.cmds.filter (fun e => e.1 / 16 != t)
      gated := s.obs.gated.filter (fun g => g.1 != t) } }
  let mine (e : Nat × Nat) : Bool := e.1 / 16 == t
  let inf (e : Nat × Nat) : Bool := decide (e.1 < 64) && e.1 / 2 == t
  let b := s.banks
  let s := { s with banks := { b with
    spad := b.spad.filter (fun e => !mine e), spadHeld := b.spadHeld.filter (fun e => !mine e)
    inf := b.inf.filter (fun e => !inf e), infHeld := b.infHeld.filter (fun e => !inf e)
    spadBusy := b.spadBusy.filter (fun i => i / 32 != t) } }
  s.setTile t { power := p }

/-- The Infield ports of a cluster after its reset: no claim is held, and no bank has a last winner (R334, R440). -/
def State.resetPorts (s : State) (k : Nat) : State :=
  let b := s.banks
  { s with banks := { b with
    inf := b.inf.filter (fun e => e.1 != 64 + k), infHeld := b.infHeld.filter (fun e => e.1 != 64 + k)
    last := b.last.filter (fun e => e.1 / 16 != k), infBusy := b.infBusy.filter (fun i => i / 16 != k) } }

/-- TILE_RESET_COMPLETE: a tile reset, or the cluster reset that holds the tile, ends (R440). -/
def execTileResetComplete (t : TileNo) (s : State) : Out :=
  let k := t.val
  .next (match s.health.units.find? (fun u =>
      (u.1 == 1 && u.2 == k) || (u.1 == 2 && u.2 == k / 8)) with
    | none => s
    | some u =>
      let ts := if u.1 = 1 then [k] else (List.range 8).map (fun i => 8 * u.2 + i)
      let s := s.setHealth { s.health with units := s.health.units.erase u }
      let s := s.tilesDo ts (fun i s => s.resetTile i)
      ((if u.1 = 2 then s.resetPorts u.2 else s).settleAll ts).beginBe)

end Sys2Proof.Machine
end

