-- ==== Sys2Proof/Machine/Lap.lean ====
section
/-!
DEFINITION. The Lap Engine: boundaries, modes, stale input, the ramp, the compensator, generators
and probes (R213-R244), and the writes a loop refuses (R219, R235-R238).
-/

namespace Sys2Proof.Machine

/-! ## Access -/

/-- Store the state of loop n. -/
def State.setLoop (s : State) (n : Nat) (x : LoopSt) : State :=
  { s with lap := { s.lap with loops := tput s.lap.loops n x } }
/-- Change the state of loop n. -/
def State.modLoop (s : State) (n : Nat) (f : LoopSt → LoopSt) : State := s.setLoop n (f (s.loop n))
/-- Generator g beside its registers. -/
def State.gen (s : State) (g : Nat) : GenSt := tget {} s.lap.gens g
/-- Store it. -/
def State.setGen (s : State) (g : Nat) (x : GenSt) : State :=
  { s with lap := { s.lap with gens := tput s.lap.gens g x } }
/-- Probe p beside its registers. -/
def State.probe (s : State) (p : Nat) : ProbeSt := tget {} s.lap.probes p
/-- Store it. -/
def State.setProbe (s : State) (p : Nat) (x : ProbeSt) : State :=
  { s with lap := { s.lap with probes := tput s.lap.probes p x } }
/-- Sample Port p beside its registers. -/
def State.spt (s : State) (p : Nat) : SptSt := tget {} s.lap.spts p
/-- Store it. -/
def State.setSpt (s : State) (p : Nat) (x : SptSt) : State :=
  { s with lap := { s.lap with spts := tput s.lap.spts p x } }
/-- PWM channel c beside its registers. -/
def State.pwm (s : State) (c : Nat) : PwmSt := tget {} s.lap.pwms c
/-- Store it. -/
def State.setPwm (s : State) (c : Nat) (x : PwmSt) : State :=
  { s with lap := { s.lap with pwms := tput s.lap.pwms c x } }

/-- LAP_LOOP_n_OWN.EN. -/
def State.loopEn (s : State) (n : Nat) : Bool := s.rbit (loopA n 0x18) 31
/-- LAP_LOOP_n_STAT.MODE: 0 OPEN, 1 MANUAL, 2 AUTO. -/
def State.loopMode (s : State) (n : Nat) : Nat := s.rfld (loopA n 0x60) 30 2
/-- Whether the loop is the time servo (R223). -/
def State.isServo (s : State) (n : Nat) : Bool := s.rfld (loopA n 0x10) 8 2 == 1
/-- Class S. -/
def State.loopS (s : State) (n : Nat) : Bool := s.rbit (loopA n 0x04) 4
/-- A signed word of a loop's register. -/
def State.lw (s : State) (n off : Nat) : Int := (s.rget (loopA n off)).toInt

/-- A signed value as a word. -/
def wordI (i : Int) : Word := BitVec.ofInt 32 i
/-- sat32 of R231. -/
def sat32 (i : Int) : Int := satS 32 i

/-- Whether a PWM channel exists whose loop destination is held; the loop's PWM channel (R264). -/
def State.loopPwm (s : State) (n : Nat) : Option Nat :=
  if s.rfld (loopA n 0x14) 8 2 = 1 then some (s.rfld (loopA n 0x14) 0 8 % 64) else none

/-- A channel carries no signal: its ball, when no reset state holds it, takes its configured safe
state (R269). -/
def State.pwmIdle (s : State) (c : Nat) : State :=
  let ball : PwmBall := if (s.pwm c).ball = .resetSafe then .resetSafe else .safe
  ((s.setPwm c { ball := ball }).rbitSet (pwmA c 0x10) 31 true).rfldSet (pwmA c 0x10) 0 27 0

/-- The destination of loop n goes to its safe state: its PWM channel, and that channel's complement,
carry no signal (R218, R226, R267, R269). -/
def State.safeDest (s : State) (n : Nat) : State :=
  match s.loopPwm n with
  | some c =>
    let s := s.pwmIdle c
    if c % 2 = 0 ∧ s.rbit (pwmA (c + 1) 0x00) 31 = true then s.pwmIdle (c + 1) else s
  | none => s

/-! ## The sine table (R240) -/

/-- π × 2^128, rounded down. -/
def piScaled : Nat := 0x3243F6A8885A308D313198A2E03707344

/-- One term of the sine series after `k` earlier ones: x^(2k+1) / (2k+1)! scaled by 2^128, then the
sum with alternating signs. -/
def sineSeries (x2 : Nat) : Nat → Nat → Nat → Int → Int
  | 0, _, _, acc => acc
  | n + 1, k, t, acc =>
    let t' := t * x2 / 2 ^ 128 / ((2 * k) * (2 * k + 1))
    sineSeries x2 n (k + 1) t' (if k % 2 = 1 then acc - (t' : Int) else acc + (t' : Int))

/-- Tab[j] = round(2^31 sin(π(2j + 1)/4096)) (R240). -/
def sineTab (j : Nat) : Int :=
  let x := piScaled * (2 * j + 1) / 4096
  let sum := sineSeries (x * x / 2 ^ 128) 20 1 x (x : Int)
  (sum * 2 ^ 31 + 2 ^ 127).fdiv (2 ^ 128)

/-- The sine S of a phase word (R240). -/
def sineOf (theta : Nat) : Int :=
  let i := bitsOf theta 20 10
  match bitsOf theta 30 2 with
  | 0 => sineTab i
  | 1 => sineTab (1023 - i)
  | 2 => -sineTab i
  | _ => -sineTab (1023 - i)

/-! ## Generators (R238-R241) -/

/-- Order and tap of a PRBS polynomial (R239). -/
def prbsPoly (k : Nat) : Nat × Nat :=
  match k with
  | 0 => (7, 6) | 1 => (9, 5) | 2 => (11, 9) | 3 => (15, 14) | 4 => (23, 18) | _ => (31, 28)

/-- The PRBS state after one new bit, and the bit (R239). -/
def prbsStep (n t st : Nat) : Nat × Bool :=
  let b := bitAt st (n - 1) != bitAt st (t - 1)
  ((2 * st + b2n b) % 2 ^ n, b)

/-- Whether generator g is attached to loop n. -/
def State.genOn (s : State) (n g : Nat) : Bool := s.rfld (genA g 0x00) 16 10 == n

/-- Start and stop the generators of a loop at its boundary (R241). -/
def State.genEdges (s : State) (n : Nat) : State :=
  s.each ((List.range 8).filter (s.genOn n)) (fun s g =>
    let x := s.gen g
    let en := if x.enAt = some s.now then x.enPrev else s.rbit (genA g 0x00) 31
    let run := s.rbit (genA g 0x1C) 31
    if en && !run then
      let o := (prbsPoly (s.rfld (genA g 0x00) 8 3)).1
      let seed := (s.rget (genA g 0x18)).toNat % 2 ^ o
      let s := s.setGen g { x with
        theta := 0, f := (s.rget (genA g 0x08)).toNat, lap := 0, bit := false
        prbs := if seed = 0 then 2 ^ o - 1 else seed }
      (s.rfldSet (genA g 0x1C) 0 16 0).rbitSet (genA g 0x1C) 31 true
    else if !en && run then s.rbitSet (genA g 0x1C) 31 false
    else s)

/-- The running generator of a loop (R238). -/
def State.genOf (s : State) (n : Nat) : Option Nat :=
  (List.range 8).find? (fun g => s.genOn n g && s.rbit (genA g 0x1C) 31)

/-- A generator's contribution at an update, and the generator one lap on (R239, R240). -/
def State.genLap (s : State) (g : Nat) : State × Int :=
  let x := s.gen g
  let amp := (s.rget (genA g 0x04)).toNat
  let ctrl := genA g 0x00
  let stat := genA g 0x1C
  if s.rbit ctrl 30 then
    let v := ((amp : Int) * sineOf x.theta + 2 ^ 30).fdiv (2 ^ 31)
    let th := (x.theta + x.f) % 2 ^ 32
    let due := (x.lap + 1) % (s.rfld (genA g 0x14) 0 16 + 1) == 0
    let f' := x.f + (s.rget (genA g 0x10)).toNat
    let x := { x with theta := th, lap := x.lap + 1 }
    if !due then (s.setGen g x, v)
    else if (s.rget (genA g 0x0C)).toNat < f' then
      let s := (s.setGen g x).rbitSet stat 31 false
      let s := if x.enAt = some s.now then s else s.rbitSet ctrl 31 false
      (s.rbitSet stat 30 true, v)
    else ((s.setGen g { x with f := f' }).rwrap stat 0 16 1, v)
  else
    let p := prbsPoly (s.rfld ctrl 8 3)
    let new := x.lap % (s.rfld ctrl 0 8 + 1) == 0
    let st := if new then prbsStep p.1 p.2 x.prbs else (x.prbs, x.bit)
    let s := s.setGen g { x with prbs := st.1, bit := st.2, lap := x.lap + 1 }
    let s := if new then s.rwrap stat 0 16 1 else s
    (s, if st.2 then (amp : Int) else -(amp : Int))

/-! ## The compensator (R230-R234) -/

/-- A term of R231: coefficient offset, shift register, shift's low bit, operand offset, sign. -/
def compTerms (three : Bool) : List (Nat × Nat × Nat × Nat × Int) :=
  [(0x20, 0x3C, 0, 0x74, 1), (0x24, 0x3C, 5, 0x80, 1), (0x28, 0x3C, 10, 0x84, 1)]
    ++ (if three then [(0x2C, 0x3C, 15, 0x88, 1)] else [])
    ++ [(0x30, 0x40, 0, 0x8C, -1), (0x34, 0x40, 5, 0x90, -1)]
    ++ (if three then [(0x38, 0x40, 10, 0x94, -1)] else [])

/-- FLAGS bit numbers of a loop (R246). -/
def fLimref : Nat := 0
def fEsat : Nat := 1
def fAsat : Nat := 2
def fOsat : Nat := 3
def fClampLo : Nat := 4
def fClampHi : Nat := 5
def fStale : Nat := 6
def fSlip : Nat := 7
def fCwref : Nat := 8
def fCfgref : Nat := 9
def fMwref : Nat := 10
def fEmref : Nat := 11
def fTcoll : Nat := 12

/-- A set FLAGS bit as a mask. -/
def flagIf (b : Bool) (k : Nat) : Nat := if b then 2 ^ k else 0

/-- Set FLAGS bits of a loop; they are bits of the lap in progress (R242) and of this cycle (R244). -/
def State.loopFlags (s : State) (n m : Nat) : State :=
  (s.rset (loopA n 0x64) (s.rget (loopA n 0x64) ||| BitVec.ofNat 32 m)).modLoop n (fun x => { x with
    raised := x.raised ||| m, flagAt := some s.now
    flagNow := (if x.flagAt = some s.now then x.flagNow else 0) ||| m })

/-- The bits of the register at `a` that the hardware set in this cycle, where `a` is the loop's FLAGS
(R244). -/
def State.flagsSet (s : State) (n a : Nat) : Word :=
  if a = loopA n 0x64 ∧ (s.loop n).flagAt = some s.now then BitVec.ofNat 32 (s.loop n).flagNow else 0

/-- Clamp to the loop's limits with the CLAMP flags (R233). -/
def State.clampLim (s : State) (n : Nat) (v : Int) : Int × Nat :=
  let lo := s.lw n 0x44
  let hi := s.lw n 0x48
  (clampI lo hi v, flagIf (decide (v < lo)) fClampLo ||| flagIf (decide (hi < v)) fClampHi)

/-- A word of the loop's history as the compensator reads it: after a preset whose first update has not
committed, e is 0 and u the preset value (R217, R220). -/
def State.histW (s : State) (n off : Nat) : Int :=
  match (s.loop n).pset with
  | some w => if off < 0x8C then 0 else w.toInt
  | none => s.lw n off

/-- The compensator's u with its flags (R231-R233); e0 is `e`. -/
def State.compensate (s : State) (n : Nat) (e : Int) : Int × Nat :=
  let cs := s.loopS n
  let osh := s.rfld (loopA n 0x04) 7 3
  let lim : Int := 2 ^ (62 - osh)
  let r := (compTerms (s.rbit (loopA n 0x04) 5)).foldl (fun (a : Int × Nat) k =>
    let x := if k.2.2.2.1 = 0x74 then e else s.histW n k.2.2.2.1
    let sh := s.rfld (loopA n k.2.1) k.2.2.1 5
    let acc := a.1 + k.2.2.2.2 * ((s.lw n k.1 * x).fdiv (2 ^ sh))
    if cs then (acc, a.2)
    else
      let c := clampI (-lim) (lim - 1) acc
      (c, a.2 ||| flagIf (decide (c ≠ acc)) fAsat)) (0, 0)
  let v := (r.1 + 2 ^ (30 - osh)).fdiv (2 ^ (31 - osh))
  if cs then let c := s.clampLim n v; (c.1, r.2 ||| c.2)
  else (sat32 v, r.2 ||| flagIf (decide (sat32 v ≠ v)) fOsat)

/-- The output from u and the output-point injection (R222, R232, R233). -/
def State.outputOf (s : State) (n : Nat) (u go : Int) : Int × Nat :=
  let v := u + go
  if s.loopS n then s.clampLim n v else (sat32 v, flagIf (decide (sat32 v ≠ v)) fOsat)

/-! ## Steps of a boundary (R217) -/

/-- A value limited in Class S (R220, R222, R227). -/
def State.limitS (s : State) (n : Nat) (v : Int) : Int :=
  if s.loopS n then clampI (s.lw n 0x44) (s.lw n 0x48) v else v

/-- The preset of R220 with a u history.  The registers E1 to E3 and U1 to U3 take it when the update
that starts from it commits (R217). -/
def State.preset (s : State) (n : Nat) (u : Int) : State :=
  s.modLoop n (fun x => { x with pset := some (wordI (s.limitS n u)) })

/-- The mode request that a boundary of this cycle sees (R219); until the exit from HOLD has ended a loop
other than the time servo stays OPEN, whatever it requests (R31). -/
def State.modeReq (s : State) (n : Nat) : Nat :=
  let x := s.loop n
  if (s.clkState = 2 ∨ s.clkState = 3) ∧ s.isServo n = false then 0
  else if x.reqAt = some s.now then x.reqPrev else s.rfld (loopA n 0x00) 0 2

/-- Step 1: the mode, and the preset at entry to AUTO (R217, R219, R220).  Answers whether AUTO was
entered. -/
def State.stepMode (s : State) (n : Nat) : State × Bool :=
  let m := s.modeReq n
  let old := s.loopMode n
  let s := s.rfldSet (loopA n 0x60) 30 2 m
  if m = 2 ∧ old ≠ 2 then (s.preset n (s.lw n 0x54), true) else (s, false)

/-- The newest frame that a boundary of this cycle sees (R20, R258). -/
def State.seenFrame (s : State) (p : Nat) : Option SptFrame :=
  (s.spt p).frames.find? (fun f => f.cycle < s.now)

/-- Whether the port reported itself LOST in the cycle before (R258). -/
def State.seenLost (s : State) (p : Nat) : Bool :=
  let x := s.spt p
  if x.lostAt = some s.now then x.lostPrev else s.rfld (sptA p 0x08) 30 2 == 0

/-- Latch a value with its split (R23, R224). -/
def State.latch (s : State) (n : Nat) (y : Word) (split : Nat) : State :=
  let old := s.latched n
  let ns := split / 2 ^ 32
  let s := (s.rset (loopA n 0x68) y).rset (loopA n 0x6C) (BitVec.ofNat 32 (ns % 1000000000))
  s.modLoop n (fun x => { x with
    ySec := ns / 1000000000 % 2 ^ 48, yAt := some s.now, yPrev := old })

/-- The servo's Y for an offset in units of 2^-32 ns (R375). -/
def State.servoY (s : State) (o : Int) : Word :=
  let iexp := s.rfld (splA 0x24) 8 5
  wordI (sat32 ((o * 2 ^ (31 - iexp) + 2 ^ 31).fdiv (2 ^ 32)))

/-- Step 2: latch; answers whether a fresh sample was latched and whether the input is reported
stale (R224, R225, R375). -/
def State.stepLatch (s : State) (n : Nat) : State × Bool × Bool :=
  if s.isServo n then
    match s.time.servo with
    | some (o, t2, at') =>
      if at' < s.now then
        let s := s.latch n (s.servoY o) t2
        ({ s with time := { s.time with servo := none } }, true, s.time.servoStale)
      else (s, false, s.time.servoStale)
    | none => (s, false, s.time.servoStale)
  else
    let p := s.rfld (loopA n 0x10) 4 4
    let ch := s.rfld (loopA n 0x10) 0 4
    let off := decide (s.rfld (sptA p 0x00) 24 4 < ch)
    let rep := s.seenLost p || off
    let miss (s : State) : State := s.rcount (loopA n 0x60) 16 4 1
    match s.seenFrame p with
    | some f =>
      if off || decide (f.samples.length ≤ ch) || !((s.loop n).eseq.all (fun e => decide (e < f.eseq))) then
        (miss s, false, rep)
      else
        let s := s.latch n (lget 0 f.samples ch) f.split
        let s := s.modLoop n (fun x => { x with eseq := some f.eseq })
        (s.rfldSet (loopA n 0x60) 16 4 0, true, rep)
    | none => (miss s, false, rep)

/-- INPUT_STALE after step 2: answers entry and leaving (R225). -/
def State.stepStale (s : State) (n : Nat) (fresh rep : Bool) : State × Bool × Bool :=
  let was := s.rbit (loopA n 0x60) 28
  let missed := !s.isServo n
    && decide (s.rfld (loopA n 0x04) 12 4 ≤ s.rfld (loopA n 0x60) 16 4)
  let now' := if was then !(fresh && !rep) else missed || rep
  let s := s.rbitSet (loopA n 0x60) 28 now'
  let s := if now' then s.rcount (loopA n 0x9C) 0 32 1 else s
  let enter := now' && !was
  let leave := was && !now'
  let s := if enter then (s.loopFlags n (2 ^ fStale)).event 59 0x10 {} n 1 else s
  (if leave then s.event 59 0x10 {} n 0 else s, enter, leave)

/-- Apply a Q1.31 value (R217): U_APP, and the servo's increment (R363). -/
def State.applyOut (s : State) (n : Nat) (v : Word) : State :=
  let old := s.rget (loopA n 0x7C)
  let s := (s.rset (loopA n 0x7C) v).rbitSet (loopA n 0x60) 25 false
  let s := s.modLoop n (fun x => { x with appAt := some s.now, appPrev := old })
  if s.rfld (loopA n 0x14) 8 2 = 3 then
    { s with time := { s.time with
        incNext := ((0x400000000 : Int) + v.toInt).toNat, incAt := s.now } }
  else s

/-- Hold the destination safe; U_APP keeps its value (R217). -/
def State.applySafe (s : State) (n : Nat) : State :=
  (s.rbitSet (loopA n 0x60) 25 true).safeDest n

/-- Step 3: apply (R217, R218, R226). -/
def State.stepApply (s : State) (n : Nat) (enter : Bool) : State :=
  let m := s.loopMode n
  let out := (s.loop n).out
  let done (s : State) : State := s.modLoop n (fun x => { x with out := none })
  let computed (s : State) : State := match out with
    | some v => s.applyOut n v
    | none => s
  if m = 0 then done (s.applySafe n)
  else if m = 2 ∧ s.rbit (loopA n 0x60) 28 = true ∧ enter = false then
    done (match s.rfld (loopA n 0x04) 10 2 with
      | 1 => s.applyOut n (wordI (s.limitS n (s.lw n 0x58)))
      | 2 => s.applySafe n
      | _ => s)
  else done (computed s)

/-- The u history on leaving INPUT_STALE in AUTO (R227). -/
def State.leaveU (s : State) (n : Nat) : Int :=
  if s.rbit (loopA n 0x60) 25 then s.lw n 0x54 else s.lw n 0x7C

/-- The target that a boundary of this cycle sees (R24, R228). -/
def State.targetAt (s : State) (n : Nat) : Word :=
  if s.rbit (loopA n 0x10) 15 then
    let m := s.rfld (loopA n 0x10) 16 10
    let y := s.loop m
    if y.appAt = some s.now then y.appPrev else s.rget (loopA m 0x7C)
  else
    let x := s.loop n
    if x.tgtAt = some s.now then x.tgtPrev else s.rget (loopA n 0x4C)

/-- Step 4: the target and the ramp (R228, R229). -/
def State.stepRamp (s : State) (n : Nat) (restart : Bool) : State :=
  let t := s.targetAt n
  let x := s.loop n
  let y := s.rget (loopA n 0x68)
  let r := s.rget (loopA n 0x70)
  let s := s.modLoop n (fun x => { x with force := t })
  if s.loopMode n = 2 then
    let fresh := !s.rbit (loopA n 0x10) 15 && decide (t ≠ x.force) && decide (r = x.force)
    let r0 := if restart || fresh then y.toInt else r.toInt
    let rate := ((s.rget (loopA n 0x50)).toNat : Int)
    let d := t.toInt - r0
    s.rset (loopA n 0x70) (wordI (if rate = 0 then t.toInt else r0 + clampI (-rate) rate d))
  else s.rset (loopA n 0x70) y

/-! ## Probes (R242, R243) -/

/-- Word of a signal code (R242). -/
def State.probeSig (s : State) (n code : Nat) (g : Word) : Word :=
  match code with
  | 0 => s.rget (loopA n 0x68) | 1 => s.rget (loopA n 0x70) | 2 => s.rget (loopA n 0x74)
  | 3 => s.rget (loopA n 0x78) | 4 => s.rget (loopA n 0x7C) | 5 => g
  | 6 => s.rget (loopA n 0x4C) | _ => s.rget (loopA n 0x6C)

/-- Write the entry of a probe for a lap; `trig`: it is the trigger entry (R242, R243). -/
def State.probeEntry (s : State) (n p : Nat) (trig inj : Bool) (g : Word) : State :=
  let stat := prbA p 0x14
  let i := s.rfld stat 0 12
  let ctrl := prbA p 0x00
  let x := s.probe p
  let tag := b2n (s.rbit (loopA n 0x60) 28) * 2 ^ 15 + b2n inj * 2 ^ 14 + b2n trig * 2 ^ 13
    + (s.loop n).raised % 2 ^ 13
  let a := probeA p (16 * i)
  let s := s.rset a (s.probeSig n (s.rfld ctrl 12 4) g)
  let s := s.rset (a + 4) (s.probeSig n (s.rfld ctrl 8 4) g)
  let s := (s.rset (a + 8) (s.rget (loopA n 0x98))).rset (a + 12) (BitVec.ofNat 32 tag)
  let s := s.rfldSet stat 0 12 ((i + 1) % 4096)
  let s := if i = 4095 then s.rbitSet stat 28 true else s
  let post := s.rfld (prbA p 0x10) 0 12
  let stop (s : State) : State := (s.rbitSet stat 29 true).rbitSet stat 31 false
  if trig then
    let s := (s.rfldSet stat 12 12 i).rbitSet stat 30 true
    let s := s.setProbe p { x with trig := false, left := some post }
    if post = 0 then stop s else s
  else
    match x.left with
    | some (k + 1) =>
      let s := s.setProbe p { x with left := some k }
      if k = 0 then stop s else s
    | _ => s

/-- A running probe at the end of a lap: its trigger is evaluated on every lap, and the entry is written
on a recorded one; a trigger of an unrecorded lap marks the next recorded entry (R242, R243; DEDUCED, log
entry 69).  `trg`: a generator's first contribution triggers it. -/
def State.probeLap (s : State) (n p : Nat) (rec trg inj : Bool) (g : Word) : State :=
  let ctrl := prbA p 0x00
  let stat := prbA p 0x14
  let x := s.probe p
  let trig := s.rbit ctrl 30 && !s.rbit stat 30 && (trg || x.trig
    || (s.rfld ctrl 28 2 == 2 && (s.loop n).raised &&& s.rfld (prbA p 0x08) 0 13 != 0))
  if s.rbit ctrl 31 = false ∨ s.rbit stat 31 = false then s
  else if rec then s.probeEntry n p trig inj g
  else s.setProbe p { x with trig := trig }

/-- The end of a lap: its probes, and the FLAGS bits of the next one start at none (R242). -/
def State.lapEnd (s : State) (n : Nat) (ps : List (Nat × Bool × Bool)) (inj : Bool) (g : Word) : State :=
  (s.each ps (fun s p => s.probeLap n p.1 p.2.1 p.2.2 inj g)).modLoop n (fun x => { x with raised := 0 })

/-- The running probes of loop n at this boundary, each with whether it records it: an armed probe starts
at the loop's next boundary and records every (DEC + 1)-th one (R242, R243). -/
def State.stepProbes (s : State) (n : Nat) : State × List (Nat × Bool) :=
  (List.range 8).foldl (fun (a : State × List (Nat × Bool)) p =>
    let s := a.1
    let ctrl := prbA p 0x00
    let stat := prbA p 0x14
    let x := s.probe p
    if s.rfld ctrl 16 10 ≠ n ∨ s.rbit ctrl 31 = false ∨ x.armAt = some s.now
        ∨ s.rbit stat 29 = true then a
    else
      let start := !s.rbit stat 31
      let s := if start then s.rbitSet stat 31 true else s
      let k := if start then 0 else x.count
      let s := s.setProbe p { s.probe p with count := k + 1 }
      (s, a.2 ++ [(p, k % (s.rfld (prbA p 0x0C) 0 16 + 1) == 0)])) (s, [])

/-! ## LOOP_BOUNDARY (R217) -/

/-- Whether the loop would issue an update at this boundary, but for a collision (R216). -/
def State.wouldIssue (s : State) (n : Nat) (fresh : Bool) : Bool :=
  let m := s.loopMode n
  m != 0 && !(m == 2 && s.rbit (loopA n 0x60) 28) && (!s.isServo n || fresh)

/-- A generator's first contribution triggers the probes of its loop that select it (R243). -/
def State.genTrig (s : State) (n p : Nat) (first : Bool) : Bool :=
  first && s.rfld (prbA p 0x00) 28 2 == 1 && s.rfld (prbA p 0x00) 16 10 == n

/-- The error of R229 and R231 with an error-point injection, and its flag. -/
def State.errOf (s : State) (n : Nat) (ge : Int) : Int × Nat :=
  let d := s.lw n 0x70 - s.lw n 0x68
  let e1 := sat32 d + ge
  (sat32 e1, flagIf (decide (sat32 d ≠ d) || decide (sat32 e1 ≠ e1)) fEsat)

/-- Step 5: compute the update and put it in flight (R217, R218, R231-R233). -/
def State.issueUpdate (s : State) (n : Nat) (ps : List (Nat × Bool)) : State :=
  let m := s.loopMode n
  let gi := s.genOf n
  let first := match gi with
    | some g => (s.gen g).lap == 0
    | none => false
  let was := gi.map (fun g => (g, s.gen g, s.rget (genA g 0x1C)))
  let r := match gi with
    | some g => s.genLap g
    | none => (s, 0)
  let pt := match gi with
    | some g => s.rbit (genA g 0x00) 29
    | none => false
  let s := r.1
  let ge := if pt then 0 else r.2
  let go := if pt then r.2 else 0
  let e := s.errOf n ge
  let u := if m = 2 then s.compensate n e.1 else (s.lw n 0x54, 0)
  let o := s.outputOf n u.1 go
  let trg := ps.map (fun p => (p.1, p.2, s.genTrig n p.1 first))
  let s := s.rset (loopA n 0x74) (wordI e.1)
  let s := { s with lap := { s.lap with
    issued := tput s.lap.issued (s.rfld (loopA n 0x04) 6 1) (s.now, n) } }
  s.modLoop n (fun x => { x with
    flight := some ⟨m == 2, wordI e.1, wordI u.1, wordI o.1, e.2 ||| u.2 ||| o.2, gi.isSome, wordI r.2, was,
      trg⟩ })

/-- E0 of a boundary at which no update issues, with ESAT (R217, R229). -/
def State.formErr (s : State) (n : Nat) : State :=
  let e := s.errOf n 0
  let s := s.rset (loopA n 0x74) (wordI e.1)
  if e.2 = 0 then s else s.loopFlags n e.2

/-- The loop slips: no update at this boundary, the same output at the next one as at this, and its
history as it is (R216). -/
def State.slip (s : State) (n : Nat) (ps : List (Nat × Bool × Bool)) : State :=
  let s := ((s.formErr n).loopFlags n (2 ^ fSlip)).rcount (loopA n 0xA0) 0 32 1
  let keep := if s.rbit (loopA n 0x60) 25 then none else some (s.rget (loopA n 0x7C))
  (s.modLoop n (fun x => { x with out := keep })).lapEnd n ps false 0

/-- A generator as it was before an update that is taken back: a stop by the hardware has not happened,
and a host write of EN in this cycle stands (R216, R241). -/
def State.genBack (s : State) (w : Nat × GenSt × Word) : State :=
  let g := w.1
  let x := s.gen g
  let s := s.setGen g { w.2.1 with enAt := x.enAt, enPrev := x.enPrev }
  let s := (s.rfldSet (genA g 0x1C) 0 16 (fget w.2.2 0 16)).rfldSet (genA g 0x1C) 30 2 (fget w.2.2 30 2)
  if x.enAt = some s.now then s else s.rbitSet (genA g 0x00) 31 true

/-- Loop m has put an update into its pipeline in this cycle, and a loop of lower number reaches its
boundary in the same cycle: m issues none and slips (R216). -/
def State.revoke (s : State) (m : Nat) : State :=
  match (s.loop m).flight with
  | none => s
  | some r =>
    let s := match r.genWas with
      | some w => s.genBack w
      | none => s
    (s.modLoop m (fun x => { x with flight := none })).slip m (r.probes.map (fun p => (p.1, p.2.1, false)))

/-- Issue the update of loop n, or slip, by who has taken the pipeline in this cycle (R216). -/
def State.issueOrSlip (s : State) (n : Nat) (ps : List (Nat × Bool)) : State :=
  match tfind s.lap.issued (s.rfld (loopA n 0x04) 6 1) with
  | some (c, m) =>
    if c ≠ s.now then s.issueUpdate n ps
    else if m ≤ n then s.slip n (ps.map (fun p => (p.1, p.2, false)))
    else (s.revoke m).issueUpdate n ps
  | none => s.issueUpdate n ps

/-- A boundary of an enabled loop (R217). -/
def State.boundary (s : State) (n : Nat) : State :=
  let s := s.rwrap (loopA n 0x98) 0 32 1
  let m := s.stepMode n
  let l := m.1.stepLatch n
  let st := l.1.stepStale n l.2.1 l.2.2
  let leave := st.2.2 && st.1.loopMode n == 2
  let s := if leave then st.1.preset n (st.1.leaveU n) else st.1
  let s := s.stepApply n st.2.1
  let s := s.stepRamp n (m.2 || leave)
  let s := if s.rbit (loopA n 0x00) 9 && s.loopMode n == 2 && (s.loop n).manAt != some s.now then
      s.rset (loopA n 0x54) (s.rget (loopA n 0x7C)) else s
  let s := s.genEdges n
  let pr := s.stepProbes n
  let s := pr.1
  if s.wouldIssue n l.2.1 then s.issueOrSlip n pr.2
  else
    let s := s.formErr n
    let s := if s.isServo n && s.loopMode n == 2 && !s.rbit (loopA n 0x60) 25 then
        s.modLoop n (fun x => { x with out := some (s.rget (loopA n 0x7C)) }) else s
    s.lapEnd n (pr.2.map (fun p => (p.1, p.2, false))) false 0

/-- LOOP_BOUNDARY: a lap boundary of loop n (R216, R217); with CORE in HOLD the Lap Engine stands still
(R27, X8 of R38). -/
def execLoopBoundary (n : Fin 1024) (s : State) : Out :=
  .next (if s.loopEn n.val && s.lap.zero.isSome && !s.coreHold then s.boundary n.val else s)

/-- LOOP_UPDATE_COMMIT: the update in flight commits: U, the history, its flags and its probe entries
(R217, R234, R242). -/
def execLoopUpdateCommit (n : Fin 1024) (s : State) : Out :=
  let k := n.val
  .next (match (s.loop k).flight with
    | none => s
    | some r =>
      let s := s.rset (loopA k 0x78) r.u
      let cp (s : State) (p : Nat × Nat) : State := s.rset (loopA k p.1) (s.rget (loopA k p.2))
      let s := if r.auto then
          let s := s.each [0x80, 0x84, 0x88, 0x8C, 0x90, 0x94]
            (fun s o => s.rset (loopA k o) (wordI (s.histW k o)))
          let s := s.each [(0x88, 0x84), (0x84, 0x80)] cp
          let s := (s.rset (loopA k 0x80) r.e0).each [(0x94, 0x90), (0x90, 0x8C)] cp
          (s.rset (loopA k 0x8C) r.u).modLoop k (fun x => { x with pset := none })
        else s
      let s := s.loopFlags k r.flags
      let s := s.modLoop k (fun x => { x with flight := none, out := some r.out })
      s.lapEnd k r.probes r.inj r.g)

/-! ## Set-points from Emit (R24, R228, X22) -/

/-- Write TARGET so that a boundary of this cycle does not see it (R24). -/
def State.setTarget (s : State) (n : Nat) (v : Word) : State :=
  let old := s.rget (loopA n 0x4C)
  (s.rset (loopA n 0x4C) v).modLoop n (fun x =>
    if x.tgtAt = some s.now then x else { x with tgtAt := some s.now, tgtPrev := old })

/-- EMIT_SETPOINT_ARRIVAL: the oldest set-point write on its way reaches its loop (R24, R228, X22). -/
def execEmitSetpointArrival (s : State) : Out :=
  .next (match s.emitQ with
    | [] => s
    | w :: rest =>
      let s := { s with emitQ := rest }
      let ok := s.loopEn w.loop && !s.ctxBE w.ctx
        && s.rfld (loopA w.loop 0x18) 0 4 == s.ctxPart w.ctx
      if !ok then
        (s.loopFlags w.loop (2 ^ fEmref)).event 59 0x0C ⟨w.ctx, s.ctxBib w.ctx, 0, 0, 0⟩ w.loop fEmref
      else if (s.loop w.loop).hostAt = some s.now then s.loopFlags w.loop (2 ^ fTcoll)
      else (s.setTarget w.loop w.value).modLoop w.loop (fun x => { x with emitAt := some s.now }))

/-! ## Writes to the Lap Engine's registers (R213, R219, R228, R235-R238, R241-R243) -/

/-- The RW bits of a register take those of a written word (R16). -/
def mergeRW (m old v : Word) : Word := (old &&& ~~~m) ||| (v &&& m)

/-- A refused loop write: its flag, the refusal count and the event (R237). -/
def State.loopRefuse (s : State) (n k : Nat) : State × Bool :=
  (((s.loopFlags n (2 ^ k)).rcount (lapA 0x10) 0 32 1).event 59 0x0F {} n k, false)

/-- The loop with EN = 1 whose DST names a destination, other than `me` (R237, R264). -/
def State.drives (s : State) (me otype idx : Nat) : Option Nat :=
  (List.range 1024).find? (fun n => n != me && s.loopEn n
    && s.rfld (loopA n 0x14) 8 2 == otype && s.rfld (loopA n 0x14) 0 8 == idx)

/-- Whether a PWM channel admits a PERIOD (R264). -/
def State.pwmAdmits (s : State) (dst period : Nat) : Bool :=
  bitsOf dst 8 2 != 1 || period % (s.rfld (pwmA (bitsOf dst 0 8 % 64) 0x00) 16 3 + 1) == 0

/-- Whether a write of CFG, PERIOD, PHASE, SRC or DST with word `v` keeps every range (R214, R226,
R228, R237, R246, R264): a slot with EN = 0 binds no channel. -/
def State.cfgWriteOk (s : State) (n off : Nat) (v : Word) : Bool :=
  let per := s.rfld (loopA n 0x08) 0 24
  let pha := s.rfld (loopA n 0x0C) 0 24
  let dst := (s.rget (loopA n 0x14)).toNat
  match off with
  | 0x04 => fget v 10 2 != 3 && fget v 12 4 != 0
  | 0x08 =>
    let p := fget v 0 24
    decide (500 ≤ p) && decide (p ≤ 12500000) && decide (pha < p)
      && (!s.loopEn n || s.pwmAdmits dst p)
  | 0x0C => decide (fget v 0 24 < per)
  | 0x10 => decide (fget v 8 2 < 2) && !(fbit v 15 && fget v 16 10 == n)
      && (fget v 8 2 == 1 || bitsOf dst 8 2 != 3)
      && (fget v 8 2 != 1 || !(List.range 1024).any (fun m => m != n && s.loopEn m && s.isServo m))
  | _ =>
    let ty := fget v 8 2
    (ty != 3 || s.isServo n) && (ty != 1 || decide (fget v 0 8 < 64))
      && (ty == 1 || ty == 2 || fget v 0 8 == 0)
      && ((ty != 1 && ty != 2) || (s.drives n ty (fget v 0 8)).isNone)
      && (!s.loopEn n || (s.pwmAdmits v.toNat per
        && (ty != 1 || !(fget v 0 8 % 2 == 1 && s.rbit (pwmA (fget v 0 8) 0x00) 31))))

/-- A write of an RW register of loop n; answers whether it was accepted.  `boot`: by the boot
script, which alone writes a slot whose EN is 0 (R213). -/
def State.loopWrite (s : State) (boot : Bool) (n off : Nat) (m v : Word) : State × Bool :=
  let a := loopA n off
  let w := mergeRW m (s.rget a) v
  if !s.loopEn n && !boot then
    s.loopRefuse n (if off = 0x00 then fMwref
      else if 0x20 ≤ off ∧ off ≤ 0x40 then fCwref
      else if off = 0x44 ∨ off = 0x48 then fLimref else fCfgref)
  else if off = 0x00 then
    if fget v 0 2 = 3 ∨ (s.isServo n ∧ boot = false) then s.loopRefuse n fMwref
    else
      let old := s.rfld a 0 2
      let s := s.rset a w
      (s.modLoop n (fun x => if x.reqAt = some s.now then x
        else { x with reqAt := some s.now, reqPrev := old }), true)
  else if off = 0x04 ∨ off = 0x08 ∨ off = 0x0C ∨ off = 0x10 ∨ off = 0x14 then
    if s.loopMode n ≠ 0 ∨ (s.isServo n ∧ boot = false) ∨ s.cfgWriteOk n off w = false then
      s.loopRefuse n fCfgref
    else (s.rset a w, true)
  else if 0x20 ≤ off ∧ off ≤ 0x40 then
    if s.loopMode n = 2 ∨ s.rfld (loopA n 0x00) 0 2 = 2 then s.loopRefuse n fCwref
    else (s.rset a w, true)
  else if off = 0x44 ∨ off = 0x48 then
    let lo := if off = 0x44 then v.toInt else s.lw n 0x44
    let hi := if off = 0x48 then v.toInt else s.lw n 0x48
    if hi ≤ lo then s.loopRefuse n fLimref else (s.rset a w, true)
  else if off = 0x4C then
    let c := (s.loop n).emitAt == some s.now
    let s := (s.setTarget n w).modLoop n (fun x => { x with hostAt := some s.now })
    (if c then s.loopFlags n (2 ^ fTcoll) else s, true)
  else if off = 0x54 then
    ((s.rset a w).modLoop n (fun x => { x with manAt := some s.now }), true)
  else (s.rset a w, true)

/-- A write of an RW register of generator g (R238, R241, R247). -/
def State.genWrite (s : State) (g off : Nat) (m v : Word) : State × Bool :=
  let a := genA g off
  let w := mergeRW m (s.rget a) v
  if off ≠ 0x00 then (s.rset a w, true)
  else
    let n := fget w 16 10
    let clash := fbit w 31 && (List.range 8).any (fun h => h != g && s.genOn n h
      && (s.rbit (genA h 0x1C) 31 || s.rbit (genA h 0x00) 31))
    if clash || decide (6 ≤ fget w 8 3) then
      ((if clash then s.rbitSet (genA g 0x1C) 29 true else s).rcount (lapA 0x10) 0 32 1, false)
    else
      let x := s.gen g
      let old := s.rbit a 31
      let x := if x.enAt = some s.now then x else { x with enAt := some s.now, enPrev := old }
      ((s.rset a w).setGen g x, true)

/-- A write of a register of probe p (R242, R243, R248). -/
def State.probeWrite (s : State) (p off : Nat) (m v : Word) : State × Bool :=
  let a := prbA p off
  let w := mergeRW m (s.rget a) v
  let stat := prbA p 0x14
  if off = 0x00 then
    if fget w 28 2 = 3 ∨ 8 ≤ fget w 12 4 ∨ 8 ≤ fget w 8 4 then
      (s.rcount (lapA 0x10) 0 32 1, false)
    else
      let on := fbit w 31
      let was := s.rbit a 31
      let s := s.rset a w
      let s := if on && !was then
          (s.rfldSet stat 28 3 0).setProbe p { count := 0, left := none, trig := false, armAt := some s.now }
        else s
      (if on then s else s.rbitSet stat 31 false, true)
  else if off = 0x04 then
    let go := fbit v 0 && s.rbit (prbA p 0x00) 30 && s.rfld (prbA p 0x00) 28 2 == 0
      && s.rbit stat 31 && !s.rbit stat 30
    (if go then s.setProbe p { s.probe p with trig := true } else s, true)
  else (s.rset a w, true)

end Sys2Proof.Machine
end

