-- ==== Sys2Proof/Machine/Sample.lean ====
section
/-!
DEFINITION. Sample Ports (R249-R263), PWM channels and trips (R264-R271), and the writes of their
registers (R272-R274).
-/

namespace Sys2Proof.Machine

/-! ## Frames (R251-R254) -/

/-- The `n` low bits of a number, most significant first. -/
def msbFirst : Nat → Nat → List Bool
  | 0, _ => []
  | n + 1, v => bitAt v n :: msbFirst n v

/-- CRC-16 with polynomial 0x1021 from 0xFFFF over bits in the order sent (R253). -/
def crc16 (l : List Bool) : Nat :=
  l.foldl (fun c b => if (bitAt c 15) != b then (2 * c % 65536) ^^^ 0x1021 else 2 * c % 65536) 0xFFFF

/-- Sample width of a W code (R272). -/
def sptWidth (w : Nat) : Nat := match w with | 0 => 16 | 1 => 24 | _ => 32

/-- SEQ, NCH and samples of a frame in the order sent (R251). -/
def sptBody (seq nch w : Nat) (samples : List Nat) : List Bool :=
  msbFirst 12 seq ++ msbFirst 4 nch ++ samples.flatMap (msbFirst w)

/-- A W-bit sample as a Q1.31 word (R254). -/
def sampleWord (w v : Nat) : Word := BitVec.ofNat 32 (v % 2 ^ w * 2 ^ (32 - w))

/-- A Q1.31 word as a W-bit sample: to nearest, ties toward +∞, saturated (R262). -/
def sampleOut (w : Nat) (v : Word) : Nat :=
  let r := if w = 32 then v.toInt else (v.toInt + 2 ^ (31 - w)).fdiv (2 ^ (32 - w))
  wrapN (satS w r) w

/-! ## Receive side (R255-R260) -/

/-- SPT_p_RXSTAT.STATE: 0 LOST, 1 HUNT, 2 SYNC. -/
def State.rxState (s : State) (p : Nat) : Nat := s.rfld (sptA p 0x08) 30 2

/-- SPT_p_RXCFG.EN; with CORE in HOLD the port stands still (R18, R27). -/
def State.rxEn (s : State) (p : Nat) : Bool := s.rbit (sptA p 0x00) 31 && !s.coreHold

/-- Move the receive side to a state, remembering the report of the cycle before (R258). -/
def State.rxMove (s : State) (p st : Nat) : State :=
  let old := s.rxState p
  let x := s.spt p
  let x := if x.lostAt = some s.now then x else { x with lostAt := some s.now, lostPrev := old == 0 }
  (s.setSpt p x).rfldSet (sptA p 0x08) 30 2 st

/-- Enter LOST: LOST_CNT counts entries only (R257). -/
def State.rxLost (s : State) (p : Nat) : State :=
  let s := if s.rxState p = 0 then s else s.rcount (sptA p 0x20) 0 32 1
  let s := s.rxMove p 0
  if s.rfld (sptA p 0x00) 0 16 = 0 then s.rbitSet (sptA p 0x08) 28 true else s

/-- Discard a partial frame (R257). -/
def State.rxPartial (s : State) (p : Nat) : State :=
  (s.setSpt p { s.spt p with mark := none }).rcount (sptA p 0x18) 0 32 1

/-- MARK_RECOGNISED: the port recognises the last MARK bit in this cycle; the split is the cycle's
time less 3.2 ns, rounded down (R256). -/
def execMarkRecognised (p : Fin 16) (s : State) : Out :=
  .next (if s.rxEn p.val && s.rbit (sptA p.val 0x08) 29 then
      s.setSpt p.val { s.spt p.val with mark := some ((s.fifths - 16 * 2 ^ 32) / 5) }
    else s)

/-- A frame fails the CRC or NCH test (R255, R257). -/
def State.rxDiscard (s : State) (p : Nat) : State :=
  let s := s.rcount (sptA p 0x14) 0 32 1
  let run := min (s.rfld (sptA p 0x08) 12 4 + 1) 15
  let s := s.rfldSet (sptA p 0x08) 12 4 run
  if s.rxState p = 0 then s
  else if s.rfld (sptA p 0x00) 20 4 ≤ run then s.rxLost p
  else s.rxMove p 1

/-- A frame is accepted (R254, R255, R257, R259). -/
def State.rxAccept (s : State) (p seq split : Nat) (samples : List Word) : State :=
  let x := s.spt p
  let stat := sptA p 0x08
  let last := s.rfld stat 0 12
  let es := if s.rbit stat 28 then (x.eseq / 4096 + 1) * 4096 + seq
    else x.eseq + (seq + 4096 - last) % 4096
  let s := s.rxMove p 2
  let x := s.spt p
  let keep := (x.frames.filter (fun f => decide (f.cycle < s.now))).take 1
  let s := s.setSpt p { x with eseq := es, frames := ⟨s.now, es, split, samples⟩ :: keep }
  let s := (s.rfldSet stat 0 12 seq).rfldSet stat 12 4 0
  let s := (s.rbitSet stat 28 false).rset (sptA p 0x0C) (BitVec.ofNat 32 es)
  s.rset (sptA p 0x10) (BitVec.ofNat 32 (split / 2 ^ 32 % 1000000000))

/-- FRAME_CHECK: the frame in progress has ended 8 cycles before and is checked: CRC, NCH and SEQ
(R255, R257). -/
def execFrameCheck (p : Fin 16) (seq : BitVec 12) (nch : Fin 16) (samples : List Word)
    (crc : BitVec 16) (s : State) : Out :=
  let k := p.val
  let w := sptWidth (s.rfld (sptA k 0x00) 28 2)
  let vs := samples.map (fun v => v.toNat % 2 ^ w)
  .next (match (s.spt k).mark with
    | none => s
    | some split =>
      if !s.rxEn k then s
      else
        let s := s.setSpt k { s.spt k with mark := none }
        let d := (seq.toNat + 4096 - s.rfld (sptA k 0x08) 0 12) % 4096
        if crc16 (sptBody seq.toNat nch.val w vs) ≠ crc.toNat ∨ nch.val ≠ s.rfld (sptA k 0x00) 24 4
            ∨ samples.length ≠ nch.val + 1 then
          s.rxDiscard k
        else if s.rbit (sptA k 0x08) 28 || (decide (1 ≤ d) && decide (d ≤ 2047)) then
          s.rxAccept k seq.toNat split (vs.map (sampleWord w))
        else s.rcount (sptA k 0x1C) 0 32 1)

/-- PART_TO_EXPIRY: PART_TO cycles have passed since MARK without the frame's last bit (R257). -/
def execPartToExpiry (p : Fin 16) (s : State) : Out :=
  .next (if (s.spt p.val).mark.isSome && !s.coreHold then (s.rxPartial p.val).rxLost p.val else s)

/-- IDLE_TO_EXPIRY: IDLE_TO cycles have passed after a frame's last bit without a MARK; fewer than 8 pass before
that frame's check (R255, R257). -/
def execIdleToExpiry (p : Fin 16) (s : State) : Out :=
  let wait := s.rfld (sptA p.val 0x04) 16 16
  .next (if s.rxState p.val = 2 ∧ ((s.spt p.val).mark = none ∨ wait < 8) ∧ wait ≠ 0 ∧ s.coreHold = false then
      s.rxLost p.val
    else s)

/-- RX_CLOCK_LOSS: the receive clock has been absent for 64 cycles (R250, R257). -/
def execRxClockLoss (p : Fin 16) (s : State) : Out :=
  let s := if s.coreHold then s else s.rbitSet (sptA p.val 0x08) 29 false
  .next (if !s.rxEn p.val then s
    else if (s.spt p.val).mark.isSome then (s.rxPartial p.val).rxLost p.val
    else s.rxLost p.val)

/-- RX_CLOCK_RETURN: the receive clock is present again (R272). -/
def execRxClockReturn (p : Fin 16) (s : State) : Out :=
  .next (if s.coreHold then s else s.rbitSet (sptA p.val 0x08) 29 true)

/-- FORGET_EXPIRY: the port has been LOST for FORGET microseconds and drops its reference (R259). -/
def execForgetExpiry (p : Fin 16) (s : State) : Out :=
  .next (if s.rxState p.val = 0 ∧ s.coreHold = false then s.rbitSet (sptA p.val 0x08) 28 true else s)

/-! ## Transmit side (R261-R263) -/

/-- The value a transmit channel carries (R262). -/
def State.txValue (s : State) (p c : Nat) : Word :=
  match s.drives 1024 2 (16 * p + c) with
  | some n => if s.rbit (loopA n 0x60) 25 then s.rget (sptA p (0x40 + 4 * c)) else s.rget (loopA n 0x7C)
  | none => s.rget (sptA p (0x40 + 4 * c))

/-- The bits of lane A and of lane B of a frame: with two lanes the even bits travel on A and the odd ones on
B (R252). -/
def laneBits (two : Bool) (l : List Bool) : List Bool × List Bool :=
  if two then
    ((l.zipIdx.filter (fun p => p.2 % 2 == 0)).map Prod.fst, (l.zipIdx.filter (fun p => p.2 % 2 == 1)).map Prod.fst)
  else (l, [])

/-- TX_BOUNDARY: an enabled transmit side captures its channels and sends a frame, where CORE is in RUN and the balls
are driven (R18, R251, R252, R261, R262, R481). -/
def execTxBoundary (p : Fin 16) (s : State) : Out :=
  let k := p.val
  let a := sptA k 0x24
  let w := sptWidth (s.rfld a 28 2)
  let nch := s.rfld a 24 4
  let seq := (s.spt k).txNext
  let vs := (List.range (nch + 1)).map (fun c => sampleOut w (s.txValue k c))
  let body := sptBody seq nch w vs
  let bits := laneBits (s.rbit a 30) (msbFirst 16 0xE31C ++ body ++ msbFirst 16 (crc16 body))
  .next (if s.rbit a 31 && s.lap.zero.isSome && !s.coreHold then
      let s := (s.rfldSet a 0 12 seq).ballOut (.sample k bits.1 bits.2)
      s.setSpt k { s.spt k with txNext := (seq + 1) % 4096 }
    else s)

/-- Whether a frame of a TXCFG word fits TXPER (R263). -/
def State.txFits (s : State) (p : Nat) (w : Word) : Bool :=
  let bits := 48 + (fget w 24 4 + 1) * sptWidth (fget w 28 2)
  let lanes := fget w 30 1 + 1
  decide (bits * fget w 16 3 + 8 * lanes ≤ s.rfld (sptA p 0x28) 0 24 * lanes)

/-! ## Writes of Sample Port registers (R263, R272) -/

/-- A refused Sample Port write. -/
def State.sptRefuse (s : State) (p : Nat) : State × Bool := (s.rbitSet (sptA p 0x08) 27 true, false)

/-- A write of an RW register of port p; answers whether it was accepted (R263, R272). -/
def State.sptWrite (s : State) (p off : Nat) (m v : Word) : State × Bool :=
  let a := sptA p off
  let old := s.rget a
  let w := mergeRW m old v
  let same := decide (fsetBit w 31 false = fsetBit old 31 false)
  match off with
  | 0x00 =>
    if (fbit old 31 && !same) || fget w 28 2 == 3 || fget w 20 4 == 0 then s.sptRefuse p
    else
      let s := s.rset a w
      if fbit old 31 && !fbit w 31 then
        let s := (s.rxMove p 0).rbitSet (sptA p 0x08) 28 true
        (s.setSpt p { s.spt p with mark := none }, true)
      else (s, true)
  | 0x04 => if fget w 0 16 = 0 then s.sptRefuse p else (s.rset a w, true)
  | 0x24 =>
    let k := fget w 16 3
    if (fbit old 31 && !same) || fget w 28 2 == 3 || decide (k < 2) || decide (6 < k)
        || (fbit w 31 && !s.txFits p w) then s.sptRefuse p
    else
      let s := s.rset a w
      (if fbit w 31 && !fbit old 31 then s.setSpt p { s.spt p with txNext := 0 } else s, true)
  | 0x28 =>
    let n := fget w 0 24
    if n < 500 ∨ 12500000 < n ∨ n ≤ s.rfld (sptA p 0x2C) 0 24 then s.sptRefuse p else (s.rset a w, true)
  | 0x2C => if s.rfld (sptA p 0x28) 0 24 ≤ fget w 0 24 then s.sptRefuse p else (s.rset a w, true)
  | _ => (s.rset a w, true)

/-! ## PWM (R264-R271) -/

/-- The loop that drives PWM channel c (R264). -/
def State.pwmLoop (s : State) (c : Nat) : Option Nat := s.drives 1024 1 c

/-- Duty D of a carrier period of `t8` units of 100 ps (R265, R266). -/
def State.duty (s : State) (c t8 : Nat) (u : Word) : Nat :=
  let u' := clampI (s.rget (pwmA c 0x08)).toInt (s.rget (pwmA c 0x0C)).toInt u.toInt
  let d := ((u' * (t8 : Int) + 2 ^ 30).fdiv (2 ^ 31)).toNat
  let m := max (s.rfld (pwmA c 0x04) 16 16) 10
  let short := decide (0 < d) && decide (d < m)
  let gap := decide (d < t8) && decide (t8 - d < m)
  if short && gap then (if d ≤ t8 - d then 0 else t8)
  else if short then 0 else if gap then t8 else d

/-- Whether trip input k selects channel c (R270). -/
def State.tripSelects (s : State) (k c : Nat) : Bool :=
  s.rbit (tripA (0x10 + 8 * k + 4 * (c / 32))) (c % 32)

/-- A latched trip holds channel c, or was cleared in this very cycle (R270, R271). -/
def State.tripHolds (s : State) (c : Nat) : Bool :=
  [0, 1, 2, 3].any (fun k => s.tripSelects k c
    && (s.rbit (tripA 0x04) k || tfind s.lap.tripClear k == some s.now))

/-- The logical edges of a carrier period: times in 100 ps and levels (R265). -/
def PwmSt.edges (x : PwmSt) : List (Nat × Bool) :=
  let a := 8 * x.start
  if x.t8 = 0 then []
  else if x.rise = x.fall then [(a, false)]
  else
    (if x.rise = 0 then [] else [(a, false)]) ++ [(a + x.rise, true)]
      ++ (if x.fall < x.t8 then [(a + x.fall, false)] else [])

/-- The logical level of a channel at time `u` and the time of its last change (R265, R267). -/
def PwmSt.signal (x : PwmSt) (u : Nat) : Bool × Nat :=
  (x.edges.filter (fun e => decide (e.1 ≤ u))).foldl
    (fun l e => if l.1 = e.2 then l else (e.2, e.1)) (x.level, x.since)

/-- Whether an odd channel is the complement of its even neighbour (R267). -/
def State.pwmComp (s : State) (c : Nat) : Bool := c % 2 == 1 && s.rbit (pwmA c 0x00) 31

/-- What a PWM ball carries. -/
inductive PwmLevel where
  | low | high | highZ
  deriving DecidableEq, Repr

/-- What the ball of channel c carries for the instant `u` (100 ps): 6.4 ns later at the ball (R265,
R267-R269). -/
def State.pwmLevel (s : State) (c u : Nat) : PwmLevel :=
  match (s.pwm c).ball with
  | .resetSafe => .highZ
  | .safe => match s.rfld (pwmA c 0x00) 29 2 with | 0 => .low | 1 => .high | _ => .highZ
  | .driven =>
    let m := if s.pwmComp c then c - 1 else c
    let dt := if m % 2 = 0 ∧ s.pwmComp (m + 1) = true then s.rfld (pwmA m 0x04) 0 10 else 0
    let g := (s.pwm m).signal u
    let v := (g.1 != s.pwmComp c) && decide (g.2 + dt ≤ u)
    if v != s.rbit (pwmA c 0x00) 28 then .high else .low

/-- A carrier period of channel c begins with the applied output of its loop (R265, R269). -/
def State.carrier (s : State) (c : Nat) : State :=
  match s.pwmLoop c with
  | none => s
  | some n =>
    let a := pwmA c 0x10
    let s := s.rbitSet a 30 (s.tripHolds c)
    if s.rbit (loopA n 0x60) 25 then s.pwmIdle c
    else
      let nc := s.rfld (pwmA c 0x00) 16 3 + 1
      let t8 := 8 * (s.rfld (loopA n 0x08) 0 24 / nc)
      let d := s.duty c t8 (s.rget (loopA n 0x7C))
      let rise := if s.rbit (pwmA c 0x00) 15 then (t8 - d) / 2 else 0
      let x := s.pwm c
      let hold := s.tripHolds c
      let ball : PwmBall :=
        if x.ball = .resetSafe then .resetSafe
        else if hold && x.trip.isNone then .safe
        else .driven
      let g := if x.t8 = 0 then (false, 8 * s.now) else x.signal (8 * s.now)
      let s := s.setPwm c { ball := ball, start := s.now, t8 := t8, rise := rise, fall := rise + d
                            level := g.1, since := g.2
                            trip := if hold then x.trip else none }
      (s.rfldSet a 0 27 d).rbitSet a 31 (ball != .driven)

/-- The complement of channel k at a carrier boundary: its own trip holds it, or its neighbour's safe
state by the loop (R267, R269, R270). -/
def State.carrierComp (s : State) (k : Nat) : State :=
  let j := k + 1
  let hold := s.tripHolds j
  let z := s.pwm j
  let idle := decide ((s.pwm k).t8 = 0)
  let ball : PwmBall :=
    if z.ball = .resetSafe then .resetSafe else if (hold && z.trip.isNone) || idle then .safe else .driven
  ((s.setPwm j { z with ball := ball, trip := if hold && !idle then z.trip else none }).rbitSet (pwmA j 0x10) 30 hold).rbitSet (pwmA j 0x10) 31
    (ball != .driven)

/-- CARRIER_BOUNDARY: a carrier period of channel c begins; an odd channel that complements its even
neighbour goes with it (R264-R267, R269). -/
def execCarrierBoundary (c : Fin 64) (s : State) : Out :=
  let k := c.val
  .next (if s.lap.zero.isNone || s.coreHold then s
    else
      let s1 := s.carrier k
      if k % 2 = 0 ∧ s1.pwmComp (k + 1) = true ∧ (s.pwmLoop k).isSome = true then s1.carrierComp k
      else s1)

/-- TRIP_ASSERT: trip input k has been low for FILT cycles with EN set; its channels that no other trip holds take
their safe state 4 cycles later, whatever their balls do at a carrier boundary before (R269-R271). -/
def execTripAssert (k : Fin 4) (s : State) : Out :=
  let i := k.val
  let held := (List.range 64).filter s.tripHolds
  .next (if s.rbit (tripA 0x00) (8 + i) && !s.coreHold then
      let s := (s.rbitSet (tripA 0x04) i true).rbitSet (tripA 0x04) (4 + i) true
      let s := s.each ((List.range 64).filter (s.tripSelects i)) (fun s c =>
        let s := s.rbitSet (pwmA c 0x10) 30 true
        let x := s.pwm c
        if x.ball ≠ .resetSafe ∧ x.trip = none ∧ held.contains c = false then
          s.setPwm c { x with trip := some (s.now + 4) }
        else s)
      s.event 59 0x11 {} i (s.rget (tripA (0x10 + 8 * i))).toNat
    else s)

/-- A trip asserted 4 cycles before takes effect: the channel's ball is in its configured safe state
(R269). -/
def State.tripEffect (s : State) (c : Nat) : State :=
  let x := s.pwm c
  if x.trip.any (fun n => decide (n ≤ s.now)) then
    (s.setPwm c { x with trip := none, ball := if x.ball = .driven then .safe else x.ball }).rbitSet
      (pwmA c 0x10) 31 true
  else s

/-- TRIP_INPUT_RELEASE: trip input k has returned high (R270). -/
def execTripInputRelease (k : Fin 4) (s : State) : Out :=
  .next (if s.coreHold then s else s.rbitSet (tripA 0x04) (4 + k.val) false)

/-- A write of 1 to LATCH clears it while its input is not asserted (R270). -/
def State.tripClear (s : State) (v : Word) : State :=
  s.each ((List.range 4).filter (fun k => fbit v k && !s.rbit (tripA 0x04) (4 + k))) (fun s k =>
    if s.rbit (tripA 0x04) k then
      { (s.rbitSet (tripA 0x04) k false) with
        lap := { s.lap with tripClear := tput s.lap.tripClear k s.now } }
    else s)

/-- A write of the RW fields of a PWM register; answers whether it was accepted (R273). -/
def State.pwmWrite (s : State) (c off : Nat) (m v : Word) : State × Bool :=
  let a := pwmA c off
  let old := s.rget a
  let w := mergeRW m old v
  let open' := match s.pwmLoop c with
    | some n => s.loopMode n == 0
    | none => true
  let lo := (if off = 0x08 then w else s.rget (pwmA c 0x08)).toInt
  let hi := (if off = 0x0C then w else s.rget (pwmA c 0x0C)).toInt
  let badLim := decide (hi < lo) || decide (lo < 0)
  let badDiv := match s.pwmLoop c with
    | some n => off == 0x00 && s.rfld (loopA n 0x08) 0 24 % (fget w 16 3 + 1) != 0
    | none => false
  if w = old then (s, true)
  else if !open' || (off != 0x00 && badLim) || badDiv then
    (s.rbitSet (pwmA c 0x10) 28 true, false)
  else (s.rset a w, true)

/-- Every PWM ball takes its reset safe state and every loop goes OPEN, with the transmit and receive
sides stopped (R257, R263, R269, X6 of R38).  The registers' own reset is that of their table. -/
def State.pwmResetSafe (s : State) : State :=
  let s := { s with lap := { s.lap with
    zero := none, loops := [], issued := [], gens := [], probes := [], spts := [], pwms := []
    tripClear := [] } }
  s

/-- Entry to SERVICE of the outputs: every ball leaves its reset safe state for the configured one,
and the lap base begins (R214, R269). -/
def State.outputsService (s : State) : State :=
  let s := s.each (List.range 64) (fun s c =>
    s.setPwm c { s.pwm c with ball := .safe })
  let s := { s with lap := { s.lap with zero := some s.now } }
  (s.rset (lapA 0x08) (BitVec.ofNat 32 s.nsField)).rset (lapA 0x0C) (BitVec.ofNat 32 s.secField)

end Sys2Proof.Machine
end

