-- ==== Sys2Proof/Machine/Time.lean ====
section
/-!
DEFINITION. The Split Timer and its steering (R362-R364, R371-R376), the Ethernet links (R346-R348)
and the gPTP messages of the Network Ports (R367-R371).
-/

namespace Sys2Proof.Machine

/-! ## The Split Timer (R362, R363) -/

/-- SPLIT_TIMER_TICK: INC is added to the time; a servo output applied in an earlier cycle has become
INC (R362, R363, R376). -/
def execSplitTimerTick (s : State) : Out :=
  let t := s.time
  .next (if t.running then
      let inc := if t.incAt < s.now then t.incNext else t.inc
      { s with time := { t with split := t.split + inc, sub := 0, inc := inc } }
    else s)

/-- The time servo loop (R223). -/
def State.servoLoop (s : State) : Option Nat :=
  (List.range 1024).find? (fun n => s.loopEn n && s.isServo n)

/-- Hardware writes MODE_REQ of a loop; a boundary of this cycle does not see it (R219, R374). -/
def State.setModeReq (s : State) (n m : Nat) : State :=
  let old := s.rfld (loopA n 0x00) 0 2
  (s.rfldSet (loopA n 0x00) 0 2 m).modLoop n (fun x =>
    if x.reqAt = some s.now then x else { x with reqAt := some s.now, reqPrev := old })

/-- Hardware writes MAN of a loop (R374). -/
def State.setMan (s : State) (n : Nat) (v : Word) : State :=
  (s.rset (loopA n 0x54) v).modLoop n (fun x => { x with manAt := some s.now })

/-- MAN that holds the servo loop's last increment: U_APP (R374); while no output has been applied since a
device reset, the increment in force, which the reset keeps (X3 and X18 of R38). -/
def State.heldOut (s : State) (n : Nat) : Word :=
  if s.rbit (loopA n 0x60) 25 then wordI ((s.time.incNext : Int) - 0x400000000) else s.rget (loopA n 0x7C)

/-- The servo loop's mode follows the time state `st` (R374). -/
def State.servoMode (s : State) (st : Nat) : State :=
  match s.servoLoop with
  | none => s
  | some n =>
    if st = 1 then s.setModeReq n 2
    else (s.setMan n (if st = 0 then 0 else s.heldOut n)).setModeReq n 1

/-- The time state becomes `new`: 0 FREE, 1 LOCKED, 2 HOLDOVER; the servo loop's mode follows
(R372, R374, R375, R467). -/
def State.setTime (s : State) (new : Nat) : State :=
  let old := s.timeState
  if old = new then s
  else
    let s := (s.rfldSet (splA 0x04) 30 2 new).servoMode new
    let s := if old = 1 then { s with time := { s.time with servoStale := true } } else s
    ({ s with time := { s.time with run := 0 } }).event 62 0x12 {} new old

/-- A step subtracts the offset `o`, in units of 2^-32 ns, from the time; FAB_BASE moves with it on
the device that forms FABCNT by itself (R373, R397, R474). -/
def State.stepTime (s : State) (o : Int) : State :=
  let ns := BitVec.ofInt 64 (o.fdiv (2 ^ 32))
  let lo := ns.toNat % 2 ^ 32
  let hi := ns.toNat / 2 ^ 32
  let t := s.time
  let s := { s with time := { t with
    split := ((t.split : Int) - o).toNat
    fabBase := if s.role = 2 then t.fabBase else t.fabBase - o } }
  let s := (s.rbitSet (splA 0x04) 27 true).rcount (splA 0x34) 0 16 1
  let s := (s.rset (splA 0x2C) (BitVec.ofNat 32 lo)).rset (splA 0x30) (BitVec.ofNat 32 hi)
  s.event 62 0x13 {} lo hi

/-- SPL_JUMP_LIMIT in units of 2^-32 ns. -/
def State.jumpLimit (s : State) : Int := ((s.rfld (splA 0x20) 0 31 * 2 ^ 32 : Nat) : Int)

/-- An offset above SPL_JUMP_LIMIT is refused (R372). -/
def State.jumpRefused (s : State) : State :=
  let s := (s.rbitSet (splA 0x04) 28 true).rcount (splA 0x34) 16 16 1
  ({ s with time := { s.time with run := 0 } }).setTime 2

/-- A qualified offset is shown and becomes the servo's input; with CORE in HOLD the servo takes none (R371,
R375, X8 of R38). -/
def State.showOffset (s : State) (o : Int) (t2 : Nat) : State :=
  let s := s.rset (splA 0x28) (wordI (sat32 (o.fdiv (2 ^ 28))))
  if s.coreHold then s
  else { s with time := { s.time with servo := some (o, t2, s.now), servoStale := false } }

/-- A qualified offset on a STANDALONE device or the MASTER (R372): the first row of the table that
applies decides; without a servo loop, or with CORE in HOLD, where the time state stays HOLDOVER with the
last increment (X8 of R38), no row does. -/
def State.qualified (s : State) (o : Int) (t2 : Nat) : State :=
  let s := s.showOffset o t2
  let big := decide (s.jumpLimit < (o.natAbs : Int))
  let st := s.timeState
  if s.servoLoop = none ∨ s.role = 2 ∨ s.coreHold = true then s
  else if st = 0 then (s.stepTime o).setTime 1
  else if st = 1 then (if big then s.jumpRefused else s)
  else if s.rbit (splA 0x00) 31 then ((s.stepTime o).rbitSet (splA 0x00) 31 false).setTime 1
  else if big then s.jumpRefused
  else
    let run := s.time.run + 1
    if s.rfld (splA 0x24) 0 4 ≤ run then (s.stepTime o).setTime 1
    else { s with time := { s.time with run := run } }

/-! ## Ports (R346-R348) -/

/-- The state of port k beside its registers. -/
def State.port (s : State) (k : Nat) : NetPort := if k = 0 then s.net0 else s.net1
/-- Replace it. -/
def State.setPort (s : State) (k : Nat) (p : NetPort) : State :=
  if k = 0 then { s with net0 := p } else { s with net1 := p }
/-- Change it. -/
def State.modPort (s : State) (k : Nat) (f : NetPort → NetPort) : State := s.setPort k (f (s.port k))

/-- NET domain k is in RUN: EN, and not turned off by HOLD (R30). -/
def State.netOn (s : State) (k : Nat) : Bool :=
  s.rbit (netA k 0x00) 31 && !(s.clkState == 2 && !s.rbit clkHoldA (24 + k))

/-- A received frame is counted (R377). -/
def State.rxFrame (s : State) (k : Nat) : State := s.rcount (netA k 0x20) 0 32 1
/-- A frame is discarded and counted (R348). -/
def State.discard (s : State) (k : Nat) : State := s.rcount (netA k 0x28) 0 32 1

/-! ## The best master clock algorithm (R368, R369) -/

/-- The device's clockIdentity (R368). -/
def State.clockId (s : State) : Nat :=
  let m := s.portMac 0
  m / 2 ^ 24 * 2 ^ 40 + 0xFFFE * 2 ^ 24 + m % 2 ^ 24

/-- Lexicographic order of priority vectors. -/
def vecLe : List Nat → List Nat → Bool
  | [], _ => true
  | _ :: _, [] => false
  | a :: s, b :: t => decide (a < b) || (decide (a = b) && vecLe s t)

/-- The device's own priority vector (R369). -/
def State.ownVec (s : State) : List Nat :=
  [s.rfld (splA 0x38) 24 8, s.rfld (splA 0x38) 8 8, s.rfld (splA 0x38) 0 8, s.rfld (splA 0x3C) 0 16,
    s.rfld (splA 0x38) 16 8, s.clockId, 0, s.clockId * 65536]

/-- Add one to stepsRemoved. -/
def vecStep (v : List Nat) : List Nat := lset v 6 (lget 0 v 6 + 1)

/-- A port takes part in PTP: enabled, with link and asCapable (R369). -/
def State.ptpPort (s : State) (k : Nat) : Bool :=
  s.netOn k && s.rbit (netA k 0x00) 21 && s.linkUp k && s.rbit (netA k 0x18) 24

/-- The priority vector received on port k, when the port takes part. -/
def State.portVec (s : State) (k : Nat) : Option (List Nat) :=
  if s.ptpPort k then (s.port k).ann.map (fun a => vecStep a.vec) else none

/-- NET_k_STAT.ROLE: 0 Disabled, 1 Master, 2 Slave, 3 Passive. -/
def State.ptpRole (s : State) (k : Nat) : Nat := s.rfld (netA k 0x18) 25 2
/-- SPL_STAT.SLAVE: 0 none, else port + 1. -/
def State.slavePort (s : State) : Nat := s.rfld (splA 0x04) 0 2
/-- SPL_GM: the grandmaster's clockIdentity. -/
def State.gmId (s : State) : Nat := (s.rget (splA 0x40)).toNat * 2 ^ 32 + (s.rget (splA 0x44)).toNat

/-- The port whose vector is best, or none when the device's own is (R369). -/
def State.bestPort (s : State) : Option Nat :=
  let own := s.ownVec
  let cand := [0, 1].filterMap (fun k => (s.portVec k).bind (fun v =>
    if vecLe own v then none else some (k, v)))
  (cand.foldl (fun (a : Option (Nat × List Nat)) x => match a with
    | none => some x
    | some y => if vecLe y.2 x.2 then some y else some x) none).map Prod.fst

/-- The role of port j when port b, or the device itself, leads to the grandmaster: a port whose vector, as
received, is better than what the device would send there is Passive (R369). -/
def State.roleOf (s : State) (b : Option Nat) (gv : List Nat) (j : Nat) : Nat :=
  if !s.ptpPort j then 0
  else if b = some j then 2
  else if b = none then 1
  else
    let mine := lset gv 7 (s.clockId * 65536 + (j + 1))
    match (s.port j).ann with
    | none => 1
    | some a => if vecLe mine a.vec then 1 else 3

/-- The best master clock algorithm runs: roles, slave port, grandmaster, and what its change does to
the time state (R369, R372). -/
def State.bmca (s : State) : State :=
  let b := s.bestPort
  let gv := match b with
    | some k => (s.portVec k).getD []
    | none => s.ownVec
  let capable := s.rfld (splA 0x38) 24 8 != 255
  let isGm := b.isNone && capable
  let gm := if b.isNone && !capable then 0 else lget 0 gv 5
  let was := s.gmId
  let wasGm := s.rbit (splA 0x04) 29
  let slave := s.slavePort
  let s1 := s.each [0, 1] (fun t k => t.rfldSet (netA k 0x18) 25 2 (s.roleOf b gv k))
  let s1 := (s1.rfldSet (splA 0x04) 0 2 (match b with | some k => k + 1 | none => 0)).rfldSet
    (splA 0x04) 16 8 (if b.isNone then 0 else lget 0 gv 6)
  let s1 := ((s1.rset (splA 0x40) (BitVec.ofNat 32 (gm / 2 ^ 32))).rset (splA 0x44)
    (BitVec.ofNat 32 gm)).rbitSet (splA 0x04) 29 isGm
  if s1.servoLoop = none ∨ s1.role = 2 then s1
  else if isGm && !wasGm then (if s1.timeState = 0 then s1 else s1.setTime 2)
  else if s1.timeState = 1 ∧ gm ≠ 0 ∧ was ≠ gm then (s1.rbitSet (splA 0x04) 26 true).setTime 2
  else if s1.timeState = 1 ∧ slave ≠ 0 ∧ s1.slavePort ≠ slave then s1.setTime 2
  else s1

/-! ## Ethernet links (R347) -/

/-- Whether port k can come up at a rate (code 1 to 3) and in a PHY role: NET_k_CFG fixes them, or
auto-negotiation resolves them among the rates advertised (R346, R377). -/
def State.linkFits (s : State) (k rate : Nat) (master : Bool) : Bool :=
  let a := netA k 0x00
  let fixed := s.rfld a 29 2
  let role := s.rfld a 27 2
  (if fixed = 0 then s.rbit a (27 - rate) else rate == fixed)
    && (role == 0 || (role == 1 && master) || (role == 2 && !master))

/-- ETHERNET_LINK_UP: a port finishes training at a rate (code 1 to 3) and role (R346, R347). -/
def execEthernetLinkUp (p : Fin 2) (rate : Fin 3) (master : Bool) (s : State) : Out :=
  let k := p.val
  .next (if s.netOn k && !s.linkUp k && !(s.port k).waiting && s.linkFits k (rate.val + 1) master then
      let a := netA k 0x18
      let s := ((s.rbitSet a 31 true).rfldSet a 29 2 (rate.val + 1)).rbitSet a 28 master
      let s := s.modPort k (fun x => { x with fails := 0 })
      (s.event (60 + k) 0x0E {} 1 (rate.val + 1)).bmca
    else s)

/-- The link of a port goes: its fields and what PTP knew through it (R347). -/
def State.linkDown (s : State) (k : Nat) : State :=
  let a := netA k 0x18
  let s := (((s.rbitSet a 31 false).rfldSet a 29 2 0).rbitSet a 28 false).rbitSet a 24 false
  (s.modPort k (fun x => { x with pdReq := none, pdResp := none, lost := 0, sync := none, ann := none })).bmca

/-- ETHERNET_LINK_LOSS: a port loses its link (R347, R377). -/
def execEthernetLinkLoss (p : Fin 2) (s : State) : Out :=
  let k := p.val
  .next (if s.linkUp k then
      ((s.rcount (netA k 0x30) 0 32 1).event (60 + k) 0x0E {} 0 0).linkDown k
    else s)

/-- ETHERNET_TRAINING_FAILED: an attempt fails; the fifth in a row sets TRAIN_FAIL (R347). -/
def execEthernetTrainingFailed (p : Fin 2) (s : State) : Out :=
  let k := p.val
  .next (if s.netOn k && !s.linkUp k && !(s.port k).waiting then
      let n := (s.port k).fails + 1
      let s := s.modPort k (fun x => { x with fails := n, waiting := decide (5 ≤ n) })
      if 5 ≤ n then s.rbitSet (netA k 0x18) 27 true else s
    else s)

/-- ETHERNET_TRAIN_RETRY: the retry interval ends and the port trains again (R347). -/
def execEthernetTrainRetry (p : Fin 2) (s : State) : Out :=
  .next (s.modPort p.val (fun x => { x with waiting := false }))

/-- ARP_REQUEST: an ARP request for an address, from a sender (R348). -/
def execArpRequest (p : Fin 2) (target : Word) (mac : BitVec 48) (ip : Word) (s : State) : Out :=
  let k := p.val
  .next (if !s.netOn k || !s.linkUp k then s
    else if target.toNat = s.portIp k ∧ s.portIp k ≠ 0 then
      (s.rxFrame k).sendFrame k (beBytes 6 mac.toNat ++ beBytes 6 (s.portMac k) ++ beBytes 2 0x0806
        ++ [0x00, 0x01, 0x08, 0x00, 0x06, 0x04, 0x00, 0x02] ++ beBytes 6 (s.portMac k)
        ++ beBytes 4 (s.portIp k) ++ beBytes 6 mac.toNat ++ beBytes 4 ip.toNat)
    else (s.rxFrame k).discard k)

/-- FRAME_DISCARD: a frame outside the accepted set (R346, R348, R367). -/
def execFrameDiscard (p : Fin 2) (s : State) : Out :=
  let k := p.val
  .next (if s.netOn k && s.linkUp k then (s.rxFrame k).discard k else s)

/-! ## gPTP messages (R367-R371) -/

/-- PTP runs on a port: enabled, PTP_EN, link up. -/
def State.ptpOn (s : State) (k : Nat) : Bool := s.netOn k && s.rbit (netA k 0x00) 21 && s.linkUp k

/-- A gPTP message arrives on a port: counted, and discarded where PTP does not run (R348). -/
def State.ptpRx (s : State) (k : Nat) (f : State → State) : State :=
  if !s.netOn k || !s.linkUp k then s
  else if s.ptpOn k then f (s.rxFrame k)
  else (s.rxFrame k).discard k

/-- Send a gPTP message (R367, R370). -/
def State.ptpSend (s : State) (k kind seq : Nat) (corr : Int) (stamp : Nat) (data : List Nat) :
    State :=
  if s.ptpOn k then (s.out (.ptp k kind seq corr stamp data)).rcount (netA k 0x24) 0 32 1 else s

/-- The Sync of a completed measurement is relayed to the other port when that is a master port: a
two-step Sync whose correctionField carries the residence time, and whose rate ratio includes that of the port
it came by (R367). -/
def State.relaySync (s : State) (k t2 origin : Nat) (corr rate : Int) : State :=
  let j := 1 - k
  if s.ptpRole j = 1 then
    let n := (s.port j).syncSeq
    let now := s.cycleTime
    let c := corr + (((now : Int) - t2).fdiv (2 ^ 16))
    let s := (s.ptpSend j 0 n 0 now []).ptpSend j 1 n c origin [(BitVec.ofInt 32 (rate + (s.port k).ratio)).toNat]
    s.modPort j (fun x => { x with syncSeq := (n + 1) % 65536 })
  else s

/-- The offset of a Sync on port k in units of 2^-32 ns, rounded down once from its exact value: meanLinkDelay is
scaled by rateRatio over neighborRateRatio (R367, R371). -/
def State.syncOffset (s : State) (k t2 origin : Nat) (corr rate : Int) : Int :=
  let n := 2 ^ 41 + (s.port k).ratio
  let whole : Int := (t2 : Int) - (((origin * 2 ^ 32 : Nat) : Int) + corr * 2 ^ 16)
  (whole * (n * 2 ^ 42) - (s.port k).delay * (n + rate)).fdiv (n * 2 ^ 42)

/-- The offset of a Sync on the slave port is complete (R371, R376): discarded when the grandmaster
has changed since the last one. -/
def State.syncDone (s : State) (k t2 origin : Nat) (corr rate : Int) : State :=
  let s := s.relaySync k t2 origin corr rate
  let o := s.syncOffset k t2 origin corr rate
  let gm := s.gmId
  let same := s.time.gmSeen.all (fun g => g == gm)
  let s := { s with time := { s.time with gmSeen := some gm } }
  if same && s.rbit (netA k 0x18) 24 && s.role != 2 then s.qualified o t2 else s

/-- SYNC: a Sync with its receive timestamp; a one-step Sync is complete at once (R371). -/
def execSync (p : Fin 2) (oneStep : Bool) (seq : BitVec 16) (t2 origin : Nat) (corr rate : Int)
    (s : State) : Out :=
  let k := p.val
  .next (s.ptpRx k (fun s =>
    if s.ptpRole k ≠ 2 then s
    else if oneStep then s.syncDone k t2 origin corr rate
    else s.modPort k (fun x => { x with sync := some ⟨seq.toNat, t2, s.cycleTime⟩ })))

/-- The sync interval of a port, units of 2^-32 ns: 2^LOG_SYNC s (R377). -/
def State.syncInterval (s : State) (k : Nat) : Nat :=
  1000000000 * 2 ^ 32 / 2 ^ ((16 - s.rfld (netA k 0x1C) 20 4) % 16)

/-- FOLLOW_UP: a Follow_Up that matches the two-step Sync completes its offset, unless it comes more
than one sync interval after it (R371). -/
def execFollowUp (p : Fin 2) (seq : BitVec 16) (origin : Nat) (corr rate : Int) (s : State) : Out :=
  let k := p.val
  .next (s.ptpRx k (fun s =>
    match (s.port k).sync with
    | none => s
    | some y =>
      if y.seq ≠ seq.toNat ∨ s.ptpRole k ≠ 2 then s
      else
        let s := s.modPort k (fun x => { x with sync := none })
        if s.cycleTime ≤ y.at' + s.syncInterval k then s.syncDone k y.t2 origin corr rate else s))

/-- PDELAY_REQ: a Pdelay_Req is answered by a Pdelay_Resp with its receipt time and a follow-up with
the time of the answer (R367). -/
def execPdelayReq (p : Fin 2) (seq : BitVec 16) (t2 : Nat) (source : Nat) (s : State) : Out :=
  let k := p.val
  .next (s.ptpRx k (fun s =>
    (s.ptpSend k 3 seq.toNat 0 t2 [source]).ptpSend k 4 seq.toNat 0 s.cycleTime [source]))

/-- PDELAY_RESP: the answer to the outstanding Pdelay_Req: the partner's receipt time t2 and this
port's receipt time t4 (R367). -/
def execPdelayResp (p : Fin 2) (seq : BitVec 16) (t2 t4 : Nat) (s : State) : Out :=
  let k := p.val
  .next (s.ptpRx k (fun s =>
    match (s.port k).pdReq with
    | some (n, _) =>
      if n = seq.toNat then s.modPort k (fun x => { x with pdResp := some (t2, t4) }) else s
    | none => s))

/-- PDELAY_RESP_FOLLOW_UP: the measurement is complete: meanLinkDelay from t1 to t4.  `ratio`, the
neighborRateRatio less 1 in units of 2^-41, and `capable` are what IEEE 802.1AS-2020 has the port find
from its exchanges (R367, R369). -/
def execPdelayRespFollowUp (p : Fin 2) (seq : BitVec 16) (t3 : Nat) (ratio : Int) (capable : Bool)
    (s : State) : Out :=
  let k := p.val
  .next (s.ptpRx k (fun s =>
    match (s.port k).pdReq, (s.port k).pdResp with
    | some (n, t1), some (t2, t4) =>
      if n ≠ seq.toNat then s
      else
        let d := ((t4 : Int) - t1) * (2 ^ 41 + ratio) - ((t3 : Int) - t2) * 2 ^ 41
        let s := s.rset (netA k 0x34) (BitVec.ofNat 32 (min (d.fdiv (2 ^ 70)).toNat 0xFFFFFFFF))
        let s := s.modPort k (fun x => { x with pdReq := none, pdResp := none, lost := 0, ratio := ratio, delay := d })
        (s.rbitSet (netA k 0x18) 24 capable).bmca
    | _, _ => s))

/-- ANNOUNCE: an Announce replaces what the port knows when it is better or from the same sender; one
that names this device as its source or on its path is ignored (R369). -/
def execAnnounce (p : Fin 2) (vec : List Nat) (path : List Nat) (s : State) : Out :=
  let k := p.val
  .next (s.ptpRx k (fun s =>
    let v := (vec ++ lrep 8 0).take 8
    if lget 0 v 7 / 65536 = s.clockId ∨ 255 ≤ lget 0 v 6 ∨ path.contains s.clockId = true then s
    else
      let keep := match (s.port k).ann with
        | none => false
        | some a => !vecLe v a.vec && decide (lget 0 a.vec 7 ≠ lget 0 v 7)
      (if keep then s else s.modPort k (fun x => { x with ann := some { vec := v, path := path } })).bmca))

/-- ANNOUNCE_RECEIPT_TIMEOUT: what the port knew expires and the algorithm runs (R369). -/
def execAnnounceReceiptTimeout (p : Fin 2) (s : State) : Out :=
  .next (s.modPort p.val (fun x => { x with ann := none })).bmca

/-- SYNC_RECEIPT_TIMEOUT: no qualified offset for syncReceiptTimeout intervals (R372). -/
def execSyncReceiptTimeout (s : State) : Out :=
  .next (if s.timeState = 1 ∧ s.role ≠ 2 then s.setTime 2 else s)

/-- What an Announce of port k carries: the grandmaster's priority vector with this port as its sender, then the
path trace: the path received, and this device (R367, R369). -/
def State.annData (s : State) (k : Nat) : List Nat :=
  let v := match s.bestPort with
    | some b => (s.portVec b).getD []
    | none => s.ownVec
  let path := match s.bestPort with
    | some b => match (s.port b).ann with
      | some a => a.path
      | none => []
    | none => []
  lset v 7 (s.clockId * 65536 + (k + 1)) ++ path ++ [s.clockId]

/-- A Pdelay_Req that has had no answer by the time of the next one: after nine in a row the port is no longer
asCapable, as IEEE 802.1AS-2020 has it (R367, R369; PRESUMED, log entry 58). -/
def State.pdelayLost (s : State) (k : Nat) : State :=
  let x := s.port k
  if x.pdReq.isNone then s
  else if x.lost < 9 then s.modPort k (fun x => { x with lost := x.lost + 1 })
  else (s.rbitSet (netA k 0x18) 24 false).bmca

/-- PTP_MESSAGE_INTERVAL: a port's sync (0), announce (1) or Pdelay_Req (2) interval ends and it sends
the message (R367, R369). -/
def execPtpMessageInterval (p : Fin 2) (kind : Fin 3) (s : State) : Out :=
  let k := p.val
  let x := s.port k
  let now := s.cycleTime
  .next (if !s.ptpOn k then s
    else match kind.val with
    | 0 =>
      if s.ptpRole k = 1 ∧ s.rbit (splA 0x04) 29 = true then
        let s := (s.ptpSend k 0 x.syncSeq 0 now []).ptpSend k 1 x.syncSeq 0 now [0]
        s.modPort k (fun x => { x with syncSeq := (x.syncSeq + 1) % 65536 })
      else s
    | 1 =>
      if s.ptpRole k = 1 ∧ s.gmId ≠ 0 then
        let s := s.ptpSend k 5 x.annSeq 0 now (s.annData k)
        s.modPort k (fun x => { x with annSeq := (x.annSeq + 1) % 65536 })
      else s
    | _ =>
      ((s.pdelayLost k).ptpSend k 2 x.pdSeq 0 now []).modPort k (fun y =>
        { y with pdReq := some (x.pdSeq, now), pdResp := none, pdSeq := (x.pdSeq + 1) % 65536 }))

end Sys2Proof.Machine
end

