-- ==== Sys2Proof/Machine/Start.lean ====
section
/-!
DEFINITION. Power, clocks and resets: the control pins (R480-R482, R493-R495), the first steps of the
start-up sequence (R401, R403, R404), boot failure (R428), the device reset (R403, R440) and the
power-cycle request (R446, R449).
-/

namespace Sys2Proof.Machine

/-! ## The Starting Block's progress -/

/-- Change the Starting Block's state. -/
def State.modBoot (s : State) (f : Boot → Boot) : State := { s with boot := f s.boot }
/-- Change the pins. -/
def State.modPins (s : State) (f : Pins → Pins) : State := { s with pins := f s.pins }

/-- SB_STAT.STEP: 1 to 11 the steps of R401, 12 SERVICE, 15 FAILED (R431). -/
def State.bootStepNo (s : State) : Nat := s.rfld 0x04 28 4
/-- SB_LOCK.LOCK (R431). -/
def State.sbLock (s : State) : Bool := s.rbit 0x0C 31

/-- Enter a step of R401, with its event (R467). -/
def State.bootStep (s : State) (n : Nat) : State :=
  let s := s.rfldSet 0x04 28 4 n
  s.event 57 0x16 {} (s.rget 0x04).toNat (s.rget 0x08).toNat

/-- A boot failure (R428, R429): the Starting Block stops and BOOT_FAIL_N goes low. -/
def State.bootFail (s : State) (code detail : Nat) : State :=
  let s := (s.rfldSet 0x08 24 8 code).rfldSet 0x08 0 16 detail
  let s := (s.modPins (fun p => { p with bootFail := true })).modBoot (fun b => { b with wait := .none })
  { s with phase := .failed }.bootStep 15

/-- The phase is BOOT or BIST: the start-up sequence is in progress (R401). -/
def State.starting (s : State) : Bool := decide (s.phase = .boot) || decide (s.phase = .bist)

/-! ## Script entries (R415, R416) -/

/-- Field of `n` bytes at offset `o` of script entry i. -/
def State.entryFld (s : State) (i o n : Nat) : Nat :=
  ofLeBytes ((s.boot.script.drop (16 * i + o)).take n)

/-- Entries of the script. -/
def State.entryCount (s : State) : Nat := s.boot.script.length / 16

/-- SB_STAT.ENTRY. -/
def State.entryNo (s : State) : Nat := s.rfld 0x04 0 16

/-- Whether entry i is one the Starting Block executes: a defined opcode whose unused fields are 0, and
after LOCK only END (R415, R416, R421). -/
def State.entryOk (s : State) (i : Nat) : Bool :=
  let op := s.entryFld i 0 1
  let fl := s.entryFld i 1 1
  let arg := s.entryFld i 2 2
  let addr := s.entryFld i 4 4
  let val := s.entryFld i 8 4
  let mask := s.entryFld i 12 4
  let board := if fl = 1 then val == 0 && decide (arg < 64) else fl == 0 && arg == 0
  (!s.boot.locked || op == 0) &&
  (match op with
   | 0 => fl == 0 && arg == 0 && addr == 0 && val == 0 && mask == 0
   | 1 => board && mask == 0
   | 2 => board
   | 3 => fl == 0 && arg != 0
   | 4 => decide (fl < 2) && arg == 0 && mask == 0
      && ((addr == 1 && val == 0) || (addr == 2 && decide (val < 16)))
   | 5 => fl == 0 && addr == 0 && val == 0 && mask == 0
   | 6 => fl == 0 && arg == 0 && addr == 0 && val == 0 && mask == 0
   | 7 => fl == 0 && arg == 0 && addr == 0 && val == 0 && mask == 0
   | _ => false)

/-- The script goes to entry i (R415). -/
def State.enterEntry (s : State) (i : Nat) : State :=
  let s := (s.rfldSet 0x04 0 16 i).modBoot (fun b => { b with wait := .none, ran := true })
  if s.entryCount ≤ i then s.bootFail 0x0B i
  else if s.entryOk i then s
  else s.bootFail 0x0A i

/-- The script goes on to the next entry. -/
def State.nextEntry (s : State) : State := s.enterEntry (s.entryNo + 1)

/-- The entry with opcode `op` is the one to execute now (R401, R415). -/
def State.atEntry (s : State) (op : Nat) : Bool :=
  decide (s.phase = .boot) && s.bootStepNo == 9 && decide (s.boot.wait = .none)
    && s.entryFld s.entryNo 0 1 == op

/-- A training the script waits for goes on: of the links, when every named link with EN is ACTIVE, or
in NAP, or has failed 4 attempts (R418). -/
def State.bootLinks (s : State) : State :=
  match s.boot.wait with
  | .links m =>
    if (bitList 4 m).all (fun k => !s.rbit (linkA k 0x00) 31 || s.linkState k == 7 || s.linkState k == 8
        || decide (4 ≤ s.rfld (linkA k 0x04) 15 4)) then s.nextEntry
    else s
  | _ => s

/-! ## Resets -/

/-- Registers that a device reset leaves: the clock and power registers (R33) and Marshal's own
(R452). -/
def keptByReset (a : Nat) : Bool :=
  (decide (0x10000 ≤ a) && decide (a < 0x20000)) || (decide (mshA 0 ≤ a) && decide (a < mshA 0x1000))

/-- RLY_CFG takes the straps (R387, R494). -/
def State.strapRole (s : State) : State :=
  (s.rfldSet (rlyA 0x00) 30 2 s.pins.role).rfldSet (rlyA 0x00) 28 2 s.pins.role

/-- A device reset: everything outside AON; the Split Timer keeps its count and increment, the time
state becomes HOLDOVER (the Reset column of SPL_STAT), every queue, store and session ends
(R403, R355, R440, X3, X4 and X6 of R38).  `held`: RST_N is low. -/
def State.deviceReset (s : State) (held : Bool) : State :=
  let t := s.time
  let s := { s with
    phase := if held then .reset else .boot
    faults := [], ctl := s.ctl.filter (fun e => keptByReset e.1), mem := [], poison := [], scrub := []
    lost := [], ue := [], banks := {}
    tiles := [], loans := [], stores := [], tmpls := [], saved := [], links := [], emitQ := []
    outst := [], nextTag := 0, waits := [], dsp := {}, obs := {}
    health := { ordered := s.health.ordered }
    time := { t with incNext := t.inc, servo := none, servoStale := true, run := 0, gmSeen := none }
    net0 := {}, net1 := {}
    boot := { power := false, qualified := s.boot.qualified, held := held, start := s.now }
    casc := { fabSet := s.casc.fabSet } }
  let s := s.pwmResetSafe
  let s := s.modPins (fun p => { p with bootFail := false })
  let s := ((s.rfldSet clkStatA 30 2 0).rfldSet clkStatA 6 6 0).rbitSet (mshA 0x04) 27 false
  let s := (s.rcount (mshA 0x14) 0 32 1).strapRole
  s.bootStep 2

/-- Power-good is gone: every register and store is as before power-good (R403, R481, R495). -/
def State.powerOff (s : State) : State :=
  { pending := s.pending, now := s.now, fresh := s.fresh, outs := s.outs, tap := s.tap
    pins := { hiz := true, pwmHiz := s.pins.pwmHiz, io18 := s.pins.io18, rstLow := s.pins.rstLow } }

/-- The time state of a device that counts from power-good: FREE, or HOLDOVER on a member, which has no path to
device 0 yet (R372, R395). -/
def State.freshTime (s : State) : State := s.rfldSet (splA 0x04) 30 2 (if s.role = 2 then 2 else 0)

/-- Power-good has come, with the straps sampled: step 1; step 2 will wait while RST_N is low (R401, R493, R494). -/
def State.powerOn (s : State) (role : Nat) (dual : Bool) : State :=
  let s := { s with
    phase := .boot, boot := { held := s.pins.rstLow, start := s.now }
    pins := { s.pins with role := role, dual := dual, bootFail := false, pwrReq := false } }
  s.strapRole.freshTime.bootStep 1

/-- Marshal asserts PWR_CYCLE_REQ_N: balls reset safe, transmitters stopped, loops OPEN (R449). -/
def State.powerCycle (s : State) : State :=
  let loops := (List.range 1024).filter s.loopEn
  let s := s.each loops (fun s n =>
    (((s.rfldSet (loopA n 0x60) 30 2 0).rbitSet (loopA n 0x60) 25 true).rfldSet (loopA n 0x00) 0 2 0).modLoop
      n (fun x =>
      { x with flight := none, out := none }))
  let s := s.each (List.range 16) (fun s p => s.rbitSet (sptA p 0x24) 31 false)
  let s := s.each (List.range 64) (fun s c => s.rbitSet (pwmA c 0x10) 31 true)
  let s := { s with lap := { s.lap with pwms := [] } }
  (s.modPins (fun p => { p with pwrReq := true })).rbitSet (mshA 0x04) 28 true

/-! ## Control pins (R480-R482, R493, R494) -/

/-- PWRGOOD_RISE: the straps are sampled and step 1 begins, every rail being up (R479); with TEST_EN high no function
of the manual is available (R493, R494). -/
def execPwrgoodRise (role : Fin 4) (dual test : Bool) (s : State) : Out :=
  if s.phase ≠ .off then .next s
  else if test then .refused .manufacturingTest
  else .next ((s.modPins (fun p => { p with pwmHiz := false, io18 := false })).powerOn role.val dual)

/-- POWER_GOOD_FALL: PWRGOOD has been low for 1 µs (R493). -/
def execPowerGoodFall (s : State) : Out := .next s.powerOff

/-- RAIL_UNDERVOLTAGE: a monitored rail acts as a fall of power-good (R480). -/
def execRailUndervoltage (s : State) : Out := .next s.powerOff

/-- REFCLK_STOP: REFCLK has stopped for 2 µs: a fall of power-good after which the sequence waits in
step 1 for REFCLK; the straps are those sampled (R482). -/
def execRefclkStop (s : State) : Out :=
  .next (if s.phase = .off then s
    else s.powerOff.powerOn s.pins.role s.pins.dual)

/-- RST_N_ASSERT: RST_N has been low for 200 ns: in any step, and after a boot failure, a device reset that waits at
step 2; ignored while PWR_CYCLE_REQ_N is asserted (R403, R428, R493). -/
def execRstNAssert (s : State) : Out :=
  let s := s.modPins (fun p => { p with rstLow := true })
  .next (if s.phase = .off ∨ s.pins.pwrReq = true then s else s.deviceReset true)

/-- RST_N_RELEASE: step 2 can start (R493). -/
def execRstNRelease (s : State) : Out :=
  .next (let s := (s.modPins (fun p => { p with rstLow := false })).modBoot (fun b => { b with held := false })
    if s.phase = .reset then { s with phase := .boot } else s)

/-- VDD_IO18_LOW: every ball takes the high-impedance state of R481, until the rails have risen again (R480). -/
def execVddIo18Low (s : State) : Out := .next (s.modPins (fun p => { p with io18 := true }))

/-- VDD_IO33_LOW: the PWM bank is high impedance (R481). -/
def execVddIo33Low (s : State) : Out := .next (s.modPins (fun p => { p with pwmHiz := true }))

/-! ## Steps 1 to 3 (R401, R404) -/

/-- Step 1 has not ended: the time PLL is not locked.  An RST_N in it leaves the PLL starting (R403, R404). -/
def State.inAon (s : State) : Bool :=
  (decide (s.phase = .boot) || decide (s.phase = .reset)) && !s.time.running

/-- REFCLK_QUALIFIED: the time PLL is started (R404). -/
def execRefclkQualified (s : State) : Out :=
  .next (if s.inAon then s.modBoot (fun b => { b with qualified := true }) else s)

/-- TIME_PLL_LOCK_TIMEOUT: the time PLL has not locked (R404). -/
def execTimePllLockTimeout (s : State) : Out :=
  .next (if s.inAon && s.boot.qualified then s.bootFail 0x19 6 else s)

/-- TIME_PLL_LOCKED: the Split Timer counts from 0 in FREE, the outputs are driven, and step 2 begins, where an RST_N
may have it wait already (R362, R401, R403, R481). -/
def execTimePllLocked (s : State) : Out :=
  .next (if s.inAon && s.boot.qualified then
      let s := { s with time := { s.time with running := true, split := 0, sub := 0 } }
      let s := (s.modPins (fun p => { p with hiz := false })).freshTime
      if s.bootStepNo = 1 then s.bootStep 2 else s
    else s)

/-- Step 2 is in progress. -/
def State.inClocks (s : State) : Bool :=
  decide (s.phase = .boot) && s.bootStepNo == 2 && !s.boot.held

/-- FCLK_PLL_LOCK_TIMEOUT: a step 2 PLL has not locked after power-good: 0 central, 1 to 4 the
clusters (R404). -/
def execFclkPllLockTimeout (pll : Fin 5) (s : State) : Out :=
  .next (if s.inClocks && s.boot.power then s.bootFail 0x19 pll.val else s)

/-- RESET_PLL_LOCK_TIMEOUT: a PLL has not locked after a device reset: 0 to 4 as above, 5 the LPDDR5
PLLs; Marshal's verdict orders a power cycle (R404, R446). -/
def execResetPllLockTimeout (pll : Fin 6) (s : State) : Out :=
  .next (if !s.boot.power && ((s.inClocks && pll.val != 5)
        || (s.starting && s.boot.mem == 1 && pll.val == 5)) then
      (s.verdict 6 7 0 0x0A pll.val).setHealth { s.health with ordered := s.health.ordered ++ [(false, 2)] }
    else s)

/-- LPDDR5_PLL_LOCK_TIMEOUT: the LPDDR5 PLLs have not locked after power-good (R404). -/
def execLpddr5PllLockTimeout (s : State) : Out :=
  .next (if s.starting && s.boot.power && s.boot.mem == 1 then s.bootFail 0x19 5 else s)

/-- CLOCKS_LOCKED: step 2 ends: every tile's domain is in RUN, for built-in test; which clusters the image
uses is known at SB_LOCK (R401, X1 of R38). -/
def execClocksLocked (s : State) : Out :=
  .next (if s.inClocks && s.time.running then
      let s := s.tilesDo (List.range 32) (fun t s => s.modTile t (fun x => { x with power := .run }))
      s.bootStep 3
    else s)

/-- FLASH_RESET_DONE: step 3 ends and the anchor is read from device 0: Read (0x03) in 1S-1S-1S at 25 MHz
(R401, R406). -/
def execFlashResetDone (s : State) : Out :=
  .next (if s.phase = .boot ∧ s.bootStepNo = 3 then
      (s.bootStep 4).ballOut (.flash 0 25 false 0 [0x03, 0x00, 0x00, 0x00])
    else s)

/-! ## Orders of the host (R448, R449) -/

/-- The first order that stands: a device reset, or a power cycle (R448, R449). -/
def State.ordered? (s : State) (device : Bool) : Option (Bool × Nat) :=
  s.health.ordered.find? (fun o => o.1 == device)

/-- An order is carried out. -/
def State.unorder (s : State) (o : Bool × Nat) : State :=
  s.setHealth { s.health with ordered := s.health.ordered.erase o }

/-- DEVRESET_DELAY_EXPIRY: 10 µs after DEVRESET's response the device reset begins, its verdict written
first; one that began in this cycle already serves (R437, R448, R451). -/
def execDevresetDelayExpiry (s : State) : Out :=
  .next (match s.ordered? true with
    | some o =>
      let s := (s.unorder o).verdict 5 0 0 0x08 o.2
      if s.phase = .boot ∧ s.boot.power = false ∧ s.boot.start = s.now then s else s.deviceReset s.pins.rstLow
    | none => s)

/-- POWER_CYCLE_REQUEST: an ordered power cycle is requested of the board; the verdict of PWRCYCLE, from
port 0 or 1, is written first (R437, R449). -/
def execPowerCycleRequest (s : State) : Out :=
  .next (match s.ordered? false with
    | some o =>
      let s := if o.2 < 2 then s.verdict 6 0 0 0x09 o.2 else s
      (s.unorder o).powerCycle
    | none => s)

end Sys2Proof.Machine
end

