-- ==== Sys2Proof/Machine/Links.lean ====
section
/-!
DEFINITION. The Relay Links: training (R381-R383), acknowledgement and replay (R386), NAP (R27), and
what arrives on them (R384, R388, R391-R393, R309, R443).
-/

namespace Sys2Proof.Machine

/-! ## Link states -/

/-- RLY_k_STAT.STATE changes, with its event (R400, R467). -/
def State.setLinkState (s : State) (k st : Nat) : State :=
  let s := s.rfldSet (linkA k 0x04) 28 4 st
  s.event (52 + k) 0x0E {} st (s.rfld (linkA k 0x04) 23 4)

/-- The link that is the route to device 0, on a member (R388). -/
def State.upstream (s : State) : Option Nat :=
  if s.role = 2 then (s.route (s.dist 0)).map Prod.fst else none

/-- Whether a path to device 0 exists: the device is the master, or its upstream link carries traffic
(R399). -/
def State.mpath (s : State) : Bool :=
  match s.upstream with
  | some k => s.linkState k == 7 || s.linkState k == 8
  | none => s.role == 1

/-- A member that has lost its path to device 0 is in HOLDOVER, its servo loop in MANUAL with the last increment
(R374, R395, X13). -/
def State.pathCheck (s : State) : State :=
  if s.role = 2 ∧ s.mpath = false then (if s.timeState = 2 then s.servoMode 2 else s.setTime 2) else s

/-! ## Replies to this device's requests -/

/-- One reply of a remote COPY has come: its error kept, the next block issued after the last one.  An error answer
ends the COPY: no more of it is issued, and once every request is answered it ends with its fault (R206, R392,
R439). -/
def State.copyReply (s : State) (t c err : Nat) : State :=
  let s := s.modCopy t (fun r =>
    { r with
      outst := r.outst - 1, err := if r.err = 0 ∨ r.err < 256 ∧ 256 ≤ err then err else r.err
      left := if 256 ≤ err then 0 else r.left })
  match (s.tc t).copy with
  | some r =>
    if r.outst ≠ 0 ∨ (s.tile t).ctx ≠ some c then s
    else if 256 ≤ r.err then s.copyEnd t c r r.err
    else if r.left ≠ 0 ∧ (s.tile t).preq.isNone = true then s.copyBlock t c 16
    else s
  | none => s

/-- One reply of a remote prefetch descriptor has come (R291, R392). -/
def State.pfReply (s : State) (c id err cls : Nat) : State :=
  match s.dsp.pf.find? (fun j => j.ctx == c && j.id == id && j.started && j.remote) with
  | none => s
  | some j =>
    if err ≠ 0 then (s.dropPf j).faultDsp c err cls
    else
      let j' := { j with outst := j.outst - 1 }
      let s := s.modPf j j'
      if j'.outst = 0 ∧ j'.left ≠ 0 then
        let r := s.pfBlock j' 16
        if r.2.2 then r.1.modPf j' r.2.1 else (r.1.dropPf j').faultDsp c 7 4
      else s

/-- The fault cause and CLASS of an error code (R392, R437). -/
def errCause : Nat → Nat × Nat
  | 1 => (1, 1)
  | 5 => (4, 1)
  | _ => (7, 4)

/-- A request of this device ends with an error (R392). -/
def State.failRequest (s : State) (o : Outst) (code : Nat) : State :=
  let e := errCause code
  match o.kind with
  | .copyRd _ => s.copyReply o.tile o.ctx (e.1 + 256 * e.2)
  | .copyWr => s.copyReply o.tile o.ctx (e.1 + 256 * e.2)
  | .pfRd j _ => s.pfReply o.ctx j e.1 e.2
  | .pfWr j => s.pfReply o.ctx j e.1 e.2
  | .bwait => (s.modCtx o.tile o.ctx (fun x => { x with hold := .none })).faultTile o.tile o.ctx e.1 e.2

/-- A read's bytes have come: written with their poison; a poisoned reply is a fault of cause SHARED
(R329, R392). -/
def State.readReply (s : State) (o : Outst) (data : List Byte) (poison : Bool) : State :=
  let err := if poison then 7 else 0
  match o.kind with
  | .copyRd dst => (s.writeMarked dst data poison).copyReply o.tile o.ctx err
  | .pfRd j dst => (s.writeMarked dst data poison).pfReply o.ctx j err 1
  | _ => s

/-- A write or a wait has been answered (R309, R393). -/
def State.doneReply (s : State) (o : Outst) : State :=
  match o.kind with
  | .copyWr => s.copyReply o.tile o.ctx 0
  | .pfWr j => s.pfReply o.ctx j 0 1
  | .bwait => s.modCtx o.tile o.ctx (fun x => { x with hold := .none })
  | _ => s

/-- A reply on link k: it ends the request with its tag; one that carries an old bib is dropped and
counted (R384, R443, R398). -/
def State.reply (s : State) (k : Nat) (p : Pkt) (f : State → Outst → State) : State :=
  match s.outst.find? (fun o => o.tag == p.tag && o.ctx == p.ctx) with
  | none => s
  | some o =>
    let s := { s with outst := s.outst.erase o }
    if p.bib = s.ctxBib p.ctx then f s o else s.rcount (linkA k 0x14) 0 32 1

/-! ## Link resets (R383, R386) -/

/-- Packets that stood in the receive buffers of a link that is reset no longer return credits to it. -/
def Link.unhold (l : Link) (k : Nat) : Link :=
  { l with wait := l.wait.map (fun p => if p.held = some k then { p with held := none } else p) }

/-- Reset a link's domain: packets not yet delivered are discarded, requests still outstanding on it
are answered with LINK, and it trains from DETECT when enabled (R383, R386, R398, R456). -/
def State.linkReset (s : State) (k : Nat) : State :=
  let ring (a : Nat) : Bool := decide (ringA (52 + k) 0 ≤ a) && decide (a < ringA (53 + k) 0)
  let mine (a : Nat) : Bool := decide (mshA (0x1000 + 0x100 * (16 + k)) ≤ a)
    && decide (a < mshA (0x1100 + 0x100 * (16 + k)))
  let os := s.outst.filter (fun o => o.link == k)
  let s := { s with
    ctl := s.ctl.filter (fun e => !ring e.1 && !mine e.1)
    obs := { s.obs with cnt := s.obs.cnt.filter (fun e => !mine e.1) }
    outst := s.outst.filter (fun o => o.link != k) }
  let s := { s with
    links := s.links.map (fun (e : Nat × Link) => (e.1, e.2.unhold k))
    dsp := { s.dsp with held := s.dsp.held.filter (fun h => match h with
      | .packet _ j _ => j != k
      | _ => true) } }
  let s := (s.setLnk k {}).setLinkState k (if s.rbit (linkA k 0x00) 31 then 1 else 0)
  let s := s.each os (fun s o => if o.bib = s.ctxBib o.ctx then s.failRequest o 4 else s)
  s.pathCheck

/-! ## Training (R381-R383) -/

/-- An attempt fails: after four in a row the link stays OFF until its retry timer (R383). -/
def State.trainFail (s : State) (k code : Nat) : State :=
  let a := linkA k 0x04
  let s := (s.rfldSet a 23 4 code).rcount a 15 4 1
  (s.setLinkState k (if 4 ≤ s.rfld a 15 4 then 0 else 1)).bootLinks

/-- The failure code of IDENT, 0 for none: the first of R382 that applies. -/
def State.identCode (s : State) (k part cascade dev role : Nat) : Nat :=
  if part ≠ (s.rget 0x00).toNat then 5
  else if cascade ≠ (s.rget (rlyA 0x08)).toNat then 6
  else if dev = s.devnum then 7
  else if (role = 1 ∧ s.role = 1) ∨ role = 0 ∨ s.role = 0 then 8
  else if s.rbit (linkA k 0x00) 30 ∧ dev ≠ s.rfld (linkA k 0x00) 20 4 then 9
  else 0

/-- RELAY_TRAINING_STEP_COMPLETE: a training step ends: `ok` for DETECT, LOCK, EQ and DESKEW; the
partner's SB_ID, RLY_ID, DEVNUM and ROLE for IDENT (R381, R382). -/
def execRelayTrainingStepComplete (k : Fin 4) (ok : Bool) (part cascade : Word) (dev : Fin 16)
    (role : Fin 4) (s : State) : Out :=
  let n := k.val
  let st := s.linkState n
  .next (if 1 ≤ st ∧ st ≤ 4 then
      (if ok then s.setLinkState n (st + 1) else s.trainFail n st)
    else if st = 5 then
      let c := s.identCode n part.toNat cascade.toNat dev.val role.val
      let s := s.rfldSet (linkA n 0x04) 19 4 dev.val
      if c = 0 then s.setLinkState n 6 else s.trainFail n c
    else s)

/-- RELAY_TRAINING_STEP_TIMEOUT: a step exceeds its maximum (R381): its own code; IDENT and CREDIT have
none, and TFAIL takes a free value. -/
def execRelayTrainingStepTimeout (k : Fin 4) (s : State) : Out :=
  let n := k.val
  let st := s.linkState n
  .next (if 1 ≤ st ∧ st ≤ 4 then s.trainFail n st
    else if st = 5 ∨ st = 6 then
      ({ s with fresh := s.fresh + 1 }).trainFail n (Config.trainFail s.fresh).toNat
    else s)

/-- RELAY_LINK_ACTIVE: CREDIT ends: the link is ACTIVE with the credits of R385 (R381). -/
def execRelayLinkActive (k : Fin 4) (s : State) : Out :=
  let n := k.val
  .next (if s.linkState n = 6 then
      let l := s.lnk n
      let s := s.setLnk n { l with credits := [32, 1024, 1024], nextSeq := 0, rxSeq := 0, replays := 0, owed := [] }
      let s := (s.rfldSet (linkA n 0x04) 15 4 0).setLinkState n 7
      (s.pumpAll n).bootLinks
    else s)

/-- RELAY_RETRY_TIMER: the 1 s retry interval of a link that stays OFF ends (R383). -/
def execRelayRetryTimer (k : Fin 4) (s : State) : Out :=
  let n := k.val
  .next (if s.linkState n = 0 ∧ s.rbit (linkA n 0x00) 31 = true ∧ 4 ≤ s.rfld (linkA n 0x04) 15 4
      ∧ s.clkState ≠ 2 then s.setLinkState n 1 else s)

/-- Whether a link has nothing to send: no packet waits, and none but LINK packets awaits its acknowledgement. -/
def Link.quiet (l : Link) : Bool := l.wait.isEmpty && l.replay.all (fun q => q.2.ty == 0x30)

/-- RELAY_LINK_NAP_ENTRY: in SERVICE an ACTIVE link with nothing to send enters NAP (R27, X1 of R38). -/
def execRelayLinkNapEntry (k : Fin 4) (s : State) : Out :=
  .next (if s.phase = .service ∧ s.linkState k.val = 7 ∧ (s.lnk k.val).quiet = true then
      s.setLinkState k.val 8 else s)

/-- RELAY_LINK_NAP_EXIT: a link in NAP carries traffic again (R27). -/
def execRelayLinkNapExit (k : Fin 4) (s : State) : Out :=
  let n := k.val
  .next (if s.linkState n = 8 then (s.setLinkState n 7).pumpAll n else s)

/-! ## Acknowledgement, NAK and replay (R386) -/

/-- A LINK packet has been received on link k: it takes a link sequence number, and its credits and acknowledgement
go with the next LINK packet sent, at the latest when half of channel CTL's credits are owed (R385, R386). -/
def State.linkTaken (s : State) (k : Nat) : State :=
  let l := s.lnk k
  let l := { l with rxSeq := l.rxSeq + 1, owed := addCredits l.owed [2, 0, 0] }
  let s := s.setLnk k l
  if 16 ≤ lget 0 l.owed 0 then s.sendLink k false (l.rxSeq - 1) [0, 0, 0] else s.pumpAll k

/-- LINK_NAK: the partner's NAK makes this side replay every packet not acknowledged, in order; a packet received
with these bytes, whose CRC is bad, makes this side send the NAK (R384, R386). -/
def execLinkNak (k : Fin 4) (bytes : Option (List Byte)) (s : State) : Out :=
  let n := k.val
  let l := s.lnk n
  .next (if s.linkState n ≠ 7 then s
    else match bytes with
    | none =>
      let s := (s.setLnk n { l with replays := l.replays + 1 }).rcount (linkA n 0x10) 0 32 1
      (s.each l.replay (fun s q => s.out (.packet n q.1 q.2 q.2.wire))).linkTaken n
    | some b =>
      if crcGood b then s
      else (s.rcount (linkA n 0x0C) 0 32 1).sendLink n true l.rxSeq [0, 0, 0])

/-- LINK_PACKET: an acknowledgement of every packet up to a sequence number, or credits returned
(R385, R386). -/
def execLinkPacket (k : Fin 4) (ack : Option Word) (ctlCr lcCr beCr : BitVec 11) (s : State) : Out :=
  let n := k.val
  let l := s.lnk n
  let add (v cap c : Nat) : Nat := min cap (lget 0 l.credits v + c)
  .next (if s.linkState n ≠ 7 then s
    else
      let keep := match ack with
        | some a => l.replay.filter (fun q => decide (a.toNat < q.1))
        | none => l.replay
      let l' := { l with
        replay := keep
        replays := if keep.length < l.replay.length then 0 else l.replays
        credits := [add 0 32 ctlCr.toNat, add 1 1024 lcCr.toNat, add 2 1024 beCr.toNat] }
      (s.setLnk n { l' with dry := l.dryAt l' s.now [ctlCr.toNat, lcCr.toNat, beCr.toNat] }).linkTaken n)

/-! ## Arrival (R384, R388) -/

/-- A received packet. -/
def mkPkt (ty : Nat) (h : PktHdr) (len : Nat) (data : List Byte) (poison : Bool) : Pkt :=
  { ty := ty, src := h.src.val, dst := h.dst.val, vc := h.vc.val, part := h.part.val
    bib := h.bib.toNat, ctx := h.ctx.val, ttl := h.ttl.val, tag := h.tag.toNat, addr := h.addr.toNat
    len := len, data := data, poison := poison }

/-- Whether a packet type is a request (R384). -/
def isRequest (ty : Nat) : Bool := ty == 0x01 || ty == 0x03 || ty == 0x10 || ty == 0x11

/-- Answer a request with an error code (R392). -/
def State.errRsp (s : State) (p : Pkt) (code : Nat) : State :=
  s.sendBack p.src
    { ty := 0x05, src := s.devnum, dst := p.src, vc := p.vc, part := p.part, bib := p.bib, ctx := p.ctx
      ttl := 0, tag := p.tag, addr := code }

/-- Answer a request with a reply of type `ty`. -/
def State.rsp (s : State) (p : Pkt) (ty len : Nat) (data : List Byte) (poison : Bool) : State :=
  s.sendBack p.src
    { ty := ty, src := s.devnum, dst := p.src, vc := p.vc, part := p.part, bib := p.bib, ctx := p.ctx
      ttl := 0, tag := p.tag, addr := p.addr, len := len, data := data, poison := poison }

/-- Forward a packet for another device in its channel, or drop it; a dropped request is answered with
ROUTE (R388). -/
def State.forward (s : State) (p : Pkt) : State :=
  let free := match p.held with
    | some j => (s.freeBuf p).pumpAll j
    | none => s
  let drop := if isRequest p.ty then free.errRsp p 3 else free
  match s.route (s.dist p.dst) with
  | some (k, _) => if p.ttl < 2 then drop else s.queuePkt k { p with ttl := p.ttl - 1 }
  | none => drop

/-- A good packet arrives on link k: acknowledged, and delivered here, which frees its buffer at once, or forwarded,
which keeps the buffer until it is sent on (R385, R386, R388). -/
def State.arrive (s : State) (k : Nat) (p : Pkt) (f : State → State) : State :=
  if s.linkState k ≠ 7 then s
  else
    let l := s.lnk k
    let here := p.dst = s.devnum
    let cr := if here then lset [0, 0, 0] p.vc p.cost else [0, 0, 0]
    let s := (s.setLnk k { l with rxSeq := l.rxSeq + 1 }).sendLink k false l.rxSeq cr
    if here then f s else s.forward { p with held := some k }

/-! ## Remote windows (R391, R392) -/

/-- The partition of the first window that admits `n` bytes at a packet's address (R391). -/
def State.window (s : State) (p : Pkt) (n : Nat) (write : Bool) : Option Nat :=
  let reg := bitsOf p.addr 44 2
  let off := bitsOf p.addr 0 44
  if !s.oneRow (bitsOf p.addr 0 46) n then none
  else
    ((List.range 16).find? (fun w =>
      let c := s.rget (winA w 8)
      fbit c 31 && fget c 27 2 == reg && bitAt (fget c 0 16) p.src && fbit c (if write then 29 else 30)
        && decide (s.rfld (winA w 0) 0 24 * 4096 ≤ off)
        && decide (off + n ≤ s.rfld (winA w 4) 0 24 * 4096))).map
      (fun w => s.rfld (winA w 8) 20 4)

/-- Whether a partition answers requests with FENCED (R392, R442, R444). -/
def State.fenced (s : State) (p : Nat) : Bool :=
  s.partState p == 2 || s.partState p == 3
    || s.dsp.teardowns.any (fun t => t.hurdle && s.ctxPart t.ctx == p)

/-- A remote access: refused, or done by `f` (R391, R392). -/
def State.remoteAccess (s : State) (p : Pkt) (n : Nat) (write : Bool) (f : State → State) : State :=
  match s.window p n write with
  | none => s.errRsp p 1
  | some w => if s.fenced w then s.errRsp p 2 else f s

/-- RD_REQ: a read of `len` bytes (R329, R391). -/
def execRdReq (k : Fin 4) (h : PktHdr) (len : Fin 257) (s : State) : Out :=
  let p := mkPkt 0x01 h len.val [] false
  let a := bitsOf p.addr 0 46
  .next (s.arrive k.val p (fun s => s.remoteAccess p len.val false (fun s =>
    (s.readPoison a len.val).rsp p 0x02 len.val (s.mread a len.val) (s.poisoned a len.val))))

/-- WR_REQ: a write, acknowledged once its bytes are visible (R391, R393). -/
def execWrReq (k : Fin 4) (h : PktHdr) (data : List Byte) (poison : Bool) (s : State) : Out :=
  let d := data.take 256
  let p := mkPkt 0x03 h d.length d poison
  .next (s.arrive k.val p (fun s => s.remoteAccess p d.length true (fun s =>
    (s.writeMarked (bitsOf p.addr 0 46) d poison).rsp p 0x04 0 [] false)))

/-- RD_RSP: a remote read's reply (R384, R392, R443). -/
def execRdRsp (k : Fin 4) (h : PktHdr) (data : List Byte) (poison : Bool) (s : State) : Out :=
  let p := mkPkt 0x02 h data.length data poison
  .next (s.arrive k.val p (fun s => s.reply k.val p (fun s o => s.readReply o data poison)))

/-- WR_ACK: a remote write's acknowledgement (R393). -/
def execWrAck (k : Fin 4) (h : PktHdr) (s : State) : Out :=
  let p := mkPkt 0x04 h 0 [] false
  .next (s.arrive k.val p (fun s => s.reply k.val p State.doneReply))

/-- ERR_RSP: an error reply becomes a fault of the source context; that of a post, which awaits no
reply, is a fault while its bib is current (R392). -/
def execErrRsp (k : Fin 4) (h : PktHdr) (code : Byte) (s : State) : Out :=
  let p := mkPkt 0x05 h 0 [] false
  let e := errCause code.toNat
  .next (s.arrive k.val p (fun s =>
    if p.tag ≠ 0 then s.reply k.val p (fun s o => s.failRequest o code.toNat)
    else if p.bib ≠ s.ctxBib p.ctx then s.rcount (linkA k.val 0x14) 0 32 1
    else if s.ctxEn p.ctx then s.faultDsp p.ctx e.1 e.2 else s))

/-- The baton number and ARG of a packet (R384). -/
def Pkt.baton (p : Pkt) : Nat × Nat := (p.addr % 2 ^ 15, p.addr / 2 ^ 32)

/-- BPOST_PACKET: a remote post is applied to its home baton, or answered with PERM (R309, R392). -/
def execBpostPacket (k : Fin 4) (h : PktHdr) (s : State) : Out :=
  let p := mkPkt 0x10 h 0 [] false
  .next (s.arrive k.val p (fun s =>
    if s.batonPermits p.baton.1 p.part && !s.batonProxy p.baton.1 then
      s.postLocal p.baton.1 p.baton.2
    else s.errRsp p 5))

/-- BWAIT_PACKET: a remote wait joins its home baton's queue; beyond the 512 pending waits of R308 it is
answered with PERM. -/
def execBwaitPacket (k : Fin 4) (h : PktHdr) (s : State) : Out :=
  let p := mkPkt 0x11 h 0 [] false
  .next (s.arrive k.val p (fun s =>
    if s.batonPermits p.baton.1 p.part && !s.batonProxy p.baton.1
        && (decide (s.waitCount < 512) || s.satNow p.baton.1 p.baton.2) then
      s.enterWait ⟨p.baton.1, p.baton.2, .remote k.val p.src p.ctx p.bib p.tag p.vc, p.ctx, p.part⟩
    else s.errRsp p 5))

/-- BWAIT_RSP: a proxy wait is released (R309). -/
def execBwaitRsp (k : Fin 4) (h : PktHdr) (s : State) : Out :=
  let p := mkPkt 0x12 h 0 [] false
  .next (s.arrive k.val p (fun s => s.reply k.val p State.doneReply))

/-- PACKET_FORWARD: a packet for another device (R388). -/
def execPacketForward (k : Fin 4) (h : PktHdr) (ty : PktKind) (data : List Byte) (poison : Bool)
    (s : State) : Out :=
  let p := mkPkt ty.code.toNat h ty.len.val data poison
  .next (if p.dst = s.devnum then s else s.arrive k.val p (fun s => s))

end Sys2Proof.Machine
end

