-- ==== Sys2Proof/Machine/Cycle.lean ====
section
/-!
DEFINITION. Major cycles: arming and table writes (R279, R285), boundaries and entry to SERVICE (R281,
R283, R401), accounting snapshots (R318), device HOLD (R29-R33), and what a cascade shares: TIME and
ALIGN packets (R286, R394-R397).
-/

namespace Sys2Proof.Machine

/-! ## The table (R279, R285) -/

/-- NEXT_CTRL.ARM. -/
def State.armed (s : State) : Bool := s.rbit (dspA 0x1C) 31

/-- Whether table entry i lies in the current range, or in the next range once it is armed (R279). -/
def State.inRange (s : State) (i : Nat) : Bool :=
  let lies (b n : Nat) : Bool := decide (b ≤ i) && decide (i < b + n)
  lies (s.rfld (dspA 0x00) 0 16) (s.rfld (dspA 0x04) 0 17)
    || (s.armed && lies (s.rfld (dspA 0x10) 0 16) (s.rfld (dspA 0x14) 0 17))

/-- A write of word `w` of table entry i; refused with TWREF in a range in force (R279). -/
def State.tableWrite (s : State) (i w : Nat) (v : Word) : State × Bool :=
  if s.inRange i then (s.rbitSet (dspA 0x28) 0 true, false) else (s.rset (tableA i w) v, true)

/-- Release the entries of the lookahead that a test names, but for event entries and heats that have begun;
their tiles go back (R289). -/
def State.release (s : State) (f : LookEntry → Bool) : State :=
  let gone (e : LookEntry) : Bool := e.state != EntryState.running && !e.evt && f e
  let ts := (s.dsp.look.filter gone).flatMap LookEntry.tiles
  ({ s with dsp := { s.dsp with look := s.dsp.look.filter (fun e => !gone e) } }).settleAll ts

/-- The place that follows those of the entries read and still in the lookahead (R287). -/
def State.placeAfter (s : State) : Nat :=
  (s.dsp.look.filter (fun e => !e.evt)).foldl (fun n e => max n (e.place + 1)) 0

/-- The reader starts again at boundary time `t`, from the next range or the current one; what it has read
for cycles from `t` on is read again: wake times that reach back across the switch are those of the range
that it begins (R285, R287). -/
def State.reread (s : State) (t : Nat) (next : Bool) : State :=
  if s.dsp.rdTime < t then s
  else
    let s := s.release (fun e => decide (t ≤ e.base))
    { s with dsp := { s.dsp with
        rdPos := 0, rdTime := t, rdPrev := none, rdNext := next, rdFrom := none, rdPlace := s.placeAfter } }

/-- Arm the next range, or refuse it with NXTREF; `host`: a host's write, refused on a MEMBER.  A second ARM moves
the switch: what was read past the earlier one is read again (R285). -/
def State.arm (s : State) (host : Bool) : State × Bool :=
  let b := s.rfld (dspA 0x10) 0 16
  let n := s.rfld (dspA 0x14) 0 17
  let l := s.rfld (dspA 0x18) 0 20
  if n = 0 ∨ 65536 < b + n ∨ l = 0 ∨ 655000 < l ∨ (host = true ∧ s.role = 2) then
    (s.rbitSet (dspA 0x28) 2 true, false)
  else
    let was := if s.armed then s.switchTime else none
    let s := s.rbitSet (dspA 0x1C) 31 true
    let s := { s with dsp := { s.dsp with armTime := some (s.nsUp + 10000) } }
    let s := match was with
      | some t => s.reread t false
      | none => s
    (match s.switchTime with
     | some t => s.reread t true
     | none => s, true)

/-- A write of ARM = 0 withdraws an armed range. -/
def State.disarm (s : State) : State :=
  let sw := s.switchTime
  let s := s.rbitSet (dspA 0x1C) 31 false
  let s := { s with dsp := { s.dsp with armTime := none } }
  match sw with
  | some t => s.reread t false
  | none => s

/-- The first boundary on a STANDALONE device or the MASTER, at SB_LOCK: the smallest time at or after
now that PHASE and the first range's LEN admit (R281); the lookahead reads towards it.  With no range
armed, an empty one of the greatest LEN is in force (DESIGN CHOICE, log entry 49). -/
def State.firstBoundary (s : State) : State :=
  if s.role = 2 then s
  else
    let s := if s.armed then s else s.rset (dspA 0x08) 655000
    let len := max 8 (8 * (if s.armed then s.rfld (dspA 0x18) 0 20 else 655000))
    let ph := s.rfld (dspA 0x0C) 0 30
    let t := s.nsUp + (ph % len + len - s.nsUp % len) % len
    { s with dsp := { s.dsp with
        nextBound := some t, rdTime := t, rdPos := 0, rdPrev := none, rdNext := s.armed } }

/-! ## Accounting snapshots (R318) -/

/-- The 64-byte record of context c. -/
def State.acctRecord (s : State) (c : Nat) : List Byte :=
  let a : Acct := tget {} s.dsp.acct c
  let engine := s.rbit (dspA 0x30) 31
  [BitVec.ofNat 8 c, if engine then 1 else 0, BitVec.ofNat 8 (s.ctxPart c), BitVec.ofNat 8 (s.ctxBib c)]
    ++ lrep 4 0
    ++ (if engine then
          leBytes 8 a.runCyc ++ leBytes 4 a.wakes ++ leBytes 4 a.ovrCyc ++ leBytes 8 a.memB
            ++ leBytes 8 a.rlyB ++ leBytes 8 a.energy ++ leBytes 8 a.tenCyc ++ lrep 8 0
        else
          leBytes 4 a.heats ++ leBytes 4 a.probs ++ leBytes 4 a.late ++ leBytes 4 a.skip
            ++ leBytes 4 a.missed ++ leBytes 4 a.faults ++ lrep 32 0)

/-- Write a snapshot of every enabled context, the header last (R318). -/
def State.snapshot (s : State) : State :=
  let base := s.rfld (dspA 0x34) 0 20 * 65536 + 4160 * s.dsp.bank
  let s := s.each ((List.range 64).filter s.ctxEn) (fun s c =>
    s.mwrite (base + 64 + 64 * c) (s.acctRecord c))
  let s := s.mwrite base (leBytes 4 (s.rget (dspA 0x24)).toNat ++ leBytes 4 s.secField
    ++ leBytes 4 s.nsField ++ lrep 52 0)
  { s with dsp := { s.dsp with bank := 1 - s.dsp.bank } }

/-! ## Device HOLD (R29-R33) -/

/-- A loop other than the time servo is in MANUAL or AUTO: CORE stays in RUN (X11 of R38). -/
def State.loopsClosed (s : State) : Bool :=
  (List.range 1024).any (fun n => s.loopEn n && !s.isServo n && s.loopMode n != 0)

/-- A device-wide check of R29: the case that refuses HOLD, 0 for none; `order`: by the master's
order. -/
def State.holdCause (s : State) (order : Bool) : Nat :=
  if s.phase ≠ .service ∨ s.clkState = 3
      ∨ (List.range 16).any (fun p => s.partState p == 2 || s.partState p == 3) = true then 1
  else if s.loopsClosed then 2
  else if order = false ∧ s.role = 2 then 3
  else if [0, 1].all (fun k => !(s.rbit clkHoldA (24 + k) && s.linkUp k)) then 4
  else 0

/-- HOLD is refused: HREF and its case (R29). -/
def State.holdRefused (s : State) (cause : Nat) : State :=
  (s.rbitSet clkStatA 29 true).rfldSet clkStatA 24 4 cause

/-- HOLD is accepted: ENTERING (R30). -/
def State.holdAccept (s : State) (casc : Bool) : State :=
  (s.rfldSet clkStatA 30 2 1).rbitSet clkStatA 28 casc

/-- How many boundaries lie between the next one, at `nb`, and the first at or after `at'`: they come LEN
apart, and the armed range's LEN apart from the switch on (R30, R285). -/
def State.boundsTo (s : State) (nb at' : Nat) : Nat :=
  let len := max 1 (8 * s.rfld (dspA 0x08) 0 20)
  match s.armed, s.switchTime with
  | true, some t =>
    if at' ≤ t then ceilDiv (at' - nb) len
    else (t - nb) / len + ceilDiv (at' - t) (max 1 (8 * s.rfld (dspA 0x18) 0 20))
  | _, _ => ceilDiv (at' - nb) len

/-- The index of the first boundary at least 10 µs away (R30, R32). -/
def State.holdIndex (s : State) : Option Nat :=
  s.dsp.nextBound.map (fun nb =>
    ((s.rget (dspA 0x24)).toNat + 1 + s.boundsTo nb (s.nsUp + 10000)) % 2 ^ 32)

/-- Start the exit from HOLD (R31). -/
def State.exitHold (s : State) : State :=
  let s := { s with casc := { s.casc with exitReq := false } }
  s.rfldSet clkStatA 30 2 3

/-- A write of CLK_HOLD (R29-R33); answers whether it was accepted.  REQ and EXIT written together: REQ acts
first, and EXIT then ends the HOLD it starts (DESIGN CHOICE, log entry 71). -/
def State.holdWrite (s : State) (v : Word) : State × Bool :=
  let s := s.rset clkHoldA (mergeRW 0x23000000 (s.rget clkHoldA) v)
  let exit (s : State) : State :=
    if fbit v 30 then
      (if s.clkState = 2 then s.exitHold
       else if s.clkState = 1 then { s with casc := { s.casc with exitReq := true } } else s)
    else s
  if fbit v 31 && (s.clkState == 0 || s.clkState == 3) then
    let c := s.holdCause false
    if c ≠ 0 then (exit (s.holdRefused c), false)
    else
      let casc := fbit v 29 && s.role == 1
      let hat := if casc then none else some (s.nsUp + 10000)
      let hix := if casc then s.holdIndex else none
      let d := { s.dsp with holdAt := hat, holdIdx := hix }
      let s := { s with dsp := d }
      (exit (s.holdAccept casc), true)
  else (exit s, true)

/-- At boundary B the Dispatcher stops: entries at or after B are released, BE records discarded and
counted, BE heats stopped without a save and their loans ended (R30). -/
def State.holdBoundary (s : State) (b : Nat) : State :=
  let gone (e : LookEntry) : Bool := e.state != EntryState.running && decide (b ≤ e.slot)
  let n := (s.dsp.beq.map (fun q => q.2.length)).sum
  let bes := s.dsp.be
  let s := s.rcount (dspA 0x38) 0 32 n
  let s := { s with
    loans := s.loans.filter (fun l => !s.ctxBE l.ctx)
    saved := s.saved.filter (fun q => !s.ctxBE (q.1 / 32))
    dsp := { s.dsp with
      holdOn := true, holdAt := none, holdIdx := none
      look := s.dsp.look.filter (fun e => !gone e), beq := [], be := [], trig := [], heldTrig := [] } }
  let s := s.each bes (fun s r => s.tilesDo r.tiles (fun t s =>
    if (s.tile t).ctx = some r.ctx then s.abandonTile t r.ctx else s))
  s.settleAll (List.range 32)

/-- A link goes OFF, its requests answered with LINK (R30, R386). -/
def State.linkOff (s : State) (k : Nat) : State := (s.linkReset k).setLinkState k 0

/-- What else has stopped when STATE reads HOLD: memory channels, the ports not kept, the time servo
(R28, R30). -/
def State.holdReached (s : State) : State :=
  let s := s.each (List.range 16) (fun s k => s.rfldSet (memA (0x100 + 4 * k)) 30 2 2)
  let s := s.each [0, 1] (fun s k => if !s.netOn k && s.linkUp k then s.linkDown k else s)
  let s := if s.servoLoop.isNone && s.timeState == 0 then s else s.setTime 2
  let s := s.rwrap clkHoldCntA 0 32 1
  if s.casc.exitReq then s.exitHold else s

/-- HOLD_ENTRY_COMPLETE: the last LC heat has completed and every loop but the servo is OPEN: clusters, CORE
and MEM are in HOLD, links OFF, ports not kept OFF, and STATE reads HOLD (R28, R30, X11). -/
def execHoldEntryComplete (s : State) : Out :=
  .next (if s.clkState = 1 ∧ s.dsp.holdOn = true ∧ s.loopsClosed = false
      ∧ (List.range 32).all (fun t => (s.tc t).heats.isEmpty) = true then
      let s := s.each (List.range 4) State.linkOff
      let s := s.tilesDo (List.range 32) (fun t s => s.setTile t { power := .hold })
      let s := { s with
        mem := s.mem.filter (fun e => decide (e.1 < 0x100000000000))
        poison := s.poison.filter (fun k => decide (k < 0x100000000000))
        stores := [], tmpls := [], saved := [], loans := []
        dsp := { s.dsp with holdAt := none, holdIdx := none } }
      let s := (s.rfldSet clkStatA 6 6 0x3F).rfldSet clkStatA 30 2 2
      s.holdReached
    else s)

/-- Whether the image uses cluster k: an enabled partition or context has a tile in it (X1 of R38). -/
def State.clusterUsed (s : State) (k : Nat) : Bool :=
  let on (m : Nat) : Bool := bitsOf m (8 * k) 8 != 0
  (List.range 16).any (fun p => s.partEn p && on (s.rget (partA p 0x04)).toNat)
    || (List.range 64).any (fun c => s.ctxEn c && on (s.ctxTiles c))

/-- Clusters that the image does not use, being in no enabled partition and no enabled context, are in HOLD
from SB_LOCK on (X1 of R38). -/
def State.unusedHold (s : State) : State :=
  s.each ((List.range 4).filter (fun k => !s.clusterUsed k)) (fun s k =>
    (s.tilesDo ((List.range 8).map (fun j => 8 * k + j)) (fun t s => s.modTile t (fun x =>
      { x with power := .hold }))).rbitSet clkStatA (8 + k) true)

/-- HOLD_EXIT_WAKE_COMPLETE: CORE, MEM and the clusters in use are in RUN; enabled links train, and every enabled
partition that no failed reload has taken down is in RECOVERY and reloads (R31, R441). -/
def execHoldExitWakeComplete (s : State) : Out :=
  .next (if s.clkState = 3 ∧ s.rbit clkStatA 7 = true then
      let s := s.rfldSet clkStatA 6 6 0
      let s := s.each (List.range 16) (fun s k => s.rfldSet (memA (0x100 + 4 * k)) 30 2 0)
      let s := (s.tilesDo (List.range 32) (fun t s => s.setTile t { power := .run })).unusedHold
      let s := s.each ((List.range 4).filter (fun k => s.rbit (linkA k 0x00) 31)) (fun s k =>
        s.setLinkState k 1)
      let ps := (List.range 16).filter (fun p => s.partEn p && !s.health.dead.contains p)
      let s := s.each ps (fun s p => s.rfldSet (partA p 0x1C) 30 2 2)
      let s := s.each ((List.range 64).filter (fun c => s.ctxEn c && ps.contains (s.ctxPart c)))
        (fun s c => s.rfldSet (ctxA c 0x24) 29 3 1)
      s.setHealth { s.health with parts := ps.map (fun p => PartReset.mk p true false []) }
    else s)

/-- HOLD_EXIT_RELOAD_COMPLETE: the last reload has ended: the table resumes at the next boundary
(R28, R31). -/
def execHoldExitReloadComplete (s : State) : Out :=
  .next (if s.clkState = 3 ∧ s.rbit clkStatA 7 = false ∧ s.dsp.holdOn = true
      ∧ s.health.parts.isEmpty = true then
      let len := 8 * s.rfld (dspA 0x08) 0 20
      match s.dsp.nextBound with
      | none => { s with dsp := { s.dsp with holdOn := false } }
      | some nb =>
        let n := if s.nsUp < nb ∨ len = 0 then 0 else ceilDiv (s.nsUp - nb) len
        let t := nb + n * len
        let s := s.rwrap (dspA 0x24) 0 32 n
        { s with dsp := { s.dsp with
            holdOn := false, nextBound := some t, look := [], rdPos := 0, rdTime := t, rdPrev := none
            rdNext := false, rdFrom := none, rdPlace := 0 } }
    else s)

/-! ## Lock-step (R286, R396) -/

/-- Links that lead away from device 0, every partner of device 0 being farther than it: those that are ACTIVE, or in
NAP, which a packet ends (R394, X7 of R38). -/
def State.downstream (s : State) : List Nat :=
  (List.range 4).filter (fun k => (s.linkState k == 7 || s.linkState k == 8) && s.upstream != some k
    && (s.role != 2 || Config.farther k))

/-- The index of the boundary at which an armed range switches, as the master's ALIGN carries it
(R286). -/
def State.switchIndex (s : State) (nb idx len : Nat) : Option Nat :=
  match s.armed, s.switchTime with
  | true, some t => if len = 0 then none else some (idx + (t - nb) / len)
  | _, _ => none

/-- The master's ALIGN packets at a boundary (R396, R32). -/
def State.sendAlign (s : State) : State :=
  match s.role, s.dsp.nextBound with
  | 1, some nb =>
    let len := s.rfld (dspA 0x08) 0 20
    let idx := ((s.rget (dspA 0x24)).toNat + 1) % 2 ^ 32
    let sw := s.switchIndex nb idx (8 * len)
    s.each s.downstream (fun s k =>
      s.sendCtl k (.align nb len (s.rfld (dspA 0x0C) 0 30) idx sw s.dsp.holdIdx))
  | _, _ => s

/-! ## Boundaries (R281, R283, R285) -/

/-- The latest boundary at or before now, with its distance in boundaries from the next one, and
whether a switch falls at or before it (R283); a member without a next range keeps its LEN past the switch
(R286). -/
def State.latestBoundary (s : State) (nb : Nat) : Nat × Nat × Bool :=
  let len := max 1 (8 * s.rfld (dspA 0x08) 0 20)
  let nlen := if s.role = 2 ∧ s.rfld (dspA 0x14) 0 17 = 0 then len else max 1 (8 * s.rfld (dspA 0x18) 0 20)
  let sw := if s.armed || s.member then s.switchTime else none
  match sw with
  | some t =>
    if t ≤ s.ns then
      let k0 := (t - nb) / len
      let k1 := (s.ns - t) / nlen
      (t + k1 * nlen, k0 + k1, true)
    else let k := (s.ns - nb) / len; (nb + k * len, k, false)
  | none => let k := (s.ns - nb) / len; (nb + k * len, k, false)

/-- The next range becomes current; a member whose next range is empty keeps its own with SWITCH_MISS
(R285, R286). -/
def State.switchRange (s : State) : State :=
  let s := { s with dsp := { s.dsp with armTime := none, switchIdx := none } }
  if s.role = 2 ∧ s.rfld (dspA 0x14) 0 17 = 0 then s.rbitSet (dspA 0x28) 4 true
  else
    let s := ((s.rset (dspA 0x00) (s.rget (dspA 0x10))).rset (dspA 0x04) (s.rget (dspA 0x14))).rset
      (dspA 0x08) (s.rget (dspA 0x18))
    (s.rbitSet (dspA 0x1C) 31 false).rbitSet (dspA 0x28) 3 true

/-- FABCNT counts from this cycle's time (R397). -/
def State.fabStart (s : State) : State :=
  let t : Int := s.cycleTime
  let s := { s with time := { s.time with fabBase := t } }
  { s with casc := { s.casc with fabSet := true } }

/-- Entry to SERVICE (R38, R214, R269, R304, R397, R401): the first boundary after SB_LOCK. -/
def State.enterService (s : State) : State :=
  let s := { s with phase := .service }
  let s := s.servoMode s.timeState
  let ps := (List.range 16).filter s.partEn
  let s := s.each ps (fun s p =>
    ((s.rfldSet (partA p 0x1C) 30 2 1).setTokens p 0 (s.paceCap p 0)).setTokens p 1 (s.paceCap p 1))
  let s := if s.role != 2 && !s.casc.fabSet then s.fabStart else s
  let s := { s with dsp := { s.dsp with bounds := 0 } }
  let s := { s with obs := { s.obs with dumpSeq := 0 } }
  ((s.outputsService.bootStep 12).settleAll (List.range 32)).wakeDue

/-- Partitions and contexts that were reloaded return at this boundary (R315, R441); the exit from HOLD
ends (R31). -/
def State.returnService (s : State) : State :=
  let ps := s.dsp.serviceNext
  let cs := s.dsp.readyNext
  let s := { s with dsp := { s.dsp with serviceNext := [], readyNext := [] } }
  let s := s.each ps (fun s p => s.rfldSet (partA p 0x1C) 30 2 1)
  let s := s.each cs (fun s c => if s.ctxState c = 1 then s.rfldSet (ctxA c 0x24) 29 3 2 else s)
  let s := if s.clkState = 3 then s.rfldSet clkStatA 30 2 0 else s
  if ps.isEmpty then s else s.settleAll (List.range 32)

/-- Whether a boundary's index is the ordered one or a later one, by indices modulo 2^32 (R32). -/
def idxReached (idx i : Nat) : Bool := decide ((idx + 2 ^ 32 - i) % 2 ^ 32 < 2 ^ 31)

/-- The index of the boundary at `b`, `k` boundaries after the due one: the master's where an alignment
names that boundary (R286, R396). -/
def State.boundIdx (s : State) (b k : Nat) : Nat :=
  let own := if s.dsp.bound.isNone && s.dsp.align.isNone then k
    else ((s.rget (dspA 0x24)).toNat + 1 + k) % 2 ^ 32
  match s.dsp.align with
  | some (t, _, _, i, _) => if b = t then i else own
  | none => own

/-- The alignment for the boundary at `b` gives LEN and PHASE (R396). -/
def State.adoptAlign (s : State) (b : Nat) : State :=
  match s.dsp.align with
  | some (t, len, ph, _, _) =>
    if b = t then
      let s := (s.rset (dspA 0x08) (BitVec.ofNat 32 len)).rset (dspA 0x0C) (BitVec.ofNat 32 ph)
      { s with dsp := { s.dsp with align := none } }
    else s
  | none => s

/-- The range after the boundary at `b`; `sw`: a switch falls at or before it.  What the reader has taken
for cycles from `b` on from a range that is not the one now in force is read again (R285, R286). -/
def State.boundSwitch (s : State) (b : Nat) (sw : Bool) : State :=
  if !sw then s
  else
    let ahead := s.dsp.rdNext
    let missed := s.role == 2 && s.rfld (dspA 0x14) 0 17 == 0
    let old := s.rdRange
    let s := s.switchRange
    let s := { s with dsp := { s.dsp with
        rdNext := false, rdFrom := if s.dsp.rdTime < b ∧ ahead = false then some old else none } }
    if ahead != missed then s else s.reread b false

/-- The entries of major cycles that a forward step has passed over, with boundaries from `nb` to before
`b`, are not run, and a reader that stands in one of them goes on from `b`; what is unread of the cycle before
them is still read (R283). -/
def State.passOver (s : State) (nb b : Nat) : State :=
  let s := s.release (fun e => decide (nb ≤ e.base) && decide (e.base < b))
  if nb ≤ s.dsp.rdTime ∧ s.dsp.rdTime < b then
    { s with dsp := { s.dsp with rdPos := 0, rdTime := b, rdPrev := none, rdNext := false, rdFrom := none } }
  else s

/-- Whether the boundary at `b` with index `idx` is the entry boundary of HOLD (R30, R32). -/
def State.holdDue (s : State) (b idx : Nat) : Bool :=
  s.clkState == 1 && (match s.dsp.holdAt, s.dsp.holdIdx with
    | some t, _ => decide (t ≤ b)
    | none, some i => idxReached idx i
    | none, none => false)

/-- A boundary in SERVICE is counted, and every SNAP-th one takes a snapshot (R318). -/
def State.boundCount (s : State) : State :=
  let n := s.dsp.bounds + 1
  let s := { s with dsp := { s.dsp with bounds := n } }
  if s.phase = .service ∧ n % max 1 (s.rfld (dspA 0x30) 0 16) = 0 then s.snapshot else s

/-- What the boundary at time `b`, `k` boundaries after the due one, does (R281-R286, R318, R396). -/
def State.actBoundary (s : State) (nb b k : Nat) (sw : Bool) : State :=
  let idx := s.boundIdx b k
  let s := ((s.rcount (dspA 0x40) 0 32 k).boundSwitch b sw).adoptAlign b
  let s := (s.rset (dspA 0x24) (BitVec.ofNat 32 idx)).rbitSet (dspA 0x28) 5 true
  let nxt := match s.dsp.align with
    | some (t, _, _, _, _) => t
    | none => b + max (8 * s.rfld (dspA 0x08) 0 20) 8
  let s := { s with dsp := { s.dsp with bound := some b, nextBound := some nxt } }
  let s := s.passOver nb b
  let s := if s.holdDue b idx then s.holdBoundary b else s
  let s := if s.phase = .boot ∧ s.sbLock = true then s.enterService else s.boundCount
  s.returnService.sendAlign

/-- MAJOR_CYCLE_BOUNDARY: the time has reached the next boundary; boundaries that a step has passed are
counted and only the latest acts.  In HOLD, and until its exit's reloads end, no boundary acts
(R281, R283, R31). -/
def execMajorCycleBoundary (s : State) : Out :=
  .next (match s.dsp.nextBound with
    | none => s
    | some nb =>
      if s.ns < nb ∨ s.clkState = 2 ∨ (s.clkState = 3 ∧ s.dsp.holdOn = true) ∨ s.sbLock = false
          ∨ s.phase = .failed then s
      else
        let r := s.latestBoundary nb
        s.actBoundary nb r.1 r.2.1 r.2.2)

/-! ## TIME (R394, R395, R397) -/

/-- A member's offset from its upstream link (R395): the first steps the time, as does a change of
STEPS; any other above SPL_JUMP_LIMIT is refused. -/
def State.memberOffset (s : State) (o : Int) (rx : Nat) (state steps : Nat) : State :=
  let stepped := s.casc.steps.any (fun n => n != steps) || !s.casc.synced
  let s := if stepped then (s.showOffset o rx).stepTime o
    else if s.jumpLimit < (o.natAbs : Int) then
      ((s.rset (splA 0x28) (wordI (sat32 (o.fdiv (2 ^ 28))))).rbitSet (splA 0x04) 28 true).rcount
        (splA 0x34) 16 16 1
    else s.showOffset o rx
  let s := { s with casc := { s.casc with steps := some steps, synced := true } }
  let old := s.timeState
  let s := if old = state then s else (s.rfldSet (splA 0x04) 30 2 state).event 62 0x12 {} state old
  match s.servoLoop with
  | some n => if s.rfld (loopA n 0x00) 0 2 = 2 then s else s.setModeReq n 2
  | none => s

/-- A control packet that the partner of link k has sent to this device (R384). -/
def State.ctlIn (s : State) (k ty : Nat) : Pkt :=
  { ty := ty, src := s.partner k, dst := s.devnum, vc := 0, part := 0, bib := 0, ctx := 0, ttl := 1, tag := 0
    addr := 0, len := 64 }

/-- TIME: a TIME packet received at `rx` on link k, or the echo of this device's own, which completes
the delay measurement with the partner's turnaround.  Times in units of 2^-32 ns (R394-R397). -/
def execTime (k : Fin 4) (echo : Bool) (rx sent residence delay turn : Nat) (state : Fin 3)
    (steps : BitVec 16) (fabBase : Int) (s : State) : Out :=
  let n := k.val
  let show' (s : State) (d : Nat) : State :=
    s.rset (linkA n 0x08) (BitVec.ofNat 32 (min (d / 2 ^ 28) 0xFFFFFFFF))
  .next (s.arrive n (s.ctlIn n 0x20) (fun s =>
    if echo then
      if (s.lnk n).timeSent = some sent then
        show' (s.setLnk n { s.lnk n with timeSent := none }) ((rx - sent - turn) / 2)
      else s
    else
      let s := s.sendCtl n (.echo sent rx 0)
      if s.upstream ≠ some n then s
      else
        let s := show' s delay
        let s := { s with time := { s.time with fabBase := fabBase } }
        s.memberOffset ((rx : Int) - ((sent + residence + delay : Nat) : Int)) rx state.val steps.toNat))

/-- TIME_SEND_INTERVAL: TIME packets go down every link that leads away from device 0 (R394, R398). -/
def execTimeSendInterval (s : State) : Out :=
  .next (if s.role = 0 then s
    else
      s.each s.downstream (fun s k => s.sendCtl k (.time 0 0 0 0 0)))

/-! ## ALIGN (R32, R286, R396) -/

/-- A member's first alignment: its boundaries begin at the first of the master's at or after now. -/
def State.alignFirst (s : State) (t len ph idx : Nat) : State :=
  let l := max 1 (8 * len)
  let k := if s.nsUp ≤ t then 0 else ceilDiv (s.nsUp - t) l
  let b := t + k * l
  let s := { s with dsp := { s.dsp with
    nextBound := some b, align := some (b, len, ph, (idx + k) % 2 ^ 32, 0)
    rdTime := b, rdPos := 0, rdPrev := none, rdNext := true, rdFrom := none } }
  s

/-- A later ALIGN is checked against the member's own next boundary; a mismatch is adopted at the first
boundary at least 2 µs away (R396). -/
def State.alignCheck (s : State) (nb t len ph idx : Nat) : State :=
  let own := ((s.rget (dspA 0x24)).toNat + 1) % 2 ^ 32
  let far := decide (t + 8 < nb) || decide (nb + 8 < t)
  if idx = own ∧ far = false then s
  else
    let s := s.rbitSet (rlyA 0x04) 26 true
    let l := max 1 (8 * len)
    let k := ceilDiv (s.nsUp + 2000 - t) l
    let b := t + k * l
    let i := (idx + k) % 2 ^ 32
    let s := { s with dsp := { s.dsp with align := some (b, len, ph, i, 0) } }
    if nb < s.nsUp + 2000 ∧ s.ns ≤ nb then s
    else
      { s with dsp := { s.dsp with
          nextBound := some b
          look := s.dsp.look.filter (fun e =>
            !(e.state == EntryState.pending && !e.evt && decide (nb ≤ e.base)))
          rdTime := b, rdPos := 0, rdPrev := none, rdFrom := none, rdPlace := s.placeAfter } }

/-- A member's switch boundary is named by the master's ALIGN: the lookahead reads its next range for the
cycles from there on (R285, R286). -/
def State.orderSwitch (s : State) (i : Nat) : State :=
  let s := { s with dsp := { s.dsp with switchIdx := some i } }
  match s.switchTime with
  | some t => if s.rfld (dspA 0x14) 0 17 = 0 ∨ s.dsp.rdNext = true then s else s.reread t true
  | none => s

/-- ALIGN: the master's alignment arrives on the upstream link: adopted or checked, its orders taken,
and forwarded downstream (R32, R286, R396).  One that arrives before SB_LOCK is forwarded and not kept: the
alignment that admits SERVICE is a later one (X2; DESIGN CHOICE, log entry 72). -/
def execAlign (k : Fin 4) (bound : Nat) (len : BitVec 20) (phase : BitVec 30) (idx : Word)
    (switch hold : Option Word) (s : State) : Out :=
  let n := k.val
  .next (s.arrive n (s.ctlIn n 0x21) (fun s =>
    if s.role ≠ 2 ∨ s.upstream ≠ some n then s
    else
      let s := s.each s.downstream (fun s j =>
        s.sendCtl j (.align bound len.toNat phase.toNat idx.toNat (switch.map BitVec.toNat)
          (hold.map BitVec.toNat)))
      if s.sbLock = false then s
      else
        let s := match s.dsp.nextBound with
          | none => s.alignFirst bound len.toNat phase.toNat idx.toNat
          | some nb => s.alignCheck nb bound len.toNat phase.toNat idx.toNat
        let s := match switch with
          | some i => s.orderSwitch i.toNat
          | none => s
        match hold with
        | none => s
        | some i =>
          if s.clkState = 1 ∨ s.clkState = 2 then s
          else
            let c := s.holdCause true
            if c ≠ 0 then s.holdRefused c
            else
              let s := s.holdAccept true
              { s with dsp := { s.dsp with holdIdx := some i.toNat } }))

end Sys2Proof.Machine
end

