-- ==== Sys2Proof/Machine/Dump.lean ====
section
/-!
DEFINITION. Tensor dumps (R469-R473): the object of a dump point, its record, the match, the dump
that MSH_DUMP_NOW orders and the end of a dump.
-/

namespace Sys2Proof.Machine

/-- What a dump copies: its bytes, whether a word read as poison, and the record's shape fields. -/
structure DumpObj where
  bytes : List Byte
  poison : Bool := false
  rows : Nat := 0
  cols : Nat := 0
  fmt : Nat := 0
  exp : Int := 0
  etype : Nat := 0
  deriving DecidableEq, Repr

/-- The nodes of declared closed sets whose resets are delayed (R445). -/
def State.hungNodes (s : State) : List GNode := s.health.delayed.flatMap (fun d => d.2)

/-- Whether a tile belongs to a declared closed set whose reset is delayed (R445). -/
def State.tileHung (s : State) (t : Nat) : Bool :=
  s.hungNodes.any (fun n => (n.kind == 1 || n.kind == 2 || n.kind == 3) && n.a == t)

/-- Byte `a` of the pattern 0xDEAD_DEAD (R445, R470). -/
def deadByte (a : Nat) : Byte := if a % 2 = 0 then 0xAD else 0xDE

/-- The bytes at data-space addresses: words of a hung tile or with an uncorrectable error read as
0xDEAD_DEAD (R470). -/
def State.dumpRead (s : State) (t : Nat) (as : List Nat) : List Byte × Bool :=
  let bad (a : Nat) : Bool := s.tileHung t || s.poisoned (a / 4 * 4) 4
  (as.map (fun a => if bad a then deadByte a else s.mget a), as.any bad)

/-- Data-space addresses of a tensor: ROWS rows packed densely, then its scales (R470, R500). -/
def State.tensorAddrs (s : State) (t c : Nat) (d : TDesc) : List Nat :=
  let rb := d.rowBytes
  let els := (List.range d.rows).flatMap (fun r =>
    (List.range rb).map (fun b => s.shareA t c (d.addr + r * d.rstride + b)))
  els ++ (List.range d.scaleBytes).map (fun b => s.shareA t c (d.saddr + b))

/-- Bytes of an array's working copy: a word of a hung tile, or one that still stands in scratchpad with an
uncorrectable error, reads as 0xDEAD_DEAD (R470). -/
def State.dumpArray (s : State) (t : Nat) (e : Env) (d : ADesc) : List Byte × Bool :=
  let bad (k : Nat) : Bool := s.tileHung t
    || ((roleBytes e.ta e.tp e.arrs d.id).any (fun r => s.poisoned (r.1 + 4 * k) 4))
  ((List.range d.size).flatMap (fun k => if bad k then leBytes 4 0xDEADDEAD else leBytes 4 (s.aword e d.id k).toNat),
    (List.range d.size).any bad)

/-- The object of dump point i on tile t of context c (R470). -/
def State.dumpObj (s : State) (i t c heat prob : Nat) : DumpObj :=
  let obj := s.dumpFld i 8 2
  match s.dumpFld i 1 1 with
  | 0 =>
    let d := s.tdesc t c obj
    let r := s.dumpRead t (s.tensorAddrs t c d)
    { bytes := r.1, poison := r.2, rows := d.rows, cols := d.cols, fmt := d.fmt, exp := d.s
      etype := b2n d.etype + 128 * b2n d.bdir }
  | 1 =>
    match (s.tc t).live4.find? (fun p => p.2.prob == prob && (p.2.heat == heat || heat == 0)) with
    | some (_, sl) =>
      let e := s.slotEnv t c sl
      let d := e.tp.arr obj
      let r := s.dumpArray t e d
      { bytes := r.1, poison := r.2, rows := d.rows, cols := d.cols, fmt := 0xE, exp := d.exp }
    | none => { bytes := [] }
  | _ =>
    let o := s.dumpFld i 0x10 4
    let r := s.dumpRead t ((List.range (s.dumpFld i 0x14 4)).map (fun b => s.shareA t c (o + b)))
    { bytes := r.1, poison := r.2 }

/-- The units with uncorrectable errors that a dump's copy meets: each counts (R335). -/
def State.dumpUnits (s : State) (d : DumpReq) : List Nat :=
  let i := d.point
  let obj := s.dumpFld i 8 2
  let rs : List (Nat × Nat) := match s.dumpFld i 1 1 with
    | 0 => (s.tensorAddrs d.tile d.ctx (s.tdesc d.tile d.ctx obj)).map (fun a => (a, 1))
    | 1 => match (s.tc d.tile).slotOf d.heat d.prob with
      | some (_, sl) => let e := s.slotEnv d.tile d.ctx sl; roleBytes e.ta e.tp e.arrs obj
      | none => []
    | _ => [(s.shareA d.tile d.ctx (s.dumpFld i 0x10 4), s.dumpFld i 0x14 4)]
  if s.tileHung d.tile then [] else (rs.flatMap (fun r => s.poisonedUnits r.1 r.2)).eraseDups

/-- The record of a dump but for SEQ and DROPS, which its end fills in (R473). -/
def State.dumpRecord (s : State) (d : DumpReq) : List Byte :=
  let o := s.dumpObj d.point d.tile d.ctx (if d.immediate then 0 else d.heat) d.prob
  let l := min o.bytes.length (s.dumpMax d.point)
  let flags := b2n o.poison + 2 * b2n (decide (l < o.bytes.length)) + 4 * b2n (!s.fabOk)
    + 8 * b2n d.immediate
  let stag := match ((s.tc d.tile).heat? d.heat).bind Heat.solve with
    | some r => (s.tmpl d.tile d.ctx r.tmpl).stag
    | none => 0
  let b (v : Nat) : List Byte := leBytes 1 v
  lrep 4 0 ++ b d.point ++ b flags ++ b d.tile ++ b d.ctx ++ leBytes 8 d.stamp ++ leBytes 4 d.heat
    ++ leBytes 2 d.layer ++ leBytes 2 d.oper ++ b (s.dumpFld d.point 1 1) ++ b (s.dumpFld d.point 2 1)
    ++ b (if s.dumpFld d.point 1 1 = 1 then d.prob else 0) ++ b o.fmt ++ b (wrapN o.exp 8) ++ b o.etype
    ++ leBytes 2 (s.dumpFld d.point 8 2) ++ leBytes 2 o.rows ++ leBytes 2 o.cols ++ leBytes 4 l
    ++ leBytes 4 stag ++ lrep 4 0 ++ lrep 16 0
    ++ o.bytes.take l ++ lrep (roundUp l 64 - l) 0

/-- An observation read of a hung unit has timed out: DUMP_TO, its count and a DUMP_TIMEOUT verdict
with DOMAIN 0 (R438, R445). -/
def State.dumpTimeout (s : State) (cls index : Nat) : State :=
  let s := (s.rbitSet (mshA 0x04) 29 true).rcount (mshA 0x20) 0 32 1
  s.verdict 0 cls index 0x0C (cls * 32 + index)

/-- When the last hold of queue B on a tile that is asked to stop has ended, the tile can save (R205, R207, R471):
that span counts as a unit's. -/
def State.dumpStop (s : State) (d : DumpReq) : State :=
  if d.unit = 16 ∧ d.immediate = false ∧ (s.tile d.tile).preq.isSome = true ∧ s.dumpHolds d.tile 16 = false then
    (s.stopUnit d.tile 16 true).trySave d.tile
  else s

/-- Stage the record of a dump, or drop the dump when it does not fit: a dump that is dropped holds
nothing (R470, R472). -/
def State.stageDump (s : State) (d : DumpReq) : State :=
  let r := s.dumpRecord d
  let free := s.rfld (mshA 0x3008) 0 19
  let others := s.obs.dumps.erase d
  if free < r.length then
    { s with obs := { s.obs with dumps := others, drops := s.obs.drops + 1 } }
  else
    let s := if s.tileHung d.tile then s.dumpTimeout 1 d.tile else s
    let s := s.each (s.dumpUnits d) State.takePoison
    let s := s.rfldSet (mshA 0x3008) 0 19 (s.rfld (mshA 0x3008) 0 19 - r.length)
    let ds := s.obs.dumps.map (fun x => if x = d then { d with record := some r } else x)
    { s with obs := { s.obs with dumps := ds } }

/-- The match of a tile that is served next: of the first and those of its cycle, the one of the lowest dump point
(R469). -/
def State.nextDump (s : State) (t : Nat) : Option DumpReq :=
  let l := s.obs.dumps.filter (fun d => d.tile == t && d.record.isNone)
  (l.filter (fun d => l.head?.any (fun x => x.stamp == d.stamp))).foldl
    (fun (a : Option DumpReq) d => match a with
      | some x => if x.point ≤ d.point then a else some d
      | none => some d) none

/-- DUMP_MATCH: the next match of the tile not yet copied begins to copy; matches are served one after
another in ascending index order (R469, R471). -/
def execDumpMatch (t : TileNo) (s : State) : Out :=
  .next (if s.obs.dumps.any (fun d => d.tile == t.val && d.record.isSome && !d.immediate) then s
    else
      match s.nextDump t.val with
      | some d => ((s.stageDump d).kick t.val).dumpStop d
      | none => s)

/-- Dump point `i` performed at once on every tile its entry names (R469, R471). -/
def State.dumpNow (s : State) (i : Nat) : State :=
  let c := s.dumpFld i 0 1 % 64
  s.each ((List.range 32).filter (s.dumpTile i)) (fun s t =>
    let h := (s.tc t).heats.getLast?
    let d : DumpReq :=
      { point := i, tile := t, ctx := c, unit := 16, step := s.dumpFld i 2 1, seq := 0
        prob := s.dumpFld i 0xA 1, layer := s.dumpFld i 4 2, oper := s.dumpFld i 6 2
        heat := (h.map Heat.num).getD 0, stamp := s.fabCount, immediate := true, record := none }
    let ds := s.obs.dumps ++ [d]
    let s := { s with obs := { s.obs with dumps := ds } }
    s.stageDump d)

/-- DUMP_COMPLETE: the last byte of a tile's dump is staged: its hold ends, and its record goes to
stream 3 with its SEQ and the matches dropped before it (R460, R463, R471, R473). -/
def execDumpComplete (t : TileNo) (s : State) : Out :=
  .next (match s.obs.dumps.find? (fun d => d.tile == t.val && d.record.isSome) with
    | none => s
    | some d =>
      let r := d.record.getD []
      let r := leBytes 4 s.obs.dumpSeq ++ (r.drop 4).take 40 ++ leBytes 4 s.obs.drops ++ r.drop 48
      let s := s.eventTile t.val 0x15 d.point s.obs.dumpSeq (some (d.heat, d.layer, d.oper))
      let ds := s.obs.dumps.erase d
      let s := { s with obs := { s.obs with dumps := ds, drops := 0, dumpSeq := s.obs.dumpSeq + 1 } }
      ((s.streamRec 3 r (r.take 64)).kick t.val).dumpStop d)

end Sys2Proof.Machine
end

