-- ==== Sys2Proof/Machine/View.lean ====
section
/-!
DEFINITION. Control-space reads (R7, R10, R16): the value every register shows, those that the state
gives rather than stores among them, the latches of split reads (R364, R457, R458) and RC fields.  An
access path is 0 NET_0, 1 NET_1, 2 JTAG, 3 the boot script.
-/

namespace Sys2Proof.Machine

/-- The word latched for a register on an access path. -/
def State.latchGet (s : State) (a src : Nat) : Word := tget 0 s.obs.latch (4 * a + src)

/-- Latch a word. -/
def State.latchSet (s : State) (a src : Nat) (v : Nat) : State :=
  let l := tput s.obs.latch (4 * a + src) (BitVec.ofNat 32 v)
  { s with obs := { s.obs with latch := l } }

/-- The state as the cycle began, for registers that hardware alone updates: a read in the cycle of an update returns
the value before it (R93, R119, R151, R212, R452, R467, R475). -/
def State.atStart (s : State) : State :=
  { s with
    tiles := s.was.tiles, ctl := s.was.ctl, stores := s.was.stores
    obs := { s.obs with cnt := s.was.cnt, cmds := s.was.cmds } }

/-! ## Tiles -/

/-- IDs of the command that unit u of a tile serves, none when it is idle (R212). -/
def TCtx.unitIds (x : TCtx) (u : Nat) : Option (Nat × Nat) :=
  let ofHeat (n : Nat) : Option (Nat × Nat) :=
    ((x.heat? n).bind Heat.solve).map (fun r => (r.layer, r.oper))
  match u, x.tensor with
  | 1, some r => some (r.cmd.layer, r.cmd.oper)
  | 6, _ => x.copy.map (fun r => (r.cmd.layer, r.cmd.oper))
  | 7, _ => if x.vpipe.isSome then x.curHeat.map (fun h => (h.layer, h.oper)) else none
  | _, _ =>
    (x.live4.find? (fun p => p.2.stage.idx == u && !p.2.waiting)).bind (fun p => ofHeat p.2.heat)

/-- TILE_t_SEQ_STAT.NPE: a span without pre-emption points alone delays a requested stop (R207). -/
def State.npe (s : State) (t : Nat) : Bool :=
  let x := s.tile t
  let left := (List.range 8).filter (fun u => !x.stops.any (fun p => p.1 == u))
  x.preq.isSome && !left.isEmpty && left.all (fun u => x.tc.unitSpan u || s.dumpHolds t u)

/-- Sequencer registers (R212). -/
def State.seqView (s : State) (t off : Nat) : Word :=
  let x := s.tile t
  let st := match x.seq with
    | .idle => 0
    | .running => b2n !x.tc.heats.isEmpty
    | .saving => 2
    | .restoring => 3
  let heat := match x.ctx with
    | some c => if x.tc.heats.isEmpty then (s.rget (ctxA c 0x28)).toNat else x.tc.heatNum
    | none => x.lastHeat
  match off with
  | 0x1000 => BitVec.ofNat 32 (st * 2 ^ 30 + s.ctxOn t * 2 ^ 24 + b2n x.preq.isSome * 2 ^ 23
      + b2n (s.npe t) * 2 ^ 22 + heat % 65536)
  | 0x1004 => BitVec.ofNat 32 x.tc.pc
  | 0x1008 => BitVec.ofNat 32 (x.tc.qb.length * 4096 + x.tc.qc.length * 256 + x.tc.qt.length * 16
      + x.tc.qa.length)
  | 0x1030 => x.preLat
  | _ =>
    match x.tc.unitIds ((off - 0x1010) / 4) with
    | some i => BitVec.ofNat 32 (i.1 * 65536 + i.2)
    | none => 0

/-- Tensor stage registers (R92-R99). -/
def State.tensorView (s : State) (t off : Nat) : Word :=
  let x := s.tc t
  if off = 0x2000 then x.tflag
  else if off = 0x2004 then x.tflagPrev
  else if off = 0x2008 then x.histGen
  else if off = 0x200C then x.histTag
  else if off = 0x2010 then x.xtabFmt
  else if off < 0x2208 then tget 0 x.hist ((off - 0x2100) / 4)
  else if off < 0x2800 then tget 0 x.rmax ((off - 0x2400) / 4)
  else tget 0 x.xtab ((off - 0x2800) / 4)

/-- Scalar Lane registers (R119).  SSTAT shows the modes in force (R118); with no context on the tile its
RULE follows the phase and the other registers read 0 (log entry 64). -/
def State.laneView (s : State) (t off : Nat) : Word :=
  let x := s.tc t
  match off with
  | 0x3000 => x.sflag.setWidth 32
  | 0x3004 => x.strapEn.setWidth 32
  | 0x3008 => 
    let rule := match (s.tile t).ctx with
      | some c => !s.serves c
      | none => s.phase == .boot || s.phase == .bist
    BitVec.ofNat 32 (4 * b2n rule + 2 * b2n x.inTrap + b2n (s.flushOn t))
  | 0x300C => x.strapPc
  | 0x3010 => x.strapCause
  | _ => x.strapVec

/-- The context, the template's share-relative address and the template of the heat a tile serves;
between heats those of the last one (DEDUCED, log entry 51). -/
def State.servedTmpl (s : State) (t : Nat) : Option (Nat × Nat × Tmpl) :=
  match (s.tc t).heats.findSome? Heat.solve with
  | some r => some (s.ctxOn t, r.tmpl, s.tmpl t (s.ctxOn t) r.tmpl)
  | none => (s.tile t).served.map (fun p => (p.1, p.2, s.tmpl t p.1 p.2))

/-- TILE_t_SLOT_k (R151). -/
def slotWord : Option Slot → Word
  | some x => BitVec.ofNat 32 ((x.stage.idx + 1) * 2 ^ 29 + b2n x.waiting * 2 ^ 28
      + x.prob % 64 * 65536 + x.pflag % 65536)
  | none => 0

/-- Solver registers (R151, R185). -/
def State.solverView (s : State) (t off : Nat) : Word :=
  let x := s.tile t
  let c := s.ctxOn t
  let tm := s.servedTmpl t
  let st := tm.map (fun m => s.store (s.storeA t m.1 m.2.1))
  match off with
  | 0x4010 => BitVec.ofNat 32 ((tm.map (fun m => m.2.2.stag)).getD 0)
  | 0x4014 => match st with
    | some f => if f.committed.isSome then BitVec.ofNat 32 f.tag else 0
    | none => 0
  | 0x4018 => match st with
    | some f => BitVec.ofNat 32 (f.heat % 65536 * 65536 + 4 * b2n (match s.factoring t c, tm with
          | some y, some m => s.storeA t c y.tmpl == s.storeA t m.1 m.2.1
          | _, _ => false)
        + 2 * (f.committed.getD 0) + b2n f.committed.isSome)
    | none => 0
  | 0x401C => BitVec.ofNat 32 (x.solvDone % 128 * 65536 + x.solvOr % 65536)
  | 0x4020 =>
    let it := x.tc.live4.find? (fun p => p.2.stage.idx == 4 && !p.2.waiting)
    let k := match it with
      | some p => (s.tmpl t c p.2.tmpl).k
      | none => (tm.map (fun m => m.2.2.k)).getD 0
    BitVec.ofNat 32 (k % 256 * 2 ^ 24
      + ((it.map (fun p => p.2.iter)).getD 0) % 256 * 65536 + x.lastCode % 256 * 256
      + b2n it.isSome * 128 + ((it.map (fun p => p.2.prob)).getD 0) % 64)
  | 0x4024 => BitVec.ofNat 32 (min x.warmDrop 0xFFFFFFFF)
  | 0x4028 => BitVec.ofNat 32 (min x.dlnMissed 0xFFFF * 65536 + min x.dlnCut 0xFFFF)
  | 0x402C => BitVec.ofNat 32 (min x.fbAborted 0xFFFF * 65536 + min x.fbFallback 0xFFFF)
  | _ => slotWord (x.tc.slotAt ((off - 0x4000) / 4))

/-! ## Counter blocks (R456-R458) -/

/-- The command of the tile's unit whose counter block is at `b`. -/
def State.cmdAt (s : State) (b : Nat) : UnitCmd := s.cmd ((b - 0x01000000) / 0x10000) ((b % 0x10000 - 0x6000) / 0x100)

/-- A register of the counter block at `b`: `eng` for an engine, `seq` for the sequencer. -/
def State.cntView (s : State) (src b o : Nat) (eng seq : Bool) : Word :=
  if o < 0x18 then
    (if o % 8 = 0 then BitVec.ofNat 32 (s.cnt (b + o)) else s.latchGet (b + o) src)
  else if o = 0x18 then
    (if eng || seq then 0 else BitVec.ofNat 32 ((s.cmdAt b).layer * 65536 + (s.cmdAt b).oper))
  else if o < 0x28 then (if eng then 0 else s.latchGet (b + o) src)
  else s.rget (b + o)

/-- What a read of a counter block latches (R457, R458). -/
def State.cntLatch (s : State) (src b o : Nat) : State :=
  let p := s.atStart
  if o = 0x00 ∨ o = 0x08 ∨ o = 0x10 then s.latchSet (b + o + 4) src (p.cnt (b + o) / 2 ^ 32)
  else if o = 0x18 then
    let k := if 0x01000000 ≤ b then p.cmdAt b else {}
    ((s.latchSet (b + 0x1C) src k.busy).latchSet (b + 0x20) src k.stall).latchSet
      (b + 0x24) src (k.top.1 * 2 ^ 27 + k.top.2)
  else s

/-! ## Dispatcher (R320-R322) -/

/-- DSP_TILE_t (R320). -/
def State.dspTile (s : State) (t : Nat) : Word :=
  let x := s.tile t
  let e := s.tileEntry t
  let saved := s.dsp.be.find? (fun r => r.saved && r.tiles.contains t)
  let td := s.dsp.teardowns.find? (fun d => bitAt (s.ctxTiles d.ctx) t)
  let r : Nat × Nat × Nat :=
    match e with
    | some q =>
      ((match q.state with | .running => 3 | .ready => 2 | _ => 1), q.ctx, q.idx)
    | none =>
      match s.tileBe t, saved, td with
      | some b, _, _ => (4, b.ctx, 0)
      | none, some b, _ => (5, b.ctx, 0)
      | none, none, some d => (7, d.ctx, 0)
      | none, none, none => (0, s.ctxOn t, 0)
  let st := if x.reclaim then 6 else r.1
  BitVec.ofNat 32 (st * 2 ^ 29 + r.2.1 % 64 * 2 ^ 23 + b2n (s.lentOn t).isSome * 2 ^ 22
    + b2n (x.power == .nap) * 65536 + r.2.2 % 65536)

/-- DSP_CTX_c_STAT.TILES: tiles running or holding saved heats of the context. -/
def State.ctxBusyTiles (s : State) (c : Nat) : Nat :=
  ((List.range 32).filter (fun t =>
    ((s.tile t).ctx == some c && !(s.tc t).heats.isEmpty)
      || (match tfind s.saved (savedKey c t) with | some x => !x.heats.isEmpty | none => false))).length

/-- Dispatcher registers that the state gives (R320-R322). -/
def State.dspView (s : State) (a : Nat) : Word :=
  let o := a - 0x60000
  let w := s.rget a
  if 0x100 ≤ o ∧ o < 0x180 then s.dspTile ((o - 0x100) / 4)
  else if 0x1000 ≤ o ∧ o < 0x1400 ∧ o % 0x40 = 0x1C then
    let p := (o - 0x1000) / 0x40
    fsetBit w 29 (s.holds p 0 || s.holds p 1)
  else if 0x4000 ≤ o ∧ o % 0x40 = 0x24 then fset w 0 6 (s.ctxBusyTiles ((o - 0x4000) / 0x40))
  else if 0x4000 ≤ o ∧ o % 0x40 = 0x30 then
    BitVec.ofNat 32 (tget [] s.dsp.beq ((o - 0x4000) / 0x40)).length
  else w

/-! ## The Lap Engine (R245, R246) -/

/-- The lap base: cycles since entry to SERVICE (R214). -/
def State.lapBase (s : State) : Nat :=
  match s.lap.zero with
  | some z => s.now - z
  | none => 0

/-- LAP_LOOP_n_STAT with PEND, RAMPING and INJ (R246). -/
def State.loopStat (s : State) (n : Nat) : Word :=
  let w := s.rget (loopA n 0x60)
  let w := fsetBit w 29 (s.rfld (loopA n 0x00) 0 2 != s.loopMode n)
  let w := fsetBit w 27 (s.rget (loopA n 0x70) != s.targetAt n)
  fsetBit w 26 (s.genOf n).isSome

/-- Lap Engine registers that the state gives. -/
def State.lapView (s : State) (src a : Nat) : Word :=
  if a < 0x140000 then
    (if a % 0x100 = 0x60 then s.loopStat ((a - 0x100000) / 0x100) else s.rget a)
  else
    let o := a - 0x140000
    if o = 0x00 then BitVec.ofNat 32 s.lapBase
    else if o = 0x04 then s.latchGet a src
    else if o = 0x14 then
      let act := ((List.range 1024).filter (fun n => s.loopMode n != 0)).length
      let st := ((List.range 1024).filter (fun n => s.rbit (loopA n 0x60) 28)).length
      BitVec.ofNat 32 (act * 65536 + st)
    else if 0x100 ≤ o ∧ o < 0x180 then
      let k := (o - 0x100) / 4
      (List.range 32).foldl (fun w j =>
        fsetBit w j (s.rget (loopA (32 * k + j) 0x64) != 0)) (0 : Word)
    else s.rget a

/-! ## Time, links, clocks -/

/-- Split Timer registers: the time of the last tick, INC, and the latches (R362-R364, R378). -/
def State.splView (s : State) (src o : Nat) : Word :=
  match o with
  | 0x08 => BitVec.ofNat 32 (s.time.split / 2 ^ 32 % 1000000000)
  | 0x0C => s.latchGet (splA o) src
  | 0x10 => s.latchGet (splA o) src
  | 0x14 => s.latchGet (splA o) src
  | 0x18 => BitVec.ofNat 32 (s.time.inc / 2 ^ 32 % 256)
  | 0x1C => BitVec.ofNat 32 s.time.inc
  | _ => s.rget (splA o)

/-- RLY_STAT.PRESENT: devices that a valid route over an ACTIVE link reaches (R399). -/
def State.present (s : State) : Nat :=
  ((List.range 16).filter (fun n => match s.route (s.dist n) with
    | some (k, _) => s.linkState k == 7 || s.linkState k == 8
    | none => false)).foldl (fun a n => a + 2 ^ n) 0

/-- Relay Link registers (R399, R400). -/
def State.rlyView (s : State) (src a : Nat) : Word :=
  let o := a - 0x40000
  let w := s.rget a
  if o = 0x04 then
    let hops := if s.role = 2 then ((s.route (s.dist 0)).map Prod.snd).getD 0 else 0
    fset (fset (fsetBit (fsetBit w 31 s.fabOk) 30 s.mpath) 27 3 hops) 0 16 s.present
  else if o = 0x10 then BitVec.ofNat 32 s.fabCount
  else if o = 0x14 then s.latchGet a src
  else if 0x1000 ≤ o ∧ o % 0x100 = 0x04 then fsetBit w 27 (s.upstream == some ((o - 0x1000) / 0x100))
  else w

/-- CLK_STAT with NET and RLY (R33). -/
def State.clkView (s : State) (a : Nat) : Word :=
  let w := s.rget a
  if a = clkStatA then
    let w := [0, 1].foldl (fun w k => fsetBit w (4 + k) (s.netOn k)) w
    [0, 1, 2, 3].foldl (fun w k => fsetBit w k (s.linkState k != 0)) w
  else w

/-! ## Every register -/

/-- Marshal registers: counter blocks of the engines (R456), everything else as stored. -/
def State.mshView (s : State) (src a : Nat) : Word :=
  if mshA 0x1000 ≤ a ∧ a < mshA 0x2600 then s.atStart.cntView src (a / 0x100 * 0x100) (a % 0x100) true false
  else if regSpec a = some regRO then s.atStart.rget a
  else s.rget a

/-- A register of a tile. -/
def State.tileView (s : State) (src a : Nat) : Word :=
  let t := (a - 0x01000000) / 0x10000
  let o := a % 0x10000
  if o < 0x2000 then s.atStart.seqView t o
  else if o < 0x3000 then s.atStart.tensorView t o
  else if o < 0x4000 then s.atStart.laneView t o
  else if o < 0x4024 then s.atStart.solverView t o
  else if o < 0x5000 then s.solverView t o
  else if o < 0x6000 then s.rget a
  else s.atStart.cntView src (a / 0x100 * 0x100) (o % 0x100) false (o / 0x100 == 0x68)

/-- The word a register shows on an access path; COUNT of a proxy reads 0 (R309). -/
def State.regView (s : State) (src a : Nat) : Word :=
  if a < 0x10000 then s.rget a
  else if a < 0x20000 then s.clkView a
  else if a < 0x30000 then s.splView src (a - 0x20000)
  else if a < 0x40000 then s.rget a
  else if a < 0x50000 then s.rlyView src a
  else if a < 0x60000 then s.rget a
  else if a < 0x80000 then s.dspView a
  else if a < 0x100000 then s.mshView src a
  else if a < 0x180000 then s.lapView src a
  else if 0x201000 ≤ a ∧ a < 0x201800 ∧ a % 0x20 = 0x10 then
    fsetBit (s.rget a) 29 (s.pwmLoop ((a - 0x201000) / 0x20)).isSome
  else if 0x01000000 ≤ a ∧ a < 0x01200000 then s.tileView src a
  else if 0x03000000 ≤ a ∧ a % 16 = 0 then
    (if s.batonProxy ((a - 0x03000000) / 16) then 0 else s.rget a)
  else s.rget a

/-- What a read latches: SPL_NS (R364), the _LO halves and CMD_ID (R457, R458). -/
def State.readLatch (s : State) (src a : Nat) : State :=
  if a = splA 0x08 then
    let t := s.time.split
    let sec := t / 2 ^ 32 / 1000000000
    ((s.latchSet (splA 0x0C) src sec).latchSet (splA 0x10) src (sec / 2 ^ 32 % 65536)).latchSet
      (splA 0x14) src t
  else if a = rlyA 0x10 then s.latchSet (rlyA 0x14) src (s.fabCount / 2 ^ 32)
  else if a = lapA 0x00 then s.latchSet (lapA 0x04) src (s.lapBase / 2 ^ 32)
  else if (mshA 0x1000 ≤ a ∧ a < mshA 0x2600)
      ∨ (0x01000000 ≤ a ∧ a < 0x01200000 ∧ 0x6000 ≤ a % 0x10000) then
    s.cntLatch src (a / 0x100 * 0x100) (a % 0x100)
  else s

/-- RC fields are cleared by the read (R16); the solver's counts stand in their tile (R185). -/
def State.readClear (s : State) (a : Nat) (rc : Word) : State :=
  if 0x01000000 ≤ a ∧ a < 0x01200000 ∧ a % 0x10000 < 0x5000 then
    s.modTile ((a - 0x01000000) / 0x10000) (fun x => match a % 0x10000 with
      | 0x4024 => { x with warmDrop := 0 }
      | 0x4028 => { x with dlnMissed := 0, dlnCut := 0 }
      | _ => { x with fbAborted := 0, fbFallback := 0 })
  else s.rset a (s.rget a &&& ~~~rc)

/-- Whether a register's domain does not answer: it is not in RUN in device HOLD (R27, R358), or its
tile or cluster is in reset (R442). -/
def State.regBlocked (s : State) (a : Nat) : Bool :=
  let hold (b : Nat) : Bool := s.rbit clkStatA b
  let inReset (t : Nat) : Bool := (s.tile t).inReset
  let clu (k : Nat) : Bool := s.clkState != 0 && hold (8 + k)
  if a < 0x30000 then false
  else if a < 0x40000 then s.clkState == 2 && !s.netOn ((a - 0x30000) / 0x1000)
  else if a < 0x50000 then hold 7
  else if 0x50200 ≤ a ∧ a < 0x50220 then
    let k := (a - 0x50200) / 8
    clu k || s.health.units.any (fun u => u == (2, k))
  else if a < 0x60000 then hold 6
  else if mshA 0 ≤ a ∧ a < mshA 0x1000 then false
  else if 0x01000000 ≤ a ∧ a < 0x01200000 then
    let t := (a - 0x01000000) / 0x10000
    clu (t / 8) || inReset t
  else hold 7

/-- A read on an access path: the state after it, the word and a status of R357. -/
def State.readReg (s : State) (src a : Nat) : State × Word × Nat :=
  match regSpec a with
  | none => (s, 0, 1)
  | some r =>
    if s.regBlocked a then (s, 0, 8)
    else
      let v := s.regView src a &&& ~~~r.wo
      let s := s.readLatch src a
      (if r.rc = 0 then s else s.readClear a r.rc, v, 0)

/-- A read by a host port or JTAG. -/
def State.regRead (s : State) (src : Fin 3) (a : Nat) : State :=
  if src.val = 2 ∧ s.sbLock = true ∧ s.rbit 0x24 31 = false then s else (s.readReg src.val a).1

/-- RC_REGISTER_READ: a read of a register with RC fields (R16). -/
def execRcRegisterRead (src : Fin 3) (a : Word) (s : State) : Out :=
  .next (match regSpec a.toNat with
    | some r => if r.rc = 0 then s else s.regRead src a.toNat
    | none => s)

/-- SPL_NS_READ: SPL_NS is read and latches the rest of the time of the same tick (R364). -/
def execSplNsRead (src : Fin 3) (s : State) : Out := .next (s.regRead src (splA 0x08))

/-- The _LO registers of R245, R399 and R457. -/
def splitLo (a : Nat) : Bool :=
  a == rlyA 0x10 || a == lapA 0x00
    || ((regSpec a).isSome
      && ((decide (mshA 0x1000 ≤ a) && decide (a < mshA 0x2600))
        || (decide (0x01000000 ≤ a) && decide (a < 0x01200000) && decide (0x6000 ≤ a % 0x10000)))
      && (a % 0x100 == 0x00 || a % 0x100 == 0x08 || a % 0x100 == 0x10))

/-- SPLIT_LO_REGISTER_READ: a _LO register is read and latches its _HI half (R457). -/
def execSplitLoRegisterRead (src : Fin 3) (a : Word) (s : State) : Out :=
  .next (if splitLo a.toNat then s.regRead src a.toNat else s)

/-- CMD_ID_READ: CMD_ID of unit `unit` of a tile is read and latches the command's counts (R458). -/
def execCmdIdRead (src : Fin 3) (t : TileNo) (unit : Fin 9) (s : State) : Out :=
  .next (s.regRead src (cntA t.val unit.val + 0x18))

end Sys2Proof.Machine
end

