-- ==== Sys2Proof/Machine/Control.lean ====
section
/-!
DEFINITION. Control-space writes: the access codes (R16), BL fields and their violation (R17),
permissions (R356, R427), the registers' own rules, and the commands that write one register.  Sources
are 0 NET_0, 1 NET_1, 2 JTAG; the boot script writes with its own rights (R416).
-/

namespace Sys2Proof.Machine

/-! ## Own rules of registers -/

/-- Codes and values that a register's own table refuses (R33, R264, R320, R345, R377, R378, R399,
R476). -/
def codeRefused (a : Nat) (w : Word) : Bool :=
  if a = rlyA 0x00 then fget w 30 2 == 3
  else if a = rlyA 0x0C then fget w 0 8 == 0
  else if rlyA 0x100 ≤ a ∧ a < rlyA 0x200 ∧ a % 16 = 8 then fget w 27 2 == 3
  else if a = splA 0x20 then fget w 0 31 == 0
  else if a = splA 0x24 then fget w 0 4 == 0
  else if a = netA 0 0 ∨ a = netA 1 0 then fget w 27 2 == 3
  else if a = memA 0x00 then fget w 30 2 == 3
  else if a = dspA 0x30 then fget w 0 16 == 0
  else if 0x201000 ≤ a ∧ a < 0x201800 ∧ a % 0x20 = 0 then fget w 29 2 == 3
  else if a = tripA 0x00 then fget w 0 8 == 0
  else if a = mshA 0x3000 then
    fget w 0 8 == 0 || (fget w 14 5 != 0 && (decide (fget w 14 5 < 10) || decide (20 < fget w 14 5)))
  else false

/-- Write the RW bits and clear the RW1C bits that a word names, but for one that hardware sets in the same cycle
(R16, R343). -/
def State.plainWrite (s : State) (a : Nat) (r : RegSpec) (v : Word) : State :=
  let w := mergeRW r.rw (s.rget a) v
  let s := s.rset a (w &&& ~~~(v &&& r.w1c))
  if fbit (v &&& r.w1c) 31 then s.eccCleared a else s

/-- Every counter block clears (R456). -/
def State.clearCounters (s : State) : State :=
  let mine (a : Nat) : Bool := (decide (mshA 0x1000 ≤ a) && decide (a < mshA 0x2600))
    || (decide (0x01000000 ≤ a) && decide (a < 0x01200000) && decide (0x6000 ≤ a % 0x10000))
  let c := s.ctl.filter (fun e => !mine e.1)
  let s := { s with ctl := c }
  let zero (k : UnitCmd) : UnitCmd := { k with busy := 0, stall := 0, why := [] }
  let l := s.obs.cmds.map (fun p => (p.1, (p.2.filter UnitCmd.active).map zero))
  { s with obs := { s.obs with cnt := [], cmds := l } }

/-- MSH_OBS_CTRL: its fields, and CLR (R456, R476). -/
def State.obsCtrlWrite (s : State) (r : RegSpec) (v : Word) : State × Bool :=
  if codeRefused (mshA 0x3000) (mergeRW r.rw (s.rget (mshA 0x3000)) v) then (s, false)
  else
    let s := s.plainWrite (mshA 0x3000) r v
    (if fbit v 13 then s.clearCounters else s, true)

/-- A word of the dump-point table; setting EN starts the count of matches (R468). -/
def State.dumpWrite (s : State) (a : Nat) (r : RegSpec) (v : Word) : State :=
  let i := (a - dumpA 0) / 32
  let on := a % 32 == 0 && fbit v 7 && !s.rbit a 7
  let s := s.plainWrite a r v
  if on then
    let m := tdel s.obs.matched i
    { s with obs := { s.obs with matched := m } }
  else s

/-- The POST word of a baton: applied as a post with no bib, or refused on a baton not in use
(R311). -/
def State.postWrite (s : State) (b : Nat) (v : Word) : State × Bool :=
  if s.batonEn b then (s.postHost b v.toNat, true) else (s, false)

/-- Marshal's RW and WO registers. -/
def State.mshWrite (s : State) (a : Nat) (r : RegSpec) (v : Word) : State × Bool :=
  if a = mshA 0x3000 then s.obsCtrlWrite r v
  else if a = mshA 0x300C then (if fbit v 31 then s.dumpNow (fget v 0 8) else s, true)
  else if dumpA 0 ≤ a ∧ a < dumpA 256 then (s.dumpWrite a r v, true)
  else (s.plainWrite a r v, true)

/-- The Lap Engine's registers; `boot`: written by the script.  A slot with EN = 0 refuses every other
write (R213); a FLAGS bit that the hardware set in this cycle stays set (R244). -/
def State.lapWrite (s : State) (boot : Bool) (a : Nat) (r : RegSpec) (v : Word) : State × Bool :=
  if a < 0x140000 then
    let n := (a - 0x100000) / 0x100
    (if r.rw = 0 then
      (if !s.loopEn n && !boot then (s.rcount (lapA 0x10) 0 32 1, false)
       else (s.plainWrite a r (v &&& ~~~(s.flagsSet n a)), true))
     else s.loopWrite boot ((a - 0x100000) / 0x100) (a % 0x100) r.rw v)
  else if genA 0 0 ≤ a ∧ a < genA 8 0 then
    (if r.rw = 0 then (s.plainWrite a r v, true)
     else s.genWrite ((a - genA 0 0) / 0x40) (a % 0x40) r.rw v)
  else if prbA 0 0 ≤ a ∧ a < prbA 8 0 then s.probeWrite ((a - prbA 0 0) / 0x40) (a % 0x40) r.rw v
  else (s, true)

/-- Sample Port, PWM and trip registers. -/
def State.ioWrite (s : State) (a : Nat) (r : RegSpec) (v : Word) : State × Bool :=
  if a < 0x201000 then
    (if r.rw = 0 then (s.plainWrite a r v, true)
     else s.sptWrite ((a - 0x200000) / 0x100) (a % 0x100) r.rw v)
  else if a < 0x202000 then
    (if r.rw = 0 then (s.plainWrite a r v, true)
     else s.pwmWrite ((a - 0x201000) / 0x20) (a % 0x20) r.rw v)
  else if a = tripA 0x04 then (s.tripClear v, true)
  else (s, true)

/-- Dispatcher registers: arming, and pushes of BE records (R285, R294). -/
def State.dspWrite (s : State) (boot : Bool) (a : Nat) (r : RegSpec) (v : Word) : State × Bool :=
  if a = dspA 0x1C then (if fbit v 31 then s.arm (!boot) else (s.disarm, true))
  else if ctxA 0 0 ≤ a ∧ a % 0x40 = 0x2C then
    let c := (a - ctxA 0 0) / 0x40
    if s.ctxBE c then ((s.beqPush c 0xFFFFFFFF v).1, true) else (s, false)
  else (s.plainWrite a r v, true)

/-- What a write does to the fields of a register but for its BL fields; answers whether the
register's own rules accept it. -/
def State.fieldWrite (s : State) (boot : Bool) (a : Nat) (r : RegSpec) (v : Word) : State × Bool :=
  if a = clkHoldA then s.holdWrite v
  else if dspA 0 ≤ a ∧ a < 0x80000 then s.dspWrite boot a r v
  else if mshA 0x3000 ≤ a ∧ a < mshA 0x6000 then s.mshWrite a r v
  else if 0x100000 ≤ a ∧ a < 0x180000 then s.lapWrite boot a r v
  else if 0x200000 ≤ a ∧ a < 0x203000 then s.ioWrite a r v
  else if 0x02000000 ≤ a ∧ a < 0x02100000 then s.tableWrite ((a - 0x02000000) / 16) (a % 16 / 4) v
  else if 0x03000000 ≤ a ∧ a % 16 = 12 then s.postWrite ((a - 0x03000000) / 16) v
  else (s.plainWrite a r v, true)

/-! ## Host and JTAG writes -/

/-- Whether port k's NET_k_PERM has the PART bit of partition p. -/
def State.permPart (s : State) (k p : Nat) : Bool := s.rbit (netA k 0x04) p
/-- NET_k_PERM.DEV. -/
def State.permDev (s : State) (k : Nat) : Bool := s.rbit (netA k 0x04) 31
/-- NET_k_PERM.DSP. -/
def State.permDsp (s : State) (k : Nat) : Bool := s.rbit (netA k 0x04) 30

/-- What a control-space write needs (R356). -/
inductive WriteRight where
  | dev | dsp
  | part (p : Nat)
  | baton (b : Nat)
  deriving DecidableEq, Repr

/-- The right that a write of word `v` to an address needs (R356). -/
def State.writeRight (s : State) (a : Nat) (v : Word) : WriteRight :=
  let owner (n : Nat) : WriteRight := .part (s.rfld (loopA n 0x18) 0 4)
  if 0x100000 ≤ a ∧ a < 0x140000 then owner ((a - 0x100000) / 0x100)
  else if genA 0 0 ≤ a ∧ a < genA 8 0 ∧ a % 0x40 = 0 then owner (fget v 16 10)
  else if prbA 0 0 ≤ a ∧ a < prbA 8 0 ∧ a % 0x40 = 0 then owner (fget v 16 10)
  else if partA 0 0 ≤ a ∧ a < partA 16 0 then .part ((a - partA 0 0) / 0x40)
  else if ctxA 0 0 ≤ a ∧ a < ctxA 64 0 then .part (s.ctxPart ((a - ctxA 0 0) / 0x40))
  else if dspA 0 ≤ a ∧ a < partA 0 0 then .dsp
  else if 0x02000000 ≤ a ∧ a < 0x02100000 then .dsp
  else if 0x03000000 ≤ a ∧ a < 0x03080000 ∧ a % 16 = 12 then .baton ((a - 0x03000000) / 16)
  else .dev

/-- Whether a source may make a write: a port by NET_k_PERM (R356); JTAG after SB_LOCK with
SB_DBG.JWR, and the rights that DEV and DSP give a port (R427). -/
def State.mayWrite (s : State) (src a : Nat) (v : Word) : Bool :=
  let jtag := src == 2
  let jok := s.sbLock && s.rbit 0x24 30
  match s.writeRight a v with
  | .dev => if jtag then jok else s.permDev src
  | .dsp => if jtag then jok else s.permDsp src
  | .part p => !jtag && s.permPart src p
  | .baton b => !jtag && (List.range 16).any (fun p => bitAt (s.batonMask b) p && s.permPart src p)

/-- A lock violation: SB_VIOL and SB_VIOL_ADDR (R17, R431). -/
def State.violation (s : State) (src a : Nat) : State :=
  let s := (s.rbitSet 0x10 31 true).rfldSet 0x10 28 2 src
  (s.rcount 0x10 0 16 1).rset 0x14 (BitVec.ofNat 32 a)

/-- Whether a write would change a BL field (R17). -/
def State.violates (s : State) (a : Nat) (r : RegSpec) (v : Word) : Bool :=
  (s.rget a ^^^ v) &&& r.bl != 0

/-- A write by a port or JTAG: the state after it and a status of R357 (R10, R16, R17, R356,
R358).  A write refused for want of permission or because its domain is held is no lock violation, whatever BL
field it names (DESIGN CHOICE, log entry 35). -/
def State.writeReg (s : State) (src a : Nat) (v : Word) : State × Nat :=
  match regSpec a with
  | none => (s, 1)
  | some r =>
    if s.sbLock = false then (s, if src = 2 then 3 else 8)
    else if s.mayWrite src a v = false then (s, 3)
    else if s.regBlocked a then (s, 8)
    else
      let viol := s.violates a r v
      let s := if viol then s.violation src a else s
      let q := s.fieldWrite false a r v
      (q.1, if viol || !q.2 then 2 else 0)

/-! ## The boot script's writes (R416, R417) -/

/-- A script write: BL fields too; answers whether the register's own rules accept it. -/
def State.scriptWrite (s : State) (a : Nat) (v : Word) : State × Bool :=
  match regSpec a with
  | none => (s, false)
  | some r =>
    let w := mergeRW r.bl (s.rget a) v
    if codeRefused a (mergeRW (r.bl ||| r.rw) (s.rget a) v) || s.regBlocked a then (s, false)
    else (if r.bl = 0 then s else s.rset a w).fieldWrite true a r v

/-! ## Commands that write one register -/

/-- A write by a host port or JTAG, its status left to the response that carries it. -/
def State.hostWrite (s : State) (src : Fin 3) (a : Nat) (v : Word) : State := (s.writeReg src.val a v).1

/-- REGISTER_WRITE: a write to a control-space address (R7, R10, R16, R17). -/
def execRegisterWrite (src : Fin 3) (a v : Word) (s : State) : Out := .next (s.hostWrite src a.toNat v)

/-- CTRL: a write of LAP_LOOP_n_CTRL (R219). -/
def execCtrl (src : Fin 3) (n : Fin 1024) (v : Word) (s : State) : Out :=
  .next (s.hostWrite src (loopA n.val 0x00) v)

/-- COEFFICIENT_WRITE: a write of B0 to B3, A1 to A3, BSH or ASH, numbered 0 to 8 (R236). -/
def execCoefficientWrite (src : Fin 3) (n : Fin 1024) (k : Fin 9) (v : Word) (s : State) : Out :=
  .next (s.hostWrite src (loopA n.val (0x20 + 4 * k.val)) v)

/-- LOOP_CONFIG_WRITE: a write of CFG, PERIOD, PHASE, SRC or DST, numbered 0 to 4 (R237). -/
def execLoopConfigWrite (src : Fin 3) (n : Fin 1024) (k : Fin 5) (v : Word) (s : State) : Out :=
  .next (s.hostWrite src (loopA n.val (0x04 + 4 * k.val)) v)

/-- LIMIT_WRITE: a write of U_MIN, or of U_MAX when `hi` (R235). -/
def execLimitWrite (src : Fin 3) (n : Fin 1024) (hi : Bool) (v : Word) (s : State) : Out :=
  .next (s.hostWrite src (loopA n.val (if hi then 0x48 else 0x44)) v)

/-- TARGET: a host write of TARGET (R228). -/
def execTarget (src : Fin 3) (n : Fin 1024) (v : Word) (s : State) : Out :=
  .next (s.hostWrite src (loopA n.val 0x4C) v)

/-- GENERATOR_EN_WRITE: a write of LAP_GEN_g_CTRL (R238, R241). -/
def execGeneratorEnWrite (src : Fin 3) (g : Fin 8) (v : Word) (s : State) : Out :=
  .next (s.hostWrite src (genA g.val 0x00) v)

/-- PROBE_ARM: a write of LAP_PRB_p_CTRL (R243). -/
def execProbeArm (src : Fin 3) (p : Fin 8) (v : Word) (s : State) : Out :=
  .next (s.hostWrite src (prbA p.val 0x00) v)

/-- PROBE_TRIG: a write of LAP_PRB_p_TRIG (R243). -/
def execProbeTrig (src : Fin 3) (p : Fin 8) (v : Word) (s : State) : Out :=
  .next (s.hostWrite src (prbA p.val 0x04) v)

/-- SPT_RXCFG_WRITE: a write of SPT_p_RXCFG (R272). -/
def execSptRxcfgWrite (src : Fin 3) (p : Fin 16) (v : Word) (s : State) : Out :=
  .next (s.hostWrite src (sptA p.val 0x00) v)

/-- SPT_TXCFG_WRITE: a write of SPT_p_TXCFG (R263, R272). -/
def execSptTxcfgWrite (src : Fin 3) (p : Fin 16) (v : Word) (s : State) : Out :=
  .next (s.hostWrite src (sptA p.val 0x24) v)

/-- TRIP_LATCH_CLEAR: a write of PWM_TRIP_STAT (R270). -/
def execTripLatchClear (src : Fin 3) (v : Word) (s : State) : Out :=
  .next (s.hostWrite src (tripA 0x04) v)

/-- PWM_CFG_WRITE: a write of PWM_c_CFG (0), DMIN (1) or DMAX (2) (R273). -/
def execPwmCfgWrite (src : Fin 3) (c : Fin 64) (k : Fin 3) (v : Word) (s : State) : Out :=
  .next (s.hostWrite src (pwmA c.val (if k.val = 0 then 0x00 else 0x04 + 4 * k.val)) v)

/-- ACCEPT_STEP_WRITE: a write of SPL_CTRL (R372). -/
def execAcceptStepWrite (src : Fin 3) (v : Word) (s : State) : Out :=
  .next (s.hostWrite src (splA 0x00) v)

/-- HOLD_REQ: a write of CLK_HOLD with REQ = 1 (R29, R30, R32). -/
def execHoldReq (src : Fin 3) (v : Word) (s : State) : Out :=
  .next (s.hostWrite src clkHoldA (v ||| 0x80000000))

/-- HOLD_EXIT: a write of CLK_HOLD with EXIT = 1 (R31). -/
def execHoldExit (src : Fin 3) (v : Word) (s : State) : Out :=
  .next (s.hostWrite src clkHoldA (v ||| 0x40000000))

/-- ARM: a write of DSP_NEXT_CTRL with ARM = 1 (R285). -/
def execArm (src : Fin 3) (s : State) : Out := .next (s.hostWrite src (dspA 0x1C) 0x80000000)

/-- SCHEDULE_TABLE_WRITE: a write of word `w` of table entry `entry` (R279). -/
def execScheduleTableWrite (src : Fin 3) (entry : Fin 65536) (w : Fin 4) (v : Word) (s : State) : Out :=
  .next (s.hostWrite src (tableA entry.val w.val) v)

/-- BEQ: a host write of DSP_CTX_c_BEQ pushes a heat record (R294). -/
def execBeq (src : Fin 3) (c : Fin 64) (v : Word) (s : State) : Out :=
  .next (s.hostWrite src (ctxA c.val 0x2C) v)

/-- POST: a host write of a baton's POST word (R311). -/
def execPost (src : Fin 3) (baton : Fin 32768) (v : Word) (s : State) : Out :=
  .next (s.hostWrite src (batonA baton.val 12) v)

/-- MSH_DUMP_NOW: a write of MSH_DUMP_NOW (R469). -/
def execMshDumpNow (src : Fin 3) (v : Word) (s : State) : Out :=
  .next (s.hostWrite src (mshA 0x300C) v)

/-- OBS_COUNTER_CLEAR: a write of MSH_OBS_CTRL with CLR = 1 (R456, R476). -/
def execObsCounterClear (src : Fin 3) (v : Word) (s : State) : Out :=
  .next (s.hostWrite src (mshA 0x3000) (v ||| 0x00002000))

end Sys2Proof.Machine
end

