-- ==== Sys2Proof/Machine/Reload.lean ====
section
/-!
DEFINITION. Reloads from the shadow (R315, R341, R425, R441): a partition's sections are replayed, into
data space or as register writes, and the context load sequences follow.
-/

namespace Sys2Proof.Machine

/-- Replay a CTRL section as register writes; BL fields stay as the lock keeps them (R17, R425). -/
def State.replayWords (s : State) (a : Nat) : List Word → State
  | [] => s
  | w :: t =>
    let s := match regSpec a with
      | some r => (s.fieldWrite true a r w).1
      | none => s
    State.replayWords s (a + 4) t

/-- The bytes of the shadow that its directory takes: 1,024 entries of 32 bytes (R425). -/
def State.shadowHead (s : State) : Nat × Nat := (s.shadow.1, 32768)

/-- Copy a partition's sections; an uncorrectable error stops the reload and names its section
(R341, R425). -/
def State.reload (s : State) : List (Nat × Nat × Nat × Nat × Nat) → State × Option Nat
  | [] => (s, none)
  | (sec, flags, len, dest, src) :: rest =>
    if s.poisoned src len then (s.readPoison src len, some sec)
    else
      let l := s.mread src len
      State.reload (if bitAt flags 0 then s.replayWords (dest % 2 ^ 32) (wordsOf l)
        else s.mwrite (dest % 2 ^ 48) l) rest

/-- Reload a partition from its shadow: the directory is read first, then the sections it lists (R341, R425). -/
def State.reloadPart (s : State) (p : Nat) : State × Option Nat :=
  let h := s.shadowHead
  if s.poisoned h.1 h.2 then
    let s := s.readPoison h.1 h.2
    ({ s with fresh := s.fresh + 1 }, some (Config.reloadSection s.fresh).toNat)
  else s.reload (s.shadowDir p)

/-- A reload has met an uncorrectable error in a section: verdict RELOAD_ECC; only a device reset
brings the partition up again (R341, R441). -/
def State.reloadFailed (s : State) (p sec : Nat) : State :=
  let s := s.verdict 3 3 p 0x05 sec
  s.setHealth { s.health with dead := linsert s.health.dead p }

/-- CONTEXT_RELOAD_COMPLETE: a FAULTED context with RESTART has been reloaded and becomes READY at the
next boundary, once no request carries the bib it holds (R315, R341, R424, R443). -/
def execContextReloadComplete (c : Fin 64) (s : State) : Out :=
  let k := c.val
  let p := s.ctxPart k
  .next (if s.ctxState k = 4 ∧ s.ctxRestart k = true ∧ s.partState p = 1
      ∧ s.outstanding k (s.ctxBib k) = false then
      let r := s.reloadPart p
      match r.2 with
      | some sec => (r.1.reloadFailed p sec).partReset p false true
      | none =>
        let s := (r.1.loadContext k false).rfldSet (ctxA k 0x24) 29 3 1
        { s with dsp := { s.dsp with readyNext := linsert s.dsp.readyNext k } }
    else s)

/-- Batons whose PMASK names only partition p have COUNT 0 after its reload (R441). -/
def State.clearBatons (s : State) (p : Nat) : State :=
  s.each ((s.ctl.filter (fun e => decide (0x03000000 ≤ e.1) && decide (e.1 < 0x03080000)
      && e.1 % 16 == 4 && bitsOf e.2.toNat 0 16 == 2 ^ p)).map Prod.fst) (fun s a => s.rset (a - 4) 0)

/-- PARTITION_RELOAD_COMPLETE: the reload of partition p and its contexts' loads end; it returns to
SERVICE at the next boundary, or is down when the reload failed (R341, R425, R441). -/
def execPartitionReloadComplete (p : Fin 16) (s : State) : Out :=
  let k := p.val
  .next (match s.health.parts.find? (fun r => r.part == k) with
    | none => s
    | some r =>
      let cs := (List.range 64).filter (fun c => s.ctxEn c && s.ctxPart c == k)
      if s.partState k ≠ 2 ∨ cs.any (fun c => s.outstanding c (s.ctxBib c)) = true then s
      else
        let q := s.reloadPart k
        let s := q.1.setHealth { s.health with parts := s.health.parts.erase r }
        match q.2 with
        | some sec => (s.reloadFailed k sec).partDown r
        | none =>
          let s := s.each cs (fun s c => (s.loadContext c false).rfldSet (ctxA c 0x24) 29 3 2)
          let s := s.clearBatons k
          { s with dsp := { s.dsp with serviceNext := linsert s.dsp.serviceNext k } })

end Sys2Proof.Machine
end

