-- ==== Sys2Proof/Machine/Verify.lean ====
section
/-!
DEFINITION. Image verification (R420): the checks of classes 1 to 6 over the setup written and the
sections loaded.  Each check answers whether it passes.
-/

namespace Sys2Proof.Machine

/-! ## The image in use (R408, R409) -/

/-- A field of `n` bytes at offset `o` of the slot's header and section table. -/
def State.headFld (s : State) (o n : Nat) : Nat := ofLeBytes ((s.boot.head.drop o).take n)
/-- NSECT. -/
def State.nsect (s : State) : Nat := s.headFld 0x10 2
/-- A field of section i. -/
def State.secFld (s : State) (i o n : Nat) : Nat := s.headFld (0x100 + 64 * i + o) n
/-- HASH of section i. -/
def State.secHash (s : State) (i : Nat) : List Byte := (s.boot.head.drop (0x100 + 64 * i + 0x20)).take 32

/-! ## Programs (R188, R190-R197) -/

/-- Enabled contexts. -/
def State.ctxsOn (s : State) : List Nat := (List.range 64).filter s.ctxEn

/-- Enabled contexts with each of their tiles. -/
def State.ctxTileOn (s : State) : List (Nat × Nat) :=
  s.ctxsOn.flatMap (fun c => (bitList 32 (s.ctxTiles c)).map (fun t => (c, t)))

/-- Program addresses of the entries from `pc`; none when an entry runs past the region (R190). -/
def State.entriesFrom (s : State) (base size : Nat) : Nat → Nat → Option (List Nat)
  | 0, _ => some []
  | n + 1, pc =>
    if size ≤ pc then some []
    else
      let len := if s.mval (base + pc) 1 < 0x80 then 8 else 32
      if size < pc + len then none
      else (State.entriesFrom s base size n (pc + len)).map (fun l => pc :: l)

/-- Data-space address of the program of c on t. -/
def State.progA (s : State) (t c : Nat) : Nat := s.shareA t c (s.cblk t c 0x00 4)

/-- The entries of the program of c on t. -/
def State.progEntries (s : State) (t c : Nat) : Option (List Nat) :=
  let size := s.cblk t c 0x04 4
  s.entriesFrom (s.progA t c) size (size / 8 + 1) 0

/-- Entries walked before one that runs past its region, for the checks of other classes. -/
def State.entriesOf (s : State) (t c : Nat) : List Nat := (s.progEntries t c).getD []

/-- Opcodes of the Scalar Lane and of sequencer control (R192, R194). -/
def laneOp (op : Nat) : Bool :=
  (decide (op < 0x15) && op != 0x10) || op == 0x18 || op == 0x19 || op == 0x1C || op == 0x1D
    || (decide (0x20 ≤ op) && decide (op < 0x24)) || (decide (0x30 ≤ op) && decide (op < 0x45))
    || (decide (0x70 ≤ op) && decide (op < 0x75))

/-- Opcodes of the stage commands (R196). -/
def stageOp (op : Nat) : Bool :=
  [0x80, 0x81, 0x82, 0x84, 0x85, 0x88, 0x90, 0xA0, 0xA1, 0xA2].contains op

/-- A Scalar Lane or control entry at data address `a`, program address `pc` (R190-R194). -/
def State.laneEntryOk (s : State) (a pc : Nat) (starts : List Nat) : Bool :=
  let op := s.mval a 1
  let aux := s.mval (a + 5) 1
  let resv := decide (s.mval (a + 1) 1 < 32) && decide (s.mval (a + 2) 1 < 32)
    && decide (s.mval (a + 3) 1 < 32)
  let rule :=
    if 0x70 ≤ op then
      let tgt : Int := (pc : Int) + 8 * sext (s.mval (a + 6) 2) 16
      decide (0 ≤ tgt) && starts.contains tgt.toNat
    else if op = 0x19 then bitsOf aux 2 2 != 3
    else if op = 0x35 ∨ op = 0x36 then aux % 4 == 0 || aux % 4 == 2
    else if 0x30 ≤ op ∧ op ≤ 0x3E then aux % 4 != 3
    else if op = 0x40 ∨ op = 0x41 then decide (aux % 8 < 4) || (aux % 8 == 4 && bitAt aux 3)
    else true
  laneOp op && resv && rule

/-- A descriptor operand: an index of the table (R196, R197). -/
def State.tdOk (s : State) (t c i : Nat) : Bool := decide (i < s.cblk t c 0x14 2)

/-- Scale-selection codes a destination admits (R58, R196). -/
def smodeOk (sm : Nat) (d : TDesc) : Bool :=
  match sm % 4, d.code with
  | 0, _ => true
  | 1, .mx _ => true
  | 2, .mx _ => true
  | 2, .elem .tf8 => true
  | 2, .elem .int8 => true
  | 2, .elem .uint8 => true
  | _, _ => false

/-- A MAC at data address `a` (R88, R190, R196). -/
def State.macEntryOk (s : State) (t c a : Nat) : Bool :=
  let f (o n : Nat) : Nat := s.mval (a + o) n
  let fl := f 0x12 1
  let cp := bitAt fl 2
  let opt (i : Nat) : Bool := i == 0xFFFF || s.tdOk t c i
  s.tdOk t c (f 0x08 2) && s.tdOk t c (f 0x0A 2) && opt (f 0x0C 2) && s.tdOk t c (f 0x0E 2)
    && opt (f 0x10 2) && decide (fl < 8) && decide (f 0x13 1 < 64)
    && (!cp || (bitAt fl 0 && f 0x0C 2 != 0xFFFF && s.tdOk t c (f 0x0C 2 + 1)))
    && smodeOk (f 0x18 1) (s.tdesc t c (f 0x0E 2))

/-- The bytes from 0x08 that carry a stage command's operands; the others are reserved (R196). -/
def operandBytes (op : Nat) : List Nat :=
  let span (a b : Nat) : List Nat := (List.range (b - a)).map (a + ·)
  match op with
  | 0x82 => [8]
  | 0x84 => [8, 9] ++ span 12 16
  | 0x85 => [8, 9] ++ span 12 16
  | 0x88 => span 8 28
  | 0x90 => span 8 13 ++ span 16 20
  | 0xA0 => span 8 26
  | 0xA1 => span 8 20
  | 0xA2 => [8, 9] ++ span 12 16
  | _ => []

/-- A stage command at data address `a` (R190, R195, R196). -/
def State.stageEntryOk (s : State) (t c a : Nat) : Bool :=
  let f (o n : Nat) : Nat := s.mval (a + o) n
  let op := f 0 1
  stageOp op && f 6 2 == 0
    && ((List.range 32).drop 8).all (fun o => (operandBytes op).contains o || f o 1 == 0)
    && (match op with
        | 0x82 => decide (f 8 1 < 2)
        | 0x84 => decide (f 8 2 < 32768)
        | 0x85 => decide (f 8 2 < 32768)
        | 0x88 => decide (f 0x08 8 < 2 ^ 48) && decide (f 0x10 8 < 2 ^ 48) && decide (4 ≤ f 0x18 4)
            && decide (f 0x18 4 ≤ 16777216) && f 0x18 4 % 4 == 0
        | 0x90 =>
          decide (f 0x08 4 + 64 ≤ (s.ctxSpad c).2) && decide (1 ≤ f 0x0C 1) && decide (f 0x0C 1 ≤ 64)
            && ((s.tmpl t c (f 0x08 4)).gang != 1 || f 0x10 4 == 0)
        | 0xA0 => s.macEntryOk t c a
        | 0xA1 => s.tdOk t c (f 0x08 2) && s.tdOk t c (f 0x0A 2) && decide (f 0x0C 1 < 64)
            && smodeOk (f 0x0D 1) (s.tdesc t c (f 0x0A 2))
        | 0xA2 => decide (f 8 1 < 16) && decide (f 9 1 < 2)
            && decide (f 0x0C 4 + 32 ≤ (s.ctxSpad c).2)
        | _ => true)

/-- An entry (R190). -/
def State.entryIsOk (s : State) (t c : Nat) (starts : List Nat) (pc : Nat) : Bool :=
  let a := s.progA t c + pc
  if s.mval a 1 < 0x80 then s.laneEntryOk a pc starts else s.stageEntryOk t c a

/-- The codes that a tensor descriptor admits (R197). -/
def TDesc.modesOk (d : TDesc) (etype : Nat) : Bool :=
  let isMx := match d.code with | .mx _ => true | _ => false
  let two := d.fmt == 5 || d.fmt == 6
  decide (d.fmt < 16) && (d.xmode == 0 || (d.narrow && d.xmode != 3))
    && (!bitAt etype 7 || isMx) && bitsOf etype 1 6 == 0 && (!bitAt etype 0 || two)

/-- The program of c on t passes class 3 (R188, R190, R192, R197). -/
def State.programOk (s : State) (c t : Nat) : Bool :=
  let f (o n : Nat) : Nat := s.cblk t c o n
  let size := (s.ctxSpad c).2
  let regs : List (Nat × Nat) :=
    [(0, 64), (f 0x00 4, f 0x04 4), (f 0x08 4, 6144), (f 0x10 4, 32 * f 0x14 2)]
  let fits := regs.all (fun r => decide (r.1 + r.2 ≤ size)) && decide (f 0x0C 4 ≤ size)
  let apart := (List.range 4).all (fun i => (List.range i).all (fun j =>
    let x := lget (0, 0) regs i
    let y := lget (0, 0) regs j
    !meets x.1 x.2 y.1 y.2))
  let places := f 0x00 4 % 8 == 0 && f 0x04 4 % 8 == 0 && f 0x08 4 % 64 == 0
  let vec := f 0x1C 4
  let tds := (List.range (f 0x14 2)).all (fun i =>
    (s.tdesc t c i).modesOk (s.mval (s.shareA t c (f 0x10 4 + 32 * i + 5)) 1))
  fits && apart && places && (vec == 0 || (vec % 8 == 0 && decide (vec < f 0x04 4))) && tds
    && (match s.progEntries t c with
        | some l => l.all (s.entryIsOk t c l)
        | none => false)

/-! ## Formats (R39, R77, R193, R197) -/

/-- Formats of an initial accumulator (R39, R73): any operand format, INT32. -/
def TDesc.accFmt (d : TDesc) : Bool := d.operandFmt || d.code == .int32

/-- Formats of a forecast (R39). -/
def TDesc.forecast (d : TDesc) : Bool :=
  match d.code with
  | .elem .q32 => true | .elem .fp32 => true | .elem .bf16 => true | .elem .fp16 => true
  | .elem .tf8 => true | .elem .int8 => true
  | _ => false

/-- Blocks of an MX operand lie along the reduction (R77). -/
def TDesc.blocked (d : TDesc) (down : Bool) : Bool :=
  match d.code with
  | .mx _ => d.bdir == down
  | _ => true

/-- The formats an entry names (R39, R77, R193). -/
def State.entryFormats (s : State) (t c pc : Nat) : Bool :=
  let a := s.progA t c + pc
  let td (o : Nat) : TDesc := s.tdesc t c (s.mval (a + o) 2)
  match s.mval a 1 with
  | 0x3F =>
    let r := s.mval (a + 4) 1
    let mx (k : Nat) : Bool := decide (5 ≤ k) && decide (k ≤ 8)
    !mx (r % 16) && !mx (r / 16)
  | 0xA0 =>
    let ta := td 0x08
    let tw := td 0x0A
    let int8 (d : TDesc) : Bool := d.code == .elem .int8 || d.code == .elem .uint8
    ta.operandFmt && !ta.narrow && tw.operandFmt && ta.blocked false && tw.blocked true
      && (s.mval (a + 0x0C) 2 == 0xFFFF || (td 0x0C).accFmt)
      && ((td 0x0E).code != .int32 || (int8 ta && int8 tw))
      && (!bitAt (s.mval (a + 0x12) 1) 1 || s.mval (a + 0x10) 2 == 0xFFFF || (td 0x10).code != .int32)
  | 0xA1 => (td 0x08).code != .int32 && (td 0x0A).code != .int32
  | _ => true

/-- Templates that the SOLVE commands of c on t name, once each. -/
def State.solveTmpls (s : State) (t c : Nat) : List Nat :=
  (s.entriesOf t c).foldl (fun l pc =>
    let a := s.progA t c + pc
    if s.mval a 1 = 0x90 then linsert l (s.mval (a + 8) 4) else l) []

/-- The forecast formats of a template (R39, R125). -/
def State.parFormats (s : State) (t c : Nat) (tp : Tmpl) : Bool :=
  tp.pars.all (fun p => (p.src != 2 && p.src != 3) || (decide (p.fmt < 6)
    && (p.src == 3 || (s.tdesc t c p.index).forecast)))

/-- Class 1 for c on t: the formats of R39, R77 and R193, and no S0 of −128 (R197). -/
def State.formatsOk (s : State) (c t : Nat) : Bool :=
  (s.entriesOf t c).all (s.entryFormats t c)
    && (s.solveTmpls t c).all (fun o => s.parFormats t c (s.tmpl t c o))
    && (List.range (s.cblk t c 0x14 2)).all (fun i => (s.tdesc t c i).s0 != -128)

/-! ## Templates (R123, R127, R148, R155) -/

/-- The largest n and m of a GANG (R148); none for another code. -/
def gangLimit (g : Nat) : Option (Nat × Nat) :=
  match g with
  | 1 => some (64, 128) | 2 => some (128, 256) | 4 => some (192, 384) | 8 => some (256, 512)
  | _ => none

/-- The limits of the header (R123, R124, R148). -/
def Tmpl.limitsOk (p : Tmpl) (nprod nsolv : Nat) : Bool :=
  let gang := match gangLimit p.gang with
    | none => false
    | some (n, m) => decide (p.n ≤ n) && decide (p.m ≤ m)
        && (p.fmeth != 2 || (p.gang == 1 && decide (p.n + p.naux ≤ 80)))
  decide (1 ≤ p.kind) && decide (p.kind ≤ 4) && bitsOf p.stag 20 8 + 1 == p.n
    && bitsOf p.stag 10 10 == p.m && decide (1 ≤ p.n) && decide (p.n ≤ 256) && decide (p.m ≤ 512)
    && decide (p.fmeth < 3) && decide (p.fpol < 3) && decide (p.npar ≤ 1024) && decide (1 ≤ p.narr)
    && decide (p.narr ≤ 32) && decide (nprod ≤ 8) && decide (nsolv ≤ 8)
    && (match p.fmeth with
        | 0 => decide (p.naux ≤ p.n) | 1 => p.naux == 0 | _ => decide (p.naux ≤ 16))
    && decide (0 < p.pmin.toInt) && gang

/-- A role has an array of a shape stored as dense rows. -/
def Tmpl.shaped (p : Tmpl) (id rows cols : Nat) : Bool :=
  match p.arr? id with
  | some d => d.rows == rows && d.cols == cols && !d.lower
  | none => false

/-- The arrays that the factorization reads or writes (R127). -/
def Tmpl.factorArrs (p : Tmpl) : Bool :=
  let sq (id r c : Nat) (low : Bool) : Bool := match p.arr? id with
    | some d => d.rows == r && d.cols == c && (!low || d.lower)
    | none => false
  if p.fmeth = 2 then
    p.shaped 0x0B p.m (p.n + p.naux) && sq 0x07 (p.n + p.naux) p.n true && p.shaped 0x09 p.n 1
      && (p.arr? 0x0C).isSome
  else
    sq 0x01 p.n p.n false && sq 0x07 p.n p.n true && p.shaped 0x09 p.n 1
      && (p.fmeth != 0 || (p.shaped 0x08 p.n 1 && p.shaped 0x0A p.n 1))

/-- A product's operand shapes match (R127, R135). -/
def Tmpl.prodOk (p : Tmpl) (q : ProdD) : Bool :=
  match p.arr? q.dst, p.arr? q.x, p.arr? q.y with
  | some d, some x, some y =>
    let dims (a : ADesc) (tr : Bool) : Nat × Nat := if tr then (a.cols, a.rows) else (a.rows, a.cols)
    let xd := dims x q.xt
    let yd := dims y q.yt
    let r : Nat × Nat := if q.syrk then (x.cols, x.cols) else (xd.1, yd.2)
    (if q.syrk then q.x == q.y && d.lower else xd.2 == yd.1) && d.rows == r.1 && d.cols == r.2
      && (q.c == 0 || (match p.arr? q.c with
        | some e => e.rows == r.1 && e.cols == r.2
        | none => false))
  | _, _, _ => false

/-- A solve's operand shapes match, and DIAG is LDLT's (R127, R146). -/
def Tmpl.solveOk (p : Tmpl) (q : SolvD) : Bool :=
  decide (1 ≤ q.op) && decide (q.op ≤ 3) && (q.op != 2 || p.fmeth == 0)
    && (match p.arr? q.src, p.arr? q.dst with
        | some a, some b => a.rows == p.n && b.rows == p.n && a.cols == b.cols
        | _, _ => false)

/-- The terms (R127): `room` entries fit before the share's end. -/
def Tmpl.termsOk (p : Tmpl) (room : Nat) : Bool :=
  let one (k : TermD) : Bool :=
    (match p.arr? k.arr with | some d => decide (k.elem < d.size) | none => false)
      && decide (k.par < p.npar)
      && decide ((p.terms.filter (fun j => j.arr == k.arr && j.elem == k.elem)).length ≤ 64)
      && (p.fpol != 2 || !([0x01, 0x02, 0x03, 0x0B].contains k.arr)
        || (match (p.pars[k.par]?).map PDesc.src with
            | some 1 => false | some 2 => false | some 4 => false | _ => true))
  decide (p.terms.length < room) && p.terms.all one

/-- The arrays of a QP or moving-horizon template (R154, R155). -/
def Tmpl.qpArrs (p : Tmpl) : Bool :=
  let col (id r : Nat) : Bool := p.shaped id r 1
  p.shaped 0x10 p.n p.m && col 0x11 p.n && col 0x12 p.n && col 0x13 p.m && col 0x14 p.m
    && col 0x15 p.m && col 0x16 p.m && col 0x17 p.n && p.shaped 0x18 1 5 && col 0x05 p.m && col 0x06 p.m

/-- The Emit latency of a template with NOUT outputs (R152, R186). -/
def Tmpl.emitTime (p : Tmpl) (nout : Nat) : Nat :=
  let a := (p.n - 1) / 16
  let c := (p.n - 1) % 16
  let pn := p.n + 8 * a * (a + 1) + (a + 1) * c
  let b := ceilDiv p.n 16
  let qp := p.kind == 1 || p.kind == 3
  12 + ceilDiv nout 4 + (if qp then pn + (if 1 < p.gang then 24 * b else 0) else 0)

/-- The refusals of R155. -/
def State.kindOk (s : State) (ta : Nat) (p : Tmpl) : Bool :=
  let mode := if p.warm = 0 then 0 else s.mval (ta + p.warm) 1
  let od := s.outAt (ta + p.out)
  let rf := s.mval (ta + p.fallback) 4
  let ro := s.mval (ta + p.fallback + 4) 4
  (match p.kind with
   | 2 => p.fmeth == 2 && p.k == 0
   | 4 => p.k == 0
   | _ => p.fmeth == 1 && p.k != 0 && p.qpArrs)
    && (p.k != 0 || mode == 0) && decide (mode < 3)
    && decide (p.emitTime od.nout ≤ ro) && decide (ro ≤ rf)
    && od.ents.all (fun e => match p.arr? e.1 with
      | some d => decide (e.2.2.2.2 < d.size)
      | none => false)

/-- Whether a PROOF section of the image names this PROOF_ID (R124, R410). -/
def State.hasProof (s : State) (id : Nat) : Bool :=
  (List.range s.nsect).any (fun i => s.secFld i 0 1 == 3 && s.secFld i 0x20 4 == id)

/-- A template of c on t at share offset `o` (R123, R127, R155). -/
def State.templateOk (s : State) (t c o : Nat) : Bool :=
  let p := s.tmpl t c o
  let ta := s.shareA t c o
  let ids := p.arrs.map ADesc.id
  let room := ((s.shareA t c 0 + (s.ctxSpad c).2) - (ta + s.mval (ta + 0x1C) 4)) / 12
  p.limitsOk (s.mval (ta + 0x0F) 1) (s.mval (ta + 0x10) 2)
    && p.pars.all (fun q => decide (q.lo.toInt ≤ q.hi.toInt)) && decide ids.Nodup && p.termsOk room
    && p.prods.all p.prodOk && p.solvs.all p.solveOk && p.factorArrs && s.kindOk ta p
    && s.hasProof p.proof

/-- Where a template lies: its header and tables, the base content of its arrays, its warm-start and its
fallback descriptor (R124, R125, R165, R176). -/
def State.tmplSpans (s : State) (ta : Nat) (p : Tmpl) : List (Nat × Nat) :=
  s.tmplBytes ta p ++ p.arrs.flatMap (fun d => roleBytes ta p [] d.id)
    ++ (if p.warm = 0 then [] else [(ta + p.warm, 12)])
    ++ (if p.fallback = 0 then [] else [(ta + p.fallback, 16 + 8 * (s.outAt (ta + p.out)).nout)])

/-- The tag of each template that c names on t, with the bytes of its record. -/
def State.tags (s : State) (c t : Nat) : List (Nat × List Byte) :=
  (s.solveTmpls t c).map (fun o =>
    let ta := s.shareA t c o
    (s.mval ta 4, (s.tmplSpans ta (s.tmpl t c o)).flatMap (fun r => s.mread r.1 r.2)))

/-- Two templates have one tag: their records differ (R123); copies of one template do not clash (DEDUCED,
log entry 68). -/
def tagClash (l : List (Nat × List Byte)) (x : Nat × List Byte) : Bool :=
  l.any (fun y => y.1 == x.1 && y.2 != x.2)

/-- Class 2 for context c, given those of lower number. -/
def State.templatesOk (s : State) (c : Nat) : Bool :=
  let ts := bitList 32 (s.ctxTiles c)
  let seen := ((s.ctxTileOn).filter (fun p => decide (p.1 ≤ c))).flatMap (fun p => s.tags p.1 p.2)
  ts.all (fun t => (s.solveTmpls t c).all (s.templateOk t c))
    && (ts.flatMap (s.tags c)).all (fun x => !tagClash seen x)

/-! ## Loops (R215, R223, R264) -/

/-- Enabled loops. -/
def State.loopsOn (s : State) : List Nat := (List.range 1024).filter s.loopEn

/-- Two enabled loops are admissible together (R215). -/
def State.loopPair (s : State) (n m : Nat) : Bool :=
  let per (k : Nat) : Nat := s.rfld (loopA k 0x08) 0 24
  let pha (k : Nat) : Nat := s.rfld (loopA k 0x0C) 0 24
  let g := Nat.gcd (per n) (per m)
  let d (k : Nat) : Nat := s.rfld (loopA k 0x14) 0 10
  (s.rbit (loopA n 0x04) 6 != s.rbit (loopA m 0x04) 6 || pha n % g != pha m % g)
    && ((d n / 256 != 1 && d n / 256 != 2) || d n != d m)
    && !(s.isServo n && s.isServo m)

/-- A loop by itself (R214, R215, R223, R264). -/
def State.loopOk (s : State) (n : Nat) : Bool :=
  let per := s.rfld (loopA n 0x08) 0 24
  let dst := s.rfld (loopA n 0x14) 0 10
  let ty := dst / 256
  let src := s.rget (loopA n 0x10)
  decide (500 ≤ per) && decide (per ≤ 12500000) && decide (s.rfld (loopA n 0x0C) 0 24 < per)
    && (s.isServo n == (ty == 3)) && (!s.isServo n || s.loopS n)
    && s.rfld (loopA n 0x04) 10 2 != 3 && s.rfld (loopA n 0x04) 12 4 != 0 && decide (fget src 8 2 < 2)
    && fget src 16 10 != n && (ty == 1 || ty == 2 || dst % 256 == 0)
    && (ty != 1 || (decide (dst % 256 < 64) && s.pwmAdmits dst per
      && !(dst % 2 == 1 && s.rbit (pwmA (dst % 256) 0x00) 31)))

/-! ## Partitions and contexts (R277, R339) -/

/-- Whether two ranges [a, b) and [c, d) meet. -/
def spansMeet (x y : Nat × Nat) : Bool := decide (x.1 < y.2) && decide (y.1 < x.2) && decide (x.1 < x.2)
  && decide (y.1 < y.2)

/-- A context's LPDDR5 and backing shares as spans. -/
def State.ctxSpans (s : State) (c : Nat) : List (Nat × Nat) :=
  let b := s.ctxBack c
  [s.ctxMem c, (b.1, b.1 + b.2)]

/-- Two contexts' shares are apart (R277). -/
def State.ctxPair (s : State) (c d : Nat) : Bool :=
  let sp (k : Nat) : Nat × Nat := let x := s.ctxSpad k; (x.1, x.1 + x.2)
  let inf (k : Nat) : Nat × Nat := let x := s.ctxInf k; (x.1, x.1 + x.2)
  let clu := (List.range 4).any (fun k => s.ctxInCluster c k && s.ctxInCluster d k)
  !((s.ctxTiles c &&& s.ctxTiles d) != 0 && spansMeet (sp c) (sp d))
    && !(clu && spansMeet (inf c) (inf d))
    && (s.ctxSpans c).all (fun x => (s.ctxSpans d).all (fun y => !spansMeet x y))

/-- A context by itself (R277). -/
def State.ctxOk (s : State) (c : Nat) : Bool :=
  let p := s.ctxPart c
  let sp := s.ctxSpad c
  let i := s.ctxInf c
  let m := s.ctxMem c
  let pm := s.partMem p
  let tiles := (s.rget (partA p 0x04)).toNat
  let l := s.ctxLender c
  s.partEn p && (s.ctxTiles c &&& tiles) == s.ctxTiles c && sp.2 != 0 && decide (sp.1 + sp.2 ≤ 0x100000)
    && decide (i.1 + i.2 ≤ 0x800000) && decide (m.1 ≤ m.2)
    && (s.ctxSpans c).all (fun x => decide (x.2 ≤ x.1) || inside x.1 (x.2 - x.1) pm.1 pm.2)
    && (bitList 32 (s.ctxTiles c)).all (fun t => decide (s.cblk t c 0x08 4 + 6144 ≤ sp.2))
    && (!s.hasLender c || (l != p && s.partEn l
      && s.ctxsOn.any (fun d => s.ctxPart d == l && !s.ctxBE d)))

/-- A partition (R277, R339). -/
def State.partOk (s : State) (p : Nat) : Bool :=
  let m := s.partMem p
  let lr := s.loanRegion p
  decide (m.1 ≤ m.2) && decide (m.2 ≤ s.usable) && !spansMeet m s.shadow
    && (List.range p).all (fun q => !s.partEn q || !spansMeet m (s.partMem q))
    && (lr.2 == 0 || s.ctxsOn.all (fun c => s.ctxPart c != p || s.ctxBE c
      || (let sp := s.ctxSpad c; inside lr.1 lr.2 sp.1 (sp.1 + sp.2))))

/-- The shadow, the accounting banks and the observation areas (R339). -/
def State.areasOk (s : State) : Bool :=
  let acc := s.rfld (dspA 0x34) 0 20 * 65536
  decide (s.shadow.2 ≤ s.usable) && s.deviceOwned acc 8320
    && (List.range 4).all (fun k =>
      let n := s.rfld (obufA k 4) 0 16 * 65536
      n == 0 || s.deviceOwned (s.rfld (obufA k 0) 0 20 * 65536) n)

/-! ## Cascades (R389, R391) -/

/-- ROLE and DEVNUM agree, and a member has a route to device 0 (R389). -/
def State.roleOk (s : State) : Bool :=
  match s.role with
  | 0 => true
  | 1 => s.devnum == 0
  | 2 => s.devnum != 0 && (s.route (s.dist 0)).isSome
  | _ => false

/-- The route to distance d (R389). -/
def State.routeOk (s : State) (d : Nat) : Bool :=
  match s.route d with
  | none => true
  | some (k, h) => s.rbit (linkA k 0x00) 31 && !(d == s.dist 0 && decide (4 < h))

/-- Window w lies inside its partition (R391). -/
def State.windowOk (s : State) (w : Nat) : Bool :=
  let c := s.rget (winA w 8)
  let lo := s.rfld (winA w 0) 0 24
  let hi := s.rfld (winA w 4) 0 24
  let p := fget c 20 4
  if fbit c 31 = false ∨ hi ≤ lo then true
  else if fget c 27 2 = 0 then
    let m := s.partMem p; inside (4096 * lo) (4096 * (hi - lo)) m.1 m.2
  else
    decide (hi ≤ 8192) && (List.range (hi - lo)).all (fun i =>
      let o := 4096 * (lo + i)
      let pl : Place := if fget c 27 2 = 1 then .infield (o / 0x800000) (o % 0x800000)
        else .spad (o / 0x100000) (o % 0x100000)
      (s.ctxsOn).any (fun d => s.ctxPart d == p && (match pl with
        | .infield k o =>
          let x := s.ctxInf d; s.ctxInCluster d k && inside o 4096 x.1 (x.1 + x.2)
        | .spad t o =>
          let x := s.ctxSpad d; bitAt (s.ctxTiles d) t && inside o 4096 x.1 (x.1 + x.2)
        | _ => false)))

/-! ## The whole (R420) -/

/-- The first number of a list that fails a check. -/
def firstBad (l : List Nat) (ok : Nat → Bool) : Option Nat := l.find? (fun k => !ok k)

/-- A failing check's DETAIL: its class and the object's index. -/
def verdictOf (cls : Nat) (i : Option Nat) : Option Nat := i.map (fun k => cls * 4096 + k % 4096)

/-- SB_FAIL.DETAIL of the first check that fails, in ascending class and index, but for the templates that
SOLVE commands name, which follow the programs; none when all pass. -/
def State.verifyAll (s : State) : Option Nat :=
  let onTiles (f : Nat → Nat → Bool) (c : Nat) : Bool := (bitList 32 (s.ctxTiles c)).all (f c)
  let loops := s.loopsOn
  (verdictOf 1 (firstBad s.ctxsOn (onTiles s.formatsOk)))
    <|> (verdictOf 3 (firstBad s.ctxsOn (onTiles s.programOk)))
    <|> (verdictOf 2 (firstBad s.ctxsOn s.templatesOk))
    <|> (verdictOf 4 (firstBad loops (fun n =>
      s.loopOk n && (loops.filter (fun m => decide (m < n))).all (s.loopPair n))))
    <|> (verdictOf 5 (firstBad s.ctxsOn (fun c =>
      s.ctxOk c && (s.ctxsOn.filter (fun d => decide (d < c))).all (s.ctxPair c))))
    <|> (verdictOf 5 (firstBad ((List.range 16).filter s.partEn) s.partOk))
    <|> (verdictOf 5 (if s.areasOk then none else some 0xFFF))
    <|> (verdictOf 6 (if s.roleOk then none else some 0))
    <|> (verdictOf 6 (firstBad ((List.range 16).drop 1) s.routeOk))
    <|> (verdictOf 6 (firstBad (List.range 16) s.windowOk))

end Sys2Proof.Machine
end

