-- ==== Sys2Proof/Machine/Boot.lean ====
section
/-!
DEFINITION. The start-up sequence from the anchor to SB_LOCK (R401, R406-R425): flash reads, slot
checks with fallback, the boot script, training of the LPDDR5, loads and the lock.
-/

namespace Sys2Proof.Machine

/-! ## Anchor and slots (R407-R414) -/

/-- A field of the anchor (R407). -/
def State.anchorFld (s : State) (o n : Nat) : Nat := ofLeBytes ((s.boot.anchor.drop o).take n)

/-- The 8D clock in MHz that FREQ names (R407); a code it does not define names an open one. -/
def flashMhz (code : Nat) : Nat :=
  match code with
  | 0 => 200 | 1 => 166 | 2 => 133 | 3 => 100
  | _ => Config.flashClock code

/-- The setup sequence i of the anchor: its opcode, its address and its data (R407).  The address goes most
significant byte first (PRESUMED, log entry 82). -/
def State.setupBytes (s : State) (i : Nat) : List Byte :=
  let f (o n : Nat) : Nat := s.anchorFld (0x20 + 16 * i + o) n
  leBytes 1 (f 0 1) ++ beBytes (f 1 1) (f 4 4) ++ leBytes (f 2 1) (f 8 8)

/-- The setup sequences are issued in 1S-1S-1S, in order, to every flash device (R407). -/
def State.flashSetup (s : State) : State :=
  s.each (List.range (min 4 (s.anchorFld 0x15 1))) (fun s i =>
    s.each (if s.pins.dual then [0, 1] else [0]) (fun s d => s.ballOut (.flash d 25 false 0 (s.setupBytes i))))

/-- A read of the slot in use from offset `o`: in 8D-8D-8D, with the anchor's command, dummy cycles and clock, in the
slot's device, of which there is a second only with FLASH_DUAL (R406, R407, R408). -/
def State.flashRead (s : State) (o : Nat) : State :=
  let b := s.rbit 0x04 27
  let dev := if b then s.anchorFld 0x10 1 else 0
  let base := if b then s.anchorFld 0x0C 4 else s.anchorFld 0x08 4
  if dev ≠ 0 ∧ s.pins.dual = false then s
  else s.ballOut (.flash dev (flashMhz (s.anchorFld 0x11 1)) true (s.anchorFld 0x14 1)
    (beBytes 2 (s.anchorFld 0x12 2) ++ beBytes 4 (base + o)))

/-- Bytes of an anchor. -/
def anchorOk (l : List Byte) : Bool :=
  l.length == 4096 && ofLeBytes (l.take 4) == 0x4E414B54
    && ofLeBytes (l.drop 4092) == crc32 (l.take 4092)

/-- ANCHOR_READ_COMPLETE: the anchor's bytes have been read: MAGIC and CRC are checked and the flash is
set up (R401, R407). -/
def execAnchorReadComplete (bytes : List Byte) (s : State) : Out :=
  .next (if s.phase = .boot ∧ s.bootStepNo = 4 then
      if anchorOk bytes then
        let s := s.modBoot (fun b => { b with anchor := bytes })
        ((s.rset 0x1C (BitVec.ofNat 32 (s.anchorFld 4 4))).bootStep 5).flashSetup
      else s.bootFail 0x01 0
    else s)

/-- FLASH_SETUP_COMPLETE: the setup sequences have been issued and the flash is in 8D-8D-8D
(R401). -/
def execFlashSetupComplete (s : State) : Out :=
  .next (if s.phase = .boot ∧ s.bootStepNo = 5 then
      ((s.modBoot (fun b => { b with octal := true })).bootStep 6).flashRead 0
    else s)

/-- Whether the flash is being set up or read in 8D-8D-8D. -/
def State.flashBusy (s : State) : Bool :=
  decide (s.phase = .boot) && (s.bootStepNo == 5 || s.bootStepNo == 6 || s.bootStepNo == 7
    || (match s.boot.wait with | .load _ => true | _ => false))

/-- FLASH_STROBE_LOST: XSPI_DS has not toggled for 64 flash clocks of a read of flash device `dev`; the
read of the anchor, which uses no XSPI_DS, has had no answer (R406, R429). -/
def execFlashStrobeLost (dev : Fin 2) (s : State) : Out :=
  .next (if s.phase = .boot ∧ s.bootStepNo = 4 then s.bootFail 0x01 0
    else if s.flashBusy then s.bootFail 0x02 dev.val else s)

/-- A slot fails a check: slot B is tried when it exists and is not the one in use (R413). -/
def State.slotFail (s : State) (code detail : Nat) : State :=
  if s.rbit 0x04 27 = false ∧ s.anchorFld 0x0C 4 ≠ 0xFFFFFFFF then
    let s := (s.rfldSet 0x08 16 8 code).rfldSet 0x04 26 2 3
    ((s.modBoot (fun b => { b with head := [] })).bootStep 7).flashRead 0
  else s.bootFail code detail

/-- Offset of the first header field that breaks R408. -/
def headerBad (s : State) : Option Nat :=
  let f (o n : Nat) : Nat := s.headFld o n
  let chk : List (Nat × Bool) :=
    [(0x00, f 0 4 == 0x4D494B54), (0x04, f 4 2 == 0x9640), (0x06, decide (f 6 1 ≤ 0x31)),
     (0x07, decide (f 7 1 < 2)), (0x0C, decide (f 0x0C 4 ≤ 0x10000000)),
     (0x10, decide (1 ≤ f 0x10 2) && decide (f 0x10 2 ≤ 1024)), (0x12, decide (f 0x12 2 < f 0x10 2)),
     (0x20, f 0x20 224 == 0)]
  (chk.find? (fun p => !p.2)).map Prod.fst

/-- The first check of a slot that fails, before its script: code and DETAIL (R413). -/
def State.slotCheck (s : State) (cert sig : List Byte) : Option (Nat × Nat) :=
  let c (o n : Nat) : Nat := ofLeBytes ((cert.drop o).take n)
  match headerBad s with
  | some o => some (0x03, o)
  | none =>
    if s.headFld 0x08 4 < (s.rget 0x1C).toNat then some (0x04, 0)
    else if c 0 4 ≠ 0x45434B54 ∨ c 4 2 ≠ 0x9640 ∨ c 0x0C 4 ≠ 0x00000012 then some (0x05, 0)
    else if xmssVerify Config.vendorRoot Config.vendorSeed (cert.take 0x50) (cert.drop 0x50) = false then
      some (0x06, 0)
    else if xmssVerify ((cert.drop 0x10).take 32) ((cert.drop 0x30).take 32)
        (s.boot.head.take (0x100 + 64 * s.nsect)) sig = false then some (0x07, 0)
    else none

/-- Whether the signature step of the slot in use is due: step 6 for slot A, 7a for slot B (R401). -/
def State.signDue (s : State) : Bool :=
  decide (s.phase = .boot) && (s.bootStepNo == 6 || (s.bootStepNo == 7 && s.boot.head.isEmpty))

/-- SIGNATURE_READ_COMPLETE: header and section table, certificate and customer signature of the slot in
use have been read; its checks run in order, SB_KEYID shows a certificate that has passed, and the script is read
(R408, R411-R414, R431). -/
def execSignatureReadComplete (head cert sig : List Byte) (s : State) : Out :=
  .next (if s.signDue then
      let s := s.modBoot (fun b => { b with head := head })
      let s := (s.flashRead (s.headFld 0x14 4)).flashRead (s.headFld 0x18 4)
      let keyed := s.rset 0x20 (BitVec.ofNat 32 (ofLeBytes ((cert.drop 8).take 4)))
      match s.slotCheck cert sig with
      | some (code, detail) => (if code = 0x07 then keyed else s).slotFail code detail
      | none =>
        let s := if s.bootStepNo = 6 then keyed.bootStep 7 else keyed
        s.flashRead (s.secFld (s.headFld 0x12 2) 8 4)
    else s)

/-- The SCRIPT section's TYPE, LEN and hash hold (R409, R413). -/
def State.scriptOk (s : State) (i : Nat) (bytes : List Byte) : Bool :=
  let len := s.secFld i 4 4
  s.secFld i 0 1 == 1 && len % 16 == 0 && decide (len ≤ 65536)
    && decide (s.secFld i 8 4 + len ≤ s.headFld 0x0C 4) && bytes.length == len
    && shake256 bytes == s.secHash i

/-- SCRIPT_FETCH_COMPLETE: the script section is in the script buffer; with its hash right, step 8
begins (R401, R413). -/
def execScriptFetchComplete (bytes : List Byte) (s : State) : Out :=
  let i := s.headFld 0x12 2
  .next (if s.phase = .boot ∧ s.bootStepNo = 7 ∧ s.boot.head.isEmpty = false then
      if s.scriptOk i bytes then
        let s := (s.modBoot (fun b => { b with script := bytes })).rset 0x18
          (BitVec.ofNat 32 (s.headFld 8 4))
        { s with phase := .bist }.bootStep 8
      else s.slotFail 0x08 i
    else s)

/-- BIST_COMPLETE: step 8 ends; with BIST asked for, `cls` 1 to 5 names the class of a failing unit and
`idx` its index (R401, R408, R429). -/
def execBistComplete (cls : Fin 6) (idx : Byte) (s : State) : Out :=
  .next (if s.phase = .bist then
      if cls.val ≠ 0 ∧ bitAt (s.headFld 7 1) 0 = true then s.bootFail 0x09 (cls.val * 256 + idx.toNat)
      else ({ s with phase := .boot }.bootStep 9).enterEntry 0
    else s)

/-! ## Script entries (R415-R418) -/

/-- SB_STAT.VERIFIED. -/
def State.setVerified (s : State) (b : Bool) : State := s.rbitSet 0x04 25 b

/-- A script entry fails with a code whose DETAIL is the entry index. -/
def State.entryFail (s : State) (code : Nat) : State := s.bootFail code s.entryNo

/-- A board word (R407, R417). -/
def State.boardWord (s : State) (i : Nat) : Nat := s.anchorFld (0x60 + 4 * i) 4

/-- Whether a write with BOARD is accepted to an address (R417). -/
def boardDest (a : Nat) : Bool :=
  [netA 0 0x08, netA 0 0x0C, netA 0 0x10, netA 1 0x08, netA 1 0x0C, netA 1 0x10, rlyA 0x00,
    rlyA 0x08].contains a

/-- The script writes word `v` to `a` (R416, R417, R421). -/
def State.scriptPut (s : State) (a v : Nat) (board : Bool) : State :=
  if board && !boardDest a then s.entryFail 0x0A
  else if a = rlyA 0x00 ∧ (bitsOf v 30 2 ≠ s.pins.role ∨ s.pins.role = 3) then s.entryFail 0x17
  else
    let q := s.scriptWrite a (BitVec.ofNat 32 v)
    if q.2 then (q.1.setVerified false).nextEntry else q.1.entryFail 0x0A

/-- The word a WRITE or WRITE_MASK entry names: VALUE, or its board word. -/
def State.entryValue (s : State) : Nat :=
  let i := s.entryNo
  if s.entryFld i 1 1 = 1 then s.boardWord (s.entryFld i 2 2) else s.entryFld i 8 4

/-- WRITE: VALUE, or a board word, is written to ADDR (R416, R417). -/
def execWrite (s : State) : Out :=
  let i := s.entryNo
  .next (if s.atEntry 1 then s.scriptPut (s.entryFld i 4 4) s.entryValue (s.entryFld i 1 1 == 1) else s)

/-- WRITE_MASK: ADDR is read and written under MASK (R416, R417). -/
def execWriteMask (s : State) : Out :=
  let i := s.entryNo
  let a := s.entryFld i 4 4
  let m : Word := BitVec.ofNat 32 (s.entryFld i 12 4)
  let v : Word := BitVec.ofNat 32 s.entryValue
  .next (if s.atEntry 2 then
      let r := s.readReg 3 a
      if r.2.2 ≠ 0 then r.1.entryFail 0x0A
      else r.1.scriptPut a ((r.2.1 &&& ~~~m) ||| (v &&& m)).toNat (s.entryFld i 1 1 == 1)
    else s)

/-- A read of a POLL (R416). -/
def State.pollRead (s : State) : State :=
  let i := s.entryNo
  let r := s.readReg 3 (s.entryFld i 4 4)
  let m : Word := BitVec.ofNat 32 (s.entryFld i 12 4)
  if r.2.2 ≠ 0 then r.1.entryFail 0x0A
  else if (r.2.1 &&& m).toNat = s.entryFld i 8 4 then r.1.nextEntry
  else r.1.modBoot (fun b => { b with wait := .poll })

/-- POLL: the first read of the entry (R416). -/
def execPoll (s : State) : Out := .next (if s.atEntry 3 then s.pollRead else s)

/-- POLL_SATISFIED: a later read of the POLL in progress; the script continues when it meets the
condition (R416, R430). -/
def execPollSatisfied (s : State) : Out :=
  .next (if s.phase = .boot ∧ s.boot.wait = .poll then s.pollRead else s)

/-- POLL_TIMEOUT: the timeout of the POLL in progress expires (R416). -/
def execPollTimeout (s : State) : Out :=
  .next (if s.phase = .boot ∧ s.boot.wait = .poll then s.entryFail 0x0C else s)

/-- Start the training of the links that a mask names and RLY_k_CFG.EN enables (R381, R418). -/
def State.trainLinks (s : State) (m : Nat) : State :=
  s.each (bitList 4 m) (fun s k =>
    if s.rbit (linkA k 0x00) 31 && s.linkState k == 0 then s.setLinkState k 1 else s)

/-- TRAIN: the LPDDR5 or the Relay Links named are trained; WAIT holds the script until the training
ends (R416, R418, R422, R423). -/
def execTrain (s : State) : Out :=
  let i := s.entryNo
  let wait := s.entryFld i 1 1 == 1
  .next (if s.atEntry 4 then
      if s.entryFld i 4 4 = 1 then
        let s := if s.boot.mem = 0 then s.modBoot (fun b => { b with mem := 1 }) else s
        if wait && s.boot.mem == 1 then s.modBoot (fun b => { b with wait := .memory }) else s.nextEntry
      else
        let m := s.entryFld i 8 4
        let s := s.trainLinks m
        if wait then (s.modBoot (fun b => { b with wait := .links m })).bootLinks else s.nextEntry
    else s)

/-- The channels of a mask are trained: MEM_STAT.TRAINED and the channels' own state (R345, R422). -/
def State.memTrained (s : State) (m : Nat) : State :=
  (s.rfldSet (memA 0x04) 0 16 m).each (bitList 16 m) (fun s k => s.rfldSet (memA (0x100 + 4 * k)) 30 2 0)

/-- LPDDR5_TRAINING_COMPLETE: training ends: `step` 0 when every channel is trained, 1 to 6 the step
that the channels of `mask` failed, 7 a second rank that RANKS asks for and is missing; the other channels are trained
(R418, R422, R429). -/
def execLpddr5TrainingComplete (step : Fin 8) (mask : BitVec 16) (s : State) : Out :=
  .next (if s.boot.mem = 1 ∧ (s.phase = .boot ∨ s.phase = .service) then
      if step.val = 7 ∧ s.rbit (memA 0x00) 29 = false then s
      else if step.val ≠ 0 then
        let s := s.memTrained (~~~mask).toNat
        if s.phase = .boot then s.bootFail (0x0C + step.val) mask.toNat else s
      else
        let s := s.memTrained 0xFFFF
        let s := s.modBoot (fun b => { b with mem := 2 })
        if s.boot.wait = .memory then s.nextEntry else s
    else s)

/-- Every usable line of LPDDR5 and its check word are zero-filled: a byte not listed reads as 0 (R332). -/
def State.zeroFill (s : State) : State :=
  { s with
    mem := s.mem.filter (fun e => decide (s.usable ≤ e.1))
    poison := s.poison.filter (fun k => decide (s.usable ≤ k))
    lost := s.lost.filter (fun k => decide (s.usable ≤ k)) }

/-- LPDDR5_ZERO_FILL_COMPLETE: every usable line is filled and INIT_DONE is set (R332). -/
def execLpddr5ZeroFillComplete (s : State) : Out :=
  .next (if s.boot.mem = 2 ∧ s.phase ≠ .failed then
      (s.zeroFill.modBoot (fun b => { b with mem := 3 })).rbitSet (memA 0x04) 31 true
    else s)

/-! ## LOAD (R409, R419, R425) -/

/-- Whether the Starting Block can write a section's bytes at its data-space destination (R340, R419). -/
def State.loadDestOk (s : State) (dest len : Nat) : Bool :=
  len == 0 || (s.oneRow dest len && (match s.place dest with
    | .remote _ _ => false
    | .none => false
    | .lpddr o => let h := s.shadow; !meets o len h.1 (h.2 - h.1)
    | _ => true))

/-- Shadow offset of the next section copy (R425). -/
def State.shadowNext (s : State) : Nat := roundUp (32768 + s.boot.copies) 64

/-- Whether the shadow has room for a copy of `len` bytes (R425). -/
def State.shadowFits (s : State) (len : Nat) : Bool :=
  let h := s.shadow
  decide (s.boot.dirs < 1024) && decide (s.shadowNext + len ≤ h.2 - h.1) && decide (h.2 ≤ s.usable)

/-- LOAD: section ARG begins to load (R416, R419). -/
def execLoad (s : State) : Out :=
  let n := s.entryFld s.entryNo 2 2
  let fl := s.secFld n 1 1
  let len := s.secFld n 4 4
  let bad := decide (s.nsect ≤ n) || s.secFld n 0 1 != 2 || decide (4 ≤ fl)
    || decide (16 ≤ s.secFld n 2 1) || (bitAt fl 0 && len % 4 != 0)
  .next (if s.atEntry 5 then
      let s := s.setVerified false
      if bad then s.entryFail 0x0A
      else if (!bitAt fl 0 && !s.loadDestOk (s.secFld n 0x10 8 % 2 ^ 48) len)
          || (bitAt fl 1 && !s.shadowFits len) then s.bootFail 0x15 n
      else (s.modBoot (fun b => { b with wait := .load n })).flashRead (s.secFld n 8 4)
    else s)

/-- The script's writes of a CTRL section; answers the failure code, 0 when every one was accepted (R387,
R419). -/
def State.scriptWords (s : State) (a : Nat) : List Word → State × Nat
  | [] => (s, 0)
  | w :: t =>
    if a = rlyA 0x00 ∧ (fget w 30 2 ≠ s.pins.role ∨ s.pins.role = 3) then (s, 0x17)
    else
      let q := s.scriptWrite a w
      if q.2 then State.scriptWords q.1 (a + 4) t else (q.1, 0x0A)

/-- The section's copy in the shadow and its directory entry (R425). -/
def State.shadowPut (s : State) (n : Nat) (l : List Byte) : State :=
  let b := s.shadow.1
  let o := s.shadowNext
  let d := leBytes 2 n ++ leBytes 1 (s.secFld n 2 1) ++ leBytes 1 (s.secFld n 1 1) ++ leBytes 4 l.length
    ++ leBytes 8 (s.secFld n 0x10 8) ++ leBytes 8 o ++ lrep 8 0
  let s := (s.mwrite (b + 32 * s.boot.dirs) d).mwrite (b + o) l
  s.modBoot (fun x => { x with dirs := x.dirs + 1, copies := o + l.length - 32768 })

/-- LOAD_COMPLETE: the bytes of the section being loaded have streamed from the flash to their
destination, and to the shadow; the hash is compared at the end.  A destination in LPDDR5, the shadow's copy
too, waits for INIT_DONE (R332, R419, R425, R429). -/
def execLoadComplete (data : List Byte) (s : State) : Out :=
  .next (match decide (s.phase = .boot), s.boot.wait with
    | true, .load n =>
      let fl := s.secFld n 1 1
      let dest := s.secFld n 0x10 8
      let l := data.take (s.secFld n 4 4)
      let inMem := bitAt fl 1 || (!bitAt fl 0 && decide (dest % 2 ^ 48 < 0x100000000000) && !l.isEmpty)
      if inMem && s.boot.mem != 3 then s
      else
        let q := if bitAt fl 0 then s.scriptWords (dest % 2 ^ 32) (wordsOf l)
          else (s.mwrite (dest % 2 ^ 48) l, 0)
        let good := l.length == s.secFld n 4 4 && shake256 l == s.secHash n
          && decide (s.secFld n 8 4 + l.length ≤ s.headFld 0x0C 4)
        if q.2 ≠ 0 then q.1.entryFail q.2
        else
          let s := if bitAt fl 1 then q.1.shadowPut n l else q.1
          if good then s.nextEntry else s.bootFail 0x14 n
    | _, _ => s)

/-! ## VERIFY, LOCK, END (R416, R420, R421, R424) -/

/-- VERIFY: every check of R420; the first that fails fails the boot. -/
def execVerify (s : State) : Out :=
  .next (if s.atEntry 6 then
      match s.verifyAll with
      | some d => s.bootFail 0x16 d
      | none => (s.setVerified true).nextEntry
    else s)

/-- What is fixed at SB_LOCK: the accounting mode (R316), FREE on a device with no servo loop (R363,
R372), SB_TLOCK (R431), the first boundary (R281), the clusters in use (X1 of R38). -/
def State.lockFixed (s : State) : State :=
  let s := s.unusedHold
  let few := decide (((List.range 16).filter s.partEn).length ≤ 4)
  let s := s.rbitSet (dspA 0x30) 31 (!(s.role == 0 && few))
  let s := if s.servoLoop.isNone && s.role != 2 then
      { s with time := { s.time with incNext := 0x400000000, incAt := s.now } }.setTime 0
    else s
  let us := min ((s.now - s.boot.start) / 1250) 0xFFFFFFFF
  ((s.rset 0x28 (BitVec.ofNat 32 us)).modBoot (fun b => { b with locked := true })).firstBoundary

/-- LOCK: the context load sequence of every enabled context, then SB_LOCK.LOCK and SB_TLOCK; without a
VERIFY that still stands, NO_LOCK (R421, R424). -/
def execLock (s : State) : Out :=
  .next (if s.atEntry 7 then
      if s.rbit 0x04 25 = false then s.entryFail 0x18
      else
        let s := s.bootStep 10
        let s := s.each s.ctxsOn (fun s c => (s.loadContext c true).rfldSet (ctxA c 0x24) 29 3 2)
        ((s.rbitSet 0x0C 31 true).lockFixed.bootStep 11).nextEntry
    else s)

/-- END: the script ends; without a completed LOCK, NO_LOCK (R416). -/
def execEndScript (s : State) : Out := .next (if s.atEntry 0 then s.entryFail 0x18 else s)

end Sys2Proof.Machine
end

