-- ==== Sys2Proof/Machine/Float.lean ====
section
/-!
DEFINITION. Floating-point, conversion, load, store and move instructions of the Scalar Lane
(R100-R110, R192).
-/

namespace Sys2Proof.Machine

/-! ## Arithmetic (R103-R105) -/

/-- FADD (R103). -/
def execFadd (t : TileNo) (rd rs1 rs2 : RegNo) (aux : Byte) (s : State) : Out :=
  .next (s.fp2 t rd rs1 rs2 aux FFmt.add)

/-- FSUB (R103). -/
def execFsub (t : TileNo) (rd rs1 rs2 : RegNo) (aux : Byte) (s : State) : Out :=
  .next (s.fp2 t rd rs1 rs2 aux FFmt.sub)

/-- FMUL (R103). -/
def execFmul (t : TileNo) (rd rs1 rs2 : RegNo) (aux : Byte) (s : State) : Out :=
  .next (s.fp2 t rd rs1 rs2 aux FFmt.mul)

/-- A fused operation on three F registers (R103); `neg` negates the product. -/
def State.fp3 (s : State) (t : TileNo) (rd a b c : RegNo) (aux : Byte) (neg : Bool) : State :=
  let fl := s.flushOn t.val
  s.lane t.val (fun x =>
    x.fpApply aux rd.val (fun m r => m.fma fl neg (r a.val) (r b.val) (r c.val)))

/-- FMA: a × b + c rounded once (R103). -/
def execFma (t : TileNo) (rd rs1 rs2 rs3 : RegNo) (aux : Byte) (s : State) : Out :=
  .next (s.fp3 t rd rs1 rs2 rs3 aux false)

/-- FNMA: -(a × b) + c rounded once (R103). -/
def execFnma (t : TileNo) (rd rs1 rs2 rs3 : RegNo) (aux : Byte) (s : State) : Out :=
  .next (s.fp3 t rd rs1 rs2 rs3 aux true)

/-- The format of a .S or .D operation. -/
def fpFmt (aux : Byte) : FFmt := if fpForm aux = 2 then fFP64 else fFP32

/-- The register value an .S or .D operation reads. -/
def TCtx.fpReg (c : TCtx) (aux : Byte) (r : Nat) : Nat :=
  if fpForm aux = 2 then fdbl (c.fr r) else flane (c.fr r) 0

/-- Whether an operand takes the special path of R109: zero, infinite or a NaN after input flush. -/
def FFmt.special (m : FFmt) (flush : Bool) (a : Nat) : Bool :=
  let v := (m.load flush a).1
  v.isNan || v.isZero || !v.isFinite

/-- 1 when the operand is subnormal after input flush (R109). -/
def FFmt.subCost (m : FFmt) (flush : Bool) (a : Nat) : Nat := b2n (!flush && m.isSubnormal a)

/-- Cycles of FDIV (R109). -/
def fdivCycles (m : FFmt) (flush : Bool) (a b : Nat) : Nat :=
  if m.special flush a || m.special flush b then 4
  else 4 + m.subCost flush a + m.subCost flush b + (m.fb + 1 + 2)

/-- Cycles of FSQRT (R109). -/
def fsqrtCycles (m : FFmt) (flush : Bool) (a : Nat) : Nat :=
  if m.special flush a || m.sign a then 4 else 4 + m.subCost flush a + (m.fb + 1 + 2)

/-- FDIV on the V pipe (R103, R105, R109); the .S4 form is no form of the instruction and never
issues (R190, R192). -/
def execFdiv (t : TileNo) (rd rs1 rs2 : RegNo) (aux : Byte) (s : State) : Out :=
  if fpForm aux = 1 then .next s
  else
    let fl := s.flushOn t.val
    .next (s.laneV t.val (fun c =>
      (c.fpApply aux rd.val (fun m r => m.div fl (r rs1.val) (r rs2.val)),
        fdivCycles (fpFmt aux) fl (c.fpReg aux rs1.val) (c.fpReg aux rs2.val))))

/-- FSQRT on the V pipe (R103, R109). -/
def execFsqrt (t : TileNo) (rd rs1 : RegNo) (aux : Byte) (s : State) : Out :=
  if fpForm aux = 1 then .next s
  else
    let fl := s.flushOn t.val
    .next (s.laneV t.val (fun c =>
      (c.fpApply aux rd.val (fun m r => m.sqrt fl (r rs1.val)),
        fsqrtCycles (fpFmt aux) fl (c.fpReg aux rs1.val))))

/-! ## Minimum, maximum, comparisons and signs (R104, R106) -/

/-- Operands after the input flush, with its flags (R61). -/
def FFmt.flush2 (m : FFmt) (flush : Bool) (a b : Nat) : Nat × Nat × FlagSet :=
  let x := m.flushIn flush a
  let y := m.flushIn flush b
  (x.1, y.1, x.2 ||| y.2)

/-- Minimum or maximum with the input flush (R61, R67, R68). -/
def FFmt.mm (service mx : Bool) (m : FFmt) (flush : Bool) (a b : Nat) : Nat × FlagSet :=
  let o := m.flush2 flush a b
  let r := m.maxMin service mx o.1 o.2.1
  (r.1, o.2.2 ||| r.2)

/-- FMIN: R67 for heats in SERVICE, R68 otherwise (R69, R106). -/
def execFmin (t : TileNo) (rd rs1 rs2 : RegNo) (aux : Byte) (s : State) : Out :=
  .next (s.fp2 t rd rs1 rs2 aux (FFmt.mm (s.serves (s.ctxOn t.val)) false))

/-- FMAX (R69, R106). -/
def execFmax (t : TileNo) (rd rs1 rs2 : RegNo) (aux : Byte) (s : State) : Out :=
  .next (s.fp2 t rd rs1 rs2 aux (FFmt.mm (s.serves (s.ctxOn t.val)) true))

/-- A relation of two encodings: `signalling` sets INVALID for any NaN, otherwise only for a
signalling one; a NaN operand answers false (R106). -/
def FFmt.rel (signalling : Bool) (f : FVal → FVal → Bool) (m : FFmt) (flush : Bool) (a b : Nat) :
    Option Bool × FlagSet :=
  let x := m.load flush a
  let y := m.load flush b
  let nan := x.1.isNan || y.1.isNan
  let inv := if signalling then flIf nan flInvalid else x.1.snanFlag ||| y.1.snanFlag
  (if nan then none else some (f x.1 y.1), x.2 ||| y.2 ||| inv)

/-- FEQ (R106). -/
def execFeq (t : TileNo) (rd rs1 rs2 : RegNo) (aux : Byte) (s : State) : Out :=
  .next (s.fpCmp t rd rs1 rs2 aux (FFmt.rel false valEq))

/-- FLT (R106). -/
def execFlt (t : TileNo) (rd rs1 rs2 : RegNo) (aux : Byte) (s : State) : Out :=
  .next (s.fpCmp t rd rs1 rs2 aux (FFmt.rel true valLt))

/-- FLE (R106). -/
def execFle (t : TileNo) (rd rs1 rs2 : RegNo) (aux : Byte) (s : State) : Out :=
  .next (s.fpCmp t rd rs1 rs2 aux (FFmt.rel true (fun a b => valLt a b || valEq a b)))

/-- An encoding with the sign given; a NaN becomes the canonical NaN, a signalling one with INVALID
(R41, R104). -/
def FFmt.withSign (m : FFmt) (flush : Bool) (a : Nat) (neg : Bool → Bool) : Nat × FlagSet :=
  let x := m.flushIn flush a
  let v := m.decode x.1
  if v.isNan then (m.nanCode, x.2 ||| v.snanFlag)
  else (m.pack (neg (m.sign x.1)) (x.1 % 2 ^ (m.eb + m.fb)), x.2)

/-- FNEG (R104). -/
def execFneg (t : TileNo) (rd rs1 : RegNo) (aux : Byte) (s : State) : Out :=
  .next (s.fp1 t rd rs1 aux (fun m fl a => m.withSign fl a not))

/-- FABS (R104). -/
def execFabs (t : TileNo) (rd rs1 : RegNo) (aux : Byte) (s : State) : Out :=
  .next (s.fp1 t rd rs1 aux (fun m fl a => m.withSign fl a (fun _ => false)))

/-- The first operand with the sign of the second; a NaN operand delivers the canonical NaN (R104). -/
def FFmt.copySign (m : FFmt) (flush : Bool) (a b : Nat) : Nat × FlagSet :=
  let y := m.flushIn flush b
  let v := m.decode y.1
  let r := m.withSign flush a (fun _ => m.sign y.1)
  (if v.isNan then m.nanCode else r.1, r.2 ||| y.2 ||| v.snanFlag)

/-- FCOPYSIGN (R104). -/
def execFcopysign (t : TileNo) (rd rs1 rs2 : RegNo) (aux : Byte) (s : State) : Out :=
  .next (s.fp2 t rd rs1 rs2 aux FFmt.copySign)

/-! ## Conversion (R51, R54, R101, R107) -/

/-- The raw source encoding of a CVT: F registers for FP64 and FP32, G registers for every other
format (R101, R192). -/
def TCtx.cvtRaw (c : TCtx) (code r : Nat) : Nat :=
  if code = 0 then fdbl (c.fr r) else if code = 1 then flane (c.fr r) 0 else (c.gr r).toNat

/-- The exact source value of a CVT with its flags: an integer register, or a format with the
exponent E when it is Q32. -/
def TCtx.cvtSrc (c : TCtx) (flush wide : Bool) (e : Int) (code r : Nat) : FVal × FlagSet :=
  match fmtCode code false with
  | .elem f =>
    let v := f.load flush (if f = .q32 then e else 0) (c.cvtRaw code r % 2 ^ f.bits)
    (v.1, v.2 ||| v.1.snanFlag)
  | _ => (ofInt (sext (c.gr r).toNat (if wide then 64 else 32)), flNone)

/-- The register write of a CVT (R100, R101). -/
def TCtx.cvtDst (c : TCtx) (flush wide : Bool) (e : Int) (code rd : Nat) (v : FVal) :
    RegWrite × FlagSet :=
  match fmtCode code false with
  | .elem f =>
    let r := f.deliver flush (if f = .q32 then e else 0) v
    (if code = 0 then .f rd (fsetDbl (c.fr rd) r.1)
     else if code = 1 then .f rd (fsetLane (c.fr rd) 0 r.1)
     else .g rd (BitVec.ofNat 64 r.1), r.2)
  | _ =>
    let w := if wide then 64 else 32
    let r := deliverInt (-((2 ^ (w - 1) : Nat) : Int)) (((2 ^ (w - 1) : Nat) : Int) - 1) v
    (.g rd (gres w r.1), r.2)

/-- CVT between two non-MX formats or integer registers; codes 0x5 to 0x8 are refused at
verification and never issue (R51, R54, R107, R192, R193). -/
def execCvt (t : TileNo) (rd rs1 : RegNo) (wide : Bool) (src dst : Fin 16) (e : Byte) (s : State) :
    Out :=
  let bad (k : Nat) : Bool := decide (5 ≤ k) && decide (k ≤ 8)
  if bad src.val || bad dst.val then .next s
  else
    let fl := s.flushOn t.val
    .next (s.lane t.val (fun c =>
      let v := c.cvtSrc fl wide e.toInt src.val rs1.val
      let r := c.cvtDst fl wide e.toInt dst.val rd.val v.1
      ⟨[r.1], [v.2 ||| r.2]⟩))

/-! ## Loads and stores (R189, R192, R329) -/

/-- Size in bytes: 1 to 16 for AUX[2:0] = 0 to 4. -/
def accSize (aux : Byte) : Nat := 2 ^ (aux.toNat % 8)

/-- Whether an LD or ST of this AUX passes verification: size at most 16 bytes, and a 16-byte access
uses an F register (R192). -/
def accOk (aux : Byte) : Bool :=
  decide (aux.toNat % 8 < 4) || (aux.toNat % 8 == 4 && bitAt aux.toNat 3)

/-- Share offset of an access: G[RS1] + IMM, modulo 2^64. -/
def TCtx.accOff (c : TCtx) (rs1 : Nat) (imm : BitVec 16) : Nat :=
  wrapN (((c.gr rs1).toNat : Int) + imm.toInt) 64

/-- The fault of an access at share offset `o`: 1 ADDR when misaligned or outside the share and the
context's loan, 2 PROTECT for a store to a protected region, 0 none (R189, R192, R276, R299). -/
def State.accFault (s : State) (t c o n : Nat) (store : Bool) : Nat :=
  let a := s.spadOff c o
  if o % n != 0 || !s.spadAdmits t c a n then 1
  else if store && decide ((s.ctxSpad c).1 ≤ a) && s.protects t c (a - (s.ctxSpad c).1) n then 2
  else 0

/-- A fault of the instruction at the tile's program address: it has no effect and the address does
not advance. -/
def State.laneFault (s : State) (t cause : Nat) : State := s.faultTile t (s.ctxOn t) cause

/-- The register a load writes: a G register zero- or sign-extended, or an F register whose bits
above the loaded bytes are a free value. -/
def loadWrite (rd : Nat) (aux : Byte) (upper : QWord) (v : Nat) : RegWrite :=
  let n := accSize aux
  if bitAt aux.toNat 3 then
    .f rd (BitVec.ofNat 128 (v + (upper.toNat >>> (8 * n)) * 2 ^ (8 * n)))
  else .g rd (if bitAt aux.toNat 4 then BitVec.ofInt 64 (sext v (8 * n)) else BitVec.ofNat 64 v)

/-- LD (R192); poisoned bytes are a fault of the context and write nothing (R335). -/
def execLd (t : TileNo) (rd rs1 : RegNo) (aux : Byte) (imm : BitVec 16) (s : State) : Out :=
  if !accOk aux then .next s
  else
    .next (s.laneDo t.val (fun s =>
      let c := s.ctxOn t.val
      let n := accSize aux
      let o := (s.tc t.val).accOff rs1.val imm
      let f := s.accFault t.val c o n false
      if f ≠ 0 then s.laneFault t.val f
      else
        let a := spadBase t.val + s.spadOff c o
        if s.poisoned a n then
          (s.readPoison a n).laneFault t.val (s.poisonCause t.val c a n)
        else
          let up := Config.loadUpper s.fresh
          let s := { s with fresh := s.fresh + 1 }
          s.retire t.val (s.tc t.val).pc ((s.tc t.val).pc + 8)
            ⟨[loadWrite rd.val aux up (s.mval a n)], [flNone]⟩))

/-- The value a store writes. -/
def TCtx.storeVal (c : TCtx) (rd : Nat) (aux : Byte) : Nat :=
  (if bitAt aux.toNat 3 then (c.fr rd).toNat else (c.gr rd).toNat) % 2 ^ (8 * accSize aux)

/-- ST (R189, R192). -/
def execSt (t : TileNo) (rd rs1 : RegNo) (aux : Byte) (imm : BitVec 16) (s : State) : Out :=
  if !accOk aux then .next s
  else
    .next (s.laneDo t.val (fun s =>
      let c := s.ctxOn t.val
      let n := accSize aux
      let o := (s.tc t.val).accOff rs1.val imm
      let f := s.accFault t.val c o n true
      if f ≠ 0 then s.laneFault t.val f
      else
        let a := s.spadOff c o
        let s := (s.loanDirty t.val c a n).mwriteVal (spadBase t.val + a) n
          ((s.tc t.val).storeVal rd.val aux)
        s.retire t.val (s.tc t.val).pc ((s.tc t.val).pc + 8) ⟨[], [flNone]⟩))

/-! ## Moves (R104, R192) -/

/-- FMV (R192). -/
def execFmv (t : TileNo) (rd rs1 : RegNo) (s : State) : Out :=
  .next (s.lane t.val (fun c => ⟨[.f rd.val (c.fr rs1.val)], [flNone]⟩))

/-- MVGF: a G register into bits [63:0] or one lane of an F register (R192). -/
def execMvgf (t : TileNo) (rd rs1 : RegNo) (aux : Byte) (s : State) : Out :=
  .next (s.lane t.val (fun c =>
    let g := (c.gr rs1.val).toNat
    ⟨[.f rd.val (if bitAt aux.toNat 2 then fsetLane (c.fr rd.val) (aux.toNat % 4) g
      else fsetDbl (c.fr rd.val) g)], [flNone]⟩))

/-- MVFG: bits [63:0] or one zero-extended lane of an F register into a G register (R192). -/
def execMvfg (t : TileNo) (rd rs1 : RegNo) (aux : Byte) (s : State) : Out :=
  .next (s.lane t.val (fun c =>
    let q := c.fr rs1.val
    outG rd.val (BitVec.ofNat 64
      (if bitAt aux.toNat 2 then flane q (aux.toNat % 4) else fdbl q)) flNone))

end Sys2Proof.Machine
end

