-- ==== Sys2Proof/Machine/Net.lean ====
section
/-!
DEFINITION. The Torrik Frame Protocol (R348-R359), the host's data accesses and their pacing (R303,
R324, R340, R356), the abort of a heat (R178, R179) and the recovery commands (R447-R449).
-/

namespace Sys2Proof.Machine

/-! ## Responses (R350-R352) -/

/-- OP of a command (R353, R447). -/
def TfpOp.code : TfpOp → Nat
  | .cread _ _ => 0x01 | .cwrite _ _ => 0x02 | .cmodify _ _ _ => 0x03 | .dread _ _ => 0x04
  | .dwrite _ _ => 0x05 | .abort _ _ => 0x06 | .echo _ => 0x07 | .tsub _ _ => 0x08 | .health => 0x10
  | .reinit _ _ => 0x11 | .devreset _ => 0x12 | .pwrcycle _ => 0x13

/-- A response's bytes, header to payload; `replay`: a stored one (R351, R355). -/
def response (h : TfpHdr) (op status : Nat) (pl : List Byte) (replay : Bool) : List Byte :=
  tfpHeader (if replay then 0x81 else 0x01) op status h.session.toNat pl.length h.seq.toNat h.tag.toNat
    ++ pl

/-- Send a response to its command's source (R350). -/
def State.respond (s : State) (h : TfpHdr) (r : List Byte) : State :=
  s.sendFrame h.port.val (s.tfpFrame h.port.val h.peer r)

/-- A word as a response carries it (R352). -/
def beWord (w : Word) : List Byte := beBytes 4 w.toNat

/-! ## Control-space words (R354) -/

/-- Read up to `n` words from `a`: their bytes, how many, and the status of the first that fails. -/
def State.creadGo (s : State) (k a : Nat) : Nat → State × List Byte × Nat × Nat
  | 0 => (s, [], 0, 0)
  | n + 1 =>
    let r := s.readReg k a
    if r.2.2 ≠ 0 then (r.1, [], 0, r.2.2)
    else
      let q := State.creadGo r.1 k ((a + 4) % 2 ^ 32) n
      (q.1, beWord r.2.1 ++ q.2.1, q.2.2.1 + 1, q.2.2.2)

/-- Write words from `a`: how many took effect, and the status of the first that fails. -/
def State.cwriteGo (s : State) (k a : Nat) : List Word → State × Nat × Nat
  | [] => (s, 0, 0)
  | w :: t =>
    let r := s.writeReg k a w
    if r.2 ≠ 0 then (r.1, 0, r.2)
    else
      let q := State.cwriteGo r.1 k ((a + 4) % 2 ^ 32) t
      (q.1, q.2.1 + 1, q.2.2)

/-- DONE and FAIL (R354). -/
def doneFail (done status count : Nat) : List Byte :=
  beBytes 2 done ++ beBytes 2 (if status = 0 then count else done)

/-- The word a CMODIFY writes (R354). -/
def mergeWord (old m v : Word) : Word := (old &&& ~~~m) ||| (v &&& m)

/-- The read of a CMODIFY: with its permission, checked on the word it will write, the read's word waits for the
write of the next cycle; otherwise its response (R354, R356). -/
def State.cmodify (s : State) (k a : Nat) (m v : Word) : State × Option (Nat × List Byte) :=
  if (regSpec a).isNone then (s, some (1, beWord 0))
  else
    let r := s.readReg k a
    if s.mayWrite k a (mergeWord r.2.1 m v) = false then (s, some (3, beWord 0))
    else if r.2.2 ≠ 0 then (r.1, some (r.2.2, beWord 0))
    else (r.1.modPort k (fun x => { x with modify := some r.2.1 }), none)

/-! ## Data space (R324, R340, R356) -/

/-- Whether a host access of `n` bytes at `a` is refused: status, 0 for none, and the partition whose
bounds hold it in LPDDR5 (R324, R340, R356, R358, R442). -/
def State.hostAccess (s : State) (k a n : Nat) (write : Bool) : Nat × Option Nat :=
  let pl := s.place a
  if !s.oneRow a n then (4, none)
  else
    match s.partOf pl n, pl with
    | _, .remote _ _ => (4, none)
    | some p, .lpddr _ =>
      if s.permPart k p = false then (3, none)
      else if s.fenced p = true ∨ s.clkState = 2 then (8, none) else (0, some p)
    | some p, _ =>
      if s.permPart k p = false then (3, none)
      else if s.fenced p = true ∨ s.clkState = 2 then (8, none) else (0, none)
    | none, .lpddr o =>
      if write || !s.deviceOwned o n then (4, none)
      else if s.clkState = 2 then (8, none) else (0, none)
    | none, _ => (4, none)

/-- Perform an admitted data access: a read with its bytes, or POISONED; a write (R329). -/
def State.hostData (s : State) : TfpOp → State × Nat × List Byte
  | .dread a n =>
    if s.poisoned a n then (s.readPoison a n, 5, []) else (s, 0, s.mread a n)
  | .dwrite a d => (s.mwrite a d, 0, [])
  | _ => (s, 0, [])

/-- Start a data access of port k: refused, held by its partition's pacer as BE traffic, or done
(R303, R354). -/
def State.hostStart (s : State) (k a n : Nat) (op : TfpOp) (write : Bool) :
    State × Option (Nat × List Byte) :=
  let r := s.hostAccess k a n write
  if r.1 ≠ 0 then (s, some (r.1, []))
  else
    match r.2 with
    | some p =>
      if s.paceAdmits p 0 false && !s.holds p 0 then
        let q := (s.paceTake p 0 n).hostData op
        (q.1, some (q.2.1, q.2.2))
      else (s.hold (.host p k n), none)
    | none => let q := s.hostData op; (q.1, some (q.2.1, q.2.2))

/-! ## Abort (R178, R179) -/

/-- Whether heat number `h` of context c has begun (R278). -/
def State.heatBegun (s : State) (c h : Nat) : Bool :=
  let cur := (s.rget (ctxA c 0x28)).toNat
  h != 0 && cur != 0 && decide ((cur + 2 ^ 32 - h) % 2 ^ 32 < 2 ^ 31)

/-- Run `f` with a saved context's state placed on its tiles, and take it off again (R175). -/
def State.withSaved {α : Type} (s : State) (c : Nat) (ts : List Nat) (f : State → State × α) :
    State × α :=
  let old := ts.map (fun t => (t, s.tile t))
  let s1 := s.each ts (fun s t =>
    match tfind s.saved (savedKey c t) with
    | some x => s.setTile t { s.tile t with ctx := some c, tc := x }
    | none => s)
  let r := f s1
  (r.1.each old (fun s o =>
    let x := s.tile o.1
    let s := { s with saved := tput s.saved (savedKey c o.1) x.tc }
    s.setTile o.1 { x with ctx := o.2.ctx, tc := o.2.tc }), r.2)

/-- Where a heat stands: on a tile, saved on a tile, or neither. -/
def State.heatPlace (s : State) (c h : Nat) : Option (Nat × Bool) :=
  let here (t : Nat) : Bool := (s.tile t).ctx == some c && ((s.tc t).heat? h).isSome
  let kept (t : Nat) : Bool := match tfind s.saved (savedKey c t) with
    | some x => (x.heat? h).isSome
    | none => false
  match (List.range 32).find? here with
  | some t => some (t, false)
  | none => ((List.range 32).find? kept).map (fun t => (t, true))

/-- Abort a heat in this cycle: the payload of the reply (R178, R179, R353). -/
def State.doAbort (s : State) (c h : Nat) : State × List Byte :=
  let r : State × Nat × Nat × Nat := match s.heatPlace c h with
    | some (t, false) =>
      let ts := s.heatTiles t h
      let q := s.abortHeat t c h
      (q.1.kickAll ts, q.2)
    | some (t, true) =>
      let ts := match tfind s.saved (savedKey c t) with
        | some x => ((x.heat? h).map Heat.tiles).getD []
        | none => []
      s.withSaved c ts (fun s => s.abortHeat t c h)
    | none => (s, tget 0 s.dsp.ended (c * 2 ^ 32 + h), 0, 0)
  let code := if r.2.2.2 ≠ 0 then 0x08 else if r.2.2.1 ≠ 0 then 0x09 else 0x0A
  (r.1, [BitVec.ofNat 8 code, BitVec.ofNat 8 r.2.1, BitVec.ofNat 8 r.2.2.1, BitVec.ofNat 8 r.2.2.2])

/-! ## Recovery commands (R447-R449) -/

/-- REINIT of partition p: answered, or waiting for the end of the partition's reset (R448, R451). -/
def State.reinit (s : State) (k p expect : Nat) : State × Option (Nat × List Byte) :=
  let gen := s.rfld (mshA (0x200 + 4 * p)) 0 16
  let ans (s : State) (r : Nat) : State × Option (Nat × List Byte) :=
    (s, some (0, leBytes 4 r ++ beBytes 4 gen))
  if 16 ≤ p then (s, some (7, []))
  else if s.permPart k p = false then (s, some (3, []))
  else if s.health.dead.contains p && s.partState p == 0 then ans s 2
  else if s.partState p = 3 then (s, none)
  else if expect ≠ gen then ans s 1
  else if s.partEn p = false then (s, some (2, []))
  else ans ((s.verdict 3 0 p 0x07 k).partReset p true false) 0

/-- DEVRESET and PWRCYCLE: ordered when EXPECT is the reset count (R448). -/
def State.orderReset (s : State) (k expect : Nat) (device : Bool) : State × Option (Nat × List Byte) :=
  let due := (s.ordered? device).isSome
  if s.permDev k = false then (s, some (3, []))
  else if expect ≠ (s.rget (mshA 0x14)).toNat || due || (!device && s.pins.pwrReq) then
    (s, some (0, leBytes 4 1))
  else (s.setHealth { s.health with ordered := s.health.ordered ++ [(device, k)] }, some (0, lrep 4 0))

/-! ## Execution (R353-R358) -/

/-- Add or replace, or end, a subscription (R359). -/
def State.subscribe (s : State) (h : TfpHdr) (stream : Nat) (en : Bool) : State :=
  let other (b : Sub) : Bool := !(b.port == h.port && b.stream == stream && b.peer == h.peer)
  let l := s.obs.subs.filter other
  let b : Sub := { port := h.port, stream := stream, peer := h.peer, session := h.session.toNat, seq := 0
                   recs := [], due := false, dropped := 0 }
  { s with obs := { s.obs with subs := if en then l ++ [b] else l } }

/-- The event ring of a unit in a declared closed set whose reset is delayed (R445). -/
def State.ringHung (s : State) (q : Nat) : Bool :=
  s.hungNodes.any (fun n =>
    match n.kind with
    | 1 => q == n.a | 2 => q == n.a | 3 => q == n.a
    | 4 => q == 32 + n.a
    | 8 => q == 36 + n.a
    | 9 => q == 52 + n.a | 10 => q == 52 + n.a | 11 => q == 52 + n.a
    | _ => false)

/-- Whether a read of `n` words from `a` targets the event ring of a hung unit (R445). -/
def State.readHung (s : State) (a n : Nat) : Bool :=
  (List.range 63).any (fun q => s.ringHung q && decide (a < ringA q 0 + 0x804)
    && decide (ringA q 0 < a + 4 * n))

/-- Execute a command of port k: the status and payload of its response, none while it waits
(R354-R358). -/
def State.tfpExec (s : State) (h : TfpHdr) (op : TfpOp) : State × Option (Nat × List Byte) :=
  let k := h.port.val
  match op with
  | .echo d => (s, some (0, d))
  | .cread a n =>
    if s.readHung a n then (s, none)
    else
      let r := s.creadGo k a n
      (r.1, some (r.2.2.2, doneFail r.2.2.1 r.2.2.2 n ++ r.2.1))
  | op =>
    if s.sbLock = false then (s, some (8, []))
    else
      match op with
      | .cwrite a l => let r := s.cwriteGo k a l; (r.1, some (r.2.2, doneFail r.2.1 r.2.2 l.length))
      | .cmodify a m v => s.cmodify k a m v
      | .dread a n => s.hostStart k a n op false
      | .dwrite a d => s.hostStart k a d.length op true
      | .abort c n =>
        if 64 ≤ c then (s, some (9, []))
        else if s.permPart k (s.ctxPart c) = false then (s, some (3, []))
        else if s.heatBegun c n then (s, none) else (s, some (9, []))
      | .tsub st en => (s.subscribe h st en, some (0, []))
      | .health => (s, some (0, [0x04, 0x14, 0x10, 0x08].flatMap (fun o => beWord (s.rget (mshA o)))))
      | .reinit p e => s.reinit k p e
      | .devreset e => s.orderReset k e true
      | .pwrcycle e => s.orderReset k e false
      | _ => (s, some (7, []))

/-- Values outside the range a payload field states: BAD_FORMAT (R351, R353). -/
def TfpOp.malformed : TfpOp → Bool
  | .cread _ n => n == 0 || decide (256 < n)
  | .cwrite _ l => l.isEmpty || decide (256 < l.length)
  | .dread _ n => n == 0 || decide (1024 < n)
  | .dwrite _ d => d.isEmpty || decide (1024 < d.length)
  | .echo d => decide (1440 < d.length)
  | .tsub st _ => decide (3 < st)
  | _ => false

/-- An executed command is answered and kept in the replay store; the port goes on to its next
(R354, R355). -/
def State.tfpDone (s : State) (h : TfpHdr) (op : TfpOp) (status : Nat) (pl : List Byte) : State :=
  let r := response h op.code status pl false
  let s := s.respond h r
  s.modPort h.port.val (fun x =>
    { x with
      queue := x.queue.drop 1, busy := false
      store := (x.store ++ [(h.seq.toNat, r)]).drop (x.store.length + 1 - 32) })

/-- Drop the command at the head of a port's queue. -/
def State.tfpDrop (s : State) (k : Nat) : State :=
  s.modPort k (fun x => { x with queue := x.queue.drop 1, busy := false })

/-- Execute the head of a port's queue, which waits when it cannot end (R354, R355). -/
def State.tfpRun (s : State) (h : TfpHdr) (op : TfpOp) : State :=
  let r := s.tfpExec h op
  match r.2 with
  | some (st, pl) => r.1.tfpDone h op st pl
  | none => r.1.modPort h.port.val (fun x => { x with busy := true })

/-- The command at the head of a port's queue meets the session rules of R355. -/
def State.tfpHead (s : State) (h : TfpHdr) (op : TfpOp) : State :=
  let k := h.port.val
  let last := (s.rget (netA k 0x38)).toNat
  let seq := h.seq.toNat
  let d := (seq + 2 ^ 32 - last) % 2 ^ 32
  let newer := decide (1 ≤ d) && decide (d < 2 ^ 31)
  let fresh := s.rbit (netA k 0x18) 23 || s.rfld (netA k 0x18) 0 16 != h.session.toNat
  if op.malformed then (s.respond h (response h op.code 7 [] false)).tfpDrop k
  else if fresh then
    let s := (s.rbitSet (netA k 0x18) 23 false).rfldSet (netA k 0x18) 0 16 h.session.toNat
    ((s.modPort k (fun x => { x with store := [] })).rset (netA k 0x38) h.seq).tfpRun h op
  else if newer then (s.rset (netA k 0x38) h.seq).tfpRun h op
  else
    match (s.port k).store.find? (fun e => e.1 == seq) with
    | some (_, r) =>
      let r := [r.headD 0, 0x81] ++ r.drop 2
      ((s.rcount (netA k 0x2C) 16 16 1).respond h r).tfpDrop k
    | none =>
      let s := (s.rcount (netA k 0x2C) 0 16 1).event (60 + k) 0x0C {} seq last
      (s.respond h (response h op.code 6 [] false)).tfpDrop k

/-- Serve a port's queue until it is empty or a command waits. -/
def State.servePort (s : State) (k : Nat) : Nat → State
  | 0 => s
  | n + 1 =>
    let x := s.port k
    match x.busy, x.queue with
    | false, (h, op) :: _ => State.servePort (s.tfpHead h op) k n
    | _, _ => s

/-- Serve a port's whole queue. -/
def State.serveAll (s : State) (k : Nat) : State := s.servePort k (s.port k).queue.length

/-- The command in execution on a port, when it waits. -/
def State.waitingCmd (s : State) (k : Nat) : Option (TfpHdr × TfpOp) :=
  let x := s.port k
  if x.busy then x.queue.head? else none

/-- Try the waiting command of a port again. -/
def State.retryPort (s : State) (k : Nat) : State :=
  match s.waitingCmd k with
  | some (h, op) => (s.tfpRun h op).serveAll k
  | none => s

/-- End the waiting command of a port with a response, and serve the rest. -/
def State.endWaiting (s : State) (k st : Nat) (pl : List Byte) : State :=
  match s.waitingCmd k with
  | some (h, op) => (s.tfpDone h op st pl).serveAll k
  | none => s

/-- The write of a CMODIFY of port k, one cycle after its read, and its response with the word read (R354). -/
def State.cmodifyWrite (s : State) (k : Nat) : State :=
  match (s.port k).modify, s.waitingCmd k with
  | some old, some (_, .cmodify a m v) =>
    let s := s.modPort k (fun x => { x with modify := none })
    let q := s.writeReg k a (mergeWord old m v)
    q.1.endWaiting k q.2 (beWord old)
  | _, _ => s

/-- Whether port k accepts a command frame in its encapsulation (R348, R350). -/
def State.tfpAccepts (s : State) (h : TfpHdr) : Bool :=
  let k := h.port.val
  if h.peer.udp then s.rbit (netA k 0x00) 23 && s.portIp k != 0 else s.rbit (netA k 0x00) 22

/-- A command frame reaches its port (R348, R354). -/
def State.tfpArrive (s : State) (h : TfpHdr) (op : TfpOp) : State :=
  let k := h.port.val
  if !(s.netOn k && s.linkUp k) then s
  else if !s.tfpAccepts h then (s.rxFrame k).discard k
  else
    ((s.rxFrame k).modPort k (fun x => { x with queue := x.queue ++ [(h, op)] })).serveAll k

/-! ## The commands of R353 and R447 -/

/-- CREAD: COUNT control-space words in ascending order (R354). -/
def execCread (h : TfpHdr) (addr : Word) (count : BitVec 16) (s : State) : Out :=
  .next (s.tfpArrive h (.cread addr.toNat count.toNat))

/-- CWRITE: words written in ascending order up to the first failure (R354). -/
def execCwrite (h : TfpHdr) (addr : Word) (words : List Word) (s : State) : Out :=
  .next (s.tfpArrive h (.cwrite addr.toNat words))

/-- CMODIFY: a word read, and written back under a mask in the next cycle (R354). -/
def execCmodify (h : TfpHdr) (addr mask value : Word) (s : State) : Out :=
  .next (s.tfpArrive h (.cmodify addr.toNat mask value))

/-- DREAD: bytes of data space (R354). -/
def execDread (h : TfpHdr) (addr : BitVec 48) (len : Word) (s : State) : Out :=
  .next (s.tfpArrive h (.dread addr.toNat len.toNat))

/-- DWRITE: bytes written to data space (R354). -/
def execDwrite (h : TfpHdr) (addr : BitVec 48) (data : List Byte) (s : State) : Out :=
  .next (s.tfpArrive h (.dwrite addr.toNat data))

/-- ABORT: heat HEAT of context CTX is aborted when the abort reaches its tiles (R178, R354). -/
def execAbort (h : TfpHdr) (ctx : Byte) (heat : Word) (s : State) : Out :=
  .next (s.tfpArrive h (.abort ctx.toNat heat.toNat))

/-- ECHO: the payload comes back (R353). -/
def execEcho (h : TfpHdr) (data : List Byte) (s : State) : Out := .next (s.tfpArrive h (.echo data))

/-- TSUB: the source is subscribed to a telemetry stream, or no longer (R359). -/
def execTsub (h : TfpHdr) (stream : Byte) (en : Bool) (s : State) : Out :=
  .next (s.tfpArrive h (.tsub stream.toNat en))

/-- HEALTH: MSH_STAT, MSH_RESET_CNT, MSH_VCNT and MSH_VERDICT (R447). -/
def execHealth (h : TfpHdr) (s : State) : Out := .next (s.tfpArrive h .health)

/-- REINIT: partition PART is reset and reloaded when EXPECT is its GEN (R448). -/
def execReinit (h : TfpHdr) (part : Byte) (expect : Word) (s : State) : Out :=
  .next (s.tfpArrive h (.reinit part.toNat expect.toNat))

/-- DEVRESET: a device reset 10 µs after the response when EXPECT is the reset count (R448). -/
def execDevreset (h : TfpHdr) (expect : Word) (s : State) : Out :=
  .next (s.tfpArrive h (.devreset expect.toNat))

/-- PWRCYCLE: a power cycle is requested 10 µs after the response when EXPECT is the reset count
(R448). -/
def execPwrcycle (h : TfpHdr) (expect : Word) (s : State) : Out :=
  .next (s.tfpArrive h (.pwrcycle expect.toNat))

/-- TFP_MALFORMED_FRAME: a frame whose VER, LEN or OP is not valid, or whose payload is too short, with
its OP byte: answered with BAD_FORMAT and not executed (R351). -/
def execTfpMalformedFrame (h : TfpHdr) (op : Byte) (s : State) : Out :=
  let k := h.port.val
  .next (if !(s.netOn k && s.linkUp k) then s
    else if !s.tfpAccepts h then (s.rxFrame k).discard k
    else (s.rxFrame k).respond h (response h op.toNat 7 [] false))

/-- ABORT_REACHES_TILE: the abort in execution on port `p` acts in this cycle, and its reply is sent
(R178, R179). -/
def execAbortReachesTile (p : Fin 2) (s : State) : Out :=
  .next (match s.waitingCmd p.val with
    | some (_, .abort c n) =>
      let r := s.doAbort c n
      r.1.endWaiting p.val 0 r.2
    | _ => s)

/-! ## Pacers (R303) -/

/-- PACER_RELEASE: the first BE request that partition p's memory pacer, or its link pacer when `rly`,
holds is issued once the bucket admits it (R303). -/
def execPacerRelease (p : Fin 16) (rly : Bool) (s : State) : Out :=
  let kind := b2n rly
  .next (match s.dsp.held.find? (fun x => x.key == (p.val, kind)) with
    | none => s
    | some x =>
      if s.paceAdmits p.val kind false = false then s
      else
        let d := { s.dsp with held := s.dsp.held.erase x }
        let s := { s with dsp := d }
        match x with
        | .copy q t c n => (((s.chargeMem c n).paceTake q 0 n).modCtx t c (fun x => { x with
            copy := x.copy.map (fun r => { r with held := false }) })).resumeCopy t
        | .packet q k pk => s.issuePkt q k pk
        | .host q k n =>
          match s.waitingCmd k with
          | some (_, op) =>
            let write := match op with | .dwrite _ _ => true | _ => false
            let a := match op with | .dwrite a _ => a | .dread a _ => a | _ => 0
            let c := s.hostAccess k a n write
            if c.1 ≠ 0 then s.endWaiting k c.1 []
            else
              let r := (s.paceTake q 0 n).hostData op
              r.1.endWaiting k r.2.1 r.2.2
          | none => s)

end Sys2Proof.Machine
end

