-- ==== Sys2Proof/Machine/Health.lean ====
section
/-!
DEFINITION. Marshal's wait-for graph, hang detector and stall watchdog (R432-R439), delayed resets and
observation reads of hung units (R445), and the end of a partition's reset (R440, R441).
-/

namespace Sys2Proof.Machine

/-! ## The wait-for graph (R432-R434)

Nodes are numbered as R432 codes their kinds: issue (tile), stage queue (tile; A 0, T 1, C 2, B 3), copy
engine (tile), Infield port (cluster, bank), BWAIT (tile, or 32 + source device with the request's
tag), baton (number), prefetch list (context), memory queue (channel), and link credit queue, peer and
receive buffer (link, channel).  A snapshot lists the waiting nodes; what is not listed progresses. -/

/-- Numbers that order nodes as R451 does. -/
def nodeRank (n : GNode) : Nat := n.kind * 2 ^ 40 + n.a * 2 ^ 20 + n.b

/-- The queue a command of opcode `op` needs (R196). -/
def opQueue (op : Nat) : Option (Nat × Queue) :=
  if op = 0x90 then some (0, .a)
  else if op = 0xA0 ∨ op = 0xA1 ∨ op = 0xA2 then some (1, .t)
  else if op = 0x88 then some (2, .c)
  else if op = 0x85 then some (3, .b)
  else none

/-- What the unfinished work of commands before `seq` on the units of `mask` stands for: the queue that
still holds the command, the copy engine, or a stage in service, which progresses. -/
def TCtx.workNodes (x : TCtx) (t seq mask : Nat) : List GNode :=
  (x.work.filter (fun w => decide (w.1 < seq) && bitAt mask w.2)).map (fun w =>
    if x.qa.any (fun q => q.seq == w.1) then ⟨2, t, 0⟩
    else if x.qt.any (fun q => q.seq == w.1) then ⟨2, t, 1⟩
    else if x.qc.any (fun q => q.seq == w.1) then ⟨2, t, 2⟩
    else if w.2 = 6 then ⟨3, t, 0⟩ else ⟨0, t, w.2⟩)

/-- The issue node of a tile, when it waits: on a FENCE's units, a BWAIT or a full queue. -/
def State.issueNode (s : State) (t : Nat) : Option GSnap :=
  let x := s.tc t
  match (s.tile t).ctx, x.curHeat with
  | some c, some h =>
    let mk (es : List GNode) : GSnap := ⟨⟨1, t, 0⟩, es, [x.pc, x.nextSeq, h.num]⟩
    match x.hold with
    | .fence q m => some (mk (x.workNodes t q m))
    | .bwait _ _ => some (mk [⟨5, t, 0⟩])
    | .none =>
      match opQueue (s.mval (s.shareA t c (s.cblk t c 0x00 4) + x.pc) 1) with
      | some (i, q) => if 4 ≤ (x.queue q).length then some (mk [⟨2, t, i⟩]) else none
      | none => none
  | _, _ => none

/-- The stage queue nodes of a tile whose heads WAIT holds. -/
def State.queueNodes (s : State) (t : Nat) : List GSnap :=
  let x := s.tc t
  [(0, x.qa), (1, x.qt), (2, x.qc), (3, x.qb)].filterMap (fun p => match p.2 with
    | q :: _ =>
      let es := x.workNodes t q.seq q.wait
      if es.isEmpty then none else some ⟨⟨2, t, p.1⟩, es, [q.seq]⟩
    | [] => none)

/-- What an access to a local data-space address waits for: its memory queue or Infield port
(R327, R334). -/
def State.portNode (s : State) (a : Nat) : Option GNode :=
  match s.place a with
  | .lpddr o => some ⟨8, lpChannel o, 0⟩
  | .infield k o => some ⟨4, k, bitsOf o 6 4⟩
  | _ => none

/-- The link credit queues that hold requests of a context's tile. -/
def State.creditNodes (s : State) (c t : Nat) : List GNode :=
  (s.outst.filter (fun o => o.ctx == c && o.tile == t)).map (fun o => ⟨9, o.link, s.ctxVc c⟩)

/-- The copy engine node of a tile: a request is held or its reply outstanding. -/
def State.copyNode (s : State) (t : Nat) : Option GSnap :=
  match (s.tc t).copy with
  | some r =>
    let es := if r.held then [⟨0, t, 6⟩]
      else if r.remote then s.creditNodes (s.ctxOn t) t
      else [r.src, r.dst].filterMap s.portNode
    if es.isEmpty then none else some ⟨⟨3, t, 0⟩, es, [r.cmd.seq, r.left, r.outst]⟩
  | none => none

/-- A context waits: its heat issues and the issue node of every tile of that heat waits. -/
def State.ctxWaits (s : State) (c : Nat) : Option (List GNode) :=
  match (List.range 32).find? (fun t => (s.tile t).ctx == some c && (s.tc t).curHeat.isSome) with
  | some t =>
    let ts := ((s.tc t).curHeat.map Heat.tiles).getD []
    if ts.all (fun u => (s.issueNode u).isSome) then some (ts.map (fun u => ⟨1, u, 0⟩)) else none
  | none => none

/-- The baton node of a local baton with waiters: it waits when every context of its partitions is
waiting, FAULTED or down. -/
def State.batonNode (s : State) (b : Nat) : Option GSnap :=
  let m := s.batonMask b
  let cs := (List.range 64).filter (fun c => bitAt m (s.ctxPart c) && s.ctxState c != 4
    && s.ctxState c != 0)
  if cs.all (fun c => (s.ctxWaits c).isSome) then
    some ⟨⟨6, b, 0⟩, cs.flatMap (fun c => (s.ctxWaits c).getD []), [s.batonCount b]⟩
  else none

/-- The BWAIT node of a pending wait. -/
def BWait.node (w : BWait) : GNode :=
  match w.src with
  | .tile t => ⟨5, t, 0⟩
  | .remote _ src _ _ tag _ => ⟨5, 32 + src, tag⟩

/-- The BWAIT node of a wait on a proxy baton, which waits for the baton at its home device (R309, R432). -/
def State.proxyNode (s : State) (t : Nat) : Option GSnap :=
  match (s.tile t).ctx, (s.tc t).hold with
  | some _, .bwait b a => if s.batonProxy b then some ⟨⟨5, t, 0⟩, [⟨6, b, 0⟩], [b, a]⟩ else none
  | _, _ => none

/-- The prefetch list node of a context: its descriptor is outstanding, or held until its tile runs. -/
def State.pfNode (s : State) (j : PfJob) : GSnap :=
  let es := if !j.started then [] else if j.remote then (s.outst.filter (fun o => o.ctx == j.ctx && (match o.kind with
        | .pfRd k _ => k == j.id | .pfWr k => k == j.id | _ => false))).map (fun o => ⟨9, o.link, s.ctxVc j.ctx⟩)
    else [j.src, j.dst].filterMap s.portNode
  ⟨⟨7, j.ctx, 0⟩, es, [j.entry, j.pos, j.left, j.outst]⟩

/-- The link credit queue node of a link and channel: its head packet lacks credits (R385). -/
def State.creditNode (s : State) (k v : Nat) : Option GSnap :=
  let l := s.lnk k
  match l.wait.find? (fun p => p.vc == v) with
  | some p =>
    if lget 0 l.credits v < p.cost then
      some ⟨⟨9, k, v⟩, [⟨10, k, v⟩], [p.tag, l.nextSeq, lget 0 l.credits v]⟩
    else none
  | none => none

/-- The link peer node of a link and channel: packets have waited 8 µs, 10,000 cycles, without a credit returned. -/
def State.peerNode (s : State) (k v : Nat) : Option GSnap :=
  match tfind (s.lnk k).dry v with
  | some n => if n + 10000 ≤ s.now then some ⟨⟨10, k, v⟩, [⟨11, k, v⟩], [n]⟩ else none
  | none => none

/-- The receive buffer node of a link and channel: a packet in it waits to be forwarded (R385, R388). -/
def State.bufferNode (s : State) (k v : Nat) : Option GSnap :=
  let ws := (List.range 4).flatMap (fun j => ((s.lnk j).wait.filter (fun p => p.held == some k && p.vc == v)).map
    (fun p => (j, p)))
  match ws with
  | [] => none
  | w :: _ => some ⟨⟨11, k, v⟩, (ws.map (fun w => (⟨9, w.1, v⟩ : GNode))).eraseDups, [w.2.tag, (s.lnk k).rxSeq]⟩

/-- A node that the state does not hold and its environment reports: an Infield port, a memory queue, a
link receive buffer that delivers to this device. -/
def State.envNode (s : State) (g : GSnap) : Option GSnap :=
  let n := g.node
  if n.kind = 4 ∧ n.a < 4 ∧ n.b < 16 then some { g with edges := g.edges.filter (fun e => e.kind == 3) }
  else if n.kind = 8 ∧ n.a < 16 ∧ n.b = 0 then
    some { g with edges := g.edges.filter (fun e => [3, 4, 11].contains e.kind) }
  else if n.kind = 11 ∧ n.a < 4 ∧ n.b < 3 ∧ s.bufferNode n.a n.b = none then
    some { g with edges := g.edges.filter (fun e => [3, 4, 8, 9].contains e.kind) }
  else none

/-- The waiting nodes of the graph (R432). -/
def State.graph (s : State) (env : List GSnap) : List GSnap :=
  let ts := List.range 32
  ts.filterMap s.issueNode ++ ts.flatMap s.queueNodes ++ ts.filterMap s.copyNode
    ++ s.waits.map (fun w => ⟨w.node, [⟨6, w.baton, 0⟩], [w.baton, w.arg]⟩)
    ++ ((s.waits.map BWait.baton).eraseDups).filterMap s.batonNode
    ++ ts.filterMap s.proxyNode ++ s.dsp.pf.map s.pfNode
    ++ (List.range 4).flatMap (fun k => [0, 1, 2].filterMap (s.creditNode k) ++ [0, 1, 2].filterMap (s.peerNode k)
      ++ [0, 1, 2].filterMap (s.bufferNode k))
    ++ env.filterMap s.envNode

/-! ## Closed sets (R434, R435) -/

/-- Remove, `n` times over, every node that waits on nothing or on a node outside the list. -/
def closedPart : Nat → List GSnap → List GSnap
  | 0, l => l
  | n + 1, l =>
    closedPart n (l.filter (fun g => !g.edges.isEmpty
      && g.edges.all (fun e => l.any (fun h => h.node == e))))

/-- Whether two nodes of a closed set are joined by an edge. -/
def joined (g h : GSnap) : Bool := g.edges.contains h.node || h.edges.contains g.node

/-- Grow a set of nodes of `l` along edges. -/
def spread (l : List GSnap) : Nat → List GSnap → List GSnap
  | 0, c => c
  | n + 1, c => spread l n (l.filter (fun g => c.contains g || c.any (fun h => joined g h)))

/-- The connected closed sets of a list, by ascending lowest node (R451). -/
def components : Nat → List GSnap → List (List GSnap)
  | 0, _ => []
  | n + 1, l =>
    match l with
    | [] => []
    | g :: t =>
      let low := t.foldl (fun m x => if nodeRank x.node < nodeRank m.node then x else m) g
      let c := spread l l.length [low]
      c :: components n (l.filter (fun x => !c.contains x))

/-- Closed sets that both snapshots show and in which nothing completed between them (R435). -/
def hungSets (old new : List GSnap) : List (List GSnap) :=
  let kept := new.filterMap (fun g => match old.find? (fun h => h.node == g.node) with
    | some h => if h.mark = g.mark then some { g with edges := (g.edges ++ h.edges).eraseDups } else none
    | none => none)
  let l := closedPart kept.length kept
  components l.length l

/-! ## The reset that breaks a hang (R439) -/

/-- The partition a node belongs to: a waiter's, a baton's only one, a prefetch list's, a tile's
context's. -/
def State.livePart (s : State) (n : GNode) : Option Nat :=
  match n.kind with
  | 5 => ((s.waits.find? (fun w => w.node == n)).map BWait.part).or
      (if n.a < 32 then (s.tile n.a).ctx.map s.ctxPart else none)
  | 6 => match bitList 16 (s.batonMask n.a) with
    | [p] => some p
    | _ => none
  | 7 => some (s.ctxPart n.a)
  | 4 => none
  | _ => (s.tile n.a).ctx.map s.ctxPart

/-- Whether the device is a node's domain: a memory queue, a baton of several partitions (R432). -/
def State.liveDev (s : State) (n : GNode) : Bool :=
  n.kind == 8 || (n.kind == 6 && (bitList 16 (s.batonMask n.a)).length != 1)

/-- The partition a node belonged to in the snapshot (R437). -/
def State.nodePart (s : State) (n : GNode) : Option Nat :=
  (s.health.doms.find? (fun d => d.1 == n)).bind (fun d => if d.2.1 < 16 then some d.2.1 else none)

/-- Whether the device was a node's domain in the snapshot (R437). -/
def State.nodeDev (s : State) (n : GNode) : Bool :=
  n.kind == 8 || s.health.doms.any (fun d => d.1 == n && d.2.2)

/-- Whether a tile (1), cluster (2) or partition (3) contains a node. -/
def State.holdsNode (s : State) (domain index : Nat) (n : GNode) : Bool :=
  let tile := n.kind == 1 || n.kind == 2 || n.kind == 3
  match domain with
  | 1 => tile && n.a == index
  | 2 => (tile && n.a / 8 == index) || (n.kind == 4 && n.a == index)
  | _ => s.nodePart n == some index

/-- DOMAIN and INDEX of the reset that breaks a closed set, by the snapshot that showed it (R437, R439). -/
def State.hangDomain (s : State) (ns : List GNode) : Nat × Nat :=
  let links := ns.filter (fun n => decide (9 ≤ n.kind))
  let whole (d : Nat) (i : Nat) : Bool := ns.all (s.holdsNode d i)
  if !links.isEmpty then (4, links.foldl (fun m n => min m n.a) 3)
  else if ns.any s.nodeDev then (5, 0)
  else
    match (List.range 32).find? (whole 1), (List.range 4).find? (whole 2),
        (List.range 16).find? (whole 3) with
    | some t, _, _ => (1, t)
    | none, some k, _ => (2, k)
    | none, none, some p => (3, p)
    | none, none, none => (5, 0)

/-- CLASS of a closed set: the unit class of its nodes that decide the reset (R437). -/
def hangClass (ns : List GNode) : Nat :=
  if ns.any (fun n => decide (9 ≤ n.kind)) then 4
  else if ns.any (fun n => n.kind == 8) then 3
  else if ns.any (fun n => n.kind == 5 || n.kind == 6 || n.kind == 7) then 5
  else if ns.any (fun n => n.kind == 4) then 2
  else 1

/-! ## Resets ordered by Marshal (R440, R445) -/

/-- Observation reads that wait for a hung unit and no longer can are answered with poison (R445). -/
def State.endHungReads (s : State) : State :=
  s.each [0, 1] (fun s k =>
    match s.waitingCmd k with
    | some (_, .cread a n) =>
      if s.readHung a n then s
      else s.endWaiting k 0 (doneFail n 0 n ++ (List.replicate n (beWord 0xDEADDEAD)).flatten)
    | _ => s)

/-- RELAY_LINK_LOST: an ACTIVE link is lost: sixteen failed replays, or a lane without block lock for
1 µs.  Its reset ends a delayed one of it, and the reads that wait for it (R383, R438, R440, R445). -/
def execRelayLinkLost (k : Fin 4) (lock : Bool) (s : State) : Out :=
  let n := k.val
  .next (if s.linkState n = 7 ∧ (lock = true ∨ 16 ≤ (s.lnk n).replays) then
      let s := (s.verdict 4 4 n 0x06 (if lock then 2 else 1)).linkReset n
      let d := s.health.delayed.filter (fun r => r.1 != (4, n))
      let s := s.setHealth { s.health with delayed := d }
      (if d.isEmpty then s.rbitSet (mshA 0x04) 27 false else s).endHungReads
    else s)

/-- Whether a reset of a domain is already under way. -/
def State.resetting (s : State) (r : Nat × Nat) : Bool :=
  s.health.units.contains r || (r.1 == 3 && s.health.parts.any (fun p => p.part == r.2))

/-- Begin a domain's reset (R440). -/
def State.doReset (s : State) (r : Nat × Nat) : State :=
  if s.resetting r then s
  else if r.1 = 1 ∨ r.1 = 2 then s.unitReset r.1 r.2
  else if r.1 = 3 then s.partReset r.2 false false
  else if r.1 = 4 then s.linkReset r.2
  else s.deviceReset s.pins.rstLow

/-- Whether one reset's domain contains another's. -/
def domainHolds (a b : Nat × Nat) : Bool :=
  a == b || a.1 == 5 || (a.1 == 2 && b.1 == 1 && b.2 / 8 == a.2)

/-- Add a reset with its closed set's nodes to a list, within one that contains its domain, in place of
those that its domain contains (R451). -/
def addReset (l : List ((Nat × Nat) × List GNode)) (r : (Nat × Nat) × List GNode) :
    List ((Nat × Nat) × List GNode) :=
  if l.any (fun q => domainHolds q.1 r.1) then
    l.map (fun q => if domainHolds q.1 r.1 then (q.1, q.2 ++ r.2) else q)
  else
    let within := l.filter (fun q => domainHolds r.1 q.1)
    l.filter (fun q => !domainHolds r.1 q.1) ++ [(r.1, r.2 ++ within.flatMap (fun q => q.2))]

/-- Order resets after their verdicts, at once or under RHOLD (R437, R445). -/
def State.orderResets (s : State) (rs : List ((Nat × Nat) × List GNode)) : State :=
  if rs.isEmpty then s
  else if s.rfld (mshA 0x00) 16 8 = 0 then s.each (rs.foldl addReset []) (fun s r => s.doReset r.1)
  else
    let h := s.health
    (s.setHealth { h with delayed := rs.foldl addReset h.delayed }).rbitSet (mshA 0x04) 27 true

/-! ## The searches (R435) -/

/-- Whether a node that the first of two graphs of one cycle, or the second, shows as waiting has completed something
between them: its count has moved, or it waits in one of them only. -/
def stirred (g h : List GSnap) (n : GNode) : Bool :=
  match g.find? (fun x => x.node == n), h.find? (fun x => x.node == n) with
  | some x, some y => x.mark != y.mark
  | _, _ => true

/-- The wait-for graph's state as the cycle began (R435). -/
def State.graphStart (s : State) : State :=
  { s with
    tiles := s.was.tiles, ctl := s.was.ctl, links := s.was.links, outst := s.was.outst, waits := s.was.waits
    dsp := { s.dsp with pf := s.was.pf } }

/-- GRAPH_SNAPSHOT: every node's state, completion count and domain; `env` reports the nodes that the model's
state does not hold.  A node that waited in the snapshot before and completes something in this cycle does not count
as seen (R435).  HDET_EN = 0 stops the searches. -/
def execGraphSnapshot (env : List GSnap) (s : State) : Out :=
  .next (if s.rbit (mshA 0x00) 31 then
      let g := s.graph env
      let again := s.health.last.map GSnap.node
      let g0 := s.graphStart.graph env
      s.setHealth { s.health with
        before := s.health.last
        last := g.filter (fun x => !(again.contains x.node && stirred g0 g x.node))
        doms := g.map (fun x => (x.node, (s.livePart x.node).getD 16, s.liveDev x.node))
        snapAt := some s.now, again := again }
    else s.setHealth { s.health with before := [], last := [], doms := [], snapAt := none, again := [] })

/-- The cycle of a snapshot ends: nodes that waited in the snapshot before and have completed something in it do not
count as seen (R435). -/
def State.graphCycle (s : State) : State :=
  if s.health.snapAt = some s.now then
    let g := s.graph []
    let gone (x : GSnap) : Bool := s.health.again.contains x.node && x.node.kind != 4 && x.node.kind != 8
      && !(x.node.kind == 11 && s.bufferNode x.node.a x.node.b == none) && stirred s.health.last g x.node
    s.setHealth { s.health with last := s.health.last.filter (fun x => !gone x), snapAt := none, again := [] }
  else s

/-- Declare a hang: its verdict (R437, R438). -/
def State.declareHang (s : State) (ns : List GNode) : State :=
  let d := s.hangDomain ns
  (s.rbitSet (mshA 0x04) 31 true).verdict d.1 (hangClass ns) d.2 0x01 ns.length

/-- GRAPH_SEARCH_END: every closed set that two consecutive snapshots show without a completion is a
hang, with its verdict, and the resets that break them follow (R435, R437, R439, R451). -/
def execGraphSearchEnd (s : State) : Out :=
  let free (l : List GSnap) : List GSnap := l.filter (fun g => !s.hungNodes.contains g.node)
  let sets := (hungSets (free s.health.before) (free s.health.last)).map (fun l => l.map GSnap.node)
  let rs := sets.map (fun l => (s.hangDomain l, l))
  .next (if s.rbit (mshA 0x00) 31 && !sets.isEmpty then
      let s := s.each sets State.declareHang
      let left (l : List GSnap) : List GSnap := l.filter (fun g => !sets.any (fun c => c.contains g.node))
      let s := s.setHealth { s.health with before := left s.health.before, last := left s.health.last }
      s.orderResets rs
    else s)

/-- RHOLD_EXPIRY: the delay of the first delayed reset ends and it begins (R445). -/
def execRholdExpiry (s : State) : Out :=
  .next (match s.health.delayed with
    | [] => s
    | r :: rest =>
      let h := s.health
      let s := s.setHealth { h with delayed := rest }
      let s := if rest.isEmpty then s.rbitSet (mshA 0x04) 27 false else s
      (s.doReset r.1).endHungReads)

/-! ## The stall watchdog (R436) -/

/-- Whether a tile is waking from IDLE or NAP (R18). -/
def State.waking (s : State) (t : Nat) : Bool :=
  ((s.tile t).power == .idle || (s.tile t).power == .nap) && (s.wants t).isSome

/-- Whether a node waits on a tile that is waking: a prefetch list whose destination it is, a COPY or stage of a heat
with a rank there (R291, R436). -/
def State.waitsWake (s : State) (n : GNode) : Bool :=
  if n.kind = 7 then s.dsp.pf.any (fun j => j.ctx == n.a && !j.started && j.tiles.any s.waking)
  else if n.kind ≤ 3 then
    (((s.tc n.a).heats.getLast?).map Heat.tiles).any (fun ts => ts.any (fun u => u != n.a && s.waking u))
  else false

/-- Whether the watchdog watches a node: BWAIT, baton, waits on a tile that is waking, and credit waits of a link
that trains or naps are exempt (R436). -/
def State.watched (s : State) (n : GNode) : Bool :=
  n.kind != 5 && n.kind != 6 && !s.waitsWake n && !(n.kind == 9 && s.linkState n.a != 7)

/-- The command that a tile's node stands for: the head of a stage queue, the COPY in service (R459). -/
def State.nodeIds (s : State) (n : GNode) : Option CmdIds :=
  let x := s.tc n.a
  match n.kind, n.b with
  | 2, 0 => x.qa.head?.map QCmd.ids
  | 2, 1 => x.qt.head?.map QCmd.ids
  | 2, 2 => x.qc.head?.map QCmd.ids
  | 2, 3 => x.qb.head?.map QCmd.ids
  | 3, _ => s.unitIds n.a 6
  | _, _ => none

/-- STALL_WATCHDOG_EXPIRY: a waiting node whose successors all progress has completed nothing for
STALL_TO × 256 cycles: a SHARED fault of the context it serves (`c` for an Infield port's claim), or,
for memory queues and link nodes, a hang confined to it (R436, R438). -/
def execStallWatchdogExpiry (node : GNode) (c : Fin 64) (env : List GSnap) (s : State) : Out :=
  let g := s.graph env
  let busy (e : GNode) : Bool := g.any (fun h => h.node == e)
  .next (match g.find? (fun h => h.node == node) with
    | none => s
    | some x =>
      if s.rfld (mshA 0x00) 0 16 = 0 || !s.watched node || x.edges.any busy then s
      else
        let s := s.rbitSet (mshA 0x04) 30 true
        let k := node.kind
        if 8 ≤ k then
          let d := s.hangDomain [node]
          (s.verdict d.1 (hangClass [node]) d.2 0x02 k).orderResets [(d, [node])]
        else if k = 4 then s.faultDsp c.val 7 2
        else if k = 7 then
          s.faultDsp node.a 7 (if x.edges.any (fun e => e.kind == 9) then 4 else 3)
        else s.faultTile node.a (s.ctxOn node.a) 7 1 (s.nodeIds node))

/-! ## Observation reads (R445) -/

/-- CLASS and INDEX of the first hung unit whose ring a read of `n` words from `a` targets. -/
def State.hungUnit (s : State) (a n : Nat) : Nat × Nat :=
  match (List.range 63).find? (fun q => s.ringHung q && decide (a < ringA q 0 + 0x804)
      && decide (ringA q 0 < a + 4 * n)) with
  | some q =>
    if q < 32 then (1, q) else if q < 36 then (2, q - 32) else if q < 52 then (3, q - 36)
    else (4, q - 52)
  | none => (0, 0)

/-- OBSERVATION_READ_TIMEOUT: the read that waits on port `p` is 4,096 cycles old: every word is poison,
and DUMP_TO, its count and a verdict record it (R445). -/
def execObservationReadTimeout (p : Fin 2) (s : State) : Out :=
  .next (match s.waitingCmd p.val with
    | some (_, .cread a n) =>
      let u := s.hungUnit a n
      (s.dumpTimeout u.1 u.2).endWaiting p.val 0
        (doneFail n 0 n ++ (List.replicate n (beWord 0xDEADDEAD)).flatten)
    | _ => s)

/-! ## The end of a partition's reset (R440, R441) -/

/-- PARTITION_RESET_COMPLETE: the reset of partition p ends: it enters RECOVERY when every enabled
context restarts or the host ordered it, else it goes down; its pacers start full, and a REINIT that
waited is compared (R303, R440, R441, R448). -/
def execPartitionResetComplete (p : Fin 16) (s : State) : Out :=
  let k := p.val
  .next (match s.health.parts.find? (fun r => r.part == k) with
    | none => s
    | some r =>
      if s.partState k ≠ 3 ∨ s.partQuiet k = false then s
      else
        let cs := (List.range 64).filter (fun c => s.ctxEn c && s.ctxPart c == k)
        let up := !r.dead && (r.force || cs.all s.ctxRestart)
        let ts := bitList 32 (s.rget (partA k 0x04)).toNat
        let s := (s.setTokens k 0 (s.paceCap k 0)).setTokens k 1 (s.paceCap k 1)
        let s := if up then (s.rfldSet (partA k 0x1C) 30 2 2).settleAll ts
          else (s.setHealth { s.health with parts := s.health.parts.erase r }).partDown r
        s.each [0, 1] (fun s q => match s.waitingCmd q with
          | some (_, .reinit i _) => if i = k then s.retryPort q else s
          | _ => s))

end Sys2Proof.Machine
end

