-- ==== Sys2Proof/Machine/Integer.lean ====
section
/-!
DEFINITION. Integer instructions of the Scalar Lane (R108, R111, R112, R192).
-/

namespace Sys2Proof.Machine

/-- NOP: nothing but the next address (R192). -/
def execNop (t : TileNo) (s : State) : Out := .next (s.lane t.val (fun _ => ⟨[], []⟩))

/-- ADD: wraps modulo 2^W (R111). -/
def execAdd (t : TileNo) (rd rs1 rs2 : RegNo) (aux : Byte) (s : State) : Out :=
  .next (s.int2 t rd rs1 rs2 aux (fun _ a b => ((a + b : Nat), flNone)))

/-- SUB: wraps modulo 2^W (R111). -/
def execSub (t : TileNo) (rd rs1 rs2 : RegNo) (aux : Byte) (s : State) : Out :=
  .next (s.int2 t rd rs1 rs2 aux (fun _ a b => ((a : Int) - (b : Int), flNone)))

/-- ADDS: clamps to the signed range of W bits (R111). -/
def execAdds (t : TileNo) (rd rs1 rs2 : RegNo) (aux : Byte) (s : State) : Out :=
  .next (s.int2 t rd rs1 rs2 aux (fun w a b => satRes w (sext a w + sext b w)))

/-- SUBS: clamps to the signed range of W bits (R111). -/
def execSubs (t : TileNo) (rd rs1 rs2 : RegNo) (aux : Byte) (s : State) : Out :=
  .next (s.int2 t rd rs1 rs2 aux (fun w a b => satRes w (sext a w - sext b w)))

/-- NEG: wraps (R111). -/
def execNeg (t : TileNo) (rd rs1 : RegNo) (aux : Byte) (s : State) : Out :=
  .next (s.int1 t rd rs1 aux (fun _ a => (-(a : Int), flNone)))

/-- NEGS: clamps (R111). -/
def execNegs (t : TileNo) (rd rs1 : RegNo) (aux : Byte) (s : State) : Out :=
  .next (s.int1 t rd rs1 aux (fun w a => satRes w (-(sext a w))))

/-- AND, 64-bit (R192). -/
def execAnd (t : TileNo) (rd rs1 rs2 : RegNo) (s : State) : Out :=
  .next (s.bit2 t rd rs1 rs2 (fun a b => a &&& b))

/-- OR, 64-bit (R192). -/
def execOr (t : TileNo) (rd rs1 rs2 : RegNo) (s : State) : Out :=
  .next (s.bit2 t rd rs1 rs2 (fun a b => a ||| b))

/-- XOR, 64-bit (R192). -/
def execXor (t : TileNo) (rd rs1 rs2 : RegNo) (s : State) : Out :=
  .next (s.bit2 t rd rs1 rs2 (fun a b => a ^^^ b))

/-- SHL: left shift by an amount modulo W (R111). -/
def execShl (t : TileNo) (rd rs1 rs2 : RegNo) (aux : Byte) (imm : BitVec 16) (s : State) : Out :=
  .next (s.shift t rd rs1 rs2 aux imm (fun _ a n => ((a <<< n : Nat) : Int)))

/-- SHR: logical right shift (R111). -/
def execShr (t : TileNo) (rd rs1 rs2 : RegNo) (aux : Byte) (imm : BitVec 16) (s : State) : Out :=
  .next (s.shift t rd rs1 rs2 aux imm (fun _ a n => ((a >>> n : Nat) : Int)))

/-- SHRA: arithmetic right shift (R111). -/
def execShra (t : TileNo) (rd rs1 rs2 : RegNo) (aux : Byte) (imm : BitVec 16) (s : State) : Out :=
  .next (s.shift t rd rs1 rs2 aux imm (fun w a n => (sext a w).fdiv ((2 ^ n : Nat) : Int)))

/-- CLZ: leading zeros in width W; clz(0) = W (R108, R192). -/
def execClz (t : TileNo) (rd rs1 : RegNo) (aux : Byte) (s : State) : Out :=
  .next (s.int1 t rd rs1 aux (fun w a => (((w - bitLen a : Nat) : Int), flNone)))

/-- CMPEQ: 1 when the operands are equal (R192). -/
def execCmpeq (t : TileNo) (rd rs1 rs2 : RegNo) (aux : Byte) (s : State) : Out :=
  .next (s.int2 t rd rs1 rs2 aux (fun _ a b => (((b2n (a == b) : Nat) : Int), flNone)))

/-- CMPLT: 1 when RS1 is below RS2; AUX bit 2 selects unsigned (R192). -/
def execCmplt (t : TileNo) (rd rs1 rs2 : RegNo) (aux : Byte) (s : State) : Out :=
  .next (s.int2 t rd rs1 rs2 aux (fun w a b =>
    (((b2n (if bitAt aux.toNat 2 then decide (a < b) else decide (sext a w < sext b w)) : Nat) : Int),
      flNone)))

/-- MOV (R192). -/
def execMov (t : TileNo) (rd rs1 : RegNo) (s : State) : Out :=
  .next (s.lane t.val (fun c => outG rd.val (c.gr rs1.val) flNone))

/-- MOVI: IMM sign-extended to 64 bits (R192). -/
def execMovi (t : TileNo) (rd : RegNo) (imm : BitVec 16) (s : State) : Out :=
  .next (s.lane t.val (fun _ => outG rd.val (BitVec.ofInt 64 imm.toInt) flNone))

/-- MOVHI: IMM × 2^16, sign-extended to 64 bits (R192). -/
def execMovhi (t : TileNo) (rd : RegNo) (imm : BitVec 16) (s : State) : Out :=
  .next (s.lane t.val (fun _ => outG rd.val (BitVec.ofInt 64 (imm.toInt * 65536)) flNone))

/-- ADDIM: RS1 + IMM sign-extended (R192). -/
def execAddim (t : TileNo) (rd rs1 : RegNo) (aux : Byte) (imm : BitVec 16) (s : State) : Out :=
  .next (s.int1 t rd rs1 aux (fun _ a => ((a : Int) + imm.toInt, flNone)))

/-- MUL: the low W bits of the product (R111). -/
def execMul (t : TileNo) (rd rs1 rs2 : RegNo) (aux : Byte) (s : State) : Out :=
  .next (s.int2 t rd rs1 rs2 aux (fun _ a b => ((a * b : Nat), flNone)))

/-- The operands of MULX in its sign mode AUX[3:2]: 0 SS, 1 UU, 2 SU (R111, R192). -/
def mulxProduct (mode w a b : Nat) : Int :=
  match mode with
  | 0 => sext a w * sext b w
  | 1 => (a : Int) * (b : Int)
  | _ => sext a w * (b : Int)

/-- MULX: the high W bits of the product in the sign mode named; mode 3 is refused at verification
and never issues (R111, R192). -/
def execMulx (t : TileNo) (rd rs1 rs2 : RegNo) (aux : Byte) (s : State) : Out :=
  let mode := bitsOf aux.toNat 2 2
  if mode = 3 then .next s
  else .next (s.int2 t rd rs1 rs2 aux (fun w a b =>
    ((mulxProduct mode w a b).fdiv ((2 ^ w : Nat) : Int), flNone)))

/-- Cycles of an integer division (R108). -/
def divCycles (w : Nat) (uns : Bool) (a b : Nat) : Nat :=
  let mag (x : Nat) : Nat := if uns then x else (sext x w).natAbs
  let clz (x : Nat) : Nat := w - bitLen (mag x)
  if b = 0 ∨ (uns = false ∧ a = 2 ^ (w - 1) ∧ b = 2 ^ w - 1) then 3
  else 3 + (clz b + 1 - clz a)

/-- The quotient and its flags (R111). -/
def quoRes (w : Nat) (uns : Bool) (a b : Nat) : Int × FlagSet :=
  if b = 0 then
    if uns then (((2 ^ w - 1 : Nat) : Int), flDivz)
    else
      let x := sext a w
      (if 0 < x then ((2 ^ (w - 1) - 1 : Nat) : Int)
       else if x < 0 then -((2 ^ (w - 1) : Nat) : Int) else 0, flDivz)
  else if uns then (((a / b : Nat) : Int), flNone)
  else if a = 2 ^ (w - 1) ∧ b = 2 ^ w - 1 then (sext a w, flDivo)
  else ((sext a w).tdiv (sext b w), flNone)

/-- The remainder and its flags (R111). -/
def rmdRes (w : Nat) (uns : Bool) (a b : Nat) : Int × FlagSet :=
  if b = 0 then (if uns then (a : Int) else sext a w, flDivz)
  else if uns then (((a % b : Nat) : Int), flNone)
  else ((sext a w).tmod (sext b w), flNone)

/-- An integer division on the V pipe. -/
def State.intDiv (s : State) (t : TileNo) (rd rs1 rs2 : RegNo) (aux : Byte)
    (f : Nat → Bool → Nat → Nat → Int × FlagSet) : State :=
  s.laneV t.val (fun c =>
    let w := auxW aux
    let u := bitAt aux.toNat 2
    let a := c.gi w rs1.val
    let b := c.gi w rs2.val
    let r := f w u a b
    (outG rd.val (gres w r.1) r.2, divCycles w u a b))

/-- QUO (R108, R111). -/
def execQuo (t : TileNo) (rd rs1 rs2 : RegNo) (aux : Byte) (s : State) : Out :=
  .next (s.intDiv t rd rs1 rs2 aux quoRes)

/-- RMD (R108, R111). -/
def execRmd (t : TileNo) (rd rs1 rs2 : RegNo) (aux : Byte) (s : State) : Out :=
  .next (s.intDiv t rd rs1 rs2 aux rmdRes)

/-- V_PIPE_RESULT: the V instruction in flight completes and retires (R108-R110); a stopped lane
delivers nothing. -/
def execVPipeResult (t : TileNo) (s : State) : Out :=
  .next (if s.unitRuns t.val 7 then s.drainV t.val else s)

/-- FLAGRD: the sticky flags (R114). -/
def execFlagrd (t : TileNo) (rd : RegNo) (s : State) : Out :=
  .next (s.lane t.val (fun c => outG rd.val (BitVec.ofNat 64 c.sflag.toNat) flNone))

/-- FLAGCLR: clears the bits that RS1 names (R114). -/
def execFlagclr (t : TileNo) (rs1 : RegNo) (s : State) : Out :=
  .next (s.laneDo t.val (fun s => s.modTc t.val (fun c =>
    { c with sflag := c.sflag &&& ~~~(BitVec.ofNat 9 (c.gr rs1.val).toNat), pc := c.pc + 8 })))

/-- TRAPEN: the new trap enable mask; FLUSHED cannot be enabled (R115). -/
def execTrapen (t : TileNo) (rs1 : RegNo) (s : State) : Out :=
  .next (s.laneDo t.val (fun s => s.modTc t.val (fun c =>
    { c with strapEn := BitVec.ofNat 9 (c.gr rs1.val).toNat &&& trapMask, pc := c.pc + 8 })))

/-- SRET: clears IN_TRAP and resumes after the trapping instruction, the gang with it; outside a
handler it has no effect on the lane and is a fault and a false start (R117, R118). -/
def execSret (t : TileNo) (s : State) : Out :=
  .next (s.laneDo t.val (fun s =>
    if (s.tc t.val).inTrap then
      let s := s.modTc t.val (fun c => { c with inTrap := false, pc := c.strapPc.toNat + 8 })
      let gang := match (s.tc t.val).curHeat with
        | some h => h.tiles
        | none => []
      if gang.any (fun u => (s.tc u).inTrap) then
        s.modTc t.val (fun c => { c with stopped := true, stopAt := none })
      else (s.stopPartners t.val false).modTc t.val (fun c => { c with stopped := false })
    else
      (s.faultTile t.val (s.ctxOn t.val) 3).eventTile t.val 0x0C t.val 3))

/-- JMP (R194). -/
def execJmp (t : TileNo) (imm : BitVec 16) (s : State) : Out :=
  .next (s.jump t.val imm (fun _ => true))

/-- BEQZ (R194). -/
def execBeqz (t : TileNo) (rs1 : RegNo) (imm : BitVec 16) (s : State) : Out :=
  .next (s.jump t.val imm (fun c => c.gr rs1.val == 0))

/-- BNEZ (R194). -/
def execBnez (t : TileNo) (rs1 : RegNo) (imm : BitVec 16) (s : State) : Out :=
  .next (s.jump t.val imm (fun c => c.gr rs1.val != 0))

/-- BLTZ (R194). -/
def execBltz (t : TileNo) (rs1 : RegNo) (imm : BitVec 16) (s : State) : Out :=
  .next (s.jump t.val imm (fun c => decide ((c.gr rs1.val).toInt < 0)))

/-- BGEZ (R194). -/
def execBgez (t : TileNo) (rs1 : RegNo) (imm : BitVec 16) (s : State) : Out :=
  .next (s.jump t.val imm (fun c => decide (0 ≤ (c.gr rs1.val).toInt)))

end Sys2Proof.Machine
end

