-- ==== Sys2Proof/Machine/Units.lean ====
section
/-!
DEFINITION. What a unit of a tile does in a cycle (R453-R455): its class and reason, and the bank claims of
scratchpad and Infield that turn a busy cycle into a stall (R333, R334).
-/

namespace Sys2Proof.Machine

/-! ## What a unit of a tile does in a cycle (R454, R455) -/

/-- Whether a tile stops, saves or restores (R205). -/
def State.moving (s : State) (t : Nat) : Bool :=
  let x := s.tile t
  x.preq.isSome || x.seq == .saving || x.seq == .restoring

/-- Why the sequencer's issue is held: the lowest applicable reason, 0 when it issues; behind HEND, until the heat
completes, as behind a FENCE (R455; DEDUCED, log entry 80). -/
def State.seqReason (s : State) (t : Nat) : Nat :=
  let x := s.tile t
  if s.moving t then 0x02
  else
    match x.tc.hold with
    | .fence _ _ => 0x04
    | .bwait _ _ => 0x05
    | .none =>
      if (s.issueNode t).isSome then 0x06
      else if x.tc.vpipe.isSome then 0x0E
      else if x.tc.stopped && !x.tc.inTrap then 0x16
      else if x.tc.curHeat.isNone && !x.tc.heats.isEmpty then 0x04
      else 0

/-- A problem in Factor waits for its bank (R145). -/
def State.bankWait (s : State) (t : Nat) : Bool :=
  (s.tc t).live4.any (fun p => p.2.stage == .factor && !p.2.waiting && p.2.due && !p.2.own)
    && (s.factoring t (s.ctxOn t)).isNone

/-- The command at the head of a stage's queue: A for Assemble, T for Tensor. -/
def TCtx.headOf (x : TCtx) (u : Nat) : Option QCmd :=
  match u with
  | 0 => x.qa.head?
  | 1 => x.qt.head?
  | _ => none

/-- Whether a problem waits to enter stage u. -/
def TCtx.waitsFor (x : TCtx) (u : Nat) : Bool := x.live4.any (fun p => p.2.waiting && p.2.stage.idx == u)

/-- Whether a dump holds the problem or command that stage u is to take next (R471). -/
def State.heldBefore (s : State) (t u : Nat) : Bool :=
  (s.tc t).live4.any (fun p => p.2.waiting && p.2.stage.idx == u && s.probHeld t p.2.heat p.2.prob)
    || (decide (0 < u) && (s.cmd t u).active
      && s.obs.dumps.any (fun d => d.tile == t && d.unit + 1 == u && decide (2 ≤ d.step) && !d.immediate))

/-- Why a stage that works on no problem makes no progress, the lowest reason that applies; Assemble between two
problems works unless it must wait.  UPSTREAM stands for a wait that no reason names (R455; DEDUCED, log entry 80). -/
def State.stageWait (s : State) (t u : Nat) : Nat × Nat :=
  let x := s.tc t
  if (x.headOf u).any (fun q => !x.waitOk q.seq q.wait) then (1, 0x03)
  else if u ≠ 0 then
    if u = 1 ∧ x.qt.head?.any (fun q => !s.convFree t q) = true then (1, 0x15)
    else if !x.waitsFor u then (1, 0x07)
    else if x.waitsFor (u + 1) then (1, 0x08) else (1, 0x07)
  else if x.waitsFor 1 then (1, 0x08)
  else if x.freeSlot.isNone then (1, 0x09)
  else match x.entering with
    | some (h, r) =>
      if h.tiles.all (s.rankReady h.num r.next) then (0, 0)
      else if s.rankReady h.num r.next t then (1, 0x15) else (1, 0x07)
    | none => (1, 0x07)

/-- Class and reason of a stage's cycle: 0 BUSY, 1 STALL, 2 IDLE (R454, R455). -/
def State.stageCycle (s : State) (t u : Nat) : Nat × Nat :=
  let x := s.tc t
  let work := x.unitBusy u
  let holds := work || (s.cmd t u).active || (x.headOf u).isSome || (u == 0 && x.entering.isSome)
  if s.dumpHolds t u || (!work && s.heldBefore t u) then (1, 0x01)
  else if !holds then (2, 0)
  else if s.moving t && !(work && s.unitRuns t u) then (1, 0x02)
  else if work then (if u == 2 && s.bankWait t then (1, 0x0A) else (0, 0))
  else s.stageWait t u

/-- Class and reason of the copy engine's cycle; a COPY at the head of queue C whose WAIT is met starts. -/
def State.copyCycle (s : State) (t : Nat) : Nat × Nat :=
  let x := s.tc t
  if s.dumpHolds t 6 then (1, 0x01)
  else match x.copy, x.qc with
    | some r, _ =>
      if s.moving t && !s.unitRuns t 6 then (1, 0x02)
      else if r.held then (1, 0x10)
      else if r.remote then
        let mine := s.outst.filter (fun o => o.tile == t && o.ctx == s.ctxOn t)
        if !mine.isEmpty && mine.all (fun o => (s.lnk o.link).wait.any (fun p => p.tag == o.tag)) then (1, 0x13)
        else (1, 0x12)
      else (0, 0)
    | none, q :: _ => if s.moving t then (1, 0x02) else if x.waitOk q.seq q.wait then (0, 0) else (1, 0x03)
    | none, [] => if (s.cmd t 6).active then (1, 0x02) else (2, 0)

/-- Class and reason of the Scalar Lane's cycle: its next instruction is the entry at the program
address; a run that waits for another unit's entry is charged SCALAR_DEP (DEDUCED, log entry 79). -/
def State.laneCycle (s : State) (t : Nat) : Nat × Nat :=
  let x := s.tc t
  let op := s.mval (s.shareA t (s.ctxOn t) (s.cblk t (s.ctxOn t) 0x00 4) + x.pc) 1
  let r := s.seqReason t
  let run := (s.cmd t 7).active
  if r = 0x02 ∧ (run = true ∨ x.vpipe.isSome = true) then (1, 0x02)
  else if x.curHeat.isNone || decide (0x70 ≤ op) then
    if x.vpipe.isSome then (1, 0x0E) else if run then (1, 0x0F) else (2, 0)
  else if r = 0 then (0, 0)
  else if r = 0x02 ∨ r = 0x0E ∨ r = 0x16 then (1, r)
  else if run then (1, 0x0F) else (2, 0)

/-- Class and reason of the sequencer's cycle. -/
def State.seqCycle (s : State) (t : Nat) : Nat × Nat :=
  if (s.tc t).heats.isEmpty && !(s.cmd t 8).active then (2, 0)
  else
    let r := s.seqReason t
    if r = 0 then (0, 0) else (1, r)

/-- Class and reason of a unit's cycle, by unit number (R453). -/
def State.unitCycle (s : State) (t u : Nat) : Nat × Nat :=
  if u < 6 then s.stageCycle t u
  else if u = 6 then s.copyCycle t
  else if u = 7 then s.laneCycle t
  else s.seqCycle t

/-! ## Bank claims (R333, R334) -/

/-- The stage or pipe behind a scratchpad port, in the order of R333: save and restore, Tensor O, C, W and A,
Assemble, Factor, Solve, Iterate, Emit, the copy engine, the M pipe, Marshal. -/
def portUnit : Nat → Option Nat
  | 1 => some 1 | 2 => some 1 | 3 => some 1 | 4 => some 1
  | 5 => some 0 | 6 => some 2 | 7 => some 3 | 8 => some 4 | 9 => some 5
  | 10 => some 6 | 11 => some 7
  | _ => none

/-- The place of the side of a tile's running COPY that is read (0) or written (1). -/
def State.copySide (s : State) (t dir : Nat) : Place :=
  match (s.tc t).copy with
  | some r => s.place (if dir = 0 then r.src else r.dst)
  | none => .none

/-- Bytes that a tile's running COPY has still to move. -/
def State.copyLeft (s : State) (t : Nat) : Nat := ((s.tc t).copy.map CopyRun.left).getD 0

/-- The scratchpad offset and length of what a port of tile t can access in this cycle, none without work: the save
area, what the COPY has still to move, the context's share, or for Marshal the whole scratchpad (R333). -/
def State.portRange (s : State) (t p : Nat) : Option (Nat × Nat) :=
  let c := s.ctxOn t
  match p, portUnit p with
  | 0, _ => if (s.tile t).seq = .saving ∨ (s.tile t).seq = .restoring then
      some (s.saveA t (((s.tile t).incoming).getD c) - spadBase t, 6144) else none
  | 10, _ =>
    if (s.unitCycle t 6).1 = 0 then
      match s.copySide t 0, s.copySide t 1 with
      | .spad _ o, _ => some (o, s.copyLeft t)
      | _, .spad _ o => some (o, s.copyLeft t)
      | _, _ => none
    else none
  | _, some u => if (s.unitCycle t u).1 = 0 then some (s.ctxSpad c) else none
  | _, none => some (0, 0x100000)

/-- The offset that a claim takes in a range, 64 bytes wide: the cycle and the place of a unit's accesses are open
values. -/
def claimAt (free : Nat) (r : Nat × Nat) : Option Nat :=
  if free % 2 = 1 then some (r.1 + 64 * (free / 2 % max 1 (ceilDiv r.2 64))) else none

/-- The scratchpad bank that a port claims in this cycle, if any: the one it has lost, again, or that of an access of
its unit (R333; DESIGN CHOICE, log entry 81). -/
def State.spadClaim (s : State) (t p : Nat) : Option Nat :=
  match s.portRange t p with
  | none => none
  | some r => (tfind s.banks.spadHeld (16 * t + p)).or
      ((claimAt (Config.spadClaim s.now t p) r).map (fun o => bitsOf o 6 5))

/-- Consecutive cycles that a scratchpad port has lost. -/
def State.spadLost (s : State) (t p : Nat) : Nat := tget 0 s.banks.spad (16 * t + p)

/-- Whether port q of tile t goes before port p: after 4 lost cycles a port wins; else the order of R333. -/
def State.portBefore (s : State) (t q p : Nat) : Bool :=
  let a := decide (4 ≤ s.spadLost t q)
  let b := decide (4 ≤ s.spadLost t p)
  if a = b then decide (q < p) else a

/-- Whether a port loses its bank claim in this cycle: to a port before it, or to a partial write that still
occupies the bank (R333, R335). -/
def State.spadLoses (s : State) (t p : Nat) : Bool :=
  match s.spadClaim t p with
  | none => false
  | some b => s.banks.spadBusy.contains (32 * t + b) || (List.range 13).any (fun q => s.portBefore t q p && s.spadClaim t q == some b)

/-- The Infield bank that the read path (0) or write path (1) of tile t claims in this cycle: the one it has lost,
again, or that of an access of the COPY (R334; log entry 81). -/
def State.infClaim (s : State) (t dir : Nat) : Option Nat :=
  match s.copySide t dir with
  | .infield _ o =>
    if (s.unitCycle t 6).1 = 0 then
      (tfind s.banks.infHeld (2 * t + dir)).or
        ((claimAt (Config.infClaim s.now t dir) (o, s.copyLeft t)).map (fun o => bitsOf o 6 4))
    else none
  | _ => none

/-- The Infield bank of cluster k that Marshal claims in this cycle (R334). -/
def State.infMarshal (s : State) (k : Nat) : Option Nat :=
  (tfind s.banks.infHeld (64 + k)).or
    ((claimAt (Config.infMarshal s.now k) (0, 0x800000)).map (fun o => bitsOf o 6 4))

/-- The paths of the tiles of cluster k that claim bank b: (tile, path). -/
def State.infClaims (s : State) (k b : Nat) : List (Nat × Nat) :=
  ((List.range 16).map (fun i => (8 * k + i / 2, i % 2))).filter (fun r => s.infClaim r.1 r.2 == some b)

/-- Consecutive cycles that a path has lost; Marshal's of cluster k stand at 64 + k. -/
def State.infLost (s : State) (i : Nat) : Nat := tget 0 s.banks.inf i

/-- The order of a path on a bank: first those that have lost 4 cycles, then round-robin by tile index from the
tile after the last winner. -/
def State.infOrder (s : State) (k b : Nat) (r : Nat × Nat) : Nat :=
  let last := tget 7 s.banks.last (16 * k + b)
  let turn := 2 * ((r.1 % 8 + 7 - last) % 8) + r.2
  if 4 ≤ s.infLost (2 * r.1 + r.2) then turn else 16 + turn

/-- The path that wins bank b of cluster k in this cycle: none when no tile claims it, a partial write still occupies
it, or Marshal has lost 4 cycles and takes it (R334, R335). -/
def State.infWinner (s : State) (k b : Nat) : Option (Nat × Nat) :=
  if s.banks.infBusy.contains (16 * k + b) = true ∨ (s.infMarshal k = some b ∧ 4 ≤ s.infLost (64 + k)) then none
  else
    let l := s.infClaims k b
    l.find? (fun r => l.all (fun q => decide (s.infOrder k b r ≤ s.infOrder k b q)))

/-- Whether a path of tile t loses its Infield claim in this cycle. -/
def State.infLoses (s : State) (t dir : Nat) : Bool :=
  match s.infClaim t dir with
  | none => false
  | some b => s.infWinner (t / 8) b != some (t, dir)

/-- Whether Marshal loses its Infield claim on cluster k in this cycle (R334). -/
def State.infMarshalLoses (s : State) (k : Nat) : Bool :=
  match s.infMarshal k with
  | none => false
  | some b => s.banks.infBusy.contains (16 * k + b) || (s.infWinner k b).isSome

/-- The claims of a list of requesters after a cycle: a loser counts one cycle more and claims its bank again; any
other starts afresh (R333). -/
def claimsAfter (lost held : Tab Nat) (l : List (Nat × Option Nat × Bool)) : Tab Nat × Tab Nat :=
  l.foldl (fun m r => match r.2.1, r.2.2 with
    | some b, true => (tset 0 m.1 r.1 (tget 0 lost r.1 + 1), tput m.2 r.1 b)
    | _, _ => (tset 0 m.1 r.1 0, tdel m.2 r.1)) (lost, held)

/-- Ports that can write: Tensor O, the stages, the copy engine, the M pipe and Marshal. -/
def writePorts : List Nat := [1, 5, 6, 7, 8, 9, 10, 11, 12]

/-- The bank claims after one cycle: lost cycles and lost claims of every requester, the last winner of every Infield
bank, and the banks that a partial write takes for a second cycle (R333-R335). -/
def State.bankCycle (s : State) : Banks :=
  let ts := List.range 32
  let sp := ts.flatMap (fun t => (List.range 13).map (fun p => (16 * t + p, s.spadClaim t p, s.spadLoses t p)))
  let inf := (List.range 64).map (fun i => (i, s.infClaim (i / 2) (i % 2), s.infLoses (i / 2) (i % 2)))
    ++ (List.range 4).map (fun k => (64 + k, s.infMarshal k, s.infMarshalLoses k))
  let last := (List.range 64).map (fun i => (i, match s.infWinner (i / 16) (i % 16) with
    | some r => r.1 % 8
    | none => tget 7 s.banks.last i))
  let a := claimsAfter s.banks.spad s.banks.spadHeld sp
  let b := claimsAfter s.banks.inf s.banks.infHeld inf
  let busy (write : Nat → Bool) (key : Nat → Nat) (l : List (Nat × Option Nat × Bool)) : List Nat :=
    l.filterMap (fun r => match r.2.1, r.2.2 with
      | some k, false => if write r.1 && Config.partialWrite s.now r.1 then some (key r.1 + k) else none
      | _, _ => none)
  { spad := a.1, spadHeld := a.2, inf := b.1, infHeld := b.2
    last := last.foldl (fun m e => tset 7 m e.1 e.2) s.banks.last
    spadBusy := busy (fun i => writePorts.contains (i % 16)) (fun i => 32 * (i / 16)) sp
    infBusy := busy (fun i => decide (64 ≤ i) || i % 2 == 1) (fun i => if i < 64 then 16 * (i / 16) else 16 * (i - 64)) inf }

/-- Why a busy unit makes no progress inside its work in a cycle, 0 when it does: WEIGHT_LOAD, SCALAR_DEP,
MEM_REPLY, RMW or GANG_SYNC, where the unit can have it; an open value (R455). -/
def innerStall (now t u : Nat) (gang : Bool) : Nat :=
  let r := (Config.innerStall now t u).toNat
  let can := (r == 0x0D && u == 1) || (r == 0x0F && u == 7) || (r == 0x11 && (u == 6 || u == 7))
    || (r == 0x14 && decide (u < 8)) || (r == 0x15 && gang && decide (u < 7))
  if can then r else 0

/-- Whether the newest heat of a tile runs on several ranks. -/
def TCtx.inGang (x : TCtx) : Bool :=
  match x.heats.getLast? with
  | some h => decide (1 < h.tiles.length)
  | none => false

/-- The reason that holds a busy unit of a tile in a cycle, the lowest that applies, 0 for none (R455). -/
def State.busyStall (s : State) (t u : Nat) : Nat :=
  if (List.range 13).any (fun p => portUnit p == some u && s.spadLoses t p) then 0x0B
  else if u == 6 && (s.infLoses t 0 || s.infLoses t 1) then 0x0C
  else if u = 8 then 0
  else innerStall s.now t u (s.tc t).inGang

/-- Class and reason that a unit's cycle counts: a busy unit that loses a claim, or waits inside its work, is
stalled (R333, R454, R455). -/
def State.unitCount (s : State) (t u : Nat) : Nat × Nat :=
  let c := s.unitCycle t u
  if c.1 ≠ 0 then c
  else
    let r := s.busyStall t u
    if r = 0 then c else (1, r)

end Sys2Proof.Machine
end

