-- ==== Sys2Proof/Machine/Tick.lean ====
section
/-!
DEFINITION. One FCLK cycle: the pacers' and Marshal's buckets (R303, R464), cycles held (R303), the
cycle accounting of contexts (R317) and the counter blocks (R453-R455).  It is what a step does when no
command waits.
-/

namespace Sys2Proof.Machine

/-! ## Buckets (R303, R464) -/

/-- A partition's bucket after one cycle. -/
def State.paceCycle (s : State) (p kind : Nat) : State :=
  s.setTokens p kind
    (min (s.tokens p kind + ((s.rfld (paceReg p kind) 16 16 : Nat) : Int)) (s.paceCap p kind))

/-- The cap on MSH_OBS_PACE.RATE for MEM_CFG.RATE (R464). -/
def State.obsRateCap (s : State) : Nat :=
  match s.rfld (memA 0x00) 30 2 with
  | 0 => 1258
  | 1 => 1081
  | _ => 838

/-- A port's telemetry bucket gains 3 % of the port's rate per cycle, in 1/10000 bytes (R464). -/
def State.portCycle (s : State) (k : Nat) : Nat :=
  let rate := match s.rfld (netA k 0x18) 29 2 with
    | 1 => 300
    | 2 => 150
    | 3 => 75
    | _ => 0
  min (lget 0 s.obs.portTok k + (if s.linkUp k then rate else 0)) 30720000

/-- Marshal's buckets after one cycle. -/
def State.obsCycle (s : State) : State :=
  let m := min (s.obs.memTok + ((min (s.rfld (mshA 0x3004) 16 16) s.obsRateCap : Nat) : Int)) s.obsCap
  let o := { s.obs with memTok := m, portTok := [s.portCycle 0, s.portCycle 1] }
  { s with obs := o }

/-- Every cycle with a held BE request counts in HELD_MEM or HELD_RLY (R303). -/
def State.heldCycle (s : State) : State :=
  s.each ((s.dsp.held.map Held.key).eraseDups) (fun s k => s.rcount (partA k.1 (0x20 + 4 * k.2)) 0 32 1)

/-! ## Accounting of a tile's cycle (R317, R454) -/

/-- Energy of a unit's active cycle, pJ (R317). -/
def activeEnergy (u : Nat) : Nat :=
  match u with
  | 1 => 900
  | 2 => 250
  | 4 => 200
  | 0 => 60 | 3 => 60 | 5 => 60 | 7 => 60
  | _ => 0

/-- A tile in RUN counts a cycle of each unit, and charges the context that occupies it (R317, R454). -/
def State.tileCycle (s : State) (t : Nat) : State :=
  let x := s.tile t
  if x.power ≠ .run then s
  else
    let cls := (List.range 9).map (fun u => (u, s.unitCount t u))
    let s := s.each cls (fun s c => s.unitCnt t c.1 c.2.1 c.2.2)
    match x.ctx, x.incoming with
    | some c, _ | none, some c =>
      let act := cls.filter (fun c => c.2.1 == 0)
      let e := 120 + (act.map (fun c => activeEnergy c.1)).sum
      let n := act.countP (fun c => c.1 == 1)
      s.acct c (fun a => { a with
        runCyc := a.runCyc + 1, energy := a.energy + e, tenCyc := a.tenCyc + n })
    | none, none => s

/-- A link's transmitter counts a cycle: packets leave, or wait (R453). -/
def State.linkCycle (s : State) (k : Nat) : State :=
  let l := s.lnk k
  let st := s.linkState k
  if s.now < l.busyTo then s.cntCycle (ecntA (16 + k)) 0 0
  else if l.wait.isEmpty then (if st = 7 then s.cntCycle (ecntA (16 + k)) 2 0 else s)
  else s.cntCycle (ecntA (16 + k)) 1
    (if [0, 1, 2].any (fun v => (s.creditNode k v).isSome) && st == 7 then 0x13
     else if st = 7 then 0x1D else 0x1E)

/-- MEM_CH_k_STAT.STATE: 0 RUN, 1 power-down, 2 self-refresh, 3 not trained (R345). -/
def State.chState (s : State) (k : Nat) : Nat := s.rfld (memA (0x100 + 4 * k)) 30 2

/-- What the local copies and prefetches in service request next of LPDDR5: up to four pieces of 256 bytes of each
(R206, R453). -/
def State.memRanges (s : State) : List (Nat × Nat) :=
  let lp (n a : Nat) : List (Nat × Nat) := match s.place a with
    | .lpddr o => [(o, min n 1024)]
    | _ => []
  (List.range 32).flatMap (fun t => match (s.tc t).copy with
      | some r => if r.held || r.remote then [] else lp r.left r.src ++ lp r.left r.dst
      | none => [])
    ++ s.dsp.pf.flatMap (fun j => if j.started && !j.remote then lp j.left j.src ++ lp j.left j.dst else [])

/-- Whether a line of a range lies in channel k. -/
def onChannel (k : Nat) (r : Nat × Nat) : Bool :=
  (List.range (ceilDiv (r.1 % 64 + r.2) 64)).any (fun i => lpChannel (r.1 + 64 * i) == k)

/-- Whether channel k moves a line in this cycle that no copy or prefetch asks for: one read alone, scrubbed or
written. -/
def State.busLine (s : State) (k : Nat) : Bool :=
  s.obs.bus.contains k || s.wroteNow.any (fun r => decide (r.1 < 0x100000000000) && onChannel k r)

/-- Why a channel with requests in service moves no data in a cycle: an open value; 0x19 to 0x1C, or 0 when it
moves data (R455). -/
def busStall (now k : Nat) : Nat :=
  let r := (Config.busStall now k).toNat
  if 0x19 ≤ r ∧ r ≤ 0x1C then r else 0

/-- A channel in RUN counts a cycle: BUSY with data on its bus, STALL while requests are in service and it moves
none, in a refresh or for a reason left open (R453, R455). -/
def State.memCycle (s : State) (rs : List (Nat × Nat)) (k : Nat) : State :=
  if s.chState k ≠ 0 then s
  else if s.busLine k then s.cntCycle (ecntA k) 0 0
  else if !rs.any (onChannel k) then s.cntCycle (ecntA k) 2 0
  else
    let r := if s.obs.refresh.contains k then 0x18 else busStall s.now k
    s.cntCycle (ecntA k) (if r = 0 then 0 else 1) r

/-- A pipeline of the Lap Engine counts a cycle (R453). -/
def State.lapCycle (s : State) (j : Nat) : State :=
  if s.lap.zero.isNone || s.coreHold then s
  else s.cntCycle (ecntA (20 + j)) (if (tfind s.lap.issued j).any (fun p => p.1 == s.now) then 0 else 2) 0

/-! ## The cycle -/

/-- Whether a BE heat has begun or resumed on all of its tiles. -/
def State.beRuns (s : State) (r : BeRun) : Bool :=
  r.heat != 0 && !r.saved && r.tiles.all (fun t => (s.tile t).ctx == some r.ctx && (s.tile t).seq == .running)

/-- The BE heats that run have run one cycle more (R297). -/
def State.sliceCycle (s : State) : State :=
  let l := s.dsp.be.map (fun r => if s.beRuns r then { r with ran := r.ran + 1 } else r)
  let d := { s.dsp with be := l }
  { s with dsp := d }

/-- A cycle begins: reads of it that meet an update see what stands now (R93, R475). -/
def State.begin (s : State) : State :=
  { s with was := { tiles := s.tiles, ctl := s.ctl, stores := s.stores, links := s.links, outst := s.outst
                    waits := s.waits, pf := s.dsp.pf, cnt := s.obs.cnt, cmds := s.obs.cmds } }

/-- One FCLK cycle passes (R1); without power-good there is none. -/
def State.cycle (s : State) : State :=
  if s.phase = .off then s else
  let banks := s.bankCycle
  let s := { s.each (List.range 32) State.tileCycle with banks := banks }
  let rs := s.memRanges
  let s := s.each (List.range 16) (fun s k => s.memCycle rs k)
  let s := ((s.each [0, 1, 2, 3] State.linkCycle).each [0, 1] State.lapCycle).heldCycle
  let s := s.each (List.range 16) (fun s p => (s.paceCycle p 0).paceCycle p 1)
  let s := s.obsCycle.sliceCycle.graphCycle
  let t := if s.time.running then { s.time with sub := s.time.sub + 1 } else s.time
  let o := { s.obs with refresh := [], bus := [] }
  let s := { s with now := s.now + 1, time := t, obs := o }
  ((s.each (List.range 64) State.tripEffect).each [0, 1] State.cmodifyWrite).begin

end Sys2Proof.Machine
end

