-- ==== Sys2Proof/Machine/Watch.lean ====
section
/-!
DEFINITION. Marshal's streams on their timers (R463-R465), and what the LPDDR5 controllers do by
themselves: reads with ECC and link outcomes (R329, R330), patrol scrub (R331), MR4 reads, refresh and
power-down (R27, R326).
-/

namespace Sys2Proof.Machine

/-! ## Streams -/

/-- STATE and REASON of a tile's program-counter sample (R465). -/
def State.pcState (s : State) (t : Nat) : Nat × Nat :=
  let x := s.tile t
  if x.seq = .saving ∨ x.seq = .restoring then (2, 0)
  else if x.tc.inTrap then (3, 0)
  else if x.tc.heats.isEmpty then (4, 0)
  else
    let r := s.seqReason t
    if r = 0 then (0, 0) else (1, r)

/-- IDs of the entry at the program address: a stage command's own, otherwise those of the latest one
before it (R200). -/
def State.pcIds (s : State) (t : Nat) : Nat × Nat :=
  let x := s.tc t
  let a := s.shareA t (s.ctxOn t) (s.cblk t (s.ctxOn t) 0x00 4) + x.pc
  if 0x80 ≤ s.mval a 1 then (s.mval (a + 2) 2, s.mval (a + 4) 2)
  else match x.curHeat with
    | some h => (h.layer, h.oper)
    | none => (0, 0)

/-- A tile's program-counter sample (R465). -/
def State.pcSample (s : State) (t : Nat) : List Byte :=
  let st := s.pcState t
  let id := if st.1 = 4 then (0, 0) else s.pcIds t
  leBytes 5 (s.fabCount / 256)
    ++ [BitVec.ofNat 8 (t + 32 * st.1), BitVec.ofNat 8 st.2, BitVec.ofNat 8 (s.ctxOn t)]
    ++ leBytes 4 (s.tc t).pc ++ leBytes 2 id.1 ++ leBytes 2 id.2

/-- PC_SAMPLE: every tile in RUN contributes a sample, in tile order (R465). -/
def execPcSample (s : State) : Out :=
  .next (if s.rfld (mshA 0x3000) 14 5 = 0 ∨ s.lap.zero.isNone = true then s
    else s.each ((List.range 32).filter (fun t => (s.tile t).power == .run)) (fun s t =>
      s.streamRec 1 (s.pcSample t) (s.pcSample t)))

/-- TELEMETRY_FLUSH: FLUSH microseconds after its first record, the frame of a source's subscription to a
stream is sent once its port's bucket admits it (R463, R464). -/
def execTelemetryFlush (port : Fin 2) (stream : Fin 4) (peer : Peer) (s : State) : Out :=
  .next (match s.obs.subs.findIdx? (fun b => b.port == port && b.stream == stream.val
      && b.peer == peer) with
    | none => s
    | some i =>
      match s.obs.subs[i]? with
      | some b => if b.recs.isEmpty then s else (s.setSub i { b with due := true }).telemSend i
      | none => s)

/-- OBS_PACER_RELEASE: held records and frames that Marshal's buckets now admit are written and sent
(R464). -/
def execObsPacerRelease (s : State) : Out :=
  let s := s.obsDrain s.obs.buf.length
  .next (s.each (List.range s.obs.subs.length) State.telemAll)

/-! ## LPDDR5 -/

/-- A line of LPDDR5 has an uncorrectable error: it is delivered poisoned, counted and captured; the
Dispatcher's or Marshal's own read of device-owned memory is reported (R329, R438). -/
def State.lineLost (s : State) (a : Nat) (own : Bool) : State :=
  let s := (if s.fullNow a then s else { s.mpoison a with lost := linsert s.lost a }).eccUE a
  if own && s.deviceOwned a 64 then s.verdict 0 3 (lpChannel a) 0x0B (lpChannel a) else s

/-- A line moves on channel k's bus in this cycle (R453). -/
def State.onBus (s : State) (k : Nat) : State :=
  let o := { s.obs with bus := linsert s.obs.bus k }
  { s with obs := o }

/-- LPDDR5_READ_REPLY: a line is read, by the Dispatcher or Marshal for itself when `own`: 0 good; 1 corrected by
its check word; 2 uncorrectable; 3 a link error corrected; 4 good after a re-read; 5 uncorrectable after a re-read
(R329, R330). -/
def execLpddr5ReadReply (addr : BitVec 48) (outcome : ReadBack) (s : State) : Out :=
  let a := addr.toNat / 64 * 64
  .next (if s.usable ≤ a ∨ s.chState (lpChannel a) ≠ 0 then s
    else
      let s := s.onBus (lpChannel a)
      match outcome.found.val with
      | 0 => s
      | 1 => s.eccCE a
      | 2 => s.lineLost a outcome.own
      | 3 => s.rcount (memA 0x1C) 0 16 1
      | 4 => s.rcount (memA 0x1C) 16 16 1
      | _ => (s.rcount (memA 0x1C) 16 16 1).lineLost a outcome.own)

/-- Lines of a channel over its ranks, check rows included (R327, R328). -/
def State.scrubLines (s : State) : Nat := if s.rbit (memA 0x00) 29 then 2 ^ 26 else 2 ^ 25

/-- The local address of line `n` of channel k, none in a check row (R327). -/
def scrubAddr (k n : Nat) : Option Nat :=
  let rank := n / 2 ^ 25
  let ca := 64 * (n % 2 ^ 25)
  if 0x7C000000 ≤ ca then none
  else
    let q := (rank * 0x7C000000 + ca) / 64
    some (q * 1024 + ((k ^^^ bitsOf (q * 1024) 18 4) * 64))

/-- PATROL_SCRUB: channel k checks its next line: 0 good, 1 corrected, 2 uncorrectable; a poisoned line
is counted and captured again (R331); a line that a write takes in the same cycle is skipped (R343). -/
def execPatrolScrub (k : Fin 16) (outcome : ScrubFind) (s : State) : Out :=
  let n := tget 0 s.scrub k.val
  .next (if s.rfld (memA 0x10) 0 16 = 0 ∨ s.chState k.val ≠ 0 ∨ s.boot.mem ≠ 3 then s
    else
      let s := { s.onBus k.val with scrub := tput s.scrub k.val ((n + 1) % s.scrubLines) }
      if outcome.written then s
      else match scrubAddr k.val n with
      | some a =>
        if outcome.found.val = 2 || s.poisoned a 64 then (s.mpoison a).eccUE a
        else if outcome.found.val = 1 then s.eccCE a else s
      | none =>
        if outcome.found.val = 2 then s.rcount (memA 0x18) 16 16 1
        else if outcome.found.val = 1 then s.rcount (memA 0x18) 0 16 1 else s)

/-- MR4_READ: channel k's refresh-rate field is read; HOT says whether a channel's field is the code
above the operating range, 31 (R326, R345, R467). -/
def execMr4Read (k : Fin 16) (rate : Fin 32) (s : State) : Out :=
  let r := memA (0x100 + 4 * k.val)
  .next (if s.chState k.val ≠ 0 then s
    else
      let old := s.rfld r 0 5
      let s := s.rfldSet r 0 5 rate.val
      let s := s.rbitSet (memA 0x04) 30 ((List.range 16).any (fun j =>
        s.rfld (memA (0x100 + 4 * j)) 0 5 == 31))
      if rate.val = old then s else s.event (36 + k.val) 0x17 {} rate.val old)

/-- PER_BANK_REFRESH: a per-bank refresh of channel k; the manual gives it no effect but stall cycles, of
which its own is one while requests are in service (R326, R455). -/
def execPerBankRefresh (k : Fin 16) (s : State) : Out :=
  let o := { s.obs with refresh := linsert s.obs.refresh k.val }
  .next { s with obs := o }

/-- MEM_POWER_DOWN_ENTRY: MEM enters NAP: every channel in RUN is in power-down (R27). -/
def execMemPowerDownEntry (s : State) : Out :=
  .next (if s.phase = .service ∧ s.clkState = 0 then
      s.each ((List.range 16).filter (fun k => s.chState k == 0)) (fun s k =>
        s.rfldSet (memA (0x100 + 4 * k)) 30 2 1)
    else s)

/-- MEM_POWER_DOWN_EXIT: MEM is in RUN again (R27). -/
def execMemPowerDownExit (s : State) : Out :=
  .next (s.each ((List.range 16).filter (fun k => s.chState k == 1)) (fun s k =>
    s.rfldSet (memA (0x100 + 4 * k)) 30 2 0))

end Sys2Proof.Machine
end

