-- ==== Sys2Proof/Machine/Pins.lean ====
section
/-!
DEFINITION. The test access port (R427, R496, R497) and what drives the balls (R481, R495).
-/

namespace Sys2Proof.Machine

/-- Replace the TAP's state. -/
def State.modTap (s : State) (f : Tap → Tap) : State := { s with tap := f s.tap }

/-! ## Permissions (R427) -/

/-- EXTEST and the AC tests are permitted before the first script entry executes and after a boot
failure; after SB_LOCK with SB_DBG.EXTEST (R427). -/
def State.extestOk (s : State) : Bool :=
  s.phase == .failed || (if s.sbLock then s.rbit 0x24 29 else !s.boot.ran)

/-- A status word of a JTAG access: NOT_READY of R357 does not exist there and reports as refused
(R360, R427). -/
def jtagStatus (st : Nat) : Nat := if 5 < st then 3 else st

/-! ## CTRL_ACCESS (R497) -/

/-- A JTAG read: refused after SB_LOCK without SB_DBG.JRD; a read of a hung unit's ring is poison
(R427, R445). -/
def State.jtagRead (s : State) (a : Nat) : State × Word × Nat :=
  if s.sbLock && !s.rbit 0x24 31 then (s, 0, 3)
  else if s.readHung a 1 then
    let u := s.hungUnit a 1
    (s.dumpTimeout u.1 u.2, 0xDEADDEAD, 0)
  else
    let r := s.readReg 2 a
    (r.1, r.2.1, jtagStatus r.2.2)

/-- Select an instruction by a scan, whose Capture-IR is 0b0000_0001 (R496). -/
def State.tapSelect (s : State) (code : Nat) : State :=
  (if s.tap.instr = code then s else s.ballOut (.ir 1)).modTap (fun x => { x with instr := code })

/-- CTRL_ACCESS: Capture-DR shifts out the outcome of the last access, or of the one before when it comes
`early`, with that access in progress, and Update-DR performs a read (OP 1), a write (OP 2) or no access (R497). -/
def execCtrlAccess (op : Fin 4) (addr data : Word) (early : Bool) (s : State) : Out :=
  let x := s.tap
  let seen := if early then x.oldWord.toNat * 16 + x.oldStatus else x.word.toNat * 16 + x.status
  let s := (s.tapSelect 0x20).ballOut (.tdo seen)
  let done (s : State) (w : Word) (st : Nat) : State := s.modTap (fun x =>
    { x with word := w, status := st, oldWord := x.word, oldStatus := x.status })
  .next (match op.val with
    | 1 => let r := s.jtagRead addr.toNat; done r.1 r.2.1 r.2.2
    | 2 => let r := s.writeReg 2 addr.toNat data; done r.1 0 (jtagStatus r.2)
    | _ => s.modTap (fun x => { x with oldWord := x.word, oldStatus := x.status }))

/-! ## The other instructions (R496) -/

/-- TAP_RESET: TRST_N low, or five TCK cycles with TMS high, select BYPASS (R496). -/
def execTapReset (s : State) : Out := .next (s.modTap (fun x => { x with instr := 0xFF }))

/-- SAMPLE_PRELOAD: the balls are captured and shifted out, and the boundary register is loaded
(R496). -/
def execSamplePreload (balls load : BitVec 2048) (s : State) : Out :=
  .next (((s.tapSelect 0x01).ballOut (.tdo balls.toNat)).modTap (fun x => { x with boundary := load.toNat }))

/-- A scan of the boundary register: what the balls show, an open value, is shifted out and `load` comes in
(R496). -/
def State.boundaryScan (s : State) (load : BitVec 2048) : State :=
  ({ s with fresh := s.fresh + 1 }.ballOut (.tdo (Config.ballCapture s.fresh).toNat)).modTap (fun x =>
    { x with boundary := load.toNat })

/-- Select an instruction that drives balls from the boundary register, which a scan may load; refused, it
reports status 3 and leaves BYPASS selected (R427, R496). -/
def State.drive (s : State) (code : Nat) (load : Option (BitVec 2048)) : State :=
  if s.extestOk then
    match load with
    | some l => (s.tapSelect code).boundaryScan l
    | none => s.tapSelect code
  else
    (s.tapSelect 0xFF).modTap (fun x => { x with
      status := 3, word := 0, oldStatus := 3, oldWord := 0 })

/-- EXTEST: the boundary register drives the balls (R427, R496). -/
def execExtest (load : Option (BitVec 2048)) (s : State) : Out := .next (s.drive 0x02 load)

/-- EXTEST_PULSE: the AC test of the Relay Link lanes (R427, R496). -/
def execExtestPulse (load : Option (BitVec 2048)) (s : State) : Out := .next (s.drive 0x03 load)

/-- EXTEST_TRAIN: the AC test of the Relay Link lanes (R427, R496). -/
def execExtestTrain (load : Option (BitVec 2048)) (s : State) : Out := .next (s.drive 0x04 load)

/-- HIGHZ: every output is high impedance (R496). -/
def execHighz (s : State) : Out := .next (s.tapSelect 0x05)

/-- CLAMP: outputs are held from the boundary register (R496). -/
def execClamp (s : State) : Out := .next (s.tapSelect 0x06)

/-- BYPASS: the bypass register; every code without an instruction selects it too (R496). -/
def execBypass (s : State) : Out := .next (s.tapSelect 0xFF)

/-! ## The balls (R481, R496) -/

/-- What drives the outputs. -/
inductive BallSource where
  | highImpedance | boundary | functions | low
  deriving DecidableEq, Repr

/-- What the TAP's instruction makes of an output that `f` drives otherwise (R496). -/
def State.tapSource (s : State) (f : BallSource) : BallSource :=
  if s.tap.instr == 0x05 then .highImpedance
  else if s.tap.instr == 0x02 || s.tap.instr == 0x03 || s.tap.instr == 0x04 || s.tap.instr == 0x06 then
    .boundary
  else f

/-- What drives an output: nothing while R481 holds it high impedance (R481, R496). -/
def State.ballSource (s : State) : BallSource := if s.hiZ then .highImpedance else s.tapSource .functions

/-- What drives BOOT_FAIL_N: low after a boot failure, one of step 1 too; nothing while VDD_IO18 is low
(R481, R495, R496). -/
def State.bootFailSource (s : State) : BallSource :=
  if s.pins.io18 then .highImpedance
  else if s.pins.bootFail then s.tapSource .low
  else s.ballSource

/-- What drives PWR_CYCLE_REQ_N (R449, R481, R495). -/
def State.pwrCycleSource (s : State) : BallSource :=
  if s.hiZ then .highImpedance else s.tapSource (if s.pins.pwrReq then .low else .functions)

/-- What drives every MEM_k_RESET_N: it is held low until step 2 (R401, R479). -/
def State.memResetSource (s : State) : BallSource :=
  if s.phase = .off ∨ (s.phase ≠ .failed ∧ s.bootStepNo ≤ 1) ∨ s.time.running = false then .low else s.ballSource

/-- What drives the PWM balls, whose bank also needs VDD_IO33 (R481). -/
def State.pwmSource (s : State) : BallSource :=
  if s.pins.pwmHiz then .highImpedance else s.ballSource

end Sys2Proof.Machine
end

