-- ==== Sys2Proof/Machine/Dispatch.lean ====
section
/-!
DEFINITION. One arm per command: a direct call of its meaning.
-/

namespace Sys2Proof.Machine

def exec (i : Instr) (s : State) : Host.Outcome State Fault Refusal :=
  match i with
  | .pwrgoodRise role dual test => Sys2Proof.Machine.execPwrgoodRise role dual test s
  | .powerGoodFall => Sys2Proof.Machine.execPowerGoodFall s
  | .railUndervoltage => Sys2Proof.Machine.execRailUndervoltage s
  | .refclkStop => Sys2Proof.Machine.execRefclkStop s
  | .rstNAssert => Sys2Proof.Machine.execRstNAssert s
  | .refclkQualified => Sys2Proof.Machine.execRefclkQualified s
  | .timePllLockTimeout => Sys2Proof.Machine.execTimePllLockTimeout s
  | .timePllLocked => Sys2Proof.Machine.execTimePllLocked s
  | .fclkPllLockTimeout pll => Sys2Proof.Machine.execFclkPllLockTimeout pll s
  | .resetPllLockTimeout pll => Sys2Proof.Machine.execResetPllLockTimeout pll s
  | .clocksLocked => Sys2Proof.Machine.execClocksLocked s
  | .flashResetDone => Sys2Proof.Machine.execFlashResetDone s
  | .anchorReadComplete bytes => Sys2Proof.Machine.execAnchorReadComplete bytes s
  | .flashStrobeLost dev => Sys2Proof.Machine.execFlashStrobeLost dev s
  | .signatureReadComplete head cert sig => Sys2Proof.Machine.execSignatureReadComplete head cert sig s
  | .scriptFetchComplete bytes => Sys2Proof.Machine.execScriptFetchComplete bytes s
  | .bistComplete cls idx => Sys2Proof.Machine.execBistComplete cls idx s
  | .endScript => Sys2Proof.Machine.execEndScript s
  | .write => Sys2Proof.Machine.execWrite s
  | .writeMask => Sys2Proof.Machine.execWriteMask s
  | .poll => Sys2Proof.Machine.execPoll s
  | .pollSatisfied => Sys2Proof.Machine.execPollSatisfied s
  | .pollTimeout => Sys2Proof.Machine.execPollTimeout s
  | .train => Sys2Proof.Machine.execTrain s
  | .lpddr5TrainingComplete step mask => Sys2Proof.Machine.execLpddr5TrainingComplete step mask s
  | .lpddr5ZeroFillComplete => Sys2Proof.Machine.execLpddr5ZeroFillComplete s
  | .load => Sys2Proof.Machine.execLoad s
  | .loadComplete data => Sys2Proof.Machine.execLoadComplete data s
  | .verify => Sys2Proof.Machine.execVerify s
  | .lock => Sys2Proof.Machine.execLock s
  | .registerWrite src a v => Sys2Proof.Machine.execRegisterWrite src a v s
  | .rcRegisterRead src a => Sys2Proof.Machine.execRcRegisterRead src a s
  | .splNsRead src => Sys2Proof.Machine.execSplNsRead src s
  | .splitLoRegisterRead src a => Sys2Proof.Machine.execSplitLoRegisterRead src a s
  | .cmdIdRead src t unit => Sys2Proof.Machine.execCmdIdRead src t unit s
  | .holdReq src v => Sys2Proof.Machine.execHoldReq src v s
  | .holdEntryComplete => Sys2Proof.Machine.execHoldEntryComplete s
  | .holdExit src v => Sys2Proof.Machine.execHoldExit src v s
  | .holdExitReloadComplete => Sys2Proof.Machine.execHoldExitReloadComplete s
  | .majorCycleBoundary => Sys2Proof.Machine.execMajorCycleBoundary s
  | .arm src => Sys2Proof.Machine.execArm src s
  | .scheduleTableWrite src entry w v => Sys2Proof.Machine.execScheduleTableWrite src entry w v s
  | .lookaheadRead => Sys2Proof.Machine.execLookaheadRead s
  | .wakeTime entry => Sys2Proof.Machine.execWakeTime entry s
  | .tileChoice entry => Sys2Proof.Machine.execTileChoice entry s
  | .wakeComplete entry => Sys2Proof.Machine.execWakeComplete entry s
  | .slotTime entry => Sys2Proof.Machine.execSlotTime entry s
  | .prefetchTransferComplete c => Sys2Proof.Machine.execPrefetchTransferComplete c s
  | .cutPointFac c heat => Sys2Proof.Machine.execCutPointFac c heat s
  | .cutPointOut c heat => Sys2Proof.Machine.execCutPointOut c heat s
  | .deadlineTime c heat => Sys2Proof.Machine.execDeadlineTime c heat s
  | .beq src c v => Sys2Proof.Machine.execBeq src c v s
  | .bePlacement => Sys2Proof.Machine.execBePlacement s
  | .sliceExpiry t => Sys2Proof.Machine.execSliceExpiry t s
  | .loanReclaim t => Sys2Proof.Machine.execLoanReclaim t s
  | .reclaimWritebackComplete t => Sys2Proof.Machine.execReclaimWritebackComplete t s
  | .eventTrigger => Sys2Proof.Machine.execEventTrigger s
  | .clusterNapEntry k => Sys2Proof.Machine.execClusterNapEntry k s
  | .pacerRelease p rly => Sys2Proof.Machine.execPacerRelease p rly s
  | .contextFault c => Sys2Proof.Machine.execContextFault c s
  | .teardownComplete c => Sys2Proof.Machine.execTeardownComplete c s
  | .teardownTimeout c => Sys2Proof.Machine.execTeardownTimeout c s
  | .hurdleDrainLimit c => Sys2Proof.Machine.execHurdleDrainLimit c s
  | .contextReloadComplete c => Sys2Proof.Machine.execContextReloadComplete c s
  | .bpost t hdr baton arg => Sys2Proof.Machine.execBpost t hdr baton arg s
  | .bwait t hdr baton arg => Sys2Proof.Machine.execBwait t hdr baton arg s
  | .post src baton v => Sys2Proof.Machine.execPost src baton v s
  | .nop t => Sys2Proof.Machine.execNop t s
  | .add t rd rs1 rs2 aux => Sys2Proof.Machine.execAdd t rd rs1 rs2 aux s
  | .sub t rd rs1 rs2 aux => Sys2Proof.Machine.execSub t rd rs1 rs2 aux s
  | .adds t rd rs1 rs2 aux => Sys2Proof.Machine.execAdds t rd rs1 rs2 aux s
  | .subs t rd rs1 rs2 aux => Sys2Proof.Machine.execSubs t rd rs1 rs2 aux s
  | .neg t rd rs1 aux => Sys2Proof.Machine.execNeg t rd rs1 aux s
  | .negs t rd rs1 aux => Sys2Proof.Machine.execNegs t rd rs1 aux s
  | .and t rd rs1 rs2 => Sys2Proof.Machine.execAnd t rd rs1 rs2 s
  | .or t rd rs1 rs2 => Sys2Proof.Machine.execOr t rd rs1 rs2 s
  | .xor t rd rs1 rs2 => Sys2Proof.Machine.execXor t rd rs1 rs2 s
  | .shl t rd rs1 rs2 aux imm => Sys2Proof.Machine.execShl t rd rs1 rs2 aux imm s
  | .shr t rd rs1 rs2 aux imm => Sys2Proof.Machine.execShr t rd rs1 rs2 aux imm s
  | .shra t rd rs1 rs2 aux imm => Sys2Proof.Machine.execShra t rd rs1 rs2 aux imm s
  | .clz t rd rs1 aux => Sys2Proof.Machine.execClz t rd rs1 aux s
  | .cmpeq t rd rs1 rs2 aux => Sys2Proof.Machine.execCmpeq t rd rs1 rs2 aux s
  | .cmplt t rd rs1 rs2 aux => Sys2Proof.Machine.execCmplt t rd rs1 rs2 aux s
  | .mov t rd rs1 => Sys2Proof.Machine.execMov t rd rs1 s
  | .movi t rd imm => Sys2Proof.Machine.execMovi t rd imm s
  | .movhi t rd imm => Sys2Proof.Machine.execMovhi t rd imm s
  | .addim t rd rs1 aux imm => Sys2Proof.Machine.execAddim t rd rs1 aux imm s
  | .mul t rd rs1 rs2 aux => Sys2Proof.Machine.execMul t rd rs1 rs2 aux s
  | .mulx t rd rs1 rs2 aux => Sys2Proof.Machine.execMulx t rd rs1 rs2 aux s
  | .quo t rd rs1 rs2 aux => Sys2Proof.Machine.execQuo t rd rs1 rs2 aux s
  | .rmd t rd rs1 rs2 aux => Sys2Proof.Machine.execRmd t rd rs1 rs2 aux s
  | .vPipeResult t => Sys2Proof.Machine.execVPipeResult t s
  | .flagrd t rd => Sys2Proof.Machine.execFlagrd t rd s
  | .flagclr t rs1 => Sys2Proof.Machine.execFlagclr t rs1 s
  | .trapen t rs1 => Sys2Proof.Machine.execTrapen t rs1 s
  | .sret t => Sys2Proof.Machine.execSret t s
  | .fadd t rd rs1 rs2 aux => Sys2Proof.Machine.execFadd t rd rs1 rs2 aux s
  | .fsub t rd rs1 rs2 aux => Sys2Proof.Machine.execFsub t rd rs1 rs2 aux s
  | .fmul t rd rs1 rs2 aux => Sys2Proof.Machine.execFmul t rd rs1 rs2 aux s
  | .fma t rd rs1 rs2 rs3 aux => Sys2Proof.Machine.execFma t rd rs1 rs2 rs3 aux s
  | .fnma t rd rs1 rs2 rs3 aux => Sys2Proof.Machine.execFnma t rd rs1 rs2 rs3 aux s
  | .fdiv t rd rs1 rs2 aux => Sys2Proof.Machine.execFdiv t rd rs1 rs2 aux s
  | .fsqrt t rd rs1 aux => Sys2Proof.Machine.execFsqrt t rd rs1 aux s
  | .fmin t rd rs1 rs2 aux => Sys2Proof.Machine.execFmin t rd rs1 rs2 aux s
  | .fmax t rd rs1 rs2 aux => Sys2Proof.Machine.execFmax t rd rs1 rs2 aux s
  | .feq t rd rs1 rs2 aux => Sys2Proof.Machine.execFeq t rd rs1 rs2 aux s
  | .flt t rd rs1 rs2 aux => Sys2Proof.Machine.execFlt t rd rs1 rs2 aux s
  | .fle t rd rs1 rs2 aux => Sys2Proof.Machine.execFle t rd rs1 rs2 aux s
  | .fneg t rd rs1 aux => Sys2Proof.Machine.execFneg t rd rs1 aux s
  | .fabs t rd rs1 aux => Sys2Proof.Machine.execFabs t rd rs1 aux s
  | .fcopysign t rd rs1 rs2 aux => Sys2Proof.Machine.execFcopysign t rd rs1 rs2 aux s
  | .cvt t rd rs1 wide src dst e => Sys2Proof.Machine.execCvt t rd rs1 wide src dst e s
  | .ld t rd rs1 aux imm => Sys2Proof.Machine.execLd t rd rs1 aux imm s
  | .st t rd rs1 aux imm => Sys2Proof.Machine.execSt t rd rs1 aux imm s
  | .fmv t rd rs1 => Sys2Proof.Machine.execFmv t rd rs1 s
  | .mvgf t rd rs1 aux => Sys2Proof.Machine.execMvgf t rd rs1 aux s
  | .mvfg t rd rs1 aux => Sys2Proof.Machine.execMvfg t rd rs1 aux s
  | .jmp t imm => Sys2Proof.Machine.execJmp t imm s
  | .beqz t rs1 imm => Sys2Proof.Machine.execBeqz t rs1 imm s
  | .bnez t rs1 imm => Sys2Proof.Machine.execBnez t rs1 imm s
  | .bltz t rs1 imm => Sys2Proof.Machine.execBltz t rs1 imm s
  | .bgez t rs1 imm => Sys2Proof.Machine.execBgez t rs1 imm s
  | .hend t hdr => Sys2Proof.Machine.execHend t hdr s
  | .fence t hdr => Sys2Proof.Machine.execFence t hdr s
  | .setmode t hdr subn => Sys2Proof.Machine.execSetmode t hdr subn s
  | .copy t hdr src dst len => Sys2Proof.Machine.execCopy t hdr src dst len s
  | .copyComplete t => Sys2Proof.Machine.execCopyComplete t s
  | .solve t hdr tmpl count xlist => Sys2Proof.Machine.execSolve t hdr tmpl count xlist s
  | .mac t hdr o => Sys2Proof.Machine.execMac t hdr o s
  | .conv t hdr o => Sys2Proof.Machine.execConv t hdr o s
  | .xtload t hdr table bf src => Sys2Proof.Machine.execXtload t hdr table bf src s
  | .tensorCommandCommit t => Sys2Proof.Machine.execTensorCommandCommit t s
  | .problemEnterAssemble t => Sys2Proof.Machine.execProblemEnterAssemble t s
  | .stageHandoff t slot => Sys2Proof.Machine.execStageHandoff t slot s
  | .factorCommit t => Sys2Proof.Machine.execFactorCommit t s
  | .iterationComplete t => Sys2Proof.Machine.execIterationComplete t s
  | .emitCommit t => Sys2Proof.Machine.execEmitCommit t s
  | .heatComplete t => Sys2Proof.Machine.execHeatComplete t s
  | .emitSetpointArrival => Sys2Proof.Machine.execEmitSetpointArrival s
  | .abortReachesTile p => Sys2Proof.Machine.execAbortReachesTile p s
  | .preemptionRequest t => Sys2Proof.Machine.execPreemptionRequest t s
  | .unitStop t unit => Sys2Proof.Machine.execUnitStop t unit s
  | .saveComplete t => Sys2Proof.Machine.execSaveComplete t s
  | .restoreComplete t => Sys2Proof.Machine.execRestoreComplete t s
  | .loopBoundary n => Sys2Proof.Machine.execLoopBoundary n s
  | .loopUpdateCommit n => Sys2Proof.Machine.execLoopUpdateCommit n s
  | .ctrl src n v => Sys2Proof.Machine.execCtrl src n v s
  | .coefficientWrite src n k v => Sys2Proof.Machine.execCoefficientWrite src n k v s
  | .loopConfigWrite src n k v => Sys2Proof.Machine.execLoopConfigWrite src n k v s
  | .limitWrite src n hi v => Sys2Proof.Machine.execLimitWrite src n hi v s
  | .target src n v => Sys2Proof.Machine.execTarget src n v s
  | .generatorEnWrite src g v => Sys2Proof.Machine.execGeneratorEnWrite src g v s
  | .probeArm src p v => Sys2Proof.Machine.execProbeArm src p v s
  | .probeTrig src p v => Sys2Proof.Machine.execProbeTrig src p v s
  | .frameCheck p seq nch samples crc => Sys2Proof.Machine.execFrameCheck p seq nch samples crc s
  | .markRecognised p => Sys2Proof.Machine.execMarkRecognised p s
  | .partToExpiry p => Sys2Proof.Machine.execPartToExpiry p s
  | .idleToExpiry p => Sys2Proof.Machine.execIdleToExpiry p s
  | .rxClockLoss p => Sys2Proof.Machine.execRxClockLoss p s
  | .forgetExpiry p => Sys2Proof.Machine.execForgetExpiry p s
  | .sptRxcfgWrite src p v => Sys2Proof.Machine.execSptRxcfgWrite src p v s
  | .sptTxcfgWrite src p v => Sys2Proof.Machine.execSptTxcfgWrite src p v s
  | .txBoundary p => Sys2Proof.Machine.execTxBoundary p s
  | .carrierBoundary c => Sys2Proof.Machine.execCarrierBoundary c s
  | .tripAssert k => Sys2Proof.Machine.execTripAssert k s
  | .tripLatchClear src v => Sys2Proof.Machine.execTripLatchClear src v s
  | .pwmCfgWrite src c k v => Sys2Proof.Machine.execPwmCfgWrite src c k v s
  | .splitTimerTick => Sys2Proof.Machine.execSplitTimerTick s
  | .acceptStepWrite src v => Sys2Proof.Machine.execAcceptStepWrite src v s
  | .sync p oneStep seq t2 origin corr rate => Sys2Proof.Machine.execSync p oneStep seq t2 origin corr rate s
  | .followUp p seq origin corr rate => Sys2Proof.Machine.execFollowUp p seq origin corr rate s
  | .pdelayReq p seq t2 source => Sys2Proof.Machine.execPdelayReq p seq t2 source s
  | .pdelayResp p seq t2 t4 => Sys2Proof.Machine.execPdelayResp p seq t2 t4 s
  | .pdelayRespFollowUp p seq t3 ratio capable => Sys2Proof.Machine.execPdelayRespFollowUp p seq t3 ratio capable s
  | .announce p vec path => Sys2Proof.Machine.execAnnounce p vec path s
  | .announceReceiptTimeout p => Sys2Proof.Machine.execAnnounceReceiptTimeout p s
  | .syncReceiptTimeout => Sys2Proof.Machine.execSyncReceiptTimeout s
  | .ptpMessageInterval p kind => Sys2Proof.Machine.execPtpMessageInterval p kind s
  | .ethernetLinkUp p rate master => Sys2Proof.Machine.execEthernetLinkUp p rate master s
  | .ethernetLinkLoss p => Sys2Proof.Machine.execEthernetLinkLoss p s
  | .ethernetTrainRetry p => Sys2Proof.Machine.execEthernetTrainRetry p s
  | .arpRequest p target mac ip => Sys2Proof.Machine.execArpRequest p target mac ip s
  | .frameDiscard p => Sys2Proof.Machine.execFrameDiscard p s
  | .cread h addr count => Sys2Proof.Machine.execCread h addr count s
  | .cwrite h addr words => Sys2Proof.Machine.execCwrite h addr words s
  | .cmodify h addr mask value => Sys2Proof.Machine.execCmodify h addr mask value s
  | .dread h addr len => Sys2Proof.Machine.execDread h addr len s
  | .dwrite h addr data => Sys2Proof.Machine.execDwrite h addr data s
  | .abort h ctx heat => Sys2Proof.Machine.execAbort h ctx heat s
  | .echo h data => Sys2Proof.Machine.execEcho h data s
  | .tsub h stream en => Sys2Proof.Machine.execTsub h stream en s
  | .health h => Sys2Proof.Machine.execHealth h s
  | .reinit h part expect => Sys2Proof.Machine.execReinit h part expect s
  | .devreset h expect => Sys2Proof.Machine.execDevreset h expect s
  | .pwrcycle h expect => Sys2Proof.Machine.execPwrcycle h expect s
  | .telemetryFlush port stream peer => Sys2Proof.Machine.execTelemetryFlush port stream peer s
  | .powerCycleRequest => Sys2Proof.Machine.execPowerCycleRequest s
  | .relayTrainingStepComplete k ok part cascade dev role => Sys2Proof.Machine.execRelayTrainingStepComplete k ok part cascade dev role s
  | .relayTrainingStepTimeout k => Sys2Proof.Machine.execRelayTrainingStepTimeout k s
  | .relayLinkActive k => Sys2Proof.Machine.execRelayLinkActive k s
  | .relayRetryTimer k => Sys2Proof.Machine.execRelayRetryTimer k s
  | .relayLinkLost k lock => Sys2Proof.Machine.execRelayLinkLost k lock s
  | .rdReq k h len => Sys2Proof.Machine.execRdReq k h len s
  | .rdRsp k h data poison => Sys2Proof.Machine.execRdRsp k h data poison s
  | .wrReq k h data poison => Sys2Proof.Machine.execWrReq k h data poison s
  | .wrAck k h => Sys2Proof.Machine.execWrAck k h s
  | .errRsp k h code => Sys2Proof.Machine.execErrRsp k h code s
  | .bpostPacket k h => Sys2Proof.Machine.execBpostPacket k h s
  | .bwaitPacket k h => Sys2Proof.Machine.execBwaitPacket k h s
  | .bwaitRsp k h => Sys2Proof.Machine.execBwaitRsp k h s
  | .time k echo rx sent residence delay turn state steps fabBase => Sys2Proof.Machine.execTime k echo rx sent residence delay turn state steps fabBase s
  | .timeSendInterval => Sys2Proof.Machine.execTimeSendInterval s
  | .align k bound len phase idx switch hold => Sys2Proof.Machine.execAlign k bound len phase idx switch hold s
  | .linkNak k bytes => Sys2Proof.Machine.execLinkNak k bytes s
  | .packetForward k h ty data poison => Sys2Proof.Machine.execPacketForward k h ty data poison s
  | .patrolScrub k outcome => Sys2Proof.Machine.execPatrolScrub k outcome s
  | .mr4Read k rate => Sys2Proof.Machine.execMr4Read k rate s
  | .lpddr5ReadReply addr outcome => Sys2Proof.Machine.execLpddr5ReadReply addr outcome s
  | .graphSnapshot env => Sys2Proof.Machine.execGraphSnapshot env s
  | .graphSearchEnd => Sys2Proof.Machine.execGraphSearchEnd s
  | .stallWatchdogExpiry node c env => Sys2Proof.Machine.execStallWatchdogExpiry node c env s
  | .rholdExpiry => Sys2Proof.Machine.execRholdExpiry s
  | .tileResetComplete t => Sys2Proof.Machine.execTileResetComplete t s
  | .partitionResetComplete p => Sys2Proof.Machine.execPartitionResetComplete p s
  | .partitionReloadComplete p => Sys2Proof.Machine.execPartitionReloadComplete p s
  | .observationReadTimeout p => Sys2Proof.Machine.execObservationReadTimeout p s
  | .pcSample => Sys2Proof.Machine.execPcSample s
  | .dumpMatch t => Sys2Proof.Machine.execDumpMatch t s
  | .mshDumpNow src v => Sys2Proof.Machine.execMshDumpNow src v s
  | .dumpComplete t => Sys2Proof.Machine.execDumpComplete t s
  | .obsCounterClear src v => Sys2Proof.Machine.execObsCounterClear src v s
  | .ctrlAccess op addr data early => Sys2Proof.Machine.execCtrlAccess op addr data early s
  | .tapReset => Sys2Proof.Machine.execTapReset s
  | .samplePreload balls load => Sys2Proof.Machine.execSamplePreload balls load s
  | .extest load => Sys2Proof.Machine.execExtest load s
  | .extestPulse load => Sys2Proof.Machine.execExtestPulse load s
  | .extestTrain load => Sys2Proof.Machine.execExtestTrain load s
  | .highz => Sys2Proof.Machine.execHighz s
  | .clamp => Sys2Proof.Machine.execClamp s
  | .bypass => Sys2Proof.Machine.execBypass s
  | .rstNRelease => Sys2Proof.Machine.execRstNRelease s
  | .devresetDelayExpiry => Sys2Proof.Machine.execDevresetDelayExpiry s
  | .lpddr5PllLockTimeout => Sys2Proof.Machine.execLpddr5PllLockTimeout s
  | .tileWakeComplete t => Sys2Proof.Machine.execTileWakeComplete t s
  | .holdExitWakeComplete => Sys2Proof.Machine.execHoldExitWakeComplete s
  | .loanCopyBackComplete t => Sys2Proof.Machine.execLoanCopyBackComplete t s
  | .tripInputRelease k => Sys2Proof.Machine.execTripInputRelease k s
  | .rxClockReturn p => Sys2Proof.Machine.execRxClockReturn p s
  | .ethernetTrainingFailed p => Sys2Proof.Machine.execEthernetTrainingFailed p s
  | .linkPacket k ack ctlCr lcCr beCr => Sys2Proof.Machine.execLinkPacket k ack ctlCr lcCr beCr s
  | .tfpMalformedFrame h op => Sys2Proof.Machine.execTfpMalformedFrame h op s
  | .obsPacerRelease => Sys2Proof.Machine.execObsPacerRelease s
  | .perBankRefresh k => Sys2Proof.Machine.execPerBankRefresh k s
  | .relayLinkNapEntry k => Sys2Proof.Machine.execRelayLinkNapEntry k s
  | .relayLinkNapExit k => Sys2Proof.Machine.execRelayLinkNapExit k s
  | .memPowerDownEntry => Sys2Proof.Machine.execMemPowerDownEntry s
  | .memPowerDownExit => Sys2Proof.Machine.execMemPowerDownExit s
  | .flashSetupComplete => Sys2Proof.Machine.execFlashSetupComplete s
  | .vddIo18Low => Sys2Proof.Machine.execVddIo18Low s
  | .vddIo33Low => Sys2Proof.Machine.execVddIo33Low s

end Sys2Proof.Machine
end

