-- ==== Sys2Proof/Safety.lean ====
section
/-!
DEFINITION. What counts as a safe run: the canonical form of data space, the selections of the test
access port, the relation between a state and one that commands reach from it, and what the record of an
event can change.
-/

namespace Sys2Proof.Machine

/-- The canonical form of data space: addresses strictly rising, and no entry that equals what an
unlisted address reads as. -/
def Memory.wf (m : List Host.Cell) : Bool :=
  match m with
  | [] => true
  | [c] => c.2 != emptyByte
  | c :: d :: t => c.2 != emptyByte && decide (c.1 < d.1) && Memory.wf (d :: t)

/-- The instruction codes that the test access port can hold (R496), and the status codes an access
reports (R360). -/
def Tap.wf (x : Tap) : Bool :=
  [0x01, 0x02, 0x03, 0x04, 0x05, 0x06, 0x20, 0xFF].contains x.instr
    && decide (x.status ≤ 5) && decide (x.oldStatus ≤ 5)

/-- What every command keeps: the waiting commands, the canonical form of data space, a legal test
access port, and the messages already sent. -/
structure Kept (s t : State) : Prop where
  pending : t.pending = s.pending
  mem : Memory.wf s.mem = true → Memory.wf t.mem = true
  tap : Tap.wf s.tap = true → Tap.wf t.tap = true
  outs : s.outs <+: t.outs

/-- Registers in which records of events appear: the event rings (R466), the write offsets and drop
counts of the stream rings with the staging count (R476), and the transmit and drop counts of the Network
Ports (R377). -/
def obsReg (a : Nat) : Bool :=
  (decide (0x000C0000 ≤ a) && decide (a < 0x00100000))
    || (decide (mshA 0x3008 ≤ a) && decide (a < mshA 0x3050))
    || [netA 0 0x24, netA 0 0x28, netA 1 0x24, netA 1 0x28].contains a

/-- MSH_OBS_CTRL.EN enables no stream (R460, R476). -/
def State.streamsOff (s : State) : Bool := (List.range 4).all (fun k => !s.streamOn k)

/-- `t` is `s` with records of events made: nothing else has changed, no other register has, and with no
stream enabled nothing but the event rings has. -/
structure Observed (s t : State) : Prop where
  rest : t = { s with
    ctl := t.ctl, mem := t.mem, poison := t.poison, wrote := t.wrote, obs := t.obs, outs := t.outs }
  regs : ∀ a, obsReg a = false → t.rget a = s.rget a
  quiet : s.streamsOff = true →
    t.mem = s.mem ∧ t.poison = s.poison ∧ t.wrote = s.wrote ∧ t.obs = s.obs ∧ t.outs = s.outs

/-- `t` is `s` with the records of a unit's run made: as `Observed`, but the counters of observation move
whether or not a stream is enabled (R453, R458). -/
structure Recorded (s t : State) : Prop where
  rest : t = { s with
    ctl := t.ctl, mem := t.mem, poison := t.poison, wrote := t.wrote, obs := t.obs, outs := t.outs }
  regs : ∀ a, obsReg a = false → t.rget a = s.rget a
  quiet : s.streamsOff = true →
    t.mem = s.mem ∧ t.poison = s.poison ∧ t.wrote = s.wrote ∧ t.outs = s.outs

/-- The Scalar Lane of a tile takes the instruction at its program address: issue is admitted and no V
instruction is in flight. -/
def State.laneReady (s : State) (t : Nat) : Prop := s.canIssue t = true ∧ (s.tc t).vpipe = none

/-- The lane of a tile as an entry issues there: the first entry of a BE heat takes the heat's STAMP (R168). -/
def State.issuing (s : State) (t : Nat) : TCtx :=
  let c := s.tc t
  { c with heats := c.heats.map (fun y =>
      if c.curHeat.any (fun h => h.num == y.num && h.stampDue) then
        { y with stamp := s.ns / 256 % 2 ^ 32, stampDue := false }
      else y) }

/-- An instruction of the lane retires: its destinations are written, the flags it raised are ORed into the
sticky flags, the lane continues at `npc`, and nothing else changes but the lane's records (R102, R114). -/
def LaneRetires (s u : State) (t : Nat) (ws : List RegWrite) (raised : FlagSet) (npc : Nat) : Prop :=
  Recorded (s.setTc t { ws.foldl TCtx.wr (s.issuing t) with sflag := (s.tc t).sflag ||| raised, pc := npc }) u

/-- An instruction writes one G register and raises no flag; the next entry follows. -/
def LaneWritesG (s u : State) (t : Nat) (rd : RegNo) (v : DWord) : Prop :=
  LaneRetires s u t [.g rd.val v] 0 ((s.tc t).pc + 8)

/-- A V instruction enters the V pipe: its result waits there for `cycles`, and the next entry follows
(R102, R108, R109). -/
def LaneStartsV (s u : State) (t : Nat) (w : RegWrite) (raised : FlagSet) (cycles : Nat) : Prop :=
  Recorded (s.setTc t { s.issuing t with
    vpipe := some ⟨⟨[w], [raised]⟩, cycles, (s.tc t).pc⟩
    pc := (s.tc t).pc + 8
    work := (s.tc t).work ++ [((s.tc t).nextSeq, 7)]
    nextSeq := (s.tc t).nextSeq + 1 }) u

/-- The instruction at the program address traps (R116, R118): no destination is written, its flags are
sticky, STRAP_PC and STRAP_CAUSE record it, the lane continues at the handler, and the other tiles of the
gang stop; data space keeps its contents. -/
def LaneTraps (s u : State) (t : Nat) (gang : List Nat) (lanes : Nat) (raised : FlagSet) : Prop :=
  u.tc t = { s.issuing t with
    sflag := (s.tc t).sflag ||| raised
    strapPc := BitVec.ofNat 32 (s.tc t).pc
    strapCause := BitVec.ofNat 32
      (lanes * 2 ^ 28 + (raised &&& s.trapEn t).toNat * 2 ^ 16 + raised.toNat)
    inTrap := true
    pc := (s.tc t).strapVec.toNat / 4 * 4 }
  ∧ (∀ k, k ≠ t → u.tc k = if gang.contains k && !(s.tc k).stopped then
      { s.tc k with stopped := true, stopAt := some s.now } else s.tc k)
  ∧ (s.streamsOff = true → ∀ a, u.mget a = s.mget a) ∧ u.faults = s.faults

/-- The context on a tile faults with a cause: DSP_CTX_c_FAULT and the fault of its teardown record it
(R312), and data space keeps its contents. -/
def ContextFaults (s u : State) (t cause : Nat) : Prop :=
  u.hasFault (s.ctxOn t) = true ∧ u.rfld (ctxA (s.ctxOn t) 0x3C) 24 8 = cause
    ∧ u.rfld (ctxA (s.ctxOn t) 0x3C) 16 8 = t ∧ u.rbit (ctxA (s.ctxOn t) 0x34) 6 = true
    ∧ (s.streamsOff = true → ∀ a, u.mget a = s.mget a) ∧ (∀ k, k ≠ t → u.tc k = s.tc k)

/-- Nothing waits on a tile: no problem in its slots, no command in its queues, no hold of issue, no heat record
to write. -/
def TCtx.atRest (c : TCtx) : Prop :=
  c.live4 = [] ∧ c.qa = [] ∧ c.qt = [] ∧ c.qc = [] ∧ c.qb = [] ∧ c.torder = [] ∧ c.hold = .none
    ∧ ∀ h ∈ c.heats, h.solve = none ∨ h.recd = true

/-- The lanes of a floating operation in the form of AUX (R100, R192): one FP32 lane (0), four (1), or one
FP64 lane (2). -/
def fpLanes (c : TCtx) (aux : Byte) (h : FFmt → (RegNo → Nat) → Nat × FlagSet) : List (Nat × FlagSet) :=
  let lane (j : Nat) := h fFP32 (fun r => ((c.fr r.val).extractLsb' (32 * j) 32).toNat)
  if aux.toNat % 4 = 0 then [lane 0]
  else if aux.toNat % 4 = 1 then [lane 0, lane 1, lane 2, lane 3]
  else [h fFP64 (fun r => ((c.fr r.val).extractLsb' 0 64).toNat)]

/-- The flags that the lanes raise. -/
def fpFlags (l : List (Nat × FlagSet)) : FlagSet := l.foldl (fun f r => f ||| r.2) 0

/-- A floating result in an F register (R100): a scalar result leaves bits [127:32], an FP64 result bits
[127:64]. -/
def fpDest (old q : QWord) (l : List (Nat × FlagSet)) (aux : Byte) : Prop :=
  let w := if aux.toNat % 4 = 2 then 64 else 32
  (∀ (j : Nat) (h : j < l.length), q.extractLsb' (w * j) w = BitVec.ofNat w l[j].1)
    ∧ (l.length = 1 → q >>> w = old >>> w)

/-- A floating instruction of a fixed latency retires with its lanes' results and flags. -/
def FpRetires (s u : State) (t : Nat) (rd : RegNo) (aux : Byte)
    (h : FFmt → (RegNo → Nat) → Nat × FlagSet) : Prop :=
  ∃ q, fpDest ((s.tc t).fr rd.val) q (fpLanes (s.tc t) aux h) aux
    ∧ LaneRetires s u t [.f rd.val q] (fpFlags (fpLanes (s.tc t) aux h)) ((s.tc t).pc + 8)

/-- An encoding of FP32 or FP64 is a NaN, a signalling NaN, a subnormal (R40, R41). -/
def FFmt.nanBits (m : FFmt) (c : Nat) : Bool := decide (m.infCode < c % 2 ^ (m.width - 1))
def FFmt.snanBits (m : FFmt) (c : Nat) : Bool := m.nanBits c && !c.testBit (m.fb - 1)

/-- The order of the encodings that are no NaN: by sign and magnitude, −0 below +0. -/
def FFmt.key (m : FFmt) (c : Nat) : Int :=
  if c.testBit (m.width - 1) then -1 - ((c % 2 ^ (m.width - 1) : Nat) : Int) else (c % 2 ^ (m.width - 1) : Nat)

/-- The order of values, −0 equal to +0. -/
def FFmt.ord (m : FFmt) (c : Nat) : Int :=
  if c.testBit (m.width - 1) then -((c % 2 ^ (m.width - 1) : Nat) : Int) else (c % 2 ^ (m.width - 1) : Nat)

/-- A finite value in units of 2^-k (exact when its exponent is at least -k). -/
def FVal.units (k : Nat) (v : FVal) : Int :=
  match v with
  | .num neg m e => (if neg then -1 else 1) * ((m * 2 ^ (e + k).toNat : Nat) : Int)
  | _ => 0

/-- `r` is the encoding nearest to the exact value `v` (units of 2^-k), ties to even: no finite encoding is
nearer, and one as near has an odd fraction (R51, R103). -/
def FFmt.nearest (m : FFmt) (k : Nat) (r : Nat) (v : Int) : Prop :=
  (m.decode r).isFinite = true ∧ ∀ c, c < 2 ^ m.width → (m.decode c).isFinite = true →
    ((m.decode r).units k - v).natAbs ≤ ((m.decode c).units k - v).natAbs
    ∧ (((m.decode r).units k - v).natAbs = ((m.decode c).units k - v).natAbs →
      (m.decode c).units k = (m.decode r).units k ∨ c % 2 = 1 ∧ r % 2 = 0)

/-- No dump point is enabled and no dump is under way (R468, R469). -/
def State.dumpsOff (s : State) : Prop := s.obs.dumps = [] ∧ ∀ i < 256, s.dumpFld i 0 1 < 128

/-- The sequencer of a tile has taken the 32-byte entry of a heat: its work carries the entry's IDs (R195, R200), and
the first entry of a BE heat has taken the STAMP (R168). -/
def State.took (s : State) (t : Nat) (h : Heat) (hdr : CmdHdr) : TCtx :=
  let c := s.issuing t
  { c with
    heats := c.heats.dropLast ++ [{ h with
      stamp := if h.stampDue then s.ns / 256 % 2 ^ 32 else h.stamp, stampDue := false
      layer := hdr.layer.toNat, oper := hdr.oper.toNat }]
    pc := c.pc + 32 }

/-- Only tile `t`, and the records of its units, differ (a frame of one tile's work). -/
def OnlyTile (s u : State) (t : Nat) : Prop := Recorded (s.setTile t (u.tile t)) u

/-- The script has a next entry that the Starting Block executes (R415). -/
def State.goesOn (s : State) : Prop := s.entryNo + 1 < s.entryCount ∧ s.entryOk (s.entryNo + 1) = true

/-- The script at its next entry: SB_STAT.ENTRY counts, and nothing is waited for (R415, R431). -/
def State.atNext (s : State) : State :=
  { s.rfldSet 0x04 0 16 (s.entryNo + 1) with boot := { s.boot with wait := .none, ran := true } }

/-- The message that reads the slot in use at an offset: in 8D-8D-8D, in the device and at the offset that the anchor
gives the slot of SB_STAT.SLOT, with its clock, dummy cycles and command; none for a second device without FLASH_DUAL
(R406, R407). -/
def State.slotFetch (s : State) (o : Nat) : List OutMsg :=
  let dev := if s.rbit 0x04 27 then s.anchorFld 0x10 1 else 0
  let base := s.anchorFld (if s.rbit 0x04 27 then 0x0C else 0x08) 4
  if dev = 0 ∨ s.pins.dual = true then
    [.flash dev (flashMhz (s.anchorFld 0x11 1)) true (s.anchorFld 0x14 1)
      (beBytes 2 (s.anchorFld 0x12 2) ++ beBytes 4 (base + o))]
  else []

/-- `t` is a state that records of events lead to from `u`, with the messages `ms` on the balls after them, unless
those are high impedance (R481). -/
def Drives (u t : State) (ms : List OutMsg) : Prop :=
  ∃ v, Observed u v ∧ t = { v with outs := v.outs ++ (if u.hiZ then [] else ms) }

/-- A register with no rule of its own beside its access codes (R16): below the Dispatcher, but for
CLK_HOLD and RLY_CFG, or the Dispatcher's, but for ARM and the BE queues. -/
def plainReg (a : Nat) : Prop :=
  (a < 0x00060000 ∧ a ≠ clkHoldA ∧ a ≠ rlyA 0x00)
    ∨ (0x00060000 ≤ a ∧ a < 0x00080000 ∧ a ≠ dspA 0x1C ∧ ¬ (ctxA 0 0 ≤ a ∧ a % 0x40 = 0x2C))

/-- No uncorrectable error has come to capture register `a` in this cycle (R343, R345). -/
def State.noErrNow (s : State) (a : Nat) : Prop := ∀ e, tfind s.ue a = some e → e.1 ≠ s.now

/-- The word that a plain register holds after a write of `v`: the bits of `mask` take it, and its RW1C bits
clear where it has ones (R16). -/
def plainWord (mask w1c old v : Word) : Word := ((old &&& ~~~mask) ||| (v &&& mask)) &&& ~~~(v &&& w1c)

/-- A host port or JTAG may make a write, and it would change no BL field (R16, R17, R356, R358, R427). -/
def State.accepts (s : State) (src a : Nat) (v : Word) : Prop :=
  s.sbLock = true ∧ s.mayWrite src a v = true ∧ s.regBlocked a = false
    ∧ ∃ r, regSpec a = some r ∧ (s.rget a ^^^ v) &&& r.bl = 0

/-- A loop that has raised FLAGS bits in this cycle: the lap in progress remembers them too (R242, R244). -/
def raisedBits (x : LoopSt) (now m : Nat) : LoopSt := { x with
  raised := x.raised ||| m, flagAt := some now
  flagNow := (if x.flagAt = some now then x.flagNow else 0) ||| m }

/-- A FLAGS bit of a loop is set, and nothing else but what remembers it (R237, R242, R244). -/
def State.flagged (s : State) (n bit : Nat) : State :=
  (s.rset (loopA n 0x64) (s.rget (loopA n 0x64) ||| BitVec.ofNat 32 (2 ^ bit))).setLoop n
    (raisedBits (s.loop n) s.now (2 ^ bit))

/-- A loop refuses a write: a FLAGS bit and LAP_REFUSE_CNT, with their event, and nothing else (R237). -/
def LoopRefuses (s u : State) (n bit : Nat) : Prop :=
  Observed ((s.flagged n bit).rcount (lapA 0x10) 0 32 1) u

/-- Among the registers only one differs. -/
def OnlyReg (s u : State) (a : Nat) : Prop := ∀ b, b ≠ a → u.rget b = s.rget b

/-- A control packet goes out on link k at once: the link is ACTIVE, nothing waits on it, and its credits and
replay buffer admit 84 bytes (R384, R385, R386). -/
def State.ctlRoom (s : State) (k : Nat) : Prop :=
  s.linkState k = 7 ∧ (s.lnk k).wait = [] ∧ 6 ≤ lget 0 (s.lnk k).credits 0
    ∧ (s.lnk k).replayBytes + 84 ≤ 32768

/-- The next packet of link k when it carries the control contents `m` to the partner there (R384, R394, R396). -/
def State.ctlSent (s : State) (k : Nat) (m : CtlMsg) : OutMsg :=
  let p : Pkt := { s.ctlPkt k m with
    addr := ofLeBytes ((List.range 8).map (Config.ctlByte m.fields))
    data := (List.range 64).map (fun i => Config.ctlByte m.fields (8 + i)) }
  .packet k (s.lnk k).nextSeq p p.wire

/-- Link k with a packet of `cost` credits of a channel received: its sequence number is taken, and a LINK packet
in channel CTL acknowledges it with the credits that its buffer returns and those still owed (R385, R386). -/
def State.received (s : State) (k vc cost : Nat) : State :=
  let l := s.lnk k
  let link : Pkt := { ty := 0x30, src := s.devnum, dst := s.partner k, vc := 0, part := 0, bib := 0, ctx := 0
                      ttl := 1, tag := 0, addr := 0, len := 0
                      ctl := some (.link false l.rxSeq (addCredits l.owed (lset [0, 0, 0] vc cost))) }
  (s.setLnk k { l with rxSeq := l.rxSeq + 1, owed := [], wait := l.wait ++ [link] }).pumpAll k

/-- The next packet of link k when it carries a LINK packet to the partner there: the acknowledgement or NAK of a
sequence number with the credits that return (R385, R386). -/
def State.linkSent (s : State) (k : Nat) (nak : Bool) (seq : Nat) (cr : List Nat) : OutMsg :=
  let m : CtlMsg := .link nak seq cr
  let p : Pkt := { s.ctlPkt k m with addr := ofLeBytes ((List.range 8).map (Config.ctlByte m.fields)) }
  .packet k (s.lnk k).nextSeq p p.wire

/-- The receive buffer of a packet of link k is free: a LINK packet returns its credits with those still owed, for
the sequence number received last (R385). -/
def State.returned (s : State) (k vc cost : Nat) : State :=
  let l := s.lnk k
  (s.setLnk k { l with
    owed := []
    wait := l.wait ++ [s.ctlPkt k (.link false (l.rxSeq - 1) (addCredits l.owed (lset [0, 0, 0] vc cost)))] }).pumpAll k

/-- No packet waits to be sent on any link. -/
def State.linksCalm (s : State) : Prop := ∀ j < 4, (s.lnk j).wait = []

/-- What every device reset leaves, whatever ordered it: the sequence waits at step 2, the Split Timer keeps
its count and increment with the time state HOLDOVER, memories are empty, straps stay, every Dispatcher
register is at its Reset value and SB_LOCK is clear (R403, R11). -/
def ResetLeaves (s t : State) : Prop :=
  t.bootStepNo = 2 ∧ t.time.split = s.time.split ∧ t.time.inc = s.time.inc ∧ t.timeState = 2
    ∧ (∀ a, t.mget a = emptyByte) ∧ t.tiles = [] ∧ t.pins.role = s.pins.role ∧ t.pins.dual = s.pins.dual
    ∧ t.pins.bootFail = false ∧ t.boot.power = false ∧ t.sbLock = false
    ∧ (∀ a, 0x00060000 ≤ a → a < 0x00080000 → t.rget a = regReset a) ∧ t.tap = s.tap

/-- A boot failure stops the Starting Block: SB_FAIL records the code and DETAIL, SB_STAT.STEP reads FAILED
and BOOT_FAIL_N is driven low (R428). -/
def FailsBoot (s t : State) (code detail : Nat) : Prop :=
  Observed (((({ s with
      phase := .failed, pins := { s.pins with bootFail := true }
      boot := { s.boot with wait := .none } } : State).rfldSet 0x08 24 8 code).rfldSet 0x08 0 16
    detail).rfldSet 0x04 28 4 15) t

/-- The heat of an entry begins on its tiles (R23, R201, R278, R288): the context's next heat number, the
entry RUNNING under it, each tile at the entry's program address with the heat; other tiles and data space
keep theirs. -/
def EntryStarts (s t : State) (e : LookEntry) : Prop :=
  let n := s.nextHeat e.ctx
  (t.rget (ctxA e.ctx 0x28)).toNat = n
    ∧ t.dsp.look = s.dsp.look.map (fun x => if x == e then { x with state := .running, heat := n } else x)
    ∧ (∀ u ∈ e.tiles, (t.tc u).pc = e.pc ∧ ∃ h ∈ (t.tc u).heats, h.num = n ∧ h.ctx = e.ctx
        ∧ h.lc = true ∧ h.tiles = e.tiles ∧ h.stamp = e.slot / 256 % 2 ^ 32)
    ∧ (∀ u, u ∉ e.tiles → t.tile u = s.tile u) ∧ (s.streamsOff = true → t.mem = s.mem)

/-- The first command of a port's queue is answered and leaves it (R350, R351, R355): the response goes out on
a port with link, and stands last of at most 32 in the replay store. -/
def TfpAnswered (s t : State) (h : TfpHdr) (op : TfpOp) (status : Nat) (pl : List Byte) : Prop :=
  let k := h.port.val
  let r := response h op.code status pl false
  let f := t.tfpFrame k h.peer r
  (t.port k).queue = (s.port k).queue.drop 1 ∧ (t.port k).busy = false
    ∧ (∃ l, (t.port k).store = l ++ [(h.seq.toNat, r)] ∧ l.length ≤ 31 ∧ l <:+ (s.port k).store)
    ∧ t.outs = s.outs ++ (if t.linkUp k then [.frame k (f ++ lrep (60 - f.length) 0)] else [])

/-- The registers of the best master clock algorithm say what it finds (R369): the best port's vector is
better than the device's own and no worse than another port's, roles (Passive where the vector received is better
than what the device would send) and slave port follow it, and the grandmaster is its or the device itself, when that is capable. -/
def BmcaHolds (u : State) : Prop :=
  let b := u.bestPort
  let gv := match b with
    | some k => (u.portVec k).getD []
    | none => u.ownVec
  let mine (j : Nat) : List Nat := lset gv 7 (u.clockId * 65536 + (j + 1))
  let capable := u.rfld (splA 0x38) 24 8 ≠ 255
  (b = none → ∀ j < 2, ∀ w, u.portVec j = some w → vecLe u.ownVec w = true)
    ∧ (∀ k, b = some k → k < 2 ∧ u.portVec k = some gv ∧ vecLe u.ownVec gv = false
      ∧ ∀ j < 2, ∀ w, u.portVec j = some w → vecLe gv w = true)
    ∧ (∀ j < 2, (u.ptpPort j = false → u.ptpRole j = 0)
      ∧ (u.ptpPort j = true → b = some j → u.ptpRole j = 2)
      ∧ (u.ptpPort j = true → b = none → u.ptpRole j = 1)
      ∧ (u.ptpPort j = true → b ≠ none → b ≠ some j →
        (∀ a, (u.port j).ann = some a → vecLe (mine j) a.vec = true) → u.ptpRole j = 1)
      ∧ (∀ a, u.ptpPort j = true → b ≠ none → b ≠ some j → (u.port j).ann = some a →
        vecLe (mine j) a.vec = false → u.ptpRole j = 3))
    ∧ u.slavePort = (b.map (fun k => k + 1)).getD 0
    ∧ (u.rbit (splA 0x04) 29 = true ↔ b = none ∧ capable)
    ∧ u.gmId = (if b = none ∧ ¬ capable then 0 else lget 0 gv 5 % 2 ^ 64)

/-- The time is stepped by −offset (R373): exactly, with STEPPED and STEPS, and the device is LOCKED with its
servo loop asked for AUTO (R374). -/
def Stepped (s u : State) (o : Int) : Prop :=
  (u.time.split : Int) = (s.time.split : Int) - o ∧ u.rbit (splA 0x04) 27 = true
    ∧ u.rfld (splA 0x34) 0 16 = min (s.rfld (splA 0x34) 0 16 + 1) 65535 ∧ u.timeState = 1
    ∧ (u.rget (splA 0x30) ++ u.rget (splA 0x2C)) = BitVec.ofInt 64 (o.fdiv (2 ^ 32))
    ∧ ∀ n, s.servoLoop = some n → u.rfld (loopA n 0x00) 0 2 = 2

/-- An offset is refused (R372): TIME_JUMP_REFUSED, REFUSED and HOLDOVER; the time stays. -/
def JumpRefused (s u : State) : Prop :=
  u.rbit (splA 0x04) 28 = true ∧ u.rfld (splA 0x34) 16 16 = min (s.rfld (splA 0x34) 16 16 + 1) 65535
    ∧ u.timeState = 2 ∧ u.time.split = s.time.split ∧ u.time.run = 0

/-- What a qualified offset `o` does (R371, R372, R374, R375) on a STANDALONE device or the MASTER: it is
shown and becomes the servo's input, and the first row of R372 that applies decides; with CORE in HOLD the time state
stays and the servo takes none (X8 of R38). -/
def OffsetTaken (s u : State) (o : Int) (t2 : Nat) : Prop :=
  let big := s.jumpLimit < (o.natAbs : Int)
  let keeps (run : Nat) : Prop := u.timeState = s.timeState ∧ u.time.split = s.time.split ∧ u.time.run = run
  u.rget (splA 0x28) = wordI (sat32 (o.fdiv (2 ^ 28)))
    ∧ u.time.servo = (if s.coreHold then s.time.servo else some (o, t2, s.now))
    ∧ (s.servoLoop = none ∨ s.coreHold = true → keeps s.time.run)
    ∧ (s.servoLoop ≠ none → s.coreHold = false → s.timeState ≤ 2 →
      (s.timeState = 0 → Stepped s u o)
      ∧ (s.timeState = 1 → big → JumpRefused s u)
      ∧ (s.timeState = 1 → ¬ big → keeps s.time.run)
      ∧ (s.timeState = 2 → s.rbit (splA 0x00) 31 = true → Stepped s u o ∧ u.rbit (splA 0x00) 31 = false)
      ∧ (s.timeState = 2 → s.rbit (splA 0x00) 31 = false → big → JumpRefused s u)
      ∧ (s.timeState = 2 → s.rbit (splA 0x00) 31 = false → ¬ big →
        s.time.run + 1 < s.rfld (splA 0x24) 0 4 → keeps (s.time.run + 1))
      ∧ (s.timeState = 2 → s.rbit (splA 0x00) 31 = false → ¬ big →
        s.rfld (splA 0x24) 0 4 ≤ s.time.run + 1 → Stepped s u o))

/-- The offset of a Sync is complete on slave port `k` with no master port to relay it to (R371): qualified and
taken when the port is asCapable and the grandmaster that of the last qualified offset, else discarded.  The offset is
t2 less the origin, the correction, and meanLinkDelay scaled by rateRatio over neighborRateRatio, exactly, rounded
down to 2^-32 ns. -/
def SyncCompletes (s u : State) (k t2 origin : Nat) (corr rate : Int) : Prop :=
  let o : Int := s.syncOffset k t2 origin corr rate
  let n : Int := 2 ^ 41 + (s.port k).ratio
  let exact : Int := ((t2 : Int) - (((origin * 2 ^ 32 : Nat) : Int) + corr * 2 ^ 16)) * (n * 2 ^ 42)
    - (s.port k).delay * (n + rate)
  let ok := s.rbit (netA k 0x18) 24 = true ∧ s.role ≠ 2 ∧ ∀ g, s.time.gmSeen = some g → g = s.gmId
  (0 < n → o * (n * 2 ^ 42) ≤ exact ∧ exact < (o + 1) * (n * 2 ^ 42))
    ∧ (ok → o ≤ (s.time.split : Int) → OffsetTaken s u o t2)
    ∧ (¬ ok → u.rget (splA 0x28) = s.rget (splA 0x28) ∧ u.time = { s.time with gmSeen := some s.gmId }
      ∧ u.timeState = s.timeState)
    ∧ u.time.gmSeen = some s.gmId ∧ (s.streamsOff = true → u.mem = s.mem ∧ u.outs = s.outs)

/-- The command frames of R353 and R447, as a Network Port holds them. -/
def tfpOf : Instr → Option (TfpHdr × TfpOp)
  | .cread h a n => some (h, .cread a.toNat n.toNat)
  | .cwrite h a ws => some (h, .cwrite a.toNat ws)
  | .cmodify h a m v => some (h, .cmodify a.toNat m v)
  | .dread h a n => some (h, .dread a.toNat n.toNat)
  | .dwrite h a d => some (h, .dwrite a.toNat d)
  | .abort h c n => some (h, .abort c.toNat n.toNat)
  | .echo h d => some (h, .echo d)
  | .tsub h st en => some (h, .tsub st.toNat en)
  | .health h => some (h, .health)
  | .reinit h p e => some (h, .reinit p.toNat e.toNat)
  | .devreset h e => some (h, .devreset e.toNat)
  | .pwrcycle h e => some (h, .pwrcycle e.toNat)
  | _ => none

/-- A port takes a command frame at once: enabled, with link, the encapsulation accepted, and no command
waiting (R348, R350, R354). -/
def State.tfpTakes (s : State) (h : TfpHdr) : Prop :=
  let k := h.port.val
  s.netOn k = true ∧ s.linkUp k = true ∧ s.tfpAccepts h = true ∧ (s.port k).queue = []
    ∧ (s.port k).busy = false

/-- The frame opens a session: the first since the link came up or the reset, or another SESSION (R355). -/
def State.tfpFresh (s : State) (h : TfpHdr) : Bool :=
  s.rbit (netA h.port.val 0x18) 23 || s.rfld (netA h.port.val 0x18) 0 16 != h.session.toNat

/-- SEQ is newer than the last one executed (R355). -/
def State.tfpNewer (s : State) (h : TfpHdr) : Prop :=
  let d := (h.seq.toNat + 2 ^ 32 - (s.rget (netA h.port.val 0x38)).toNat) % 2 ^ 32
  1 ≤ d ∧ d < 2 ^ 31

/-- The state in which a command taken by its port executes: the frame counted, the session and SEQ taken, the
replay store empty in a new session (R354, R355, R377). -/
def State.tfpOpened (s : State) (h : TfpHdr) (op : TfpOp) : State :=
  let k := h.port.val
  let s1 := (s.rxFrame k).modPort k (fun x => { x with queue := [(h, op)] })
  if s.tfpFresh h then
    (((s1.rbitSet (netA k 0x18) 23 false).rfldSet (netA k 0x18) 0 16 h.session.toNat).modPort k
      (fun x => { x with store := [] })).rset (netA k 0x38) h.seq
  else s1.rset (netA k 0x38) h.seq

/-- Registers of a port that its commands and responses move (R377). -/
def netCounts (k a : Nat) : Prop := a = netA k 0x24 ∨ a = netA k 0x28

/-- The reset of a domain begins (R439, R440): a tile or the tiles of a cluster are in reset, a partition is
in state 3, a link trains from DETECT when enabled, the device is at step 2 of its sequence. -/
def ResetBegins (u : State) (r : Nat × Nat) : Prop :=
  (r.1 = 1 → r.2 < 32 → (u.tile r.2).inReset = true ∧ r ∈ u.health.units)
    ∧ (r.1 = 2 → r.2 < 4 → (∀ i < 8, (u.tile (8 * r.2 + i)).inReset = true) ∧ r ∈ u.health.units)
    ∧ (r.1 = 3 → r.2 < 16 → u.partState r.2 = 3 ∧ ∃ q ∈ u.health.parts, q.part = r.2)
    ∧ (r.1 = 4 → r.2 < 4 → u.linkState r.2 = if u.rbit (linkA r.2 0x00) 31 then 1 else 0)
    ∧ (r.1 = 5 → u.phase = .boot ∧ u.bootStepNo = 2 ∧ u.tiles = [] ∧ ∀ a, u.mget a = emptyByte)

/-- A hang is declared (R437-R439, R445): HANG or its cause bit, the verdict, and the reset of its domain, at
once or delayed under RHOLD. -/
def HangDeclared (s u : State) (ns : List GNode) (bit cause detail : Nat) : Prop :=
  let d := s.hangDomain ns
  (d.1 ≠ 5 → u.rbit (mshA 0x04) bit = true
    ∧ u.rget (mshA 0x08) = BitVec.ofNat 32 (verdictCode d.1 (hangClass ns) d.2 cause detail))
  ∧ (s.rfld (mshA 0x00) 16 8 = 0 → s.resetting d = false → ResetBegins u d)
  ∧ (s.rfld (mshA 0x00) 16 8 ≠ 0 → u.health.delayed = addReset s.health.delayed (d, ns)
    ∧ u.rbit (mshA 0x04) 27 = true ∧ u.tiles = s.tiles)

end Sys2Proof.Machine
end

