-- ==== Sys2Proof/Certificates/Slice0/Obligations.lean ====
section
/-!
DEFINITION. The statements about the model, for the provers.  Each docstring names the rules of the manual it
rests on.  `Observed u t` says that `t` is `u` with records of events made, and nothing else.
-/

open Sys2Proof Sys2Proof.Machine

/-! ## The whole machine -/

/-- A step runs the command at the front of the queue on the state with the queue's rest; with none waiting,
one FCLK cycle passes (DESIGN CHOICE, log entry 2). -/
def Obligations.StepRunsFrontCommand : Prop :=
  ∀ s : State,
    (∀ (c : Instr) (rest : List Instr), s.pending = c :: rest → step s = exec c { s with pending := rest })
    ∧ (s.pending = [] → step s = .next s.cycle)

/-- The only stop of the machine: PWRGOOD rising with TEST_EN high, for which no function of the manual is
available (R494).  Every other command, in every state, answers a next state. -/
def Obligations.OnlyManufacturingTestStops : Prop :=
  ∀ (c : Instr) (s : State),
    (∃ t, exec c s = .next t)
    ∨ (exec c s = .refused .manufacturingTest ∧ s.phase = .off ∧ ∃ role dual, c = .pwrgoodRise role dual true)

/-- Data space keeps its canonical form over every step: addresses strictly rising, and no byte listed that
an unlisted address reads as. -/
def Obligations.StepKeepsMemoryCanonical : Prop :=
  ∀ s t : State, Memory.wf s.mem = true → step s = .next t → Memory.wf t.mem = true

/-- The test access port holds an instruction of R496 and status codes of R360 over every step. -/
def Obligations.StepKeepsTapLegal : Prop :=
  ∀ s t : State, Tap.wf s.tap = true → step s = .next t → Tap.wf t.tap = true

/-- Commands come from outside: a step takes the front command away and adds none, and what has been sent to
the outside is never taken back. -/
def Obligations.StepTakesOneCommand : Prop :=
  ∀ s t : State, step s = .next t → t.pending = s.pending.tail ∧ s.outs <+: t.outs

/-- Reset: every register reads its Reset column (R11), data space is canonical and lists nothing, no command
waits, and the device is without power-good with its outputs high impedance (R481, R493). -/
def Obligations.ResetState : Prop :=
  (∀ a, State.reset.rget a = regReset a) ∧ (∀ a, State.reset.mget a = emptyByte)
    ∧ Memory.wf State.reset.mem = true ∧ Tap.wf State.reset.tap = true
    ∧ State.reset.pending = [] ∧ State.reset.phase = .off ∧ State.reset.ballSource = .highImpedance
    ∧ State.reset.rget 0x00 = 0x96403100 ∧ State.reset.timeState = 2

/-! ## Pins and resets -/

/-- PWRGOOD, the monitored rails and REFCLK (R480-R482, R493, R494); RST_N, DEVRESET and the power-cycle request
(R403, R448, R449, R451, R495).  Orders that stand together: the first of its kind is carried out, and a device reset
that began in this cycle serves DEVRESET too (DEDUCED, log entry 83). -/
def Obligations.PowerPinsAndResets : Prop :=
  let fresh (role : Nat) : Nat := if role % 4 = 2 then 2 else 0
  (∀ (s : State) (role : Fin 4) (dual : Bool),
    (s.phase = .off → ∃ t, exec (.pwrgoodRise role dual false) s = .next t
      ∧ Observed ((((({ s with
            phase := .boot, boot := { held := s.pins.rstLow, start := s.now }
            pins := { s.pins with role := role.val, dual := dual, bootFail := false, pwrReq := false
                                  pwmHiz := false, io18 := false } } : State).rfldSet (rlyA 0x00) 30 2
          role.val).rfldSet (rlyA 0x00) 28 2 role.val).rfldSet (splA 0x04) 30 2 (fresh role.val)).rfldSet
        0x04 28 4 1) t)
    ∧ (s.phase = .off → exec (.pwrgoodRise role dual true) s = .refused .manufacturingTest)
    ∧ (∀ test, s.phase ≠ .off → exec (.pwrgoodRise role dual test) s = .next s)
    ∧ (∀ c, c = .powerGoodFall ∨ c = .railUndervoltage → ∃ t, exec c s = .next t
      ∧ t.phase = .off ∧ (∀ a, t.rget a = regReset a) ∧ (∀ a, t.mget a = emptyByte) ∧ t.tiles = []
      ∧ t.time.running = false ∧ t.ballSource = .highImpedance ∧ t.pins.bootFail = false
      ∧ t.pins.pwrReq = false ∧ t.tap = s.tap ∧ t.pins.pwmHiz = s.pins.pwmHiz ∧ t.pins.io18 = s.pins.io18
      ∧ t.pins.rstLow = s.pins.rstLow)
    ∧ (s.phase ≠ .off → ∃ t, exec .refclkStop s = .next t
      ∧ t.phase = .boot ∧ t.bootStepNo = 1 ∧ t.time.split = 0 ∧ t.time.running = false
      ∧ t.timeState = fresh s.pins.role ∧ t.pins.role = s.pins.role ∧ t.pins.dual = s.pins.dual
      ∧ t.ballSource = .highImpedance ∧ t.boot.held = s.pins.rstLow ∧ t.boot.qualified = false
      ∧ t.pins.pwmHiz = s.pins.pwmHiz ∧ t.pins.io18 = s.pins.io18
      ∧ (∀ a, t.mget a = emptyByte) ∧ t.tiles = [] ∧ t.tap = s.tap)
    ∧ (s.phase = .off → exec .refclkStop s = .next s)
    ∧ (∃ t, exec .vddIo18Low s = .next t ∧ t = { s with pins := { s.pins with io18 := true } }
      ∧ t.ballSource = .highImpedance ∧ t.bootFailSource = .highImpedance
      ∧ t.pwrCycleSource = .highImpedance ∧ t.pwmSource = .highImpedance)
    ∧ (∃ t, exec .vddIo33Low s = .next t ∧ t = { s with pins := { s.pins with pwmHiz := true } }
      ∧ t.pwmSource = .highImpedance))
  ∧ (∀ s : State,
    (s.phase ≠ .off → s.pins.pwrReq = false →
      ∃ t, exec .rstNAssert s = .next t ∧ t.phase = .reset ∧ t.boot.held = true ∧ t.pins.rstLow = true
        ∧ t.boot.qualified = s.boot.qualified ∧ t.time.running = s.time.running ∧ ResetLeaves s t)
    ∧ (s.phase = .off ∨ s.pins.pwrReq = true →
      exec .rstNAssert s = .next { s with pins := { s.pins with rstLow := true } })
    ∧ exec .rstNRelease s = .next { s with
        phase := if s.phase = .reset then .boot else s.phase
        pins := { s.pins with rstLow := false }, boot := { s.boot with held := false } }
    ∧ (∀ l r p, p < 2 → s.health.ordered = l ++ (true, p) :: r → (∀ o ∈ l, o.1 = false) →
      ∃ t, exec .devresetDelayExpiry s = .next t ∧ t.health.ordered = l ++ r
        ∧ (t.rget (mshA 0x08)).toNat = 0x50000000 + 0x08 * 4096 + p
        ∧ (¬ (s.phase = .boot ∧ s.boot.power = false ∧ s.boot.start = s.now) →
          t.phase = (if s.pins.rstLow then .reset else .boot) ∧ t.boot.held = s.pins.rstLow
            ∧ ResetLeaves s t)
        ∧ (s.phase = .boot ∧ s.boot.power = false ∧ s.boot.start = s.now →
          t.phase = .boot ∧ t.boot = s.boot ∧ t.tiles = s.tiles ∧ t.time = s.time))
    ∧ ((∀ o ∈ s.health.ordered, o.1 = false) → exec .devresetDelayExpiry s = .next s)
    ∧ (∀ l r p, s.health.ordered = l ++ (false, p) :: r → (∀ o ∈ l, o.1 = true) →
      ∃ t, exec .powerCycleRequest s = .next t
        ∧ t.pins.pwrReq = true ∧ t.health.ordered = l ++ r ∧ t.rbit (mshA 0x04) 28 = true
        ∧ (p < 2 → (t.rget (mshA 0x08)).toNat = 0x60000000 + 0x09 * 4096 + p)
        ∧ (∀ n < 1024, s.loopEn n = true → t.rfld (loopA n 0x60) 30 2 = 0)
        ∧ (∀ k < 16, t.rbit (sptA k 0x24) 31 = false)
        ∧ (∀ c < 64, t.rbit (pwmA c 0x10) 31 = true ∧ (t.pwm c).ball = .resetSafe)
        ∧ (s.streamsOff = true → ∀ a, t.mget a = s.mget a) ∧ t.tiles = s.tiles)
    ∧ ((∀ o ∈ s.health.ordered, o.1 = true) → exec .powerCycleRequest s = .next s))

/-! ## Start-up -/

/-- Steps 1 to 6 of the start-up sequence as the hardware passes them (R401, R403, R404, R406, R407), an RST_N in
step 1 included; the events that end it with a
boot failure, with their codes (R404, R406, R416, R428, R429); and the PLL failure after a device reset, which
Marshal records with DOMAIN 0x6 (R446). -/
def Obligations.StartUpSteps : Prop :=
  (∀ s : State,
    let unlocked := (s.phase = .boot ∨ s.phase = .reset) ∧ s.time.running = false
    let counting : State := ({ s with
        time := { s.time with running := true, split := 0, sub := 0 }
        pins := { s.pins with hiz := false } } : State).rfldSet (splA 0x04) 30 2 (if s.role = 2 then 2 else 0)
    (unlocked → exec .refclkQualified s = .next { s with boot := { s.boot with qualified := true } })
    ∧ (unlocked → s.boot.qualified = true → s.bootStepNo = 1 → ∃ t, exec .timePllLocked s = .next t
      ∧ Observed (counting.rfldSet 0x04 28 4 2) t)
    ∧ (unlocked → s.boot.qualified = true → s.bootStepNo ≠ 1 → exec .timePllLocked s = .next counting)
    ∧ (s.phase = .boot → s.bootStepNo = 2 → s.boot.held = false → s.time.running = true →
      ∃ t, exec .clocksLocked s = .next t
      ∧ t.bootStepNo = 3 ∧ (∀ k < 32, (t.tile k).power = .run) ∧ (∀ k < 32, (t.tile k).tc = (s.tile k).tc)
      ∧ (∀ a, obsReg a = false → a ≠ 0x04 → t.rget a = s.rget a))
    ∧ (s.phase = .boot → s.bootStepNo = 3 → ∃ t, exec .flashResetDone s = .next t
      ∧ Drives (s.rfldSet 0x04 28 4 4) t [.flash 0 25 false 0 [0x03, 0x00, 0x00, 0x00]])
    ∧ (∀ bytes, s.phase = .boot → s.bootStepNo = 4 → anchorOk bytes = true →
      ∃ t, exec (.anchorReadComplete bytes) s = .next t
        ∧ let u := (({ s with boot := { s.boot with anchor := bytes } } : State).rset 0x1C
            (BitVec.ofNat 32 (ofLeBytes ((bytes.drop 4).take 4)))).rfldSet 0x04 28 4 5
          Drives u t ((List.range (min 4 (u.anchorFld 0x15 1))).flatMap (fun i =>
            (if s.pins.dual then [0, 1] else [0]).map (fun d => .flash d 25 false 0 (u.setupBytes i)))))
    ∧ (∀ bytes, s.phase = .boot → s.bootStepNo = 4 → anchorOk bytes = false →
      ∃ t, exec (.anchorReadComplete bytes) s = .next t ∧ FailsBoot s t 0x01 0)
    ∧ (s.phase = .boot → s.bootStepNo = 5 → ∃ t, exec .flashSetupComplete s = .next t
      ∧ let u := ({ s with boot := { s.boot with octal := true } } : State).rfldSet 0x04 28 4 6
        Drives u t (u.slotFetch 0)))
  ∧ (∀ s : State,
    ((s.phase = .boot ∨ s.phase = .reset) → s.time.running = false → s.boot.qualified = true →
      ∃ t, exec .timePllLockTimeout s = .next t ∧ FailsBoot s t 0x19 6)
    ∧ (∀ pll : Fin 5, s.phase = .boot → s.bootStepNo = 2 → s.boot.held = false → s.boot.power = true →
      ∃ t, exec (.fclkPllLockTimeout pll) s = .next t ∧ FailsBoot s t 0x19 pll.val)
    ∧ (s.phase = .boot ∨ s.phase = .bist → s.boot.power = true → s.boot.mem = 1 →
      ∃ t, exec .lpddr5PllLockTimeout s = .next t ∧ FailsBoot s t 0x19 5)
    ∧ (∀ dev : Fin 2, s.phase = .boot → s.bootStepNo = 4 →
      ∃ t, exec (.flashStrobeLost dev) s = .next t ∧ FailsBoot s t 0x01 0)
    ∧ (∀ dev : Fin 2, s.flashBusy = true → s.bootStepNo ≠ 4 →
      ∃ t, exec (.flashStrobeLost dev) s = .next t ∧ FailsBoot s t 0x02 dev.val)
    ∧ (s.phase = .boot → s.boot.wait = .poll →
      ∃ t, exec .pollTimeout s = .next t ∧ FailsBoot s t 0x0C s.entryNo)
    ∧ (s.atEntry 0 = true →
      ∃ t, exec .endScript s = .next t ∧ FailsBoot s t 0x18 s.entryNo)
    ∧ (s.bootStepNo = 11 → exec .endScript s = .next s)
    ∧ (∀ pll : Fin 6, s.boot.power = false →
      (pll.val ≠ 5 ∧ s.phase = .boot ∧ s.bootStepNo = 2 ∧ s.boot.held = false)
        ∨ (pll.val = 5 ∧ (s.phase = .boot ∨ s.phase = .bist) ∧ s.boot.mem = 1) → ∃ t, exec (.resetPllLockTimeout pll) s = .next t
        ∧ (t.rget (mshA 0x08)).toNat = 0x60000000 + 7 * 2 ^ 25 + 0x0A * 4096 + pll.val
        ∧ t.health.ordered = s.health.ordered ++ [(false, 2)] ∧ t.phase = s.phase))

/-! ## Scalar Lane: integer instructions -/

/-- Integer results (R100, R111, R192).  ADD, SUB, NEG, ADDIM and MUL wrap modulo 2^W and set no flag, a 32-bit result
sign-extended into its register; ADDS, SUBS and NEGS clamp to the signed range of W bits, a clamp sets SATURATED
and INEXACT, and with neither trapped the clamped value is written. -/
def Obligations.LaneIntegerResults : Prop :=
  (∀ (s : State) (t : TileNo) (rd x y : RegNo) (aux : Byte) (imm : BitVec 16), s.laneReady t.val →
    let w := if aux.getLsbD 0 then 64 else 32
    let a := ((s.tc t.val).gr x.val).setWidth w
    let b := ((s.tc t.val).gr y.val).setWidth w
    (∃ u, exec (.add t rd x y aux) s = .next u ∧ LaneWritesG s u t.val rd ((a + b).signExtend 64))
    ∧ (∃ u, exec (.sub t rd x y aux) s = .next u ∧ LaneWritesG s u t.val rd ((a - b).signExtend 64))
    ∧ (∃ u, exec (.neg t rd x aux) s = .next u ∧ LaneWritesG s u t.val rd ((-a).signExtend 64))
    ∧ (∃ u, exec (.addim t rd x aux imm) s = .next u
      ∧ LaneWritesG s u t.val rd ((a + imm.signExtend w).signExtend 64))
    ∧ (∃ u, exec (.mul t rd x y aux) s = .next u ∧ LaneWritesG s u t.val rd ((a * b).signExtend 64)))
  ∧ (∀ (s : State) (t : TileNo) (rd x y : RegNo) (aux : Byte), s.laneReady t.val →
    let w := if aux.getLsbD 0 then 64 else 32
    let a := (((s.tc t.val).gr x.val).setWidth w).toInt
    let b := (((s.tc t.val).gr y.val).setWidth w).toInt
    let clamped (u : State) (v : Int) : Prop :=
      let r := max (-2 ^ (w - 1)) (min (2 ^ (w - 1) - 1) v)
      LaneRetires s u t.val [.g rd.val (BitVec.ofInt 64 r)] (if r = v then 0 else 0x18) ((s.tc t.val).pc + 8)
    0x18 &&& s.trapEn t.val = 0 →
    (∃ u, exec (.adds t rd x y aux) s = .next u ∧ clamped u (a + b))
    ∧ (∃ u, exec (.subs t rd x y aux) s = .next u ∧ clamped u (a - b))
    ∧ (∃ u, exec (.negs t rd x aux) s = .next u ∧ clamped u (-a)))

/-- AND, OR, XOR, MOV, MOVI, MOVHI, NOP and CLZ, and the moves between registers, which copy bits unchanged
(R104, R108, R111, R192). -/
def Obligations.LaneLogicAndMoves : Prop :=
  (∀ (s : State) (t : TileNo) (rd x y : RegNo) (aux : Byte) (imm : BitVec 16), s.laneReady t.val →
    let a := (s.tc t.val).gr x.val
    let b := (s.tc t.val).gr y.val
    let w := if aux.getLsbD 0 then 64 else 32
    (∃ u, exec (.and t rd x y) s = .next u ∧ LaneWritesG s u t.val rd (a &&& b))
    ∧ (∃ u, exec (.or t rd x y) s = .next u ∧ LaneWritesG s u t.val rd (a ||| b))
    ∧ (∃ u, exec (.xor t rd x y) s = .next u ∧ LaneWritesG s u t.val rd (a ^^^ b))
    ∧ (∃ u, exec (.mov t rd x) s = .next u ∧ LaneWritesG s u t.val rd a)
    ∧ (∃ u, exec (.movi t rd imm) s = .next u ∧ LaneWritesG s u t.val rd (imm.signExtend 64))
    ∧ (∃ u, exec (.movhi t rd imm) s = .next u ∧ LaneWritesG s u t.val rd (imm.signExtend 64 <<< 16))
    ∧ (∃ u, exec (.nop t) s = .next u ∧ LaneRetires s u t.val [] 0 ((s.tc t.val).pc + 8))
    ∧ (∃ u n, exec (.clz t rd x aux) s = .next u ∧ LaneWritesG s u t.val rd (BitVec.ofNat 64 n)
      ∧ n ≤ w ∧ (a.setWidth w).toNat < 2 ^ (w - n) ∧ (n < w → 2 ^ (w - n - 1) ≤ (a.setWidth w).toNat)))
  ∧ (∀ (s : State) (t : TileNo) (rd x : RegNo) (aux : Byte), s.laneReady t.val →
    let c := s.tc t.val
    let j := aux.toNat % 4
    (∃ u, exec (.fmv t rd x) s = .next u
      ∧ LaneRetires s u t.val [.f rd.val (c.fr x.val)] 0 (c.pc + 8))
    ∧ (∃ u q, exec (.mvgf t rd x aux) s = .next u ∧ LaneRetires s u t.val [.f rd.val q] 0 (c.pc + 8)
      ∧ (aux.getLsbD 2 = false → q.extractLsb' 0 64 = c.gr x.val ∧ q >>> 64 = c.fr rd.val >>> 64)
      ∧ (aux.getLsbD 2 = true → q.extractLsb' (32 * j) 32 = (c.gr x.val).setWidth 32
        ∧ ∀ k < 4, k ≠ j → q.extractLsb' (32 * k) 32 = (c.fr rd.val).extractLsb' (32 * k) 32))
    ∧ (∃ u, exec (.mvfg t rd x aux) s = .next u ∧ LaneWritesG s u t.val rd
      (if aux.getLsbD 2 then ((c.fr x.val).extractLsb' (32 * j) 32).setWidth 64
       else (c.fr x.val).extractLsb' 0 64)))

/-- Shifts take their amount modulo W, from RS2 or the immediate; CMPEQ and CMPLT write 1 or 0; MULX writes
the high W bits of the product in its sign mode, and the mode that no instruction names never issues
(R111, R192). -/
def Obligations.LaneShiftsComparesAndHighProducts : Prop :=
  ∀ (s : State) (t : TileNo) (rd x y : RegNo) (aux : Byte) (imm : BitVec 16), s.laneReady t.val →
    let w := if aux.getLsbD 0 then 64 else 32
    let a := ((s.tc t.val).gr x.val).setWidth w
    let b := ((s.tc t.val).gr y.val).setWidth w
    let n := (if aux.getLsbD 1 then imm.toNat else b.toNat) % w
    let high (p : Int) := BitVec.signExtend 64 (BitVec.ofInt w (p / 2 ^ w))
    (∃ u, exec (.shl t rd x y aux imm) s = .next u ∧ LaneWritesG s u t.val rd ((a <<< n).signExtend 64))
    ∧ (∃ u, exec (.shr t rd x y aux imm) s = .next u ∧ LaneWritesG s u t.val rd ((a >>> n).signExtend 64))
    ∧ (∃ u, exec (.shra t rd x y aux imm) s = .next u
      ∧ LaneWritesG s u t.val rd ((a.sshiftRight n).signExtend 64))
    ∧ (∃ u, exec (.cmpeq t rd x y aux) s = .next u ∧ LaneWritesG s u t.val rd (if a = b then 1 else 0))
    ∧ (∃ u, exec (.cmplt t rd x y aux) s = .next u ∧ LaneWritesG s u t.val rd
      (if (if aux.getLsbD 2 then a.ult b else a.slt b) then 1 else 0))
    ∧ (aux.getLsbD 2 = false → aux.getLsbD 3 = false → ∃ u, exec (.mulx t rd x y aux) s = .next u
      ∧ LaneWritesG s u t.val rd (high (a.toInt * b.toInt)))
    ∧ (aux.getLsbD 2 = true → aux.getLsbD 3 = false → ∃ u, exec (.mulx t rd x y aux) s = .next u
      ∧ LaneWritesG s u t.val rd (high (a.toNat * b.toNat)))
    ∧ (aux.getLsbD 2 = false → aux.getLsbD 3 = true → ∃ u, exec (.mulx t rd x y aux) s = .next u
      ∧ LaneWritesG s u t.val rd (high (a.toInt * b.toNat)))
    ∧ (aux.getLsbD 2 = true → aux.getLsbD 3 = true → exec (.mulx t rd x y aux) s = .next s)

/-- QUO and RMD enter the V pipe with the quotient or remainder of R111, zero divisors and the signed
overflow included, for the cycles of R108; magnitudes are those of the signed or unsigned operands (R108,
R111, R112). -/
def Obligations.LaneDivision : Prop :=
  ∀ (s : State) (t : TileNo) (rd x y : RegNo) (aux : Byte), s.laneReady t.val →
    let w := if aux.getLsbD 0 then 64 else 32
    let a := ((s.tc t.val).gr x.val).setWidth w
    let b := ((s.tc t.val).gr y.val).setWidth w
    let unsigned := aux.getLsbD 2
    let mag (v : BitVec w) : Nat := if unsigned then v.toNat else v.toInt.natAbs
    let overflow := unsigned = false ∧ a = BitVec.intMin w ∧ b = BitVec.allOnes w
    let k := if b = 0 ∨ overflow then 3 else 3 + (Nat.size (mag a) + 1 - Nat.size (mag b))
    let starts (u : State) (v : BitVec w) (f : FlagSet) : Prop :=
      LaneStartsV s u t.val (.g rd.val (v.signExtend 64)) f k
    (∃ u, exec (.quo t rd x y aux) s = .next u
      ∧ (b = 0 → unsigned = true → starts u (BitVec.allOnes w) 0x80)
      ∧ (b = 0 → unsigned = false →
        starts u (if a = 0 then 0 else if a.msb then BitVec.intMin w else BitVec.intMax w) 0x80)
      ∧ (overflow → starts u a 0x100)
      ∧ (b ≠ 0 → ¬ overflow → starts u (if unsigned then a / b else a.sdiv b) 0))
    ∧ (∃ u, exec (.rmd t rd x y aux) s = .next u
      ∧ (b = 0 → starts u a 0x80)
      ∧ (b ≠ 0 → starts u (if unsigned then a % b else a.srem b) 0))

/-- A V instruction retires when its cycles are over, with its writes and flags, as any other (R102, R110, R114); a
tile whose lane is stopped delivers nothing.  FLAGRD reads the sticky flags, FLAGCLR clears those its operand
names, TRAPEN writes the mask (FLUSHED cannot be enabled), and SRET ends a handler and lets the gang go on, or waits
stopped while a partner is in its handler (R114, R115, R117, R118). -/
def Obligations.LaneFlagsAndTrapReturn : Prop :=
  (∀ (s : State) (t : TileNo) (w : RegWrite) (f : FlagSet) (cycles pc : Nat),
    (s.tc t.val).vpipe = some ⟨⟨[w], [f]⟩, cycles, pc⟩ → (s.tc t.val).atRest →
    (s.unitRuns t.val 7 = true → f &&& s.trapEn t.val = 0 →
      exec (.vPipeResult t) s = .next (s.setTc t.val { (s.tc t.val).wr w with
        sflag := (s.tc t.val).sflag ||| f, vpipe := none
        work := (s.tc t.val).work.filter (fun p => p.2 ≠ 7) }))
    ∧ (s.unitRuns t.val 7 = false → exec (.vPipeResult t) s = .next s))
  ∧ (∀ (s : State) (t : TileNo) (rd x : RegNo), s.laneReady t.val →
    let c := s.tc t.val
    (∃ u, exec (.flagrd t rd) s = .next u ∧ LaneWritesG s u t.val rd (c.sflag.setWidth 64))
    ∧ (∃ u, exec (.flagclr t x) s = .next u ∧ Recorded (s.setTc t.val { s.issuing t.val with
        sflag := c.sflag &&& ~~~((c.gr x.val).setWidth 9), pc := c.pc + 8 }) u)
    ∧ (∃ u, exec (.trapen t x) s = .next u ∧ Recorded (s.setTc t.val { s.issuing t.val with
        strapEn := (c.gr x.val).setWidth 9 &&& 0x19F, pc := c.pc + 8 }) u)
    ∧ (∀ h, c.inTrap = true → c.curHeat = some h → (∀ k ∈ h.tiles, k ≠ t.val → (s.tc k).inTrap = false) →
      ∃ u, exec (.sret t) s = .next u
        ∧ u.tc t.val = { s.issuing t.val with
          inTrap := false, stopped := false, pc := c.strapPc.toNat + 8 }
        ∧ (∀ k, k ≠ t.val → u.tc k = { s.tc k with stopped := (s.tc k).stopped && !h.tiles.contains k })
        ∧ (s.streamsOff = true → ∀ a, u.mget a = s.mget a) ∧ u.faults = s.faults)
    ∧ (∀ h, c.inTrap = true → c.curHeat = some h → (∃ k ∈ h.tiles, k ≠ t.val ∧ (s.tc k).inTrap = true) →
      ∃ u, exec (.sret t) s = .next u
        ∧ u.tc t.val = { s.issuing t.val with
          inTrap := false, stopped := true, stopAt := none, pc := c.strapPc.toNat + 8 }
        ∧ (∀ k, k ≠ t.val → u.tc k = s.tc k)
        ∧ (s.streamsOff = true → ∀ a, u.mget a = s.mget a) ∧ u.faults = s.faults)
    ∧ (c.inTrap = false → s.ctxState (s.ctxOn t.val) ≠ 3 → ∃ u, exec (.sret t) s = .next u
      ∧ u.tc t.val = s.issuing t.val ∧ ContextFaults s u t.val 3))

/-- A trap is precise (R115-R117), shown for a saturating addition: with SATURATED or INEXACT enabled a clamp writes no
destination, records the trap and enters the handler; with no handler it is a fault of the context; inside a handler
it is a fault and no trap.  A taken branch adds eight times its signed immediate to its own program address (R194). -/
def Obligations.TrapsAndBranches : Prop :=
  (∀ (s : State) (t : TileNo) (rd x y : RegNo) (aux : Byte) (h : Heat), s.laneReady t.val →
    (s.tc t.val).curHeat = some h →
    let c := s.tc t.val
    let w := if aux.getLsbD 0 then 64 else 32
    let v := ((c.gr x.val).setWidth w).toInt + ((c.gr y.val).setWidth w).toInt
    v < -2 ^ (w - 1) ∨ 2 ^ (w - 1) ≤ v → 0x18 &&& s.trapEn t.val ≠ 0 →
    (c.inTrap = false → 4 ≤ c.strapVec.toNat → ∃ u, exec (.adds t rd x y aux) s = .next u
      ∧ LaneTraps s u t.val h.tiles 1 0x18)
    ∧ (c.inTrap = false → c.strapVec.toNat < 4 → s.ctxState (s.ctxOn t.val) ≠ 3 →
      ∃ u, exec (.adds t rd x y aux) s = .next u ∧ u.hasFault (s.ctxOn t.val) = true
        ∧ u.rfld (ctxA (s.ctxOn t.val) 0x3C) 24 8 = 3 ∧ u.tc t.val = { s.issuing t.val with
          sflag := c.sflag ||| 0x18, strapPc := BitVec.ofNat 32 c.pc
          strapCause := BitVec.ofNat 32 (2 ^ 28 + (0x18 &&& s.trapEn t.val).toNat * 2 ^ 16 + 0x18)
          inTrap := true })
    ∧ (c.inTrap = true → s.ctxState (s.ctxOn t.val) ≠ 3 → ∃ u, exec (.adds t rd x y aux) s = .next u
      ∧ u.tc t.val = { s.issuing t.val with sflag := c.sflag ||| 0x18, pc := c.pc + 8 }
      ∧ ContextFaults s u t.val 3))
  ∧ (∀ (s : State) (t : TileNo) (x : RegNo) (imm : BitVec 16), s.laneReady t.val →
    let c := s.tc t.val
    let v := c.gr x.val
    let goes (u : State) (taken : Bool) : Prop := LaneRetires s u t.val [] 0
      (if taken then (BitVec.ofNat 32 c.pc + 8 * imm.signExtend 32).toNat else c.pc + 8)
    (∃ u, exec (.jmp t imm) s = .next u ∧ goes u true)
    ∧ (∃ u, exec (.beqz t x imm) s = .next u ∧ goes u (v == 0))
    ∧ (∃ u, exec (.bnez t x imm) s = .next u ∧ goes u (v != 0))
    ∧ (∃ u, exec (.bltz t x imm) s = .next u ∧ goes u v.msb)
    ∧ (∃ u, exec (.bgez t x imm) s = .next u ∧ goes u !v.msb))

/-! ## Scalar Lane: floating point, loads and stores -/

/-- FADD, FSUB, FMUL, FMA and FNMA deliver each lane's result in the form of AUX, every lane raising its own
flags (R100, R103); SUB is ADD of the operand with its sign changed. -/
def Obligations.FpArithmetic : Prop :=
  ∀ (s : State) (t : TileNo) (rd x y z : RegNo) (aux : Byte), s.laneReady t.val → aux.toNat % 4 ≠ 3 →
    let fl := s.flushOn t.val
    let quiet (h : FFmt → (RegNo → Nat) → Nat × FlagSet) : Prop :=
      fpFlags (fpLanes (s.tc t.val) aux h) &&& s.trapEn t.val = 0
    let add (m : FFmt) (r : RegNo → Nat) := m.add fl (r x) (r y)
    let sub (m : FFmt) (r : RegNo → Nat) := m.sub fl (r x) (r y)
    let mul (m : FFmt) (r : RegNo → Nat) := m.mul fl (r x) (r y)
    let fma (neg : Bool) (m : FFmt) (r : RegNo → Nat) := m.fma fl neg (r x) (r y) (r z)
    (quiet add → ∃ u, exec (.fadd t rd x y aux) s = .next u ∧ FpRetires s u t.val rd aux add)
    ∧ (quiet sub → ∃ u, exec (.fsub t rd x y aux) s = .next u ∧ FpRetires s u t.val rd aux sub)
    ∧ (quiet mul → ∃ u, exec (.fmul t rd x y aux) s = .next u ∧ FpRetires s u t.val rd aux mul)
    ∧ (quiet (fma false) → ∃ u, exec (.fma t rd x y z aux) s = .next u
      ∧ FpRetires s u t.val rd aux (fma false))
    ∧ (quiet (fma true) → ∃ u, exec (.fnma t rd x y z aux) s = .next u
      ∧ FpRetires s u t.val rd aux (fma true))

/-- Sums, products and fused sums are rounded once, to nearest with ties to even (R103): with subnormals kept
and an exact result within the range of the format, the encoding delivered is the nearest one. -/
def Obligations.FpRoundsToNearest : Prop :=
  ∀ (m : FFmt), m = fFP32 ∨ m = fFP64 → ∀ a b c : Nat, a < 2 ^ m.width → b < 2 ^ m.width → c < 2 ^ m.width →
    (m.decode a).isFinite = true → (m.decode b).isFinite = true → (m.decode c).isFinite = true →
    let k := 2200
    let v (n : Nat) := (m.decode n).units k
    let top := (m.decode m.maxCode).units k
    ((v a + v b).natAbs ≤ top → m.nearest k (m.add false a b).1 (v a + v b))
    ∧ ((v a - v b).natAbs ≤ top → m.nearest k (m.sub false a b).1 (v a - v b))
    ∧ ((v a * v b).natAbs ≤ top * 2 ^ k →
      m.nearest (2 * k) (m.mul false a b).1 (v a * v b))
    ∧ ((v a * v b + v c * 2 ^ k).natAbs ≤ top * 2 ^ k →
      m.nearest (2 * k) (m.fma false false a b c).1 (v a * v b + v c * 2 ^ k))

/-- FMIN and FMAX: a heat in SERVICE follows R67 and any other R68, and the operand chosen is returned
unchanged; with subnormals kept, a signalling NaN sets INVALID (R67-R69, R106). -/
def Obligations.FpMinimumMaximum : Prop :=
  ∀ (s : State) (t : TileNo) (rd x y : RegNo) (aux : Byte), s.laneReady t.val → aux.toNat % 4 ≠ 3 →
    s.flushOn t.val = false →
    let service := s.serves (s.ctxOn t.val)
    let pick (m : FFmt) (best : Bool) (a b : Nat) : Nat × FlagSet :=
      (if m.nanBits a && (service || m.nanBits b) then m.nanCode
       else if m.nanBits a then b
       else if m.nanBits b then (if service then m.nanCode else a)
       else if best then a else b,
       if m.snanBits a || m.snanBits b then 1 else 0)
    let least (m : FFmt) (r : RegNo → Nat) := pick m (decide (m.key (r x) ≤ m.key (r y))) (r x) (r y)
    let most (m : FFmt) (r : RegNo → Nat) := pick m (decide (m.key (r y) ≤ m.key (r x))) (r x) (r y)
    (fpFlags (fpLanes (s.tc t.val) aux least) &&& s.trapEn t.val = 0 →
      ∃ u, exec (.fmin t rd x y aux) s = .next u ∧ FpRetires s u t.val rd aux least)
    ∧ (fpFlags (fpLanes (s.tc t.val) aux most) &&& s.trapEn t.val = 0 →
      ∃ u, exec (.fmax t rd x y aux) s = .next u ∧ FpRetires s u t.val rd aux most)

/-- Comparisons write 1 when the relation holds and 0 otherwise, −0 equal to +0 and never for a NaN operand; FEQ sets
INVALID for a signalling NaN only, FLT and FLE for any (R106).  A quad comparison writes 0 with a NaN operand in
any lane, 1 when it holds in every lane and 0 when it holds in none; the G value of one that holds in some lanes only is
open: it is whatever the free value is (DESIGN CHOICE, log entry 7).  FNEG, FABS and FCOPYSIGN change the sign bit and no other; a NaN operand delivers the
canonical NaN, a signalling one with INVALID (R41, R66, R104). -/
def Obligations.FpComparisonsAndSigns : Prop :=
  (∀ (s : State) (t : TileNo) (rd x y : RegNo) (aux : Byte), s.laneReady t.val → aux.toNat % 4 ≠ 3 →
    s.flushOn t.val = false →
    let rel (all : Bool) (f : Int → Int → Bool) (m : FFmt) (r : RegNo → Nat) : Nat × FlagSet :=
      let a := r x
      let b := r y
      let nan := m.nanBits a || m.nanBits b
      (if !nan && f (m.ord a) (m.ord b) then 1 else 0,
        if (all && nan) || m.snanBits a || m.snanBits b then 1 else 0)
    let nans := fpLanes (s.tc t.val) aux (fun m r => (if m.nanBits (r x) || m.nanBits (r y) then 1 else 0, 0))
    let compares (u : State) (h : FFmt → (RegNo → Nat) → Nat × FlagSet) : Prop :=
      let l := fpLanes (s.tc t.val) aux h
      ∃ v, LaneRetires { s with fresh := s.fresh + 1 } u t.val [.g rd.val v] (fpFlags l)
          ((s.tc t.val).pc + 8)
        ∧ (aux.toNat % 4 ≠ 1 → ∀ r ∈ l, v = BitVec.ofNat 64 r.1)
        ∧ ((∀ r ∈ l, r.1 = 0) → v = 0) ∧ ((∀ r ∈ l, r.1 = 1) → v = 1)
        ∧ ((∃ r ∈ nans, r.1 = 1) → v = 0)
    let quiet (h : FFmt → (RegNo → Nat) → Nat × FlagSet) : Prop :=
      fpFlags (fpLanes (s.tc t.val) aux h) &&& s.trapEn t.val = 0
    let eq := rel false (fun a b => decide (a = b))
    let lt := rel true (fun a b => decide (a < b))
    let le := rel true (fun a b => decide (a ≤ b))
    (quiet eq → ∃ u, exec (.feq t rd x y aux) s = .next u ∧ compares u eq)
    ∧ (quiet lt → ∃ u, exec (.flt t rd x y aux) s = .next u ∧ compares u lt)
    ∧ (quiet le → ∃ u, exec (.fle t rd x y aux) s = .next u ∧ compares u le))
  ∧ (∀ (s : State) (t : TileNo) (rd x y : RegNo) (aux : Byte), s.laneReady t.val → aux.toNat % 4 ≠ 3 →
    s.flushOn t.val = false →
    let signed (m : FFmt) (a b : Nat) (neg : Bool) : Nat × FlagSet :=
      (if m.nanBits a || m.nanBits b then m.nanCode
       else a % 2 ^ (m.width - 1) + (if neg then 2 ^ (m.width - 1) else 0),
       if m.snanBits a || m.snanBits b then 1 else 0)
    let neg (m : FFmt) (r : RegNo → Nat) := signed m (r x) 0 (!(r x).testBit (m.width - 1))
    let abs (m : FFmt) (r : RegNo → Nat) := signed m (r x) 0 false
    let copy (m : FFmt) (r : RegNo → Nat) := signed m (r x) (r y) ((r y).testBit (m.width - 1))
    let quiet (h : FFmt → (RegNo → Nat) → Nat × FlagSet) : Prop :=
      fpFlags (fpLanes (s.tc t.val) aux h) &&& s.trapEn t.val = 0
    (quiet neg → ∃ u, exec (.fneg t rd x aux) s = .next u ∧ FpRetires s u t.val rd aux neg)
    ∧ (quiet abs → ∃ u, exec (.fabs t rd x aux) s = .next u ∧ FpRetires s u t.val rd aux abs)
    ∧ (quiet copy → ∃ u, exec (.fcopysign t rd x y aux) s = .next u ∧ FpRetires s u t.val rd aux copy))

/-- FDIV and FSQRT enter the V pipe with their result, for the cycles of R109; a finite nonzero dividend over
zero is an infinity whose sign is the exclusive OR of the operand signs, with DIVZ, and a subnormal divisor
under FLUSH counts as zero, with FLUSHED as well (R105, R109).  The quad form is no form and never issues. -/
def Obligations.FpDivisionAndRoot : Prop :=
  ∀ (s : State) (t : TileNo) (rd x y : RegNo) (aux : Byte), s.laneReady t.val →
    let wide := aux.toNat % 4 = 2
    let m := if wide then fFP64 else fFP32
    let w := m.width
    let fl := s.flushOn t.val
    let code (r : RegNo) : Nat := ((s.tc t.val).fr r.val).toNat % 2 ^ w
    let a := code x
    let b := code y
    let sub (c : Nat) : Bool := decide (0 < c % 2 ^ (w - 1)) && decide (c % 2 ^ (w - 1) < 2 ^ m.fb)
    let zero (c : Nat) : Bool := c % 2 ^ (w - 1) == 0 || (fl && sub c)
    let special (c : Nat) : Bool := zero c || decide (m.infCode ≤ c % 2 ^ (w - 1))
    let slow (c : Nat) : Nat := if !fl && sub c then 1 else 0
    let starts (u : State) (r : Nat) (f : FlagSet) (k : Nat) : Prop :=
      ∃ q, LaneStartsV s u t.val (.f rd.val q) f k ∧ q.toNat % 2 ^ w = r
        ∧ q >>> w = (s.tc t.val).fr rd.val >>> w
    (aux.toNat % 4 = 0 ∨ wide → ∃ u, exec (.fdiv t rd x y aux) s = .next u
      ∧ (∃ r f, starts u r f
        (if special a || special b then 4 else 4 + slow a + slow b + (m.fb + 3)))
      ∧ (special a = false → zero b = true → starts u
        ((if a.testBit (w - 1) = b.testBit (w - 1) then 0 else 2 ^ (w - 1)) + m.infCode)
        (if (fl && sub a) || (fl && sub b) then 0xA0 else 0x80) 4))
    ∧ (aux.toNat % 4 = 0 ∨ wide → ∃ u r f, exec (.fsqrt t rd x aux) s = .next u
      ∧ starts u r f (if special a || a.testBit (w - 1) then 4 else 4 + slow a + (m.fb + 3))
      ∧ (a.testBit (w - 1) = true → zero a = false → r = m.nanCode))
    ∧ (aux.toNat % 4 = 1 → exec (.fdiv t rd x y aux) s = .next s ∧ exec (.fsqrt t rd x aux) s = .next s)

/-- CVT: an integer of 32 bits or less becomes FP64 exactly; FP64 and FP32 convert to an integer register with
NaN giving 0, an infinity the range limit, and an integral value in range itself; every other pair
writes its one destination, with zeros above the width of a narrow format; MX formats have no conversion and
never issue (R51, R101, R107, R193). -/
def Obligations.Conversions : Prop :=
  ∀ (s : State) (t : TileNo) (rd x : RegNo) (wide : Bool) (src dst : Fin 16) (e : Byte),
    s.laneReady t.val →
    let c := s.tc t.val
    let w := if wide then 64 else 32
    let m := if src.val = 0 then fFP64 else fFP32
    let a := (c.fr x.val).toNat % 2 ^ m.width
    let g (u : State) (v : Int) (f : FlagSet) : Prop :=
      LaneRetires s u t.val [.g rd.val (BitVec.ofInt 64 v)] f (c.pc + 8)
    (src.val = 0xF → dst.val = 0 → wide = false → ∃ u q, exec (.cvt t rd x wide src dst e) s = .next u
      ∧ LaneRetires s u t.val [.f rd.val q] 0 (c.pc + 8) ∧ q >>> 64 = c.fr rd.val >>> 64
      ∧ (fFP64.decode (q.toNat % 2 ^ 64)).units 2200 = ((c.gr x.val).setWidth 32).toInt * 2 ^ 2200)
    ∧ (src.val ≤ 1 → dst.val = 0xF → m.nanBits a = true → 1 &&& s.trapEn t.val = 0 →
      ∃ u, exec (.cvt t rd x wide src dst e) s = .next u ∧ g u 0 1)
    ∧ (src.val ≤ 1 → dst.val = 0xF → a % 2 ^ (m.width - 1) = m.infCode → 0x11 &&& s.trapEn t.val = 0 →
      ∃ u, exec (.cvt t rd x wide src dst e) s = .next u
        ∧ g u (if a.testBit (m.width - 1) then -2 ^ (w - 1) else 2 ^ (w - 1) - 1) 0x11)
    ∧ (∀ v : Int, src.val ≤ 1 → dst.val = 0xF → s.flushOn t.val = false → (m.decode a).isFinite = true →
      (m.decode a).units 2200 = v * 2 ^ 2200 → -2 ^ (w - 1) ≤ v → v < 2 ^ (w - 1) →
      ∃ u, exec (.cvt t rd x wide src dst e) s = .next u ∧ g u v 0)
    ∧ (¬ (5 ≤ src.val ∧ src.val ≤ 8) → ¬ (5 ≤ dst.val ∧ dst.val ≤ 8) → s.trapEn t.val = 0 →
      ∃ u wr f, exec (.cvt t rd x wide src dst e) s = .next u ∧ LaneRetires s u t.val [wr] f (c.pc + 8)
        ∧ (dst.val ≤ 1 → ∃ q, wr = .f rd.val q)
        ∧ (2 ≤ dst.val → ∃ v, wr = .g rd.val v ∧ (dst.val ≠ 0xF → v.toNat < 2 ^ (fmtCode dst.val false).bits)))
    ∧ (5 ≤ src.val ∧ src.val ≤ 8 ∨ 5 ≤ dst.val ∧ dst.val ≤ 8 →
      exec (.cvt t rd x wide src dst e) s = .next s)

/-- LD reads and ST writes 1, 2, 4, 8 or 16 bytes of the tile's scratchpad at the share offset G[RS1] + IMM;
an access that is misaligned or outside what the context may reach is a fault ADDR, a store to a protected
region a fault PROTECT, and neither has an effect (R189, R192, R276).  The bits of an F register above the
bytes loaded are open. -/
def Obligations.LoadsAndStores : Prop :=
  ∀ (s : State) (t : TileNo) (rd x : RegNo) (aux : Byte) (imm : BitVec 16), s.laneReady t.val →
    let c := s.tc t.val
    let n := 2 ^ (aux.toNat % 8)
    let o := (c.gr x.val + imm.signExtend 64).toNat
    let a := s.spadOff (s.ctxOn t.val) o
    let base := spadBase t.val + a
    let inF := aux.getLsbD 3
    let ok := o % n = 0 ∧ s.spadAdmits t.val (s.ctxOn t.val) a n = true
    let guarded := (s.ctxSpad (s.ctxOn t.val)).1 ≤ a
      ∧ s.protects t.val (s.ctxOn t.val) (a - (s.ctxSpad (s.ctxOn t.val)).1) n = true
    aux.toNat % 8 < 4 ∨ aux.toNat % 8 = 4 ∧ inF = true →
    (ok → s.poisoned base n = false → ∃ u, exec (.ld t rd x aux imm) s = .next u
      ∧ (inF = false → LaneWritesG { s with fresh := s.fresh + 1 } u t.val rd
        (if aux.getLsbD 4 then BitVec.signExtend 64 (BitVec.ofNat (8 * n) (s.mval base n))
         else BitVec.ofNat 64 (s.mval base n)))
      ∧ (inF = true → ∃ q, q.toNat % 2 ^ (8 * n) = s.mval base n
        ∧ LaneRetires { s with fresh := s.fresh + 1 } u t.val [.f rd.val q] 0 (c.pc + 8)))
    ∧ (ok → ¬ guarded → s.streamsOff = true → ∃ u, exec (.st t rd x aux imm) s = .next u
      ∧ u.tc t.val = { s.issuing t.val with pc := c.pc + 8 }
      ∧ u.mval base n = (if inF then (c.fr rd.val).toNat else (c.gr rd.val).toNat) % 2 ^ (8 * n)
      ∧ (∀ j, j < base ∨ base + n ≤ j → u.mget j = s.mget j)
      ∧ (∀ r, obsReg r = false → u.rget r = s.rget r) ∧ u.faults = s.faults)
    ∧ (¬ ok → s.ctxState (s.ctxOn t.val) ≠ 3 → ∃ u, exec (.ld t rd x aux imm) s = .next u
      ∧ u.tc t.val = s.issuing t.val ∧ ContextFaults s u t.val 1)
    ∧ (¬ ok → s.ctxState (s.ctxOn t.val) ≠ 3 → ∃ u, exec (.st t rd x aux imm) s = .next u
      ∧ u.tc t.val = s.issuing t.val ∧ ContextFaults s u t.val 1)
    ∧ (ok → guarded → s.ctxState (s.ctxOn t.val) ≠ 3 → ∃ u, exec (.st t rd x aux imm) s = .next u
      ∧ u.tc t.val = s.issuing t.val ∧ ContextFaults s u t.val 2)

/-! ## Tile programs -/

/-- HEND ends the heat's program, FENCE holds issue until the earlier commands on the stages it selects have
finished, SETMODE sets the subnormal mode of the tile whose entry it is, each tile of a gang at its own entry (R63;
DEDUCED, log entry 63); nothing else changes but the records of the tile's units (R63, R199, R201). -/
def Obligations.SequencerEntries : Prop :=
  ∀ (s : State) (t : TileNo) (hdr : CmdHdr) (h : Heat), s.laneReady t.val →
    let c := s.tc t.val
    let k := s.took t.val h hdr
    c.curHeat = some h →
    (c.atRest → c.heat? h.num = some h → (∀ j ∈ h.tiles, (s.tc j).atRest) →
      ∃ u, exec (.hend t hdr) s = .next u ∧ Recorded { s with tiles := u.tiles } u
      ∧ (∀ j, j ≠ t.val → u.tile j = s.tile j)
      ∧ (u.tc t.val).curHeat = none ∧ (u.tc t.val).pc = c.pc + 32
      ∧ (u.tc t.val).heats = k.heats.dropLast
        ++ k.heats.getLast?.toList.map (fun x => { x with hended := true })
      ∧ (u.tc t.val).g = c.g ∧ (u.tc t.val).f = c.f ∧ (u.tc t.val).sflag = c.sflag)
    ∧ (c.atRest → ∃ u, exec (.fence t hdr) s = .next u ∧ Recorded (s.setTc t.val { k with
        nextSeq := c.nextSeq + 1
        hold := if c.work.all (fun w => !(decide (w.1 < c.nextSeq) && hdr.wait.toNat.testBit w.2)) then .none
          else .fence c.nextSeq hdr.wait.toNat }) u)
    ∧ (∀ subn, ∃ u, exec (.setmode t hdr subn) s = .next u
      ∧ Recorded (s.setTc t.val { k with subn := subn }) u)

/-- BWAIT and BPOST on a local baton on which nothing waits (R306-R308): a satisfied wait lets issue go on,
whatever waits elsewhere, an unsatisfied one holds it; a post adds to the count, modulo 2^32 in COUNT mode and
saturating with OVF in SEM mode; a baton that the context's partition may not use, and the 513th pending wait, are
faults of the context. -/
def Obligations.BatonCommands : Prop :=
  ∀ (s : State) (t : TileNo) (hdr : CmdHdr) (b : Fin 32768) (arg : Word) (h : Heat),
    s.laneReady t.val →
    let c := s.tc t.val
    let x := s.ctxOn t.val
    let count := s.rget (batonA b.val 0)
    let may := s.batonEn b.val = true ∧ (s.batonMask b.val).testBit (s.ctxPart x) = true
    let unsat := (if s.batonSem b.val then count.ult arg else decide (2 ^ 31 ≤ (count - arg).toNat)) = true
    let passed : State := s.setTc t.val { s.took t.val h hdr with nextSeq := c.nextSeq + 1 }
    c.curHeat = some h → (∀ w ∈ s.waits, w.baton ≠ b.val) → s.batonProxy b.val = false →
    (may → s.batonSem b.val = false → (count - arg).toNat < 2 ^ 31 →
      ∃ u, exec (.bwait t hdr b arg) s = .next u ∧ Recorded passed u)
    ∧ (may → s.batonSem b.val = true → arg.ule count → ∃ u, exec (.bwait t hdr b arg) s = .next u
      ∧ Recorded (passed.rset (batonA b.val 0) (count - arg)) u)
    ∧ (may → unsat → s.waitCount < 512 → ∃ u, exec (.bwait t hdr b arg) s = .next u
      ∧ Recorded { s.setTc t.val { s.took t.val h hdr with
          nextSeq := c.nextSeq + 1, hold := .bwait b.val arg.toNat } with
        waits := s.waits ++ [⟨b.val, arg.toNat, .tile t.val, x, s.ctxPart x⟩] } u)
    ∧ (may → unsat → 512 ≤ s.waitCount → s.ctxState x ≠ 3 → ∃ u, exec (.bwait t hdr b arg) s = .next u
      ∧ ContextFaults s u t.val 5 ∧ u.waits = s.waits)
    ∧ (¬ may → s.ctxState x ≠ 3 → (∃ u, exec (.bwait t hdr b arg) s = .next u
      ∧ ContextFaults s u t.val 4 ∧ u.waits = s.waits))
    ∧ (may → c.atRest → s.dumpsOff → s.batonEvt b.val = false → c.waitOk c.nextSeq hdr.wait.toNat = true →
      ∃ u, exec (.bpost t hdr b arg) s = .next u ∧ Recorded
        (if s.batonSem b.val then
           if count.toNat + arg.toNat < 2 ^ 32 then passed.rset (batonA b.val 0) (count + arg)
           else (passed.rset (batonA b.val 0) 0xFFFFFFFF).rbitSet (batonA b.val 4) 16 true
         else passed.rset (batonA b.val 0) (count + arg)) u)
    ∧ (¬ may → c.atRest → s.dumpsOff → s.ctxState x ≠ 3 → c.waitOk c.nextSeq hdr.wait.toNat = true →
      ∃ u, exec (.bpost t hdr b arg) s = .next u ∧ ContextFaults s u t.val 4
        ∧ u.rget (batonA b.val 0) = count)

/-- The stage commands join their queue in program order, with their WAIT mask, IDs and work.  With nothing before it
on its unit a command starts: a COPY of the device's own memories is in the copy engine (held there while its pacer
has no tokens), a Tensor command is in the Tensor stage, where its commit will find it, a SOLVE has its problems
placed.  While an earlier command that WAIT selects is unfinished it waits; a full queue takes none (R63, R195, R198,
R199, R202, R206, R303).  A second SOLVE of a heat, a template of another gang size and descriptors that disagree are
faults and place nothing (R91, R196, R202). -/
def Obligations.StageCommandsQueue : Prop :=
  ∀ (s : State) (t : TileNo) (hdr : CmdHdr) (h : Heat), s.laneReady t.val →
    let c := s.tc t.val
    let x := s.ctxOn t.val
    c.curHeat = some h →
    let cmd (op : StageOp) : QCmd :=
      ⟨c.nextSeq, hdr.wait.toNat, hdr.layer.toNat, hdr.oper.toNat, h.num, s.flushOn t.val, op⟩
    let issued (units : List Nat) : TCtx := { s.took t.val h hdr with
      nextSeq := c.nextSeq + 1, work := c.work ++ units.map (fun k => (c.nextSeq, k)) }
    let waits := c.atRest ∧ c.waitOk c.nextSeq hdr.wait.toNat = false
    let starts := c.atRest ∧ c.waitOk c.nextSeq hdr.wait.toNat = true ∧ s.dumpsOff ∧ (s.tile t.val).stops = []
    let joins (i : Instr) (k : TCtx) : Prop := ∃ u, exec i s = .next u ∧ Recorded (s.setTc t.val k) u
    let fails (i : Instr) : Prop := ∃ u, exec i s = .next u
      ∧ u.tc t.val = { s.took t.val h hdr with pc := c.pc } ∧ ContextFaults s u t.val 4
    let keeps (u : State) : Prop := (∀ k, k ≠ t.val → u.tile k = s.tile k) ∧ u.faults = s.faults
      ∧ (∀ a, obsReg a = false → u.rget a = s.rget a)
    let d (i : Nat) := s.tdesc t.val x i
    let agrees (o : MacOps) : Bool := macAgrees o (d o.ta.toNat) (d o.tw.toNat)
      (if o.tc = 0xFFFF then none else some (d o.tc.toNat, d (o.tc.toNat + 1))) (d o.tout.toNat)
      (if o.tout2 = 0xFFFF then none else some (d o.tout2.toNat))
    let tensor (op : StageOp) : Prop := starts ∧ c.tensor = none ∧ c.tfAccepts h.num = true
      ∧ c.heat? h.num = some h ∧ (∀ k ∈ h.tiles, k = t.val) ∧ s.tensorFault t.val x op = 0
      ∧ s.poisonIn (s.tensorReads t.val x op) = false
    let enters (i : Instr) (op : StageOp) (out : Nat) : Prop := ∃ u r, exec i s = .next u
      ∧ (u.tc t.val).tensor = some r ∧ r.cmd = cmd op ∧ (u.tc t.val).qt = []
      ∧ (u.tc t.val).work = c.work ++ [(c.nextSeq, 1)] ∧ (u.tc t.val).pc = c.pc + 32
      ∧ (u.tc t.val).g = c.g ∧ (u.tc t.val).f = c.f ∧ keeps u
      ∧ (s.streamsOff = true → ∀ a, a ≠ s.shareA t.val x (s.tdAddr t.val x out + 8) → u.mget a = s.mget a)
    let ta (tmpl : Word) := s.shareA t.val x tmpl.toNat
    let fits (tmpl : Word) := (s.tmpl t.val x tmpl.toNat).gang = h.tiles.length
    (∀ src dst len, waits → joins (.copy t hdr src dst len) { issued [6] with
      qc := [cmd (.copy src.toNat dst.toNat len.toNat)] })
    ∧ (∀ b arg, waits → joins (.bpost t hdr b arg) { issued [] with qb := [cmd (.bpost b.val arg.toNat)] })
    ∧ (∀ table bf src, waits → joins (.xtload t hdr table bf src) { issued [1] with
      qt := [cmd (.xtload table.val bf src.toNat)] })
    ∧ (∀ o, waits → agrees o = true → joins (.mac t hdr o) { issued [1] with qt := [cmd (.mac o)] })
    ∧ (∀ o, waits → convAgrees o (d o.ts.toNat) (d o.td.toNat) = true →
      joins (.conv t hdr o) { issued [1] with qt := [cmd (.conv o)] })
    ∧ (∀ tmpl count xlist, waits → h.solve = none → fits tmpl →
      joins (.solve t hdr tmpl count xlist) { issued [0, 1, 2, 3, 4, 5] with
        qa := [cmd (.solve tmpl.toNat count.toNat xlist.toNat)] })
    ∧ (∀ (src dst : BitVec 48) (len : Word), starts → c.copy = none →
      s.copyFault t.val x src.toNat len.toNat false = 0 → s.copyFault t.val x dst.toNat len.toNat true = 0 →
      (s.place src.toNat).row < 4 → (s.place dst.toNat).row < 4 →
      ∃ u, exec (.copy t hdr src dst len) s = .next u
        ∧ (let paced := s.lpBytes src.toNat dst.toNat len.toNat ≠ 0 ∧ s.ctxBE x = true
             ∧ (s.paceAdmits (s.ctxPart x) 0 false = false ∨ s.holds (s.ctxPart x) 0 = true)
           u.tc t.val = { issued [6] with
             copy := some ⟨cmd (.copy src.toNat dst.toNat len.toNat), src.toNat, dst.toNat, len.toNat, false, 0, 0,
               decide paced⟩ })
        ∧ keeps u ∧ (s.streamsOff = true → u.mem = s.mem))
    ∧ (∀ table bf src, tensor (.xtload table.val bf src.toNat) →
      ∃ u r, exec (.xtload t hdr table bf src) s = .next u ∧ (u.tc t.val).tensor = some r
        ∧ r.cmd = cmd (.xtload table.val bf src.toNat) ∧ r.xtab = some (table.val, bf,
          (List.range 8).map (fun m => s.mval (s.shareA t.val x (src.toNat + 4 * m)) 4))
        ∧ (u.tc t.val).qt = [] ∧ (u.tc t.val).pc = c.pc + 32 ∧ keeps u
        ∧ (s.streamsOff = true → u.mem = s.mem))
    ∧ (∀ o, tensor (.mac o) → agrees o = true → enters (.mac t hdr o) (.mac o) o.tout.toNat)
    ∧ (∀ o, tensor (.conv o) → convAgrees o (d o.ts.toNat) (d o.td.toNat) = true →
      enters (.conv t hdr o) (.conv o) o.td.toNat)
    ∧ (∀ (tmpl : Word) (count : Byte) (xlist : Word), starts → h.solve = none → h.aborted = false → fits tmpl →
      c.heat? h.num = some h → t.val ∈ h.tiles →
      s.portFaults t.val x (s.tmplBytes (ta tmpl) (s.tmpl t.val x tmpl.toNat)) false = 0 →
      s.poisonIn (s.tmplBytes (ta tmpl) (s.tmpl t.val x tmpl.toNat)) = false →
      ∃ u y r, exec (.solve t hdr tmpl count xlist) s = .next u ∧ (u.tc t.val).heat? h.num = some y
        ∧ y.solve = some r ∧ r.tmpl = tmpl.toNat ∧ r.count = count.toNat ∧ r.xlist = xlist.toNat
        ∧ r.seq = c.nextSeq ∧ r.next = 0 ∧ r.done = 0 ∧ (u.tc t.val).qa = [] ∧ (u.tc t.val).slots = c.slots
        ∧ (u.tc t.val).pc = c.pc + 32 ∧ keeps u ∧ (s.streamsOff = true → u.mem = s.mem))
    ∧ (4 ≤ c.qc.length → ∀ src dst len, exec (.copy t hdr src dst len) s = .next s)
    ∧ (4 ≤ c.qb.length → ∀ b arg, exec (.bpost t hdr b arg) s = .next s)
    ∧ (4 ≤ c.qa.length → ∀ tmpl count xlist, exec (.solve t hdr tmpl count xlist) s = .next s)
    ∧ (4 ≤ c.qt.length → (∀ o, exec (.mac t hdr o) s = .next s) ∧ (∀ o, exec (.conv t hdr o) s = .next s)
      ∧ ∀ table bf src, exec (.xtload t hdr table bf src) s = .next s)
    ∧ (s.ctxState x ≠ 3 →
      (c.qt.length < 4 → ∀ o, agrees o = false → fails (.mac t hdr o))
      ∧ (c.qt.length < 4 → ∀ o, convAgrees o (d o.ts.toNat) (d o.td.toNat) = false → fails (.conv t hdr o))
      ∧ (c.qa.length < 4 → ∀ tmpl count xlist,
        h.solve.isSome = true ∨ (∃ q ∈ c.qa, q.heat = h.num) ∨ ¬ fits tmpl →
        fails (.solve t hdr tmpl count xlist)))

/-- COPY_COMPLETE puts a local COPY's bytes in place, and TENSOR_COMMAND_COMMIT writes the output bytes of the
command in the Tensor stage with its flags and histogram; the unit is then free and the command's work on it
done (R94, R97, R199, R206).  Shown on a tile where nothing else waits, for a Tensor command of a heat of one
tile. -/
def Obligations.CommandsCommit : Prop :=
  ∀ (s : State) (t : TileNo), s.streamsOff = true → s.dumpsOff → s.poison = [] →
    let c := s.tc t.val
    let x := s.ctxOn t.val
    c.atRest →
    (∀ r, c.copy = some r → s.unitRuns t.val 6 = true → r.remote = false → r.held = false → r.err = 0 →
      ∃ u, exec (.copyComplete t) s = .next u ∧ (u.tc t.val).copy = none
        ∧ (u.tc t.val).work = c.work.filter (fun w => !(w.1 == r.cmd.seq && w.2 == 6))
        ∧ (∀ i < r.left, u.mget (r.dst + i) = s.mget (r.src + i))
        ∧ (∀ a, a < r.dst ∨ r.dst + r.left ≤ a → u.mget a = s.mget a)
        ∧ u.ctl = s.ctl ∧ u.faults = s.faults ∧ (∀ k, k ≠ t.val → u.tile k = s.tile k))
    ∧ (∀ r, c.tensor = some r → s.unitRuns t.val 1 = true → r.hrec = 0 →
      (∀ k ∈ s.heatTiles t.val r.cmd.heat, k = t.val) →
      r.bytes.Pairwise (fun p q => p.1 ≠ q.1) →
      ∃ u, exec (.tensorCommandCommit t) s = .next u ∧ (u.tc t.val).tensor = none
        ∧ (u.tc t.val).work = c.work.filter (fun w => !(w.1 == r.cmd.seq && w.2 == 1))
        ∧ (∀ p ∈ r.bytes, u.mget (s.shareA t.val x p.1) = p.2)
        ∧ (∀ a, (∀ p ∈ r.bytes, a ≠ s.shareA t.val x p.1) → u.mget a = s.mget a)
        ∧ (u.tc t.val).histGen = (if r.hist.isSome then c.histGen + 1 else c.histGen)
        ∧ u.ctl = s.ctl ∧ u.faults = s.faults ∧ (∀ k, k ≠ t.val → u.tile k = s.tile k))

/-- Problems move in order through the stages of a tile (R120, R143, R156, R171, R202): PROBLEM_ENTER_ASSEMBLE
takes the SOLVE's next problem into the lowest free slot, STAGE_HANDOFF moves a finished problem on,
FACTOR_COMMIT commits the bank that is not committed under the template's STAG, ITERATION_COMPLETE counts an
iteration, and EMIT_COMMIT commits the heat's next problem and frees its slot.  Shown for heats of one tile, and for
a problem that reads inside its context's share. -/
def Obligations.ProblemsFlow : Prop :=
  ∀ (s : State) (t : TileNo) (h : Heat) (r : SolveRun),
    let c := s.tc t.val
    let x := s.ctxOn t.val
    c.heat? h.num = some h → (∀ g ∈ c.heats, g.tiles = [t.val]) → h.solve = some r → h.ctx = x →
    (∀ k, s.poison = [] → h.hostBad = [] → c.entering = some (h, r) → s.rankReady h.num r.next t.val = true →
      c.freeSlot = some k →
      s.portFaults t.val x (s.asmBytes t.val x (s.shareA t.val x r.tmpl) h (s.tmpl t.val x r.tmpl) r.next) false = 0 →
      ∃ u sl, exec (.problemEnterAssemble t) s = .next u ∧ OnlyTile s u t.val
        ∧ (u.tc t.val).slotAt k = some sl ∧ sl.heat = h.num ∧ sl.prob = r.next ∧ sl.tmpl = r.tmpl
        ∧ sl.stage = .assemble ∧ sl.waiting = false ∧ sl.entered = s.now + 1
        ∧ (u.tc t.val).heat? h.num = some { h with solve := some { r with next := r.next + 1 } }
        ∧ ∀ j, j ≠ k → (u.tc t.val).slotAt j = c.slotAt j)
    ∧ (∀ (slot : Fin 4) (sl : Slot), s.dumpsOff → c.qb = [] → c.qa = [] → c.slotAt slot.val = some sl →
      c.slotOf sl.heat sl.prob = some (slot.val, sl) → sl.heat = h.num →
      s.rankDone x sl.heat sl.prob sl.stage t.val = true →
      ∃ u sl', exec (.stageHandoff t slot) s = .next u ∧ (u.tc t.val).slotAt slot.val = some sl'
        ∧ sl'.heat = sl.heat ∧ sl'.prob = sl.prob ∧ sl.stage.idx < sl'.stage.idx
        ∧ ∀ k, k ≠ t.val → u.tc k = s.tc k)
    ∧ (∀ sl, s.factoring t.val x = some sl → sl.heat = h.num → s.unitRuns t.val 2 = true →
      ∃ u, exec (.factorCommit t) s = .next u
        ∧ let a := s.storeA t.val x sl.tmpl
          (u.store a).committed = some (s.store a).target
          ∧ (u.store a).tag = (s.tmpl t.val x sl.tmpl).stag ∧ (u.store a).heat = sl.heat
          ∧ (u.store a).bank (1 - (s.store a).target) = (s.store a).bank (1 - (s.store a).target)
          ∧ (∀ b, b ≠ a → u.store b = s.store b))
    ∧ (∀ k sl, s.iterating t.val x = some sl → sl.heat = h.num → c.slotOf sl.heat sl.prob = some (k, sl) → s.unitRuns t.val 4 = true →
      ∃ u sl', exec (.iterationComplete t) s = .next u ∧ u = s.setTc t.val (u.tc t.val)
        ∧ (u.tc t.val).slotOf sl.heat sl.prob = some (k, sl')
        ∧ sl'.iter = sl.iter + 1
        ∧ (¬ ((sl.iter + 1) % 8 = 0 ∨ sl.iter + 1 = (s.tmpl t.val x sl.tmpl).k) →
          sl'.chk = sl.chk ∧ sl'.resP = sl.resP ∧ sl'.resD = sl.resD)
        ∧ ((sl.iter + 1) % 8 = 0 ∨ sl.iter + 1 = (s.tmpl t.val x sl.tmpl).k → sl'.chk = sl.iter + 1))
    ∧ (∀ k sl, s.dumpsOff → c.committing = some (h, r) → c.slotOf h.num r.done = some (k, sl) →
      (c.slots.map Prod.fst).Nodup → (∀ p ∈ c.live4, p.2.heat = h.num → p.2.prob = r.done → p.1 = k) →
      c.qb = [] → c.qa = [] → s.rankEmits h.num r.done t.val = true → ∃ u, exec (.emitCommit t) s = .next u
        ∧ (u.tc t.val).slotOf h.num r.done = none
        ∧ (∃ h', (u.tc t.val).heat? h.num = some h' ∧ h'.solve.map SolveRun.done = some (r.done + 1)
          ∧ h'.commits = h.commits ++ [(r.done, s.now)])
        ∧ ∀ j, j ≠ t.val → u.tc j = s.tc j)

/-- HEAT_COMPLETE ends a heat whose commands have all committed: it leaves the tile, its count of committed problems
is kept for an abort, the context's account counts it and its Schedule Table entry ends (R179, R184, R201, R317); a
heat with work left does not end; shown for the only heat of a tile at rest.  A set-point from Emit writes the
loop's TARGET, unless the loop is disabled, in another partition or asked for by a BE context (EMREF), or the host
wrote the TARGET in the same cycle (TCOLL) (R24, R171, R228). -/
def Obligations.HeatsEndAndSetPointsArrive : Prop :=
  (∀ (s : State) (t : TileNo) (h : Heat),
    (s.tc t.val).heats = [h] → h.tiles = [t.val] → h.ctx < 64 →
    (s.tile t.val).ctx = some h.ctx → (s.tile t.val).power = .run →
    (s.heatDone t.val h = true → (s.tc t.val).atRest → s.dsp.be = [] → s.dsp.heldTrig = [] →
      ∃ u, exec (.heatComplete t) s = .next u
        ∧ (u.tc t.val).heats = [] ∧ (u.tile t.val).lastHeat = h.num
        ∧ (u.tc t.val).g = (s.tc t.val).g ∧ (u.tc t.val).f = (s.tc t.val).f
        ∧ tget 0 u.dsp.ended (h.ctx * 2 ^ 32 + h.num) = h.commits.length
        ∧ (s.serves h.ctx = true →
          (tget {} u.dsp.acct h.ctx).heats = (tget {} s.dsp.acct h.ctx).heats + 1)
        ∧ (∀ e ∈ u.dsp.look, ¬ (e.state = .running ∧ e.ctx = h.ctx ∧ e.heat = h.num))
        ∧ (∀ k, k ≠ t.val → u.tile k = s.tile k) ∧ u.loans = s.loans ∧ u.faults = s.faults)
    ∧ (s.heatDone t.val h = false → exec (.heatComplete t) s = .next s))
  ∧ (∀ (s : State) (w : EmitWrite) (rest : List EmitWrite), s.emitQ = w :: rest → w.loop < 1024 →
    let ok := s.loopEn w.loop = true ∧ s.ctxBE w.ctx = false
      ∧ s.rfld (loopA w.loop 0x18) 0 4 = s.ctxPart w.ctx
    let taken : State := { s with emitQ := rest }
    (ok → (s.loop w.loop).hostAt ≠ some s.now → ∃ u, exec .emitSetpointArrival s = .next u
      ∧ u.rget (loopA w.loop 0x4C) = w.value ∧ (∀ a, a ≠ loopA w.loop 0x4C → u.rget a = s.rget a)
      ∧ u = { s with emitQ := rest, ctl := u.ctl, lap := u.lap })
    ∧ (ok → (s.loop w.loop).hostAt = some s.now →
      exec .emitSetpointArrival s = .next (taken.flagged w.loop 12))
    ∧ (¬ ok → ∃ u, exec .emitSetpointArrival s = .next u ∧ Observed (taken.flagged w.loop 11) u))

/-- The cut points and the deadline of a heat (R172, R173, R175): C_fac makes a problem that still factors take
the committed bank of its structure as a stale factor, or miss; C_out sends an unfinished problem to Emit as
CUT after an iteration and as MISSED before one; commits after the deadline are late.  A heat with no deadline
has none of the three.  Shown for a context on one tile. -/
def Obligations.CutPoints : Prop :=
  ∀ (s : State) (t : TileNo) (x : Fin 64) (heat : Word) (h : Heat),
    let c := s.tc t.val
    let n := heat.toNat
    (s.hasDeadline x.val n = false → exec (.cutPointFac x heat) s = .next s
      ∧ exec (.cutPointOut x heat) s = .next s ∧ exec (.deadlineTime x heat) s = .next s)
    ∧ ((s.tile t.val).ctx = some x.val → c.heat? n = some h → h.dead = true →
      (∃ u h', exec (.deadlineTime x heat) s = .next u ∧ (u.tc t.val).heat? n = some h'
        ∧ h' = { h with late := true } ∧ u = { s with tiles := u.tiles, saved := u.saved })
      ∧ (s.working t.val = true → (∀ k, k ≠ t.val → (s.tile k).ctx ≠ some x.val) →
        (s.tile t.val).preq = none → s.obs.dumps = [] →
        c.qa = [] → c.qb = [] → c.qc = [] → c.qt = [] → ∀ k sl, c.slots = [(k, some sl)] → sl.heat = n → sl.mark = 0 →
        s.unitRuns t.val 3 = true → s.unitRuns t.val 5 = true →
        (∀ b, sl.stage = .factor → sl.waiting = false → sl.due = true → sl.own = false →
          (s.store (s.storeA t.val x.val sl.tmpl)).committed = some b →
          (s.store (s.storeA t.val x.val sl.tmpl)).tag = (s.tmpl t.val x.val sl.tmpl).stag →
          (s.tmpl t.val x.val sl.tmpl).fpol = 0 →
          ∃ u sl', exec (.cutPointFac x heat) s = .next u ∧ (u.tc t.val).slotAt k = some sl'
            ∧ sl'.staleFac = true ∧ sl'.bank = some (s.storeA t.val x.val sl.tmpl, b)
            ∧ sl'.stage = .solve ∧ sl'.waiting = false ∧ sl'.mark = sl.mark)
        ∧ (sl.stage = .factor → sl.waiting = false → sl.due = true → sl.own = false →
          (s.store (s.storeA t.val x.val sl.tmpl)).committed = none →
          (s.tmpl t.val x.val sl.tmpl).fpol = 0 →
          ∃ u sl', exec (.cutPointFac x heat) s = .next u ∧ (u.tc t.val).slotAt k = some sl'
            ∧ sl'.mark = 6 ∧ sl'.stage = .emit ∧ sl'.waiting = false)
        ∧ (sl.stage = .iterate → sl.waiting = false → 0 < sl.iter →
          sl.iter ≠ (s.tmpl t.val x.val sl.tmpl).k →
          ∃ u sl', exec (.cutPointOut x heat) s = .next u ∧ (u.tc t.val).slotAt k = some sl'
            ∧ sl'.mark = 3 ∧ sl'.stage = .emit ∧ sl'.waiting = false ∧ sl'.iter = sl.iter)
        ∧ (sl.stage = .solve → ∃ u sl', exec (.cutPointOut x heat) s = .next u
          ∧ (u.tc t.val).slotAt k = some sl' ∧ sl'.mark = 7 ∧ sl'.stage = .emit ∧ sl'.waiting = false)))

/-- Pre-emption (R205-R211): a request stops idle units at once and the others at their points, the last stop
begins the save; a V instruction in flight is abandoned, to execute again (R110), and a local COPY stands after some
of its 256-byte pieces, how many is open; the save writes the area of R210 and frees the tile, and a restore reads the
registers back from the area, or brings the context load state.  Shown for a heat of one tile, with no dump pending. -/
def Obligations.Preemption : Prop :=
  ∀ (s : State) (t : TileNo), s.gangOn t.val = [t.val] → s.obs.dumps = [] →
    let x := s.tile t.val
    let c := x.tc
    let idle := (List.range 8).filter (fun k => !c.unitBusy k)
    (x.preDue.isSome = true → x.preq = none → x.seq = .running →
      (idle.length < 8 → exec (.preemptionRequest t) s = .next (s.setTile t.val { x with
        preq := some s.now, stops := idle.map (fun k => (k, s.now, false))
        spans := (List.range 8).filter c.unitSpan, tc := { c with preIds := s.workIds t.val } }))
      ∧ (idle.length = 8 → ∃ u, exec (.preemptionRequest t) s = .next u
        ∧ (u.tile t.val).seq = .saving ∧ (u.tile t.val).preq = none ∧ (u.tile t.val).preDue = none
        ∧ (u.tc t.val).g = c.g ∧ (u.tc t.val).pc = c.pc))
    ∧ (∀ unit : Fin 8, x.preq.isSome = true → x.seq = .running →
      x.stops.any (fun p => p.1 == unit.val) = false → s.atPoint t.val unit.val = true →
      let stops := x.stops ++ [(unit.val, s.now, x.spans.contains unit.val)]
      (stops.length < 8 → (unit.val = 6 → ∀ r, c.copy = some r → r.remote = true ∨ r.held = true) →
        exec (.unitStop t unit) s = .next (s.setTile t.val { x with
          stops := stops
          tc := match c.vpipe with
            | some v => if unit.val = 7 then { c with
                vpipe := none, pc := v.pc, work := c.work.filter (fun w => w.2 ≠ 7) } else c
            | none => c }))
      ∧ (∀ r, stops.length < 8 → unit.val = 6 → c.copy = some r → r.remote = false → r.held = false →
        s.poison = [] → ∃ u k, exec (.unitStop t unit) s = .next u ∧ k ≤ r.left / 256
          ∧ u.tile t.val = { x with
            stops := stops, tc := { c with copy := some { r with
              src := r.src + 256 * k, dst := r.dst + 256 * k, left := r.left - 256 * k } } }
          ∧ (∀ i < 256 * k, u.mget (r.dst + i) = s.mget (r.src + i))
          ∧ (∀ a, a < r.dst ∨ r.dst + 256 * k ≤ a → u.mget a = s.mget a)
          ∧ u.ctl = s.ctl ∧ u.faults = s.faults ∧ ∀ j, j ≠ t.val → u.tile j = s.tile j)
      ∧ ((∀ k < 8, stops.any (fun p => p.1 == k) = true) → ∃ u, exec (.unitStop t unit) s = .next u
        ∧ (u.tile t.val).seq = .saving ∧ (u.tile t.val).preq = none ∧ (u.tc t.val).g = c.g))
    ∧ (∀ d, x.ctx = some d → x.seq = .saving → x.inReset = false → ∃ u, exec (.saveComplete t) s = .next u
      ∧ (u.tile t.val).ctx = none
      ∧ (tfind u.saved (savedKey d t.val)).map (fun y => { y with cmds := c.cmds }) = some c
      ∧ u.mget (s.saveA t.val d) = 1 ∧ u.mval (s.saveA t.val d + 4) 4 = c.pc % 2 ^ 32
      ∧ (∀ r < 32, u.mval (s.saveA t.val d + 0x40 + 8 * r) 8 = (c.gr r).toNat)
      ∧ (∀ r < 32, u.mval (s.saveA t.val d + 0x140 + 16 * r) 16 = (c.fr r).toNat)
      ∧ (∀ a, a < s.saveA t.val d ∨ s.saveA t.val d + 6144 ≤ a → u.mget a = s.mget a)
      ∧ u.ctl = s.ctl ∧ u.fresh = s.fresh + 6144)
    ∧ (∀ d : Fin 64, x.incoming = some d.val → x.seq = .restoring → x.inReset = false → x.preq = none →
      s.dsp.be = [] → s.poison = [] →
      let a := s.saveA t.val d.val
      (∀ y, tfind s.saved (savedKey d.val t.val) = some y → y.heats.map Heat.tiles = [[t.val]] →
        s.mval a 1 = 1 → ∃ u, exec (.restoreComplete t) s = .next u ∧ (u.tile t.val).ctx = some d.val
        ∧ (∀ r < 32, ((u.tc t.val).gr r).toNat = s.mval (a + 0x40 + 8 * r) 8)
        ∧ (∀ r < 32, ((u.tc t.val).fr r).toNat = s.mval (a + 0x140 + 16 * r) 16)
        ∧ (u.tc t.val).pc = s.mval (a + 4) 4
        ∧ (u.tc t.val).sflag.toNat = s.mval (a + 0x0C) 4 % 2 ^ 9
        ∧ (u.tc t.val).subn = (s.mget (a + 3)).getLsbD 0
        ∧ (u.tc t.val).inTrap = (s.mget (a + 3)).getLsbD 1
        ∧ tfind u.saved (savedKey d.val t.val) = none)
      ∧ (tfind s.saved (savedKey d.val t.val) = none → ∃ u, exec (.restoreComplete t) s = .next u
        ∧ (u.tile t.val).ctx = some d.val ∧ (∀ r, (u.tc t.val).gr r = 0) ∧ (∀ r, (u.tc t.val).fr r = 0)
        ∧ (u.tc t.val).sflag = 0 ∧ (u.tc t.val).inTrap = false
        ∧ (u.tc t.val).subn = (s.cblk t.val d.val 0x16 1).testBit 0
        ∧ (u.tc t.val).strapVec = BitVec.ofNat 32 (s.cblk t.val d.val 0x1C 4)
        ∧ (u.tc t.val).strapEn = BitVec.ofNat 9 (s.cblk t.val d.val 0x18 4) &&& 0x19F))

/-- The checks of a firmware slot and of its script, and built-in test (R401, R408, R411-R414, R429, R431): a
slot that passes gives SB_KEYID, and so does one whose certificate has passed; a slot A that fails makes way for a slot
B that exists, and any other failure ends the start-up.  The flash is read as the anchor says (R406, R407). -/
def Obligations.SlotChecks : Prop :=
  ∀ (s : State) (head cert sig bytes : List Byte),
    let s1 : State := { s with boot := { s.boot with head := head } }
    let s2 : State := { s1 with outs := s.outs ++ (if s.hiZ then [] else
      s1.slotFetch (s1.headFld 0x14 4) ++ s1.slotFetch (s1.headFld 0x18 4)) }
    let keyed := s2.rset 0x20 (BitVec.ofNat 32 (ofLeBytes ((cert.drop 8).take 4)))
    let hasB := s.rbit 0x04 27 = false ∧ s.anchorFld 0x0C 4 ≠ 0xFFFFFFFF
    let failed (k t : State) (code detail : Nat) : Prop :=
      let u := ((({ k with boot := { k.boot with head := [] } } : State).rfldSet 0x08 16 8 code).rfldSet
        0x04 26 2 3).rfldSet 0x04 28 4 7
      (hasB → Drives u t (u.slotFetch 0)) ∧ (¬ hasB → FailsBoot k t code detail)
    (s.phase = .boot → s.bootStepNo = 6 ∨ (s.bootStepNo = 7 ∧ s.boot.head = []) →
      (s1.slotCheck cert sig = none → ∃ t, exec (.signatureReadComplete head cert sig) s = .next t
        ∧ let u := if s.bootStepNo = 6 then keyed.rfldSet 0x04 28 4 7 else keyed
          Drives u t (u.slotFetch (u.secFld (u.headFld 0x12 2) 8 4)))
      ∧ (∀ code detail, s1.slotCheck cert sig = some (code, detail) →
        ∃ t, exec (.signatureReadComplete head cert sig) s = .next t
          ∧ failed (if code = 0x07 then keyed else s2) t code detail)
      ∧ (ofLeBytes (head.take 4) ≠ 0x4D494B54 → ∃ t, exec (.signatureReadComplete head cert sig) s = .next t
        ∧ failed s2 t 0x03 0)
      ∧ (headerBad s1 = none → s1.headFld 0x08 4 < (s.rget 0x1C).toNat →
        ∃ t, exec (.signatureReadComplete head cert sig) s = .next t ∧ failed s2 t 0x04 0))
    ∧ (s.phase = .boot → s.bootStepNo = 7 → s.boot.head ≠ [] →
      (s.scriptOk (s.headFld 0x12 2) bytes = true → ∃ t, exec (.scriptFetchComplete bytes) s = .next t
        ∧ Observed ((({ s with phase := .bist, boot := { s.boot with script := bytes } } : State).rset 0x18
          (BitVec.ofNat 32 (s.headFld 8 4))).rfldSet 0x04 28 4 8) t)
      ∧ (s.scriptOk (s.headFld 0x12 2) bytes = false → ∃ t, exec (.scriptFetchComplete bytes) s = .next t
        ∧ failed s t 0x08 (s.headFld 0x12 2)))
    ∧ (∀ (cls : Fin 6) (idx : Byte), s.phase = .bist →
      (cls.val = 0 ∨ (s.headFld 7 1).testBit 0 = false → 0 < s.entryCount → s.entryOk 0 = true →
        ∃ t, exec (.bistComplete cls idx) s = .next t
          ∧ Observed ((({ s with phase := .boot, boot := { s.boot with wait := .none, ran := true } } : State).rfldSet
            0x04 28 4 9).rfldSet 0x04 0 16 0) t)
      ∧ (cls.val ≠ 0 → (s.headFld 7 1).testBit 0 = true →
        ∃ t, exec (.bistComplete cls idx) s = .next t ∧ FailsBoot s t 0x09 (cls.val * 256 + idx.toNat)))

/-- Entries of the boot script (R415-R418): WRITE and WRITE_MASK write a register, BL fields too, and clear
VERIFIED; POLL waits until its condition holds; TRAIN starts the LPDDR5 or the links it names. -/
def Obligations.ScriptEntries : Prop :=
  ∀ s : State,
    let i := s.entryNo
    let a := s.entryFld i 4 4
    let v : Word := BitVec.ofNat 32 (s.entryFld i 8 4)
    let m : Word := BitVec.ofNat 32 (s.entryFld i 12 4)
    let put (r : RegSpec) (w : Word) : State :=
      (s.rset a (plainWord (r.bl ||| r.rw) r.w1c (s.rget a) w)).rbitSet 0x04 25 false
    (∀ r, regSpec a = some r → plainReg a → s.noErrNow a → s.regBlocked a = false → s.entryFld i 1 1 = 0 →
      s.goesOn →
      (s.atEntry 1 = true → codeRefused a (mergeRW (r.bl ||| r.rw) (s.rget a) v) = false →
        a ≠ 0x04 → ∃ t, exec .write s = .next t ∧ Observed (put r v).atNext t)
      ∧ (s.atEntry 2 = true → s.readReg 3 a = (s, s.rget a, 0) → a ≠ 0x04 →
        let w := (s.rget a &&& ~~~m) ||| (v &&& m)
        codeRefused a (mergeRW (r.bl ||| r.rw) (s.rget a) w) = false →
        ∃ t, exec .writeMask s = .next t ∧ Observed (put r w).atNext t))
    ∧ (∀ u w, s.readReg 3 a = (u, w, 0) → u.boot = s.boot → u.rget 0x04 = s.rget 0x04 →
      ∀ c, (c = .poll ∧ s.atEntry 3 = true) ∨ (c = .pollSatisfied ∧ s.phase = .boot ∧ s.boot.wait = .poll) →
      (w &&& m = v → s.goesOn → exec c s = .next u.atNext)
      ∧ (w &&& m ≠ v → exec c s = .next { u with boot := { u.boot with wait := .poll } }))
    ∧ (∀ c, (c = .write ∧ s.atEntry 1 = true) → regSpec a = none → s.entryFld i 1 1 = 0 → a ≠ rlyA 0x00 →
      ∃ t, exec c s = .next t ∧ FailsBoot s t 0x0A i)
    ∧ (s.atEntry 4 = true → s.entryFld i 4 4 = 1 → s.boot.mem = 0 →
      exec .train s = .next (if s.entryFld i 1 1 = 1 then
        { s with boot := { s.boot with mem := 1, wait := .memory } } else
        ({ s with boot := { s.boot with mem := 1 } } : State).nextEntry))
    ∧ (s.atEntry 4 = true → s.entryFld i 4 4 = 2 → s.entryFld i 1 1 = 0 → s.goesOn →
      ∃ t, exec .train s = .next t ∧ t.entryNo = (i + 1) % 65536
        ∧ (∀ k < 4, t.linkState k = if (s.entryFld i 8 4).testBit k ∧ s.rbit (linkA k 0x00) 31 = true
          ∧ s.linkState k = 0 then 1 else s.linkState k)
        ∧ (s.streamsOff = true → ∀ b, t.mget b = s.mget b) ∧ t.tiles = s.tiles)

/-- Training and zero-fill of the LPDDR5, where a second rank is asked for only under RANKS and the channels that did not
fail are trained, and the LOAD of a data section: it is read from the flash, its bytes reach their destination and its
hash is compared (R332, R406, R409, R418, R419, R422, R429).  VERIFY checks everything and its verdict stands until the next
write; LOCK without it fails, and with it locks the configuration, makes every enabled context READY with its heat
numbers from 1, and records the time it took (R278, R420, R421, R424, R431). -/
def Obligations.LoadsVerifyAndLock : Prop :=
  (∀ (s : State) (data : List Byte),
    let n := s.entryFld s.entryNo 2 2
    (∀ (step : Fin 8) (mask : BitVec 16), s.boot.mem = 1 → s.phase = .boot →
      (step.val = 0 → s.boot.wait ≠ .memory → ∃ t, exec (.lpddr5TrainingComplete step mask) s = .next t
        ∧ t.rfld (memA 0x04) 0 16 = 0xFFFF ∧ (∀ k < 16, t.rfld (memA (0x100 + 4 * k)) 30 2 = 0)
        ∧ t = { s with ctl := t.ctl, boot := { s.boot with mem := 2 } })
      ∧ (step.val ≠ 0 → step.val ≠ 7 ∨ s.rbit (memA 0x00) 29 = true →
        ∃ t w, exec (.lpddr5TrainingComplete step mask) s = .next t
          ∧ FailsBoot w t (0x0C + step.val) mask.toNat ∧ w = { s with ctl := w.ctl }
          ∧ w.rfld (memA 0x04) 0 16 = (~~~mask).toNat
          ∧ (∀ k < 16, w.rfld (memA (0x100 + 4 * k)) 30 2
            = if mask.getLsbD k then s.rfld (memA (0x100 + 4 * k)) 30 2 else 0)
          ∧ (∀ a, a ≠ memA 0x04 → (∀ k < 16, a ≠ memA (0x100 + 4 * k)) → w.rget a = s.rget a))
      ∧ (step.val = 7 → s.rbit (memA 0x00) 29 = false → exec (.lpddr5TrainingComplete step mask) s = .next s))
    ∧ (s.boot.mem = 2 → s.phase ≠ .failed → ∃ t, exec .lpddr5ZeroFillComplete s = .next t
      ∧ t.rget (memA 0x04) = s.rget (memA 0x04) ||| 0x80000000 ∧ OnlyReg s t (memA 0x04)
      ∧ (∀ a, t.mget a = if a < s.usable then 0 else s.mget a)
      ∧ (∀ k ∈ t.poison, s.usable ≤ k)
      ∧ t = { s with ctl := t.ctl, mem := t.mem, poison := t.poison, lost := t.lost
                     boot := { s.boot with mem := 3 } })
    ∧ (s.atEntry 5 = true → n < s.nsect → s.secFld n 0 1 = 2 → s.secFld n 1 1 = 0 → s.secFld n 2 1 < 16 →
      (s.loadDestOk (s.secFld n 0x10 8 % 2 ^ 48) (s.secFld n 4 4) = true →
        let u : State := { s.rbitSet 0x04 25 false with boot := { s.boot with wait := .load n } }
        exec .load s = .next { u with
          outs := s.outs ++ (if s.hiZ then [] else u.slotFetch (s.secFld n 8 4)) })
      ∧ (s.loadDestOk (s.secFld n 0x10 8 % 2 ^ 48) (s.secFld n 4 4) = false →
        ∃ t, exec .load s = .next t ∧ FailsBoot (s.rbitSet 0x04 25 false) t 0x15 n))
    ∧ (s.atEntry 5 = true → s.nsect ≤ n → ∃ t, exec .load s = .next t
      ∧ FailsBoot (s.rbitSet 0x04 25 false) t 0x0A s.entryNo)
    ∧ (∀ k, s.phase = .boot → s.boot.wait = .load k → s.secFld k 1 1 = 0 → data.length = s.secFld k 4 4 →
      s.secFld k 8 4 + data.length ≤ s.headFld 0x0C 4 →
      (s.boot.mem = 3 ∨ 0x100000000000 ≤ s.secFld k 0x10 8 % 2 ^ 48) →
      let put := s.mwrite (s.secFld k 0x10 8 % 2 ^ 48) data
      (shake256 data = s.secHash k → s.goesOn → exec (.loadComplete data) s = .next put.atNext)
      ∧ (shake256 data ≠ s.secHash k → ∃ t, exec (.loadComplete data) s = .next t
        ∧ FailsBoot put t 0x14 k)))
  ∧ (∀ s : State,
    (s.atEntry 6 = true → s.verifyAll = none → s.goesOn →
      exec .verify s = .next (s.rbitSet 0x04 25 true).atNext)
    ∧ (∀ d, s.atEntry 6 = true → s.verifyAll = some d → ∃ t, exec .verify s = .next t
      ∧ FailsBoot s t 0x16 d)
    ∧ (s.atEntry 7 = true → s.rbit 0x04 25 = false → ∃ t, exec .lock s = .next t
      ∧ FailsBoot s t 0x18 s.entryNo)
    ∧ (s.atEntry 7 = true → s.rbit 0x04 25 = true → s.entryNo + 1 < s.entryCount → s.entryNo < 65535 →
      (∀ j < 16, s.entryFld (s.entryNo + 1) j 1 = 0) → ∃ t, exec .lock s = .next t
        ∧ t.sbLock = true ∧ t.bootStepNo = 11 ∧ t.boot.locked = true ∧ t.entryNo = s.entryNo + 1
        ∧ (∀ c < 64, s.ctxEn c = true → t.ctxState c = 2 ∧ t.rget (ctxA c 0x28) = 0)
        ∧ (t.rget 0x28).toNat = min ((s.now - s.boot.start) / 1250) 0xFFFFFFFF
        ∧ t.phase = .boot ∧ t.pins = s.pins ∧ t.tap = s.tap))

/-! ## Control space -/

/-- Writes of control space by a port or JTAG (R10, R16, R17, R311, R356, R358, R372, R427, R456): one that no
register decodes, or that its source may not make, has no effect; an accepted one follows the access codes;
one that would change a BL field is a lock violation and changes the other fields only.  A write that clears VALID of a
capture register in the cycle of an uncorrectable error leaves it set, with that error's address (R343, R345).  A
register with rules of its own is stated with them. -/
def Obligations.ControlSpaceWrites : Prop :=
  ∀ (s : State) (src : Fin 3) (addr v : Word),
    let a := addr.toNat
    let c := Instr.registerWrite src addr v
    (regSpec a = none ∨ s.sbLock = false ∨ s.mayWrite src.val a v = false ∨ s.regBlocked a = true →
      exec c s = .next s)
    ∧ (∀ n < 1024, ∀ off < 256, a = loopA n off → (src.val = 2
      ∨ s.rbit (netA src.val 0x04) (s.rfld (loopA n 0x18) 0 4) = false) → exec c s = .next s)
    ∧ (a < 0x00060000 → (src.val < 2 → s.rbit (netA src.val 0x04) 31 = false) →
      (src.val = 2 → s.rbit 0x24 30 = false) → exec c s = .next s)
    ∧ (∀ r, plainReg a → s.noErrNow a → s.accepts src.val a v → regSpec a = some r →
      exec c s = .next (s.rset a (plainWord r.rw r.w1c (s.rget a) v)))
    ∧ (∀ r e, plainReg a → tfind s.ue a = some e → e.1 = s.now → s.accepts src.val a v → regSpec a = some r →
      (r.w1c &&& v).getLsbD 31 = true → ∃ t, exec c s = .next t ∧ t = { s with ctl := t.ctl }
        ∧ t.rget a = e.2.1 ∧ (a = memA 0x24 → t.rget (memA 0x20) = e.2.2)
        ∧ ∀ b, b ≠ a → (a = memA 0x24 → b ≠ memA 0x20) → t.rget b = s.rget b)
    ∧ (∀ r, plainReg a → s.noErrNow a → regSpec a = some r → s.sbLock = true → s.mayWrite src.val a v = true →
      s.regBlocked a = false → (s.rget a ^^^ v) &&& r.bl ≠ 0 → ∃ t, exec c s = .next t
        ∧ t = { s with ctl := t.ctl } ∧ t.rbit 0x10 31 = true ∧ t.rfld 0x10 28 2 = src.val
        ∧ t.rfld 0x10 0 16 = min (s.rfld 0x10 0 16 + 1) 65535 ∧ t.rget 0x14 = addr
        ∧ t.rget a = plainWord r.rw r.w1c (s.rget a) v
        ∧ ∀ b, b ≠ a → b ≠ 0x10 → b ≠ 0x14 → t.rget b = s.rget b)
    ∧ (s.accepts src.val (splA 0x00) v → exec (.acceptStepWrite src v) s = .next
      (s.rset (splA 0x00) (plainWord 0x80000000 0 (s.rget (splA 0x00)) v)))
    ∧ (let o := mshA 0x3000
       let w := plainWord 0xFFFFC0FF 0 (s.rget o) v
       s.accepts src.val o (v ||| 0x2000) → fget w 0 8 ≠ 0 → fget w 14 5 = 0 ∨ 10 ≤ fget w 14 5 ∧ fget w 14 5 ≤ 20 →
       ∃ t, exec (.obsCounterClear src v) s = .next t ∧ t.rget o = w
        ∧ t = { s with ctl := t.ctl, obs := { s.obs with cnt := [], cmds := t.obs.cmds } }
        ∧ (∀ k u, t.cmds k u = ((s.cmds k u).filter UnitCmd.active).map (fun x =>
          { x with busy := 0, stall := 0, why := [] }))
        ∧ (∀ k < 32, ∀ u < 9, ∀ b < 0x100, t.rget (cntA k u + b) = 0)
        ∧ (∀ b, b < 0x01000000 ∨ 0x01200000 ≤ b → b < mshA 0x1000 ∨ mshA 0x2600 ≤ b → b ≠ o →
          t.rget b = s.rget b))
    ∧ (∀ b : Fin 32768, s.accepts src.val (batonA b.val 12) v →
      let count := s.rget (batonA b.val 0)
      let put (w : Word) : State := s.rset (batonA b.val 0) w
      (s.batonEn b.val = false → exec (.post src b v) s = .next s)
      ∧ (s.batonEn b.val = true → s.batonProxy b.val = false → s.batonEvt b.val = false →
        (s.batonSem b.val = false → (∀ w ∈ s.waits, w.baton ≠ b.val) →
          exec (.post src b v) s = .next (put (count + v)))
        ∧ (s.batonSem b.val = true → (∀ w ∈ s.waits, w.baton ≠ b.val) →
          exec (.post src b v) s = .next (if count.toNat + v.toNat < 2 ^ 32 then put (count + v)
            else (put 0xFFFFFFFF).rbitSet (batonA b.val 4) 16 true))
        ∧ (∀ (w : BWait) (k : TileNo), s.waits = [w] → w.baton = b.val → w.src = .tile k.val → w.arg < 2 ^ 32 →
          s.batonSem b.val = false → (count + v - BitVec.ofNat 32 w.arg).toNat < 2 ^ 31 →
          exec (.post src b v) s = .next (({ put (count + v) with waits := [] } : State).setTc k.val
            { s.tc k.val with hold := .none }))
        ∧ (∀ (w : BWait) (k : TileNo), s.waits = [w] → w.baton = b.val → w.src = .tile k.val →
          s.batonSem b.val = true → w.arg ≤ count.toNat + v.toNat → count.toNat + v.toNat < 2 ^ 32 →
          ∃ t, exec (.post src b v) s = .next t
            ∧ (t.rget (batonA b.val 0)).toNat = count.toNat + v.toNat - w.arg ∧ OnlyReg s t (batonA b.val 0)
            ∧ t = ({ s with ctl := t.ctl, waits := [] } : State).setTc k.val
              { s.tc k.val with hold := .none })))

/-- Reads that latch or clear (R16, R364, R427, R457, R458): SPL_NS latches the rest of the time of its tick on
the path of the read, a _LO register its _HI half, CMD_ID the counts of the command, as the cycle began; a register with RC fields
is cleared; JTAG reads nothing after SB_LOCK without SB_DBG.JRD. -/
def Obligations.ControlSpaceReads : Prop :=
  ∀ (s : State) (src : Fin 3) (a : Word) (t : TileNo) (unit : Fin 9),
    let p := src.val
    let closed := p = 2 ∧ s.sbLock = true ∧ s.rbit 0x24 31 = false
    (closed → ∀ c, (c = .splNsRead src ∨ c = .rcRegisterRead src a ∨ c = .splitLoRegisterRead src a
      ∨ c = .cmdIdRead src t unit) → exec c s = .next s)
    ∧ (¬ closed →
      (∃ u, exec (.splNsRead src) s = .next u
        ∧ u = { s with obs := { s.obs with latch := u.obs.latch } }
        ∧ u.regView p (splA 0x08) = BitVec.ofNat 32 (s.time.split / 2 ^ 32 % 1000000000)
        ∧ u.regView p (splA 0x0C) = BitVec.ofNat 32 (s.time.split / 2 ^ 32 / 1000000000)
        ∧ u.regView p (splA 0x10) = BitVec.ofNat 32 (s.time.split / 2 ^ 32 / 1000000000 / 2 ^ 32 % 65536)
        ∧ u.regView p (splA 0x14) = BitVec.ofNat 32 s.time.split
        ∧ ∀ q < 4, q ≠ p → ∀ b, u.regView q b = s.regView q b)
      ∧ (s.regBlocked (lapA 0x00) = false → exec (.splitLoRegisterRead src (BitVec.ofNat 32 (lapA 0x00))) s
        = .next (s.latchSet (lapA 0x04) p (s.lapBase / 2 ^ 32)))
      ∧ (s.regBlocked (cntA t.val unit.val) = false →
        exec (.splitLoRegisterRead src (BitVec.ofNat 32 (cntA t.val unit.val))) s
          = .next (s.latchSet (cntA t.val unit.val + 4) p (tget 0 s.was.cnt (cntA t.val unit.val) / 2 ^ 32))
        ∧ ∃ u, exec (.cmdIdRead src t unit) s = .next u
          ∧ u = { s with obs := { s.obs with latch := u.obs.latch } }
          ∧ (let k := ((tget [] s.was.cmds (16 * t.val + unit.val)).head?).getD {}
             u.latchGet (cntA t.val unit.val + 0x1C) p = BitVec.ofNat 32 k.busy
             ∧ u.latchGet (cntA t.val unit.val + 0x20) p = BitVec.ofNat 32 k.stall
             ∧ ∃ r n, u.latchGet (cntA t.val unit.val + 0x24) p = BitVec.ofNat 32 (r * 2 ^ 27 + n)
               ∧ n = (reasonCodes.map (tget 0 k.why)).foldl max 0
               ∧ (n ≠ 0 → r ∈ reasonCodes ∧ tget 0 k.why r = n)))
      ∧ (∀ r, regSpec a.toNat = some r → s.regBlocked a.toNat = false →
        (r.rc = 0 → exec (.rcRegisterRead src a) s = .next s)
        ∧ (r.rc ≠ 0 → a.toNat < 0x01000000 ∨ a.toNat % 0x10000 = 0x5000 →
          exec (.rcRegisterRead src a) s = .next (s.rset a.toNat (s.rget a.toNat &&& ~~~r.rc)))
        ∧ (a.toNat = tileA t.val 0x4024 → exec (.rcRegisterRead src a) s = .next (s.setTile t.val
          { s.tile t.val with warmDrop := 0 })))
      ∧ (regSpec a.toNat = none → exec (.rcRegisterRead src a) s = .next s))

/-- Writes of a loop's registers (R31, R213, R219, R223, R228, R235, R236, R237): a mode request counts from the next
cycle, in HOLD and during its exit as a request of OPEN, and the servo's is the hardware's; coefficients are taken outside AUTO only, the configuration in OPEN only and within its ranges, limits
in any mode while U_MIN < U_MAX; a write of TARGET counts from the next cycle and wins over Emit's; a FLAGS bit that
the hardware set in this cycle stays set (R244); a slot with EN = 0 takes none. -/
def Obligations.LoopWrites : Prop :=
  ∀ (s : State) (src : Fin 3) (n : Fin 1024) (v : Word),
    let acc (off : Nat) : Prop := s.accepts src.val (loopA n.val off) v
    let put (off : Nat) (m : Word) : State :=
      s.rset (loopA n.val off) (plainWord m 0 (s.rget (loopA n.val off)) v)
    let refused (c : Instr) (bit : Nat) : Prop := ∃ u, exec c s = .next u ∧ LoopRefuses s u n.val bit
    (s.loopEn n.val = true →
      (acc 0x00 → v.toNat % 4 ≠ 3 →
        s.isServo n.val = false → ∃ u, exec (.ctrl src n v) s = .next u
        ∧ u = { put 0x00 0x203 with lap := u.lap } ∧ u.modeReq n.val = s.modeReq n.val
        ∧ (s.clkState ≠ 2 → s.clkState ≠ 3 →
          ∀ k, k ≠ s.now → ({ u with now := k } : State).modeReq n.val = v.toNat % 4)
        ∧ (s.clkState = 2 ∨ s.clkState = 3 → ∀ k, ({ u with now := k } : State).modeReq n.val = 0))
      ∧ (acc 0x00 → v.toNat % 4 = 3 ∨ s.isServo n.val = true →
        refused (.ctrl src n v) 10)
      ∧ (∀ k : Fin 9, acc (0x20 + 4 * k.val) →
        (s.loopMode n.val ≠ 2 → s.rfld (loopA n.val 0x00) 0 2 ≠ 2 →
          exec (.coefficientWrite src n k v) s = .next (put (0x20 + 4 * k.val)
            (if k.val = 7 then 0x000FFFFF else if k.val = 8 then 0x00007FFF else 0xFFFFFFFF)))
        ∧ (s.loopMode n.val = 2 ∨ s.rfld (loopA n.val 0x00) 0 2 = 2 → refused (.coefficientWrite src n k v) 8))
      ∧ (∀ k : Fin 5, acc (4 + 4 * k.val) →
        let m : Word := if k.val = 0 then 0x0000FFF0 else if k.val = 3 then 0x03FF83FF
          else if k.val = 4 then 0x000003FF else 0x00FFFFFF
        let w := plainWord m 0 (s.rget (loopA n.val (4 + 4 * k.val))) v
        (s.loopMode n.val = 0 → s.isServo n.val = false → s.cfgWriteOk n.val (4 + 4 * k.val) w = true →
          exec (.loopConfigWrite src n k v) s = .next (put (4 + 4 * k.val) m))
        ∧ (s.loopMode n.val ≠ 0 ∨ s.isServo n.val = true
          ∨ (k.val = 0 ∧ (v.toNat / 1024 % 4 = 3 ∨ v.toNat / 4096 % 16 = 0))
          ∨ (k.val = 1 ∧ (v.toNat % 2 ^ 24 < 500 ∨ 12500000 < v.toNat % 2 ^ 24
            ∨ v.toNat % 2 ^ 24 ≤ s.rfld (loopA n.val 0x0C) 0 24))
          ∨ (k.val = 2 ∧ s.rfld (loopA n.val 0x08) 0 24 ≤ v.toNat % 2 ^ 24)
          ∨ (k.val = 3 ∧ (2 ≤ v.toNat / 256 % 4 ∨ v.getLsbD 15 = true ∧ v.toNat / 65536 % 1024 = n.val))
          ∨ (k.val = 4 ∧ ∃ j < 1024, j ≠ n.val ∧ s.loopEn j = true ∧ v.toNat / 256 % 4 ∈ [1, 2]
            ∧ s.rfld (loopA j 0x14) 0 10 = v.toNat % 1024)
          ∨ (k.val = 4 ∧ v.toNat / 256 % 4 ∈ [0, 3] ∧ v.toNat % 256 ≠ 0) →
          refused (.loopConfigWrite src n k v) 9))
      ∧ (∀ hi : Bool, acc (if hi then 0x48 else 0x44) →
        let low := if hi then s.rget (loopA n.val 0x44) else v
        let high := if hi then v else s.rget (loopA n.val 0x48)
        (low.slt high = true → exec (.limitWrite src n hi v) s
          = .next (s.rset (loopA n.val (if hi then 0x48 else 0x44)) v))
        ∧ (low.slt high = false → refused (.limitWrite src n hi v) 0))
      ∧ (acc 0x4C → ∃ u, exec (.target src n v) s = .next u ∧ u = { s with ctl := u.ctl, lap := u.lap }
        ∧ u.rget (loopA n.val 0x4C) = v ∧ u.targetAt n.val = s.targetAt n.val
        ∧ (s.rbit (loopA n.val 0x10) 15 = false →
          ∀ k, k ≠ s.now → ({ u with now := k } : State).targetAt n.val = v)
        ∧ (u.loop n.val).hostAt = some s.now
        ∧ ((s.loop n.val).emitAt ≠ some s.now → OnlyReg s u (loopA n.val 0x4C))
        ∧ ((s.loop n.val).emitAt = some s.now → u.rbit (loopA n.val 0x64) 12 = true)))
    ∧ (s.loopEn n.val = false → ∀ k : Fin 9, ∀ hi : Bool, ∀ c off,
      (c = .ctrl src n v ∧ off = 0x00) ∨ (c = .coefficientWrite src n k v ∧ off = 0x20 + 4 * k.val)
        ∨ (∃ j : Fin 5, c = .loopConfigWrite src n j v ∧ off = 4 + 4 * j.val)
        ∨ (c = .limitWrite src n hi v ∧ off = if hi then 0x48 else 0x44)
        ∨ (c = .target src n v ∧ off = 0x4C) → acc off →
      ∃ u, exec c s = .next u ∧ u.rget (loopA n.val off) = s.rget (loopA n.val off)
        ∧ (u.rget (lapA 0x10)).toNat = min ((s.rget (lapA 0x10)).toNat + 1) 0xFFFFFFFF)
    ∧ (acc 0x64 →
      let old := s.rget (loopA n.val 0x64)
      let x := s.loop n.val
      let now : Word := if x.flagAt = some s.now then BitVec.ofNat 32 x.flagNow else 0
      exec (.registerWrite src (BitVec.ofNat 32 (loopA n.val 0x64)) v) s = .next (if s.loopEn n.val then
        s.rset (loopA n.val 0x64) (plainWord 0 0x1FFF old (v &&& ~~~now)) else s.rcount (lapA 0x10) 0 32 1))

/-! ## The Lap Engine, Sample Ports and PWM channels -/

/-- A lap of an enabled loop (R216-R218, R220, R229, R231-R234): the boundary counts, takes the requested mode,
latches, applies the output of the lap before and puts its update in flight, or slips when a loop of lower number has
issued in the same cycle; OPEN holds the destination safe, MANUAL gives MAN within the limits of Class S, AUTO the
compensator's value, shown for a fresh sample in steady Class S operation; the commit moves the history, or the preset
one after a preset, and hands the output on.  Generators and probes are excluded here. -/
def Obligations.LoopLaps : Prop :=
  ∀ (s : State) (n : Fin 1024),
    let r (off : Nat) : Word := s.rget (loopA n.val off)
    let x := s.loop n.val
    let c := Instr.loopBoundary n
    let free := ∀ e, tfind s.lap.issued (s.rfld (loopA n.val 0x04) 6 1) = some e → e.1 ≠ s.now
    (s.loopEn n.val = false ∨ s.lap.zero = none ∨ s.coreHold = true → exec c s = .next s)
    ∧ (s.loopEn n.val = true → s.lap.zero.isSome = true → s.coreHold = false → ∃ u, exec c s = .next u
      ∧ u = { s with ctl := u.ctl, lap := u.lap, time := u.time, mem := u.mem, poison := u.poison
                     wrote := u.wrote, obs := u.obs, outs := u.outs }
      ∧ (s.streamsOff = true → u.mem = s.mem ∧ u.outs = s.outs)
      ∧ u.rget (loopA n.val 0x98) = r 0x98 + 1 ∧ u.loopMode n.val = s.modeReq n.val % 4
      ∧ (free → ∀ k, k ≠ n.val → u.loop k = s.loop k)
      ∧ (s.modeReq n.val = 0 → u.rbit (loopA n.val 0x60) 25 = true ∧ (u.loop n.val).out = none
        ∧ (u.loop n.val).flight = x.flight ∧ u.rget (loopA n.val 0x7C) = r 0x7C
        ∧ u.rget (loopA n.val 0x70) = u.rget (loopA n.val 0x68) ∧ u.rget (loopA n.val 0x74) = 0)
      ∧ (∀ m, tfind s.lap.issued (s.rfld (loopA n.val 0x04) 6 1) = some (s.now, m) → m ≤ n.val →
        s.modeReq n.val = 1 → s.isServo n.val = false → (u.loop n.val).flight = x.flight
          ∧ u.rbit (loopA n.val 0x64) 7 = true
          ∧ (u.rget (loopA n.val 0xA0)).toNat = min ((r 0xA0).toNat + 1) 0xFFFFFFFF)
      ∧ (s.isServo n.val = false → (∀ g < 8, s.genOn n.val g = false) → free →
        let low := r 0x44
        let high := r 0x48
        (s.modeReq n.val = 1 →
          (∀ v, x.out = some v → u.rget (loopA n.val 0x7C) = v ∧ u.rbit (loopA n.val 0x60) 25 = false)
          ∧ (x.out = none → u.rget (loopA n.val 0x7C) = r 0x7C)
          ∧ ∃ f, (u.loop n.val).flight = some f ∧ f.auto = false ∧ f.u = r 0x54
            ∧ f.out = if s.loopS n.val then
                (if (r 0x54).slt low then low else if high.slt (r 0x54) then high else r 0x54) else r 0x54)
        ∧ (∀ fr, s.modeReq n.val = 2 → s.loopMode n.val = 2 → s.loopS n.val = true →
          s.rbit (loopA n.val 0x60) 28 = false → s.rfld (loopA n.val 0x04) 12 4 ≠ 0 →
          s.rbit (loopA n.val 0x10) 15 = false → s.targetAt n.val = x.force →
          s.seenLost (s.rfld (loopA n.val 0x10) 4 4) = false →
          s.rfld (loopA n.val 0x10) 0 4 ≤ s.rfld (sptA (s.rfld (loopA n.val 0x10) 4 4) 0x00) 24 4 →
          s.seenFrame (s.rfld (loopA n.val 0x10) 4 4) = some fr →
          s.rfld (loopA n.val 0x10) 0 4 < fr.samples.length → x.pset = none → (∀ e, x.eseq = some e → e < fr.eseq) →
          let y := lget 0 fr.samples (s.rfld (loopA n.val 0x10) 0 4)
          let rate : Int := (r 0x50).toNat
          let d := x.force.toInt - (r 0x70).toInt
          let ramp := if rate = 0 then x.force.toInt else (r 0x70).toInt + max (-rate) (min rate d)
          let e := max (-2 ^ 31) (min (2 ^ 31 - 1) (ramp - y.toInt))
          let osh := s.rfld (loopA n.val 0x04) 7 3
          let term (k sh lo : Nat) (v : Int) : Int :=
            (r k).toInt * v / 2 ^ (s.rfld (loopA n.val sh) lo 5)
          let three := s.rbit (loopA n.val 0x04) 5
          let acc := term 0x20 0x3C 0 e + term 0x24 0x3C 5 (r 0x80).toInt + term 0x28 0x3C 10 (r 0x84).toInt
            + (if three then term 0x2C 0x3C 15 (r 0x88).toInt else 0)
            - term 0x30 0x40 0 (r 0x8C).toInt - term 0x34 0x40 5 (r 0x90).toInt
            - (if three then term 0x38 0x40 10 (r 0x94).toInt else 0)
          let v := (acc + 2 ^ (30 - osh)) / 2 ^ (31 - osh)
          let out := if v < low.toInt then low else if high.toInt < v then high else BitVec.ofInt 32 v
          low.sle high = true →
          u.rget (loopA n.val 0x68) = y ∧ u.rget (loopA n.val 0x70) = BitVec.ofInt 32 ramp
          ∧ u.rget (loopA n.val 0x74) = BitVec.ofInt 32 e
          ∧ (∀ w, x.out = some w → u.rget (loopA n.val 0x7C) = w)
          ∧ ∃ f, (u.loop n.val).flight = some f ∧ f.auto = true ∧ f.e0 = BitVec.ofInt 32 e ∧ f.u = out
            ∧ f.out = out)))
    ∧ (x.flight = none → exec (.loopUpdateCommit n) s = .next s)
    ∧ (∀ f, x.flight = some f → f.probes = [] → ∃ u, exec (.loopUpdateCommit n) s = .next u
      ∧ u = { s with ctl := u.ctl, lap := u.lap }
      ∧ u.loop n.val = { raisedBits x s.now f.flags with
        flight := none, out := some f.out, raised := 0, pset := if f.auto then none else x.pset } ∧ (∀ k, k ≠ n.val → u.loop k = s.loop k)
      ∧ u.rget (loopA n.val 0x78) = f.u
      ∧ u.rget (loopA n.val 0x64) = r 0x64 ||| BitVec.ofNat 32 f.flags
      ∧ (f.auto = true → u.rget (loopA n.val 0x80) = f.e0 ∧ u.rget (loopA n.val 0x8C) = f.u
        ∧ u.rget (loopA n.val 0x84) = (if x.pset.isSome then 0 else r 0x80)
        ∧ u.rget (loopA n.val 0x88) = (if x.pset.isSome then 0 else r 0x84)
        ∧ u.rget (loopA n.val 0x90) = x.pset.getD (r 0x8C)
        ∧ u.rget (loopA n.val 0x94) = x.pset.getD (r 0x90))
      ∧ ∀ a, a ≠ loopA n.val 0x78 → a ≠ loopA n.val 0x64 →
        (∀ off ∈ [0x80, 0x84, 0x88, 0x8C, 0x90, 0x94], f.auto = true → a ≠ loopA n.val off) →
        u.rget a = s.rget a)

/-- Generators and probes (R238, R241-R243): an accepted write of a generator's CTRL starts or stops it at the
loop's next boundary; a second one on a loop, and a reserved code, are refused; arming a probe clears its
state, clearing ARM stops it, and a software trigger counts only on a probe that waits for one. -/
def Obligations.GeneratorsAndProbes : Prop :=
  ∀ (s : State) (src : Fin 3) (g : Fin 8) (v : Word),
    let ga := genA g.val 0x00
    let w := plainWord 0xE3FF07FF 0 (s.rget ga) v
    let clash := v.getLsbD 31 = true ∧ ∃ h < 8, h ≠ g.val
      ∧ s.rfld (genA h 0x00) 16 10 = v.toNat / 65536 % 1024
      ∧ (s.rbit (genA h 0x1C) 31 = true ∨ s.rbit (genA h 0x00) 31 = true)
    let pa := prbA g.val 0x00
    let stat := prbA g.val 0x14
    let q := plainWord 0xF3FFFF00 0 (s.rget pa) v
    (s.accepts src.val ga v →
      (¬ clash → v.toNat / 256 % 8 < 6 → exec (.generatorEnWrite src g v) s = .next
        ((s.rset ga w).setGen g.val { s.gen g.val with
          enAt := some s.now
          enPrev := if (s.gen g.val).enAt = some s.now then (s.gen g.val).enPrev else s.rbit ga 31 }))
      ∧ (clash → exec (.generatorEnWrite src g v) s = .next
        ((s.rbitSet (genA g.val 0x1C) 29 true).rcount (lapA 0x10) 0 32 1))
      ∧ (¬ clash → 6 ≤ v.toNat / 256 % 8 → exec (.generatorEnWrite src g v) s = .next
        (s.rcount (lapA 0x10) 0 32 1)))
    ∧ (s.accepts src.val pa v →
      let good := v.toNat / 2 ^ 28 % 4 ≠ 3 ∧ v.toNat / 4096 % 16 < 8 ∧ v.toNat / 256 % 16 < 8
      (¬ good → exec (.probeArm src g v) s = .next (s.rcount (lapA 0x10) 0 32 1))
      ∧ (good → v.getLsbD 31 = false → exec (.probeArm src g v) s = .next
        ((s.rset pa q).rbitSet stat 31 false))
      ∧ (good → v.getLsbD 31 = true → exec (.probeArm src g v) s = .next
        (if s.rbit pa 31 then s.rset pa q
         else ((s.rset pa q).rfldSet stat 28 3 0).setProbe g.val { armAt := some s.now })))
    ∧ (s.accepts src.val (prbA g.val 0x04) v → exec (.probeTrig src g v) s = .next
      (if v.getLsbD 0 = true ∧ s.rbit pa 30 = true ∧ s.rfld pa 28 2 = 0 ∧ s.rbit stat 31 = true
          ∧ s.rbit stat 30 = false then s.setProbe g.val { s.probe g.val with trig := true } else s))

/-- Sample Ports (R18, R250-R263, R272, R481): a recognised MARK starts a frame with its split; a frame that passes the CRC,
NCH and SEQ tests is accepted, extends SEQ and puts the port in SYNC; one that fails the CRC or NCH test is
discarded and counted, one with a bad SEQ only counted; the time-outs and a lost clock put the port in LOST; the
transmit side sends the frame of its channels where the balls are driven; with CORE in HOLD a port stands still; writes outside the rules of R263 and R272 are refused. -/
def Obligations.SamplePorts : Prop :=
  ∀ (s : State) (p : Fin 16) (src : Fin 3) (v : Word),
    let k := p.val
    let stat := sptA k 0x08
    let x := s.spt k
    let lost (w t : State) (part : Bool) : Prop :=
      t = { w with ctl := t.ctl, lap := t.lap } ∧ t.rxState k = 0
        ∧ (t.spt k).mark = (if part then none else x.mark)
        ∧ (t.rget (sptA k 0x18)).toNat = (if part then min ((w.rget (sptA k 0x18)).toNat + 1) 0xFFFFFFFF
          else (w.rget (sptA k 0x18)).toNat)
        ∧ (t.rget (sptA k 0x20)).toNat = (if s.rxState k = 0 then (w.rget (sptA k 0x20)).toNat
          else min ((w.rget (sptA k 0x20)).toNat + 1) 0xFFFFFFFF)
        ∧ ∀ a, a ≠ stat → a ≠ sptA k 0x18 → a ≠ sptA k 0x20 → t.rget a = s.rget a
    (exec (.markRecognised p) s = .next (if s.rxEn k = true ∧ s.rbit stat 29 = true then
      s.setSpt k { x with mark := some ((s.fifths - 16 * 2 ^ 32) / 5) } else s))
    ∧ (∀ (seq : BitVec 12) (nch : Fin 16) (samples : List Word) (crc : BitVec 16) (split : Nat),
      let w := sptWidth (s.rfld (sptA k 0x00) 28 2)
      let vs := samples.map (fun y => y.toNat % 2 ^ w)
      let d := (seq.toNat + 4096 - s.rfld stat 0 12) % 4096
      let sound := crc16 (sptBody seq.toNat nch.val w vs) = crc.toNat ∧ nch.val = s.rfld (sptA k 0x00) 24 4
        ∧ samples.length = nch.val + 1
      let c := Instr.frameCheck p seq nch samples crc
      (x.mark = none ∨ s.rxEn k = false → exec c s = .next s)
      ∧ (x.mark = some split → s.rxEn k = true →
        (¬ sound → ∃ t, exec c s = .next t ∧ t = { s with ctl := t.ctl, lap := t.lap }
          ∧ (t.spt k).mark = none ∧ (t.spt k).frames = x.frames
          ∧ (t.rget (sptA k 0x14)).toNat = min ((s.rget (sptA k 0x14)).toNat + 1) 0xFFFFFFFF
          ∧ t.rfld stat 12 4 = min (s.rfld stat 12 4 + 1) 15
          ∧ t.rxState k = (if s.rxState k = 0 then 0
            else if s.rfld (sptA k 0x00) 20 4 ≤ min (s.rfld stat 12 4 + 1) 15 then 0 else 1))
        ∧ (sound → s.rbit stat 28 = true ∨ (1 ≤ d ∧ d ≤ 2047) → ∃ t fr, exec c s = .next t
          ∧ t = { s with ctl := t.ctl, lap := t.lap } ∧ t.rxState k = 2 ∧ (t.spt k).mark = none
          ∧ (t.spt k).frames.head? = some fr ∧ fr.cycle = s.now ∧ fr.split = split
          ∧ fr.samples = vs.map (fun y => BitVec.ofNat 32 (y * 2 ^ (32 - w)))
          ∧ (s.rbit stat 28 = false → fr.eseq = x.eseq + d)
          ∧ (s.rbit stat 28 = true → fr.eseq = (x.eseq / 4096 + 1) * 4096 + seq.toNat)
          ∧ (t.spt k).eseq = fr.eseq ∧ t.rget (sptA k 0x0C) = BitVec.ofNat 32 fr.eseq
          ∧ t.rget (sptA k 0x10) = BitVec.ofNat 32 (split / 2 ^ 32 % 1000000000)
          ∧ t.rfld stat 0 12 = seq.toNat ∧ t.rfld stat 12 4 = 0 ∧ t.rbit stat 28 = false
          ∧ ∀ a, a ≠ stat → a ≠ sptA k 0x0C → a ≠ sptA k 0x10 → t.rget a = s.rget a)
        ∧ (sound → s.rbit stat 28 = false → d = 0 ∨ 2047 < d → exec c s = .next
          ((s.setSpt k { x with mark := none }).rcount (sptA k 0x1C) 0 32 1))))
    ∧ (x.mark = none ∨ s.coreHold = true → exec (.partToExpiry p) s = .next s)
    ∧ (x.mark.isSome = true → s.coreHold = false → ∃ t, exec (.partToExpiry p) s = .next t ∧ lost s t true)
    ∧ (let wait := s.rfld (sptA k 0x04) 16 16
       (s.rxState k = 2 → x.mark = none ∨ wait < 8 → wait ≠ 0 → s.coreHold = false →
        ∃ t, exec (.idleToExpiry p) s = .next t ∧ lost s t false)
       ∧ (s.rxState k ≠ 2 ∨ x.mark.isSome = true ∧ 8 ≤ wait ∨ wait = 0 ∨ s.coreHold = true →
        exec (.idleToExpiry p) s = .next s))
    ∧ (s.rxEn k = true → ∃ t, exec (.rxClockLoss p) s = .next t ∧ lost s t x.mark.isSome
      ∧ t.rbit stat 29 = false)
    ∧ (s.rxEn k = false → exec (.rxClockLoss p) s = .next
      (if s.coreHold then s else s.rbitSet stat 29 false))
    ∧ (exec (.rxClockReturn p) s = .next (if s.coreHold then s else s.rbitSet stat 29 true))
    ∧ (exec (.forgetExpiry p) s = .next
      (if s.rxState k = 0 ∧ s.coreHold = false then s.rbitSet stat 28 true else s))
    ∧ (let a := sptA k 0x24
       let w := sptWidth (s.rfld a 28 2)
       let n := s.rfld a 24 4
       let body := sptBody x.txNext n w ((List.range (n + 1)).map (fun c => sampleOut w (s.txValue k c)))
       let bits := msbFirst 16 0xE31C ++ body ++ msbFirst 16 (crc16 body)
       (s.rbit a 31 = true → s.lap.zero.isSome = true → s.coreHold = false →
         ∃ la lb, exec (.txBoundary p) s = .next
         (((s.rfldSet a 0 12 x.txNext).ballOut (.sample k la lb)).setSpt k
           { x with txNext := (x.txNext + 1) % 4096 })
         ∧ (s.rbit a 30 = false → la = bits ∧ lb = [])
         ∧ (s.rbit a 30 = true → ∀ j, la[j]? = bits[2 * j]? ∧ lb[j]? = bits[2 * j + 1]?))
       ∧ (s.rbit a 31 = false ∨ s.lap.zero = none ∨ s.coreHold = true →
         exec (.txBoundary p) s = .next s))
    ∧ (let a := sptA k 0x00
       let w := plainWord 0xFFF0FFFF 0 (s.rget a) v
       let bad := s.rbit a 31 = true ∧ fsetBit w 31 false ≠ fsetBit (s.rget a) 31 false
         ∨ v.toNat / 2 ^ 28 % 4 = 3 ∨ v.toNat / 2 ^ 20 % 16 = 0
       s.accepts src.val a v →
       (bad → exec (.sptRxcfgWrite src p v) s = .next (s.rbitSet stat 27 true))
       ∧ (¬ bad → s.rbit a 31 = false ∨ v.getLsbD 31 = true →
         exec (.sptRxcfgWrite src p v) s = .next (s.rset a w))
       ∧ (¬ bad → s.rbit a 31 = true → v.getLsbD 31 = false →
         ∃ t, exec (.sptRxcfgWrite src p v) s = .next t ∧ t = { s with ctl := t.ctl, lap := t.lap }
           ∧ t.rxState k = 0 ∧ t.rbit stat 28 = true ∧ (t.spt k).mark = none ∧ t.rget a = w))
    ∧ (let a := sptA k 0x24
       let w := plainWord 0xFF070000 0 (s.rget a) v
       let j := v.toNat / 2 ^ 16 % 8
       let lanes := v.toNat / 2 ^ 30 % 2 + 1
       let bits := 48 + (v.toNat / 2 ^ 24 % 16 + 1) * sptWidth (v.toNat / 2 ^ 28 % 4)
       let bad := s.rbit a 31 = true ∧ fsetBit w 31 false ≠ fsetBit (s.rget a) 31 false
         ∨ v.toNat / 2 ^ 28 % 4 = 3 ∨ j < 2 ∨ 6 < j
         ∨ v.getLsbD 31 = true ∧ s.rfld (sptA k 0x28) 0 24 * lanes < bits * j + 8 * lanes
       s.accepts src.val a v →
       (bad → exec (.sptTxcfgWrite src p v) s = .next (s.rbitSet stat 27 true))
       ∧ (¬ bad → exec (.sptTxcfgWrite src p v) s = .next
         (if v.getLsbD 31 = true ∧ s.rbit a 31 = false then (s.rset a w).setSpt k { x with txNext := 0 }
          else s.rset a w)))

/-- PWM channels and trips (R264-R271, R273): a carrier period takes the clamped and rounded duty of its
loop's output, its edges aligned as CFG says; a trip input latches, and 4 cycles later the channels it selects are in
their safe state; the latch clears only while the input is released; a refused write sets its flag. -/
def Obligations.PwmAndTrips : Prop :=
  ∀ (s : State) (c : Fin 64) (k : Fin 4) (src : Fin 3) (v : Word),
    let i := c.val
    let st := pwmA i 0x10
    let x := s.pwm i
    (s.lap.zero = none ∨ s.pwmLoop i = none ∨ s.coreHold = true → exec (.carrierBoundary c) s = .next s)
    ∧ (∀ n, s.lap.zero.isSome = true → s.coreHold = false → s.pwmLoop i = some n → (i % 2 = 0 → s.pwmComp (i + 1) = false) →
      s.rbit (loopA n 0x60) 25 = false → x.ball ≠ .resetSafe → s.tripHolds i = false →
      let t8 := 8 * (s.rfld (loopA n 0x08) 0 24 / (s.rfld (pwmA i 0x00) 16 3 + 1))
      let u := max (s.rget (pwmA i 0x08)).toInt (min (s.rget (pwmA i 0x0C)).toInt (s.rget (loopA n 0x7C)).toInt)
      let d := ((u * (t8 : Int) + 2 ^ 30) / 2 ^ 31).toNat
      let m := max (s.rfld (pwmA i 0x04) 16 16) 10
      let rise (d : Nat) : Nat := if s.rbit (pwmA i 0x00) 15 then (t8 - d) / 2 else 0
      (s.rget (pwmA i 0x08)).sle (s.rget (pwmA i 0x0C)) = true → m ≤ d → d + m ≤ t8 → t8 < 2 ^ 27 →
      ∃ t, exec (.carrierBoundary c) s = .next t ∧ t = { s with ctl := t.ctl, lap := t.lap }
        ∧ (t.pwm i).ball = .driven ∧ (t.pwm i).start = s.now ∧ (t.pwm i).t8 = t8
        ∧ (t.pwm i).rise = rise d ∧ (t.pwm i).fall = rise d + d ∧ t.rfld st 0 27 = d
        ∧ t.rbit st 31 = false ∧ t.rbit st 30 = false ∧ OnlyReg s t st
        ∧ ∀ j, j ≠ i → t.pwm j = s.pwm j)
    ∧ (∀ n, s.lap.zero.isSome = true → s.coreHold = false → s.pwmLoop i = some n →
      (i % 2 = 0 → s.pwmComp (i + 1) = false) → s.rbit (loopA n 0x60) 25 = true → ∃ t, exec (.carrierBoundary c) s = .next t
        ∧ t = { s with ctl := t.ctl, lap := t.lap } ∧ (t.pwm i).t8 = 0 ∧ (t.pwm i).ball ≠ .driven
        ∧ t.rbit st 31 = true ∧ t.rfld st 0 27 = 0)
    ∧ (s.rbit (tripA 0x00) (8 + k.val) = false ∨ s.coreHold = true → exec (.tripAssert k) s = .next s)
    ∧ (s.rbit (tripA 0x00) (8 + k.val) = true → s.coreHold = false → ∃ t, exec (.tripAssert k) s = .next t
      ∧ t.rbit (tripA 0x04) k.val = true ∧ t.rbit (tripA 0x04) (4 + k.val) = true
      ∧ (∀ j < 64, if s.tripSelects k.val j then t.rget (pwmA j 0x10) = fsetBit (s.rget (pwmA j 0x10)) 30 true
          ∧ t.pwm j = (if (s.pwm j).ball ≠ .resetSafe ∧ (s.pwm j).trip = none ∧ s.tripHolds j = false then
            { s.pwm j with trip := some (s.now + 4) } else s.pwm j)
        else t.rget (pwmA j 0x10) = s.rget (pwmA j 0x10) ∧ t.pwm j = s.pwm j)
      ∧ t = { s with ctl := t.ctl, lap := t.lap, mem := t.mem, poison := t.poison, wrote := t.wrote
                     obs := t.obs, outs := t.outs }
      ∧ (s.streamsOff = true → t.mem = s.mem))
    ∧ (∀ m, s.phase ≠ .off → s.pending = [] → (∀ j < 2, (s.port j).modify = none) → x.trip = some m →
      ∃ t, step s = .next t
        ∧ (m ≤ s.now + 1 → (t.pwm i).ball = (if x.ball = .driven then .safe else x.ball)
          ∧ (t.pwm i).trip = none ∧ t.rbit st 31 = true)
        ∧ (s.now + 1 < m → t.pwm i = x))
    ∧ (exec (.tripInputRelease k) s = .next
      (if s.coreHold then s else s.rbitSet (tripA 0x04) (4 + k.val) false))
    ∧ (s.accepts src.val (tripA 0x04) v → ∃ t, exec (.tripLatchClear src v) s = .next t
      ∧ t = { s with ctl := t.ctl, lap := t.lap } ∧ OnlyReg s t (tripA 0x04)
      ∧ (∀ j < 4, t.rbit (tripA 0x04) j = (s.rbit (tripA 0x04) j
        && !(v.getLsbD j && !s.rbit (tripA 0x04) (4 + j))))
      ∧ (∀ j < 32, 4 ≤ j → t.rbit (tripA 0x04) j = s.rbit (tripA 0x04) j))
    ∧ (∀ w : Fin 3,
      let a := pwmA i (if w.val = 0 then 0x00 else 0x04 + 4 * w.val)
      let q := plainWord (if w.val = 0 then 0x00078000 else 0xFFFFFFFF) 0 (s.rget a) v
      let low := if w.val = 1 then v else s.rget (pwmA i 0x08)
      let high := if w.val = 2 then v else s.rget (pwmA i 0x0C)
      s.accepts src.val a v → q ≠ s.rget a →
      let bad := (∃ n, s.pwmLoop i = some n ∧ (s.loopMode n ≠ 0
          ∨ w.val = 0 ∧ s.rfld (loopA n 0x08) 0 24 % (v.toNat / 65536 % 8 + 1) ≠ 0))
        ∨ w.val ≠ 0 ∧ (high.slt low = true ∨ low.slt 0 = true)
      (bad → exec (.pwmCfgWrite src c w v) s = .next (s.rbitSet st 28 true))
      ∧ (¬ bad → exec (.pwmCfgWrite src c w v) s = .next (s.rset a q)))

/-! ## Device HOLD and the Dispatcher -/

/-- Device HOLD (R28-R33): a request is refused with the first case of R29 that holds, or entry begins with
the boundary 10 µs away; entry ends, when no loop but the servo is closed, with memories off and tiles in HOLD; exit
wakes the clusters in use (X1 of R38) and orders the reloads, and the table resumes at the first boundary at or after
now. -/
def Obligations.DeviceHold : Prop :=
  ∀ (s : State) (src : Fin 3) (v : Word),
    let put : State := s.rset clkHoldA (plainWord 0x23000000 0 (s.rget clkHoldA) v)
    let busy := s.phase ≠ .service ∨ s.clkState = 3 ∨ ∃ p < 16, s.partState p = 2 ∨ s.partState p = 3
    let closed := ∃ n < 1024, s.loopEn n = true ∧ s.isServo n = false ∧ s.loopMode n ≠ 0
    let alone := ∀ k < 2, v.getLsbD (24 + k) = false ∨ s.linkUp k = false
    let refused (u : State) (c : Nat) : Prop := u = (put.rbitSet clkStatA 29 true).rfldSet clkStatA 24 4 c
    (s.accepts src.val clkHoldA (v ||| 0x80000000) → v.getLsbD 30 = false →
      (s.clkState = 1 ∨ s.clkState = 2 → exec (.holdReq src v) s = .next put)
      ∧ (s.clkState = 0 ∨ s.clkState = 3 → ∃ u, exec (.holdReq src v) s = .next u
        ∧ (busy → refused u 1) ∧ (¬ busy → closed → refused u 2)
        ∧ (¬ busy → ¬ closed → s.role = 2 → refused u 3)
        ∧ (¬ busy → ¬ closed → s.role ≠ 2 → alone → refused u 4)
        ∧ (¬ busy → ¬ closed → s.role ≠ 2 → ¬ alone →
          let casc := v.getLsbD 29 && decide (s.role = 1)
          u.clkState = 1 ∧ u.rbit clkStatA 28 = casc ∧ u.rget clkHoldA = put.rget clkHoldA
            ∧ u = { s with ctl := u.ctl, dsp := { s.dsp with
              holdAt := if casc then none else some (s.nsUp + 10000)
              holdIdx := if casc then s.holdIndex else none } }
            ∧ ∀ a, a ≠ clkHoldA → a ≠ clkStatA → u.rget a = s.rget a)))
    ∧ (s.accepts src.val clkHoldA (v ||| 0x40000000) → v.getLsbD 31 = false →
      exec (.holdExit src v) s = .next
        (if s.clkState = 2 then ({ put with casc := { s.casc with exitReq := false } } : State).rfldSet
            clkStatA 30 2 3
         else if s.clkState = 1 then { put with casc := { s.casc with exitReq := true } } else put))
    ∧ (let done := s.clkState = 1 ∧ s.dsp.holdOn = true ∧ ¬ closed ∧ ∀ t < 32, (s.tc t).heats = []
       (¬ done → exec .holdEntryComplete s = .next s)
       ∧ (done → s.outst = [] → s.streamsOff = true → ∃ u, exec .holdEntryComplete s = .next u
        ∧ u.clkState = (if s.casc.exitReq then 3 else 2) ∧ u.rfld clkStatA 6 6 = 0x3F
        ∧ (∀ t < 32, u.tile t = { power := .hold }) ∧ (∀ k < 4, u.linkState k = 0)
        ∧ (∀ k < 16, u.rfld (memA (0x100 + 4 * k)) 30 2 = 2)
        ∧ u.rget clkHoldCntA = s.rget clkHoldCntA + 1
        ∧ (∀ a, a < 0x100000000000 → u.mget a = s.mget a)
        ∧ (∀ a, 0x100000000000 ≤ a → u.mget a = emptyByte)
        ∧ u.saved = [] ∧ u.loans = [] ∧ u.stores = []))
    ∧ (let done := s.clkState = 3 ∧ s.rbit clkStatA 7 = true
       (¬ done → exec .holdExitWakeComplete s = .next s)
       ∧ (done → ∃ u, exec .holdExitWakeComplete s = .next u
        ∧ u.clkState = 3 ∧ u.rfld clkStatA 6 2 = 0 ∧ (∀ k < 4, u.rbit clkStatA (8 + k) = !s.clusterUsed k)
        ∧ (∀ t < 32, u.tile t = { power := if s.clusterUsed (t / 8) then .run else .hold })
        ∧ (∀ k < 4, u.linkState k = if s.rbit (linkA k 0x00) 31 then 1 else s.linkState k)
        ∧ (∀ k < 16, u.rfld (memA (0x100 + 4 * k)) 30 2 = 0)
        ∧ (∀ p < 16, s.partEn p = true → p ∉ s.health.dead → u.partState p = 2
          ∧ ∃ r ∈ u.health.parts, r.part = p ∧ r.force = true ∧ r.dead = false)
        ∧ (∀ c < 64, s.ctxEn c = true → s.partEn (s.ctxPart c) = true → s.ctxPart c ∉ s.health.dead →
          u.ctxState c = 1)
        ∧ (s.streamsOff = true → u.mem = s.mem)))
    ∧ (let done := s.clkState = 3 ∧ s.rbit clkStatA 7 = false ∧ s.dsp.holdOn = true ∧ s.health.parts = []
       (¬ done → exec .holdExitReloadComplete s = .next s)
       ∧ (done → s.dsp.nextBound = none →
        exec .holdExitReloadComplete s = .next { s with dsp := { s.dsp with holdOn := false } })
       ∧ (∀ nb, done → s.dsp.nextBound = some nb → 0 < s.rfld (dspA 0x08) 0 20 →
        ∃ u b n, exec .holdExitReloadComplete s = .next u
          ∧ b = nb + n * (8 * s.rfld (dspA 0x08) 0 20) ∧ s.nsUp ≤ b
          ∧ (0 < n → b < s.nsUp + 8 * s.rfld (dspA 0x08) 0 20)
          ∧ u = { s.rset (dspA 0x24) (s.rget (dspA 0x24) + BitVec.ofNat 32 n) with dsp := { s.dsp with
            holdOn := false, nextBound := some b, look := [], rdPos := 0, rdTime := b, rdPrev := none
            rdNext := false, rdFrom := none, rdPlace := 0 } }))

/-- Major cycles (R279, R281, R283-R287, R401): a boundary counts, boundaries passed over are counted as
skipped and their entries not run, an armed range becomes current at its boundary, the first boundary after SB_LOCK
gives SERVICE; arming checks the next range and has the lookahead read it from the switch on, the table refuses writes
in a range in force, and the lookahead takes the next good entry while the entry 64 places before it is started or skipped.  Shown outside a cascade's alignment. -/
def Obligations.MajorCycles : Prop :=
  ∀ (s : State) (src : Fin 3) (entry : Fin 65536) (w : Fin 4) (v : Word),
    let fld (o n : Nat) : Nat := s.rfld (dspA o) 0 n
    let full := ∃ e ∈ s.dsp.look, e.evt = false ∧ e.state ≠ .running ∧ e.place + 64 ≤ s.dsp.rdPlace
    let idle := s.dsp.nextBound = none ∨ (∃ nb, s.dsp.nextBound = some nb ∧ s.ns < nb) ∨ s.clkState = 2
      ∨ (s.clkState = 3 ∧ s.dsp.holdOn = true) ∨ s.sbLock = false ∨ s.phase = .failed
    (idle → exec .majorCycleBoundary s = .next s)
    ∧ (∀ nb b0, ¬ idle → s.dsp.nextBound = some nb → s.dsp.bound = some b0 → s.phase = .service →
      s.role = 0 → s.clkState = 0 → s.dsp.align = none → s.dsp.holdAt = none → s.dsp.holdIdx = none →
      s.dsp.serviceNext = [] → s.dsp.readyNext = [] →
      (∀ k, s.armed = false → 0 < fld 0x08 20 → k = (s.ns - nb) / (8 * fld 0x08 20) →
        (s.dsp.bounds + 1) % max 1 (fld 0x30 16) ≠ 0 → ∃ t, exec .majorCycleBoundary s = .next t
          ∧ t.dsp.bound = some (nb + k * (8 * fld 0x08 20))
          ∧ t.dsp.nextBound = some (nb + (k + 1) * (8 * fld 0x08 20))
          ∧ t.rget (dspA 0x24) = s.rget (dspA 0x24) + 1 + BitVec.ofNat 32 k
          ∧ (t.rget (dspA 0x40)).toNat = min ((s.rget (dspA 0x40)).toNat + k) 0xFFFFFFFF
          ∧ t.rbit (dspA 0x28) 5 = true ∧ t.dsp.bounds = s.dsp.bounds + 1
          ∧ t = { s with ctl := t.ctl, dsp := t.dsp, tiles := t.tiles, saved := t.saved
                         obs := { s.obs with cmds := t.obs.cmds } }
          ∧ (k = 0 → t.tiles = s.tiles ∧ t.saved = s.saved ∧ t.obs = s.obs)
          ∧ (∀ e, e ∈ t.dsp.look ↔ e ∈ s.dsp.look ∧ (e.state = .running ∨ e.evt = true ∨ e.base < nb
            ∨ nb + k * (8 * fld 0x08 20) ≤ e.base))
          ∧ ∀ a, a ≠ dspA 0x24 → a ≠ dspA 0x28 → a ≠ dspA 0x40 → t.rget a = s.rget a)
      ∧ (s.armed = true → s.switchTime = some nb → 0 < fld 0x18 20 → s.ns < nb + 8 * fld 0x18 20 →
        ∃ t, exec .majorCycleBoundary s = .next t
          ∧ t.rget (dspA 0x00) = s.rget (dspA 0x10) ∧ t.rget (dspA 0x04) = s.rget (dspA 0x14)
          ∧ t.rget (dspA 0x08) = s.rget (dspA 0x18) ∧ t.armed = false ∧ t.rbit (dspA 0x28) 3 = true
          ∧ t.dsp.bound = some nb ∧ t.dsp.nextBound = some (nb + 8 * fld 0x18 20)))
    ∧ (¬ idle → s.phase = .boot → ∃ t, exec .majorCycleBoundary s = .next t
      ∧ t.phase = .service ∧ t.bootStepNo = 12 ∧ t.lap.zero = some s.now
      ∧ (∀ p < 16, s.partEn p = true → t.partState p = 1) ∧ ∀ c < 64, (t.pwm c).ball = .safe)
    ∧ (s.accepts src.val (dspA 0x1C) 0x80000000 →
      let good := fld 0x14 17 ≠ 0 ∧ fld 0x10 16 + fld 0x14 17 ≤ 65536 ∧ fld 0x18 20 ≠ 0
        ∧ fld 0x18 20 ≤ 655000 ∧ s.role ≠ 2
      (good → ∃ t, exec (.arm src) s = .next t ∧ t.armed = true ∧ OnlyReg s t (dspA 0x1C)
        ∧ t.dsp.armTime = some (s.nsUp + 10000)
        ∧ t = { s with ctl := t.ctl, dsp := t.dsp, tiles := t.tiles, saved := t.saved
                       obs := { s.obs with cmds := t.obs.cmds } }
        ∧ ((∀ x ∈ s.dsp.look, x.tiles = []) → t.tiles = s.tiles ∧ t.saved = s.saved ∧ t.obs = s.obs)
        ∧ (∀ b, t.switchTime = some b → b ≤ s.dsp.rdTime →
          let again (x : Nat) (next : Bool) : Prop := t.dsp.rdTime = x ∧ t.dsp.rdPos = 0 ∧ t.dsp.rdNext = next
            ∧ ∀ e ∈ t.dsp.look, e.state = .running ∨ e.evt = true ∨ e.base < x
          (s.armed = false → again b true)
          ∧ ∀ b0, s.armed = true → s.switchTime = some b0 →
            (b ≤ b0 ∨ s.dsp.rdTime < b0 → again b true) ∧ (b0 < b → b0 ≤ s.dsp.rdTime → again b0 false)))
      ∧ (¬ good → exec (.arm src) s = .next (s.rbitSet (dspA 0x28) 2 true)))
    ∧ (s.accepts src.val (tableA entry.val w.val) v →
      let held := (fld 0x00 16 ≤ entry.val ∧ entry.val < fld 0x00 16 + fld 0x04 17)
        ∨ (s.armed = true ∧ fld 0x10 16 ≤ entry.val ∧ entry.val < fld 0x10 16 + fld 0x14 17)
      (held → exec (.scheduleTableWrite src entry w v) s = .next (s.rbitSet (dspA 0x28) 0 true))
      ∧ (¬ held → exec (.scheduleTableWrite src entry w v) s = .next (s.rset (tableA entry.val w.val) v)))
    ∧ (s.phase ≠ .service ∧ s.phase ≠ .boot ∨ s.dsp.nextBound = none ∨ s.dsp.holdOn = true ∨ full →
      exec .lookaheadRead s = .next s)
    ∧ (s.phase = .service → s.dsp.nextBound.isSome = true → s.dsp.holdOn = false → ¬ full →
      s.dsp.rdNext = false → s.dsp.rdFrom = none → s.dsp.rdPos < fld 0x04 17 →
      let i := fld 0x00 16 + s.dsp.rdPos
      let e := s.tabEntry i
      let slot := s.dsp.rdTime + 8 * e.start
      let bad := s.entryBad e = true ∨ fld 0x08 20 ≤ e.start ∨ ∃ q, s.dsp.rdPrev = some q ∧ e.start < q
      (e.v = true → e.evt = true → exec .lookaheadRead s = .next
        { s with dsp := { s.dsp with rdPos := s.dsp.rdPos + 1, rdPlace := s.dsp.rdPlace + 1 } })
      ∧ (e.v = true → e.evt = false → ¬ bad → s.ctxBE e.ctx = true ∨ s.ns + 8 * e.lead < slot →
        exec .lookaheadRead s = .next { s with dsp := { s.dsp with
          rdPos := s.dsp.rdPos + 1, rdPrev := some e.start, rdPlace := s.dsp.rdPlace + 1
          look := s.dsp.look ++ [{ idx := i, ctx := e.ctx, evt := false, release := s.ctxBE e.ctx
                                   pfl := e.pfl, lead := e.lead, g := e.g, firstFree := e.firstFree
                                   cluster := e.cluster, tmask := e.tmask, dur := e.dur, pc := e.pc
                                   base := s.dsp.rdTime, slot := slot, state := .pending, tiles := []
                                   pastS := none, heat := 0, wake := 0, place := s.dsp.rdPlace }] } })
      ∧ (e.evt = false → bad → ∃ t, exec .lookaheadRead s = .next t ∧ t.dsp.look = s.dsp.look
        ∧ t.dsp.rdPos = s.dsp.rdPos + 1 ∧ t.dsp.rdPlace = s.dsp.rdPlace + 1 ∧ t.rbit (dspA 0x28) 1 = true
        ∧ (t.rget (dspA 0x38)).toNat = min ((s.rget (dspA 0x38)).toNat + 1) 0xFFFFFFFF
        ∧ (s.streamsOff = true → t.mem = s.mem)))

/-- The life of a table entry (R287-R290, R294): at W its tiles are chosen and the wakes begin, an entry
without tiles takes them later, complete wakes make it READY, and S begins the heat, marks the entry late,
or pushes a release's record; in device HOLD it is dropped (R30). -/
def Obligations.EntriesRun : Prop :=
  ∀ (s : State) (entry : Fin 65536) (e : LookEntry),
    let drop : State := { s with dsp := { s.dsp with look := s.dsp.look.erase e } }
    let swap (f : LookEntry → LookEntry) : List LookEntry :=
      s.dsp.look.map (fun x => if x == e then f x else x)
    let waking := s.dsp.look.find? (fun x => x.idx == entry.val && x.state == .waking)
    let choosing := s.dsp.look.find? (fun x => x.idx == entry.val && x.state == .waking && x.tiles.isEmpty)
    let due := s.dsp.look.find? (fun x => x.idx == entry.val && x.pastS.isNone
      && x.state != .running && (x.release || x.state != .pending))
    let plain := s.loans = [] ∧ e.pfl = 0
    let small := e.ctx < 64 ∧ ∀ u ∈ e.tiles, u < 32
    let q := tget [] s.dsp.beq e.ctx
    (s.pendingEntry entry.val = none → exec (.wakeTime entry) s = .next s)
    ∧ (s.pendingEntry entry.val = some e → s.dsp.holdOn = true → exec (.wakeTime entry) s = .next drop)
    ∧ (s.pendingEntry entry.val = some e → s.dsp.holdOn = false → s.notReady e.ctx = none → plain →
      ∃ t, exec (.wakeTime entry) s = .next t
        ∧ t = { s with tiles := t.tiles, saved := t.saved, obs := { s.obs with cmds := t.obs.cmds }, dsp := { s.dsp with
          wakes := s.dsp.wakes + 1
          look := s.dsp.look.map (fun x => if x == e then
            { e with state := .waking, tiles := s.chooseTiles e, wake := s.dsp.wakes } else x) } })
    ∧ (∀ r, s.pendingEntry entry.val = some e → s.dsp.holdOn = false → s.notReady e.ctx = some r →
      e.ctx < 64 → ∃ t, exec (.wakeTime entry) s = .next t ∧ t.dsp.look = s.dsp.look.erase e
        ∧ (t.rget (dspA 0x38)).toNat = min ((s.rget (dspA 0x38)).toNat + 1) 0xFFFFFFFF
        ∧ (s.ctxEn e.ctx = true → t.rbit (ctxA e.ctx 0x34) 2 = true) ∧ t.tiles = s.tiles
        ∧ (s.streamsOff = true → t.mem = s.mem))
    ∧ (choosing = none → exec (.tileChoice entry) s = .next s)
    ∧ (choosing = some e → s.chooseTiles e = [] ∨ s.dsp.holdOn = true → exec (.tileChoice entry) s = .next s)
    ∧ (choosing = some e → s.chooseTiles e ≠ [] → s.dsp.holdOn = false → plain →
      ∃ t, exec (.tileChoice entry) s = .next t
        ∧ t = { s with tiles := t.tiles, saved := t.saved, obs := { s.obs with cmds := t.obs.cmds }, dsp := { s.dsp with
          look := s.dsp.look.map (fun x => if x == e then { e with tiles := s.chooseTiles e } else x) } })
    ∧ (waking = none → exec (.wakeComplete entry) s = .next s)
    ∧ (waking = some e → s.tilesReady e = false ∨ s.dsp.holdOn = true →
      exec (.wakeComplete entry) s = .next s)
    ∧ (waking = some e → s.tilesReady e = true → s.dsp.holdOn = false → e.pastS = none →
      exec (.wakeComplete entry) s = .next
        { s with dsp := { s.dsp with look := swap (fun x => { x with state := .ready }) } })
    ∧ (∀ c, waking = some e → s.tilesReady e = true → s.dsp.holdOn = false → e.pastS = some c → small →
      ∃ t, exec (.wakeComplete entry) s = .next t ∧ EntryStarts s t e
        ∧ (c < s.now → (t.rget (dspA 0x3C)).toNat = min ((s.rget (dspA 0x3C)).toNat + 1) 0xFFFFFFFF
          ∧ t.rbit (ctxA e.ctx 0x34) 0 = true)
        ∧ (s.now ≤ c → t.rget (dspA 0x3C) = s.rget (dspA 0x3C)))
    ∧ (due = none → exec (.slotTime entry) s = .next s)
    ∧ (due = some e → s.dsp.holdOn = true → ∃ t, exec (.slotTime entry) s = .next t
        ∧ t = { drop with tiles := t.tiles, saved := t.saved, obs := { s.obs with cmds := t.obs.cmds } })
    ∧ (due = some e → s.dsp.holdOn = false → e.release = true → s.ctxEn e.ctx = true →
      s.notReady e.ctx = none → q.length < 16 → exec (.slotTime entry) s = .next { s with dsp := { s.dsp with
        look := s.dsp.look.erase e, beq := tput s.dsp.beq e.ctx (q ++ [relRecord e.g e.dur e.pc]) } })
    ∧ (due = some e → s.dsp.holdOn = false → e.release = false → s.notReady e.ctx = none →
      s.tilesReady e = true → small →
      ∃ t, exec (.slotTime entry) s = .next t ∧ EntryStarts s t e ∧ t.rget (dspA 0x3C) = s.rget (dspA 0x3C))
    ∧ (due = some e → s.dsp.holdOn = false → e.release = false → s.notReady e.ctx = none →
      s.tilesReady e = false → exec (.slotTime entry) s = .next
        { s with dsp := { s.dsp with look := swap (fun x => { x with state := .waking, pastS := some s.now }) } })
    ∧ (∀ r, due = some e → s.dsp.holdOn = false → e.release = false → s.notReady e.ctx = some r →
      ∃ t, exec (.slotTime entry) s = .next t ∧ t.dsp.look = s.dsp.look.erase e
        ∧ (e.ctx < 64 → (t.rget (dspA 0x38)).toNat = min ((s.rget (dspA 0x38)).toNat + 1) 0xFFFFFFFF)
        ∧ (s.streamsOff = true → t.mem = s.mem))

/-- Event entries, sleep and prefetch (R18, R291-R293, R310): the oldest trigger starts its entry, is held
while the entry's heat runs, or is lost; a woken tile reaches RUN; an idle cluster with nothing to come
enters NAP; of a context's lists the oldest whose transfer can end goes on, and a local transfer moves its bytes. -/
def Obligations.EventsSleepPrefetch : Prop :=
  ∀ (s : State) (t : TileNo) (k : Fin 4) (c : Fin 64),
    (s.dsp.trig = [] → exec .eventTrigger s = .next s)
    ∧ (∀ i rest, s.dsp.trig = i :: rest →
      let rests : State := { s with dsp := { s.dsp with trig := rest } }
      let open' := s.dsp.holdOn = false ∧ s.phase = .service
      let busy := ∃ e ∈ s.dsp.look, e.idx = i ∧ e.evt = true
      let e := s.tabEntry i
      (¬ open' → exec .eventTrigger s = .next rests)
      ∧ (open' → busy → i ∈ s.dsp.heldTrig → exec .eventTrigger s = .next (rests.rcount (dspA 0x44) 0 32 1))
      ∧ (open' → busy → i ∉ s.dsp.heldTrig → exec .eventTrigger s = .next { s with dsp := { s.dsp with
          trig := rest, heldTrig := linsert s.dsp.heldTrig i } })
      ∧ (open' → ¬ busy → s.entryBad e = false → e.evt = true → s.ctxBE e.ctx = false →
        s.notReady e.ctx = none → s.loans = [] → e.pfl = 0 → ∃ u, exec .eventTrigger s = .next u
          ∧ u.dsp.trig = rest ∧ ∃ l ∈ u.dsp.look, l.idx = i ∧ l.evt = true ∧ l.ctx = e.ctx ∧ l.base = s.ns
            ∧ l.slot = s.ns ∧ l.pastS = some s.now ∧ l.wake = s.dsp.wakes
            ∧ (l.state = .waking ∨ l.state = .running)))
    ∧ (let x := s.tile t.val
      (s.wants t.val = none ∨ (x.power ≠ .idle ∧ x.power ≠ .nap) → exec (.tileWakeComplete t) s = .next s)
      ∧ (s.wants t.val ≠ none → x.power = .idle ∨ x.power = .nap → s.dsp.pf = [] → s.dsp.be = [] →
        ∃ u, exec (.tileWakeComplete t) s = .next u ∧ (u.tile t.val).power = .run
          ∧ (∀ j < 32, j ≠ t.val → (u.tile j).power =
              if x.power = .nap ∧ j / 8 = t.val / 8 ∧ (s.tile j).power = .nap then .idle
              else (s.tile j).power)
          ∧ (∀ j < 32, u.tc j = { s.tc j with preIds := (u.tc j).preIds })
          ∧ u = { s with tiles := u.tiles, saved := u.saved, obs := { s.obs with cmds := u.obs.cmds }
                         dsp := { s.dsp with acct := u.dsp.acct } }))
    ∧ (let ts := (List.range 8).map (fun i => 8 * k.val + i)
      let min' := s.rfld (dspA 0x2C) 0 16
      let still := s.phase = .service ∧ min' ≠ 0 ∧ (∀ j ∈ ts, (s.tile j).power = .idle)
        ∧ (∀ j ∈ ts, s.recoveryHolds j = false) ∧ s.beQueued k.val = false ∧ (∀ l ∈ s.loans, l.tile ∉ ts)
        ∧ ∀ e ∈ s.dsp.look, s.entryUses k.val e = true →
          e.state = .pending ∧ s.ns + 8 * e.lead + 1000 * min' ≤ e.slot
      (¬ still → exec (.clusterNapEntry k) s = .next s)
      ∧ (still → ∃ u, exec (.clusterNapEntry k) s = .next u ∧ u = { s with tiles := u.tiles }
        ∧ ∀ j, u.tile j = if j ∈ ts then { s.tile j with power := .nap } else s.tile j))
    ∧ (let ready (j : PfJob) : Bool := j.ctx == c.val && j.started
        && (if j.remote then j.left == 0 && j.outst == 0 else s.pfTileRuns j.dst)
      (s.dsp.pf.find? ready = none → exec (.prefetchTransferComplete c) s = .next s)
      ∧ ∀ j, s.dsp.pf.find? ready = some j →
      let gone : List PfJob := s.dsp.pf.filter (fun x => x != j)
      (j.remote = true → j.count ≤ j.pos + 1 → j.post = false →
        exec (.prefetchTransferComplete c) s = .next { s with dsp := { s.dsp with pf := gone } })
      ∧ (j.remote = false → s.poisoned j.src j.left = false → j.count ≤ j.pos + 1 → j.post = false → exec (.prefetchTransferComplete c) s = .next
          { s.mwrite j.dst (s.mread j.src j.left) with dsp := { s.dsp with pf := gone } }))

/-- Best-effort work (R294-R298, R303): a pushed record waits in its context's queue or is lost with its
flag, free tiles resume a saved heat or take the next head record with the loan it asks for, an expired
slice asks for a pre-emption, and a held request goes when its bucket admits it. -/
def Obligations.BestEffort : Prop :=
  ∀ (s : State) (src : Fin 3) (c : Fin 64) (v : Word) (t : TileNo) (p : Fin 16) (rly : Bool),
    let q := tget [] s.dsp.beq c.val
    let lost (u : State) (bit : Nat) : Prop := u.dsp.beq = s.dsp.beq ∧ u.rbit (ctxA c.val 0x34) bit = true
      ∧ (u.rget (dspA 0x38)).toNat = min ((s.rget (dspA 0x38)).toNat + 1) 0xFFFFFFFF
      ∧ u.tiles = s.tiles ∧ (s.streamsOff = true → u.mem = s.mem)
    (s.accepts src.val (ctxA c.val 0x2C) v →
      (s.ctxBE c.val = false → exec (.beq src c v) s = .next s)
      ∧ (s.ctxBE c.val = true → s.ctxEn c.val = true → s.notReady c.val = none → q.length < 16 →
        exec (.beq src c v) s = .next
          { s with dsp := { s.dsp with beq := tput s.dsp.beq c.val (q ++ [v]) } })
      ∧ (s.ctxBE c.val = true → s.ctxEn c.val = true → s.notReady c.val = none → 16 ≤ q.length →
        ∃ u, exec (.beq src c v) s = .next u ∧ lost u 3)
      ∧ (s.ctxBE c.val = true → s.ctxEn c.val = false ∨ s.notReady c.val ≠ none →
        ∃ u, exec (.beq src c v) s = .next u ∧ lost u 2))
    ∧ (s.phase ≠ .service ∨ s.dsp.holdOn = true ∨ (s.beResumable = none ∧ s.bePick = none) →
      exec .bePlacement s = .next s)
    ∧ (s.phase = .service → s.dsp.holdOn = false →
      (∀ r, s.beResumable = some r → r.needLoan = false → r.ctx < 64 →
        let full := 64 * s.ctxSlice r.ctx
        let debt := (s.rget (ctxA r.ctx 0x38)).toNat
        ∃ u, exec .bePlacement s = .next u ∧ OnlyReg s u (ctxA r.ctx 0x38)
          ∧ (full ≠ 0 → (u.rget (ctxA r.ctx 0x38)).toNat = debt - full)
          ∧ (full = 0 → (u.rget (ctxA r.ctx 0x38)).toNat = debt)
          ∧ u = { s with ctl := u.ctl, tiles := u.tiles, saved := u.saved
                         obs := { s.obs with cmds := u.obs.cmds }, dsp := { s.dsp with
            be := s.dsp.be.map (fun x => if x == r then
              { x with saved := false, ran := 0, needLoan := false, len := full - debt, back := [] } else x) } })
      ∧ (∀ k w rest ts, s.beResumable = none → s.bePick = some (k, w, rest, ts) →
        (∀ l ∈ s.loans, l.ctx ≠ k) →
        let want := 4096 * fget w 21 9
        let grant := want ≠ 0 ∧ ∀ j ∈ ts, s.loanTest k want j = true
        let full := 64 * s.ctxSlice k
        let debt := (s.rget (ctxA k 0x38)).toNat
        ∃ u, exec .bePlacement s = .next u ∧ tget [] u.dsp.beq k = rest ∧ u.dsp.lastBE = k
          ∧ (∃ r ∈ u.dsp.be, r.ctx = k ∧ r.tiles = ts ∧ r.g = ts.length ∧ r.pc = 8 * fget w 0 17
            ∧ r.len = full - debt ∧ r.saved = false ∧ r.want = want
            ∧ (grant → r.loan = want) ∧ (¬ grant → r.loan = 0))
          ∧ (grant → ∀ j ∈ ts, ∃ l ∈ u.loans, l.ctx = k ∧ l.tile = j ∧ l.len = want
            ∧ l.part = s.ctxLender k ∧ l.dirty = [])
          ∧ (¬ grant → u.loans = s.loans) ∧ (¬ grant → want ≠ 0 → u.rbit (ctxA k 0x34) 4 = true)
          ∧ (s.streamsOff = true → u.mem = s.mem)))
    ∧ (s.tileBe t.val = none → exec (.sliceExpiry t) s = .next s)
    ∧ (∀ r, s.tileBe t.val = some r →
      let expired := r.heat ≠ 0 ∧ s.ctxSlice r.ctx ≠ 0 ∧ r.len ≤ r.ran ∧ s.beWaits r = true
      (¬ expired → exec (.sliceExpiry t) s = .next s)
      ∧ (expired → ∃ u, exec (.sliceExpiry t) s = .next u
        ∧ u = { s with tiles := u.tiles, dsp := { s.dsp with lastBE := r.ctx } }
        ∧ ∀ j, u.tile j = if j ∈ s.gangOn t.val ∧ (s.tile j).preDue = none ∧ (s.tile j).preq = none then
          { s.tile j with preDue := some 65536 } else s.tile j))
    ∧ (s.dsp.held.find? (fun x => x.key == (p.val, b2n rly)) = none → exec (.pacerRelease p rly) s = .next s)
    ∧ (∀ x, s.dsp.held.find? (fun x => x.key == (p.val, b2n rly)) = some x →
      let rest := s.dsp.held.erase x
      let left (kind n : Nat) : Int := max (s.tokens p.val kind - ((256 * n : Nat) : Int)) (-s.paceCap p.val kind)
      (s.paceAdmits p.val (b2n rly) false = false → exec (.pacerRelease p rly) s = .next s)
      ∧ (s.paceAdmits p.val (b2n rly) false = true →
        (∀ n j k, x = .copy p.val j k n → ∃ u : State, exec (.pacerRelease p rly) s = .next (u.resumeCopy j)
          ∧ u = { s with
              tiles := u.tiles, saved := u.saved
              dsp := { s.dsp with held := rest, tok := u.dsp.tok, acct := u.dsp.acct } }
          ∧ u.tokens p.val 0 = left 0 n
          ∧ ((s.tile j).ctx = some k → u.saved = s.saved
            ∧ ∀ r, (s.tc j).copy = some r → (u.tc j).copy = some { r with held := false })
          ∧ ((s.tile j).ctx ≠ some k → u.tiles = s.tiles ∧ ∀ y r, tfind s.saved (savedKey k j) = some y →
            y.copy = some r → ∃ y', tfind u.saved (savedKey k j) = some y'
              ∧ y'.copy = some { r with held := false })
          ∧ ((∀ r, (u.tc j).copy = some r → r.remote = false) → u.resumeCopy j = u))
        ∧ (∀ k pk, x = .packet p.val k pk → (∀ j < 4, j ≠ k → (s.lnk j).wait = []) → s.linkState k ≠ 7 → ∃ u, exec (.pacerRelease p rly) s = .next u
          ∧ u = { s with links := u.links
                         dsp := { s.dsp with held := rest, tok := u.dsp.tok, acct := u.dsp.acct } }
          ∧ u.tokens p.val 1 = left 1 pk.size
          ∧ u.lnk k = { s.lnk k with wait := (s.lnk k).wait ++ [pk], dry := (u.lnk k).dry })
        ∧ (∀ k pk, x = .packet p.val k pk → (∀ j < 4, j ≠ k → (s.lnk j).wait = []) → s.linkState k = 7 → (s.lnk k).wait = [] → pk.vc < 3 →
          pk.ctl = none → pk.held = none →
          pk.cost ≤ lget 0 (s.lnk k).credits pk.vc → (s.lnk k).replayBytes + pk.size ≤ 32768 →
          ∃ u, exec (.pacerRelease p rly) s = .next u ∧ u.dsp.held = rest
            ∧ u.tokens p.val 1 = left 1 pk.size
            ∧ u.outs = s.outs ++ [.packet k (s.lnk k).nextSeq pk pk.wire]
            ∧ u.lnk k = { s.lnk k with
                replay := (s.lnk k).replay ++ [((s.lnk k).nextSeq, pk)], nextSeq := (s.lnk k).nextSeq + 1
                credits := lset (s.lnk k).credits pk.vc (lget 0 (s.lnk k).credits pk.vc - pk.cost)
                busyTo := max (s.lnk k).busyTo s.now + pk.cycles, dry := (u.lnk k).dry })
        ∧ (∀ k n h a, x = .host p.val k n → h.port.val = k → s.waitingCmd k = some (h, .dread a n) →
          (s.port k).queue = [(h, .dread a n)] → (s.hostAccess k a n false).1 = 0 →
          s.poisoned a n = false → ∃ u, exec (.pacerRelease p rly) s = .next u ∧ u.dsp.held = rest
            ∧ u.tokens p.val 0 = left 0 n ∧ (u.port k).queue = [] ∧ (u.port k).busy = false
            ∧ (s.linkUp k = true → u.outs = s.outs ++ [.frame k
                (let f := s.tfpFrame k h.peer (response h 0x04 0 (s.mread a n) false)
                 f ++ lrep (60 - f.length) 0)]) ∧ u.mem = s.mem)))

/-- Scratchpad loans come back (R300, R302): a reclaim asks the borrower to leave, the lines it wrote go to
its backing share and the region to its lender, and a copy-back brings them again. -/
def Obligations.LoansComeBack : Prop :=
  ∀ (s : State) (t : TileNo),
    let line (k : Nat) : Nat := spadBase t.val + 4096 * k
    let back (c base k : Nat) : Nat := (s.ctxBack c).1 + (4096 * k - base)
    (s.lentOn t.val = none → exec (.loanReclaim t) s = .next s
      ∧ exec (.reclaimWritebackComplete t) s = .next s)
    ∧ (∀ l, s.lentOn t.val = some l →
      let there := ((s.tile t.val).ctx = some l.ctx ∧ (s.tc t.val).heats ≠ [])
        ∨ (s.tile t.val).incoming = some l.ctx
      let placed (r : BeRun) : Bool := r.ctx == l.ctx && r.heat == 0 && r.tiles.contains t.val && r.loan != 0
      ((s.tile t.val).reclaim = true → exec (.loanReclaim t) s = .next s)
      ∧ ((s.tile t.val).reclaim = false → l.ctx < 64 → ∃ u, exec (.loanReclaim t) s = .next u
        ∧ (u.tile t.val).reclaim = true ∧ u.rbit (ctxA l.ctx 0x34) 5 = true ∧ u.loans = s.loans
        ∧ (∀ j, (u.tile j).tc = (s.tile j).tc) ∧ (s.streamsOff = true → u.mem = s.mem)
        ∧ (there → ∀ j ∈ s.gangOn t.val, (u.tile j).preDue.isSome = true ∨ (u.tile j).preq.isSome = true)
        ∧ (¬ there → ∀ j, (u.tile j).preDue = (s.tile j).preDue))
      ∧ ((s.tile t.val).reclaim = false ∨ there → exec (.reclaimWritebackComplete t) s = .next s)
      ∧ ((s.tile t.val).reclaim = true → ¬ there → s.poison = [] → s.streamsOff = true → l.dirty.Nodup →
        (∀ k ∈ l.dirty, l.base ≤ 4096 * k ∧ k < 256) → ∃ u, exec (.reclaimWritebackComplete t) s = .next u
          ∧ (u.tile t.val).reclaim = false
          ∧ (s.dsp.be.find? placed = none → u.loans = s.loans.erase l)
          ∧ (∀ r, s.dsp.be.find? placed = some r →
            (∀ l' ∈ u.loans, l'.ctx = l.ctx → l'.tile ∉ r.tiles)
            ∧ ∃ r' ∈ u.dsp.be, r'.ctx = r.ctx ∧ r'.tiles = r.tiles ∧ r'.loan = 0)
          ∧ (∀ k ∈ l.dirty, ∀ i < 4096, u.mget (back l.ctx l.base k + i) = s.mget (line k + i))
          ∧ (∀ a, (∀ k ∈ l.dirty, a < back l.ctx l.base k ∨ back l.ctx l.base k + 4096 ≤ a) →
            u.mget a = s.mget a)
          ∧ ∀ r ∈ s.dsp.be, r.ctx = l.ctx → r.heat ≠ 0 → t.val ∈ r.tiles →
            (r.saved = true ∨ (s.tile t.val).ctx ≠ some l.ctx) →
            ∃ r' ∈ u.dsp.be, r'.ctx = r.ctx ∧ r'.tiles = r.tiles ∧ r'.saved = true ∧ r'.needLoan = true))
    ∧ (s.tileBe t.val = none ∨ (s.tile t.val).copyBack = false → exec (.loanCopyBackComplete t) s = .next s)
    ∧ (∀ r, s.tileBe t.val = some r → (s.tile t.val).copyBack = true → s.poison = [] →
      (∀ i ∈ r.lines, i / 32 < 256) →
      let base := (s.loanRegion (s.ctxLender r.ctx)).1
      let mine (k : Nat) : Prop := 32 * k + t.val ∈ r.lines
      ∃ u, exec (.loanCopyBackComplete t) s = .next u ∧ (u.tile t.val).copyBack = false
        ∧ (∀ k, mine k → ∀ i < 4096, u.mget (line k + i) = s.mget (back r.ctx base k + i))
        ∧ (∀ a, (∀ k, mine k → a < line k ∨ line k + 4096 ≤ a) → u.mget a = s.mget a)
        ∧ u = { s with mem := u.mem, wrote := u.wrote, tiles := u.tiles, saved := u.saved
                       obs := { s.obs with cmds := u.obs.cmds }, dsp := { s.dsp with acct := u.dsp.acct } })

/-! ## Faults and teardown -/

/-- A reported fault tears its context down (R312-R314, R437): issue, queues, waits, loans and prefetch lists
go, VALID of its save areas is 0, its entries in service leave, and its bib advances unless HURDLE fences it; a
fault of partition scope, found first among those that wait, resets the partition with its verdict. -/
def Obligations.FaultsTearDown : Prop :=
  ∀ (s : State) (c : Fin 64),
    let p := s.ctxPart c.val
    let live := s.ctxState c.val = 1 ∨ s.ctxState c.val = 2
    let mine := s.faults.filter (fun f => f.ctx == c.val)
    let still := (∀ t < 32, (s.tile t).ctx = some c.val → ∀ r, (s.tc t).copy = some r →
        r.remote = true ∨ r.held = true)
      ∧ ∀ j ∈ s.dsp.pf, j.ctx = c.val → j.started = true → j.remote = true
    (mine = [] → exec (.contextFault c) s = .next s)
    ∧ (∀ f, (mine.find? (fun f => decide (7 ≤ f.cause))).or mine.head? = some f →
      (f.cause ≠ 7 → f.cause ≠ 8 → ¬ live → exec (.contextFault c) s = .next { s with
        faults := s.faults.filter (fun g => g.ctx != c.val) })
      ∧ (f.cause ≠ 7 → f.cause ≠ 8 → live → s.streamsOff = true →
        (∀ t < 32, bitAt (s.ctxTiles c.val) t = true →
          (s.ctxSpad c.val).1 + s.cblk t c.val 0x08 4 < 0x100000) →
        ∃ u, exec (.contextFault c) s = .next u ∧ u.ctxState c.val = 3
          ∧ u.ctxBib c.val = (if s.partHurdle p then s.ctxBib c.val else (s.ctxBib c.val + 1) % 256)
          ∧ (∀ g ∈ u.faults, g.ctx ≠ c.val)
          ∧ ⟨c.val, s.partHurdle p, s.ctxBib c.val⟩ ∈ u.dsp.teardowns
          ∧ (∀ t < 32, (s.tile t).ctx = some c.val → (u.tile t).ctx = none ∧ (u.tc t).heats = []
            ∧ (u.tc t).qa = [] ∧ (u.tc t).qt = [] ∧ (u.tc t).qc = [] ∧ (u.tc t).qb = [] ∧ (u.tc t).slots = [])
          ∧ (still → (∀ t < 32, bitAt (s.ctxTiles c.val) t = true → u.mget (s.saveA t c.val) = 0)
            ∧ ∀ a, (∀ t < 32, bitAt (s.ctxTiles c.val) t = true → a ≠ s.saveA t c.val) → u.mget a = s.mget a)
          ∧ tget [] u.dsp.beq c.val = [] ∧ (∀ l ∈ u.loans, l.ctx ≠ c.val)
          ∧ (∀ r ∈ u.dsp.be, r.ctx ≠ c.val) ∧ (∀ j ∈ u.dsp.pf, j.ctx ≠ c.val)
          ∧ (∀ e ∈ u.dsp.look, e.ctx = c.val → e.state = .pending)
          ∧ (∀ w ∈ u.waits, w.ctx = c.val → ∀ t, w.src ≠ .tile t)
          ∧ (tget {} u.dsp.acct c.val).faults = (tget {} s.dsp.acct c.val).faults)
      ∧ (f.cause = 7 ∨ f.cause = 8 → (∀ r ∈ s.health.parts, r.part ≠ p) →
        ∃ u, exec (.contextFault c) s = .next u ∧ u.partState p = 3
          ∧ u.rget (mshA 0x08) = BitVec.ofNat 32
              (verdictCode 3 f.cls p (if f.cause = 7 then 0x04 else 0x03) c.val)
          ∧ (s.loans = [] → s.dsp.be = [] → u.rfld (mshA (0x200 + 4 * p)) 0 16
            = (s.rfld (mshA (0x200 + 4 * p)) 0 16 + 1) % 65536)
          ∧ (live → u.ctxState c.val = 3) ∧ ∃ r ∈ u.health.parts, r.part = p))

/-- Teardowns end (R313, R314, R444), a RESTART context comes back (R315, R341), and an abort reaches its heat
(R178, R179): requests still outstanding at the drain limit are counted away, a teardown past its bound resets
the partition, and an abort's reply carries the counts of unaffected, completed and stopped problems. -/
def Obligations.RecoveryEnds : Prop :=
  ∀ (s : State) (c : Fin 64) (q : Fin 2),
    let p := s.ctxPart c.val
    let td := s.dsp.teardowns.find? (fun t => t.ctx == c.val)
    let fenced := s.dsp.teardowns.find? (fun t => t.ctx == c.val && t.hurdle)
    (td = none → exec (.teardownComplete c) s = .next s ∧ exec (.teardownTimeout c) s = .next s)
    ∧ (∀ t, td = some t →
      let waits := t.hurdle = true ∧ ∃ o ∈ s.outst, o.ctx = c.val ∧ o.bib = t.oldBib
      let gone : State := { s with dsp := { s.dsp with teardowns := s.dsp.teardowns.erase t } }
      (waits → exec (.teardownComplete c) s = .next s)
      ∧ (¬ waits → exec (.teardownComplete c) s = .next (gone.rfldSet (ctxA c.val 0x24) 29 3 4))
      ∧ ((∀ r ∈ s.health.parts, r.part ≠ p) → ∃ u, exec (.teardownTimeout c) s = .next u
        ∧ u.ctxState c.val = 4 ∧ u.rfld (ctxA c.val 0x3C) 24 8 = 8 ∧ u.partState p = 3
        ∧ u.rget (mshA 0x08) = BitVec.ofNat 32 (verdictCode 3 5 p 0x03 c.val)
        ∧ (s.serves c.val = true →
          (tget {} u.dsp.acct c.val).faults = (tget {} s.dsp.acct c.val).faults + 1)
        ∧ ∃ r ∈ u.health.parts, r.part = p))
    ∧ (fenced = none → exec (.hurdleDrainLimit c) s = .next s)
    ∧ (∀ t, fenced = some t →
      let hit (o : Outst) : Bool := o.ctx == c.val && o.bib == t.oldBib
      ∃ u, exec (.hurdleDrainLimit c) s = .next u ∧ OnlyReg s u (mshA 0x1C)
        ∧ u = { s with ctl := u.ctl, outst := s.outst.filter (fun o => !hit o) }
        ∧ (u.rget (mshA 0x1C)).toNat
          = min ((s.rget (mshA 0x1C)).toNat + (s.outst.filter hit).length) 0xFFFFFFFF)
    ∧ (let may := s.ctxState c.val = 4 ∧ s.ctxRestart c.val = true ∧ s.partState p = 1
        ∧ ∀ o ∈ s.outst, o.ctx = c.val → o.bib ≠ s.ctxBib c.val
      (¬ may → exec (.contextReloadComplete c) s = .next s)
      ∧ (may → (s.reloadPart p).2 = none → ∃ u, exec (.contextReloadComplete c) s = .next u
        ∧ u.ctxState c.val = 1 ∧ c.val ∈ u.dsp.readyNext)
      ∧ (s.poisoned s.shadow.1 32768 = true → (s.reloadPart p).2 ≠ none)
      ∧ (∀ sec, may → (s.reloadPart p).2 = some sec →
        ∃ u, exec (.contextReloadComplete c) s = .next u
          ∧ u.rget (mshA 0x08) = BitVec.ofNat 32 (verdictCode 3 3 p 0x05 sec) ∧ p ∈ u.health.dead
          ∧ ∃ r ∈ u.health.parts, r.part = p ∧ r.dead = true))
    ∧ ((∀ h x n, s.waitingCmd q.val ≠ some (h, .abort x n)) → exec (.abortReachesTile q) s = .next s)
    ∧ (∀ h x n, s.waitingCmd q.val = some (h, .abort x n) → h.port = q →
      (s.port q.val).queue = [(h, .abort x n)] →
      (s.heatPlace x n = none → ∃ u, exec (.abortReachesTile q) s = .next u
        ∧ TfpAnswered s u h (.abort x n) 0
          [0x0A, BitVec.ofNat 8 (tget 0 s.dsp.ended (x * 2 ^ 32 + n)), 0, 0]
        ∧ u.tiles = s.tiles ∧ u.mem = s.mem)
      ∧ (∀ t hh r, s.heatPlace x n = some (t, false) → t < 32 → s.working t = false → s.streamsOff = true →
        (s.tc t).heats = [hh] → hh.num = n → hh.tiles = [t] → hh.solve = some r → hh.commits = [] → r.count = 1 →
        (s.tc t).slots = [] → (∀ w ∈ (s.tc t).qa, w.heat ≠ n) → (s.tc t).tensorFinal n = false →
        let a := s.recordA t x (s.slotEnv t x (blankSlot n 0 r.tmpl 8)) r.bank 0
        s.portFault t x a 32 true = 0 →
        ∃ u, exec (.abortReachesTile q) s = .next u ∧ TfpAnswered s u h (.abort x n) 0 [0x08, 0, 0, 1]
          ∧ u.mget (a + 9) = 8 ∧ u.emitQ = s.emitQ
          ∧ (∃ h', (u.tc t).heat? n = some h' ∧ h'.aborted = true ∧ h'.commits = [(0, s.now)])
          ∧ (∀ k, k ≠ t → u.tile k = s.tile k)
          ∧ ∀ b, b < a ∨ a + 32 ≤ b → u.mget b = s.mget b)
      ∧ (∀ t hh w tm cnt xl, s.heatPlace x n = some (t, false) → t < 32 → s.working t = false →
        s.streamsOff = true → (s.tc t).heats = [hh] → hh.num = n → hh.tiles = [t] → hh.commits = [] →
        hh.aborted = false → (s.tc t).qa.find? (fun y => y.heat == n) = some w → w.op = .solve tm cnt xl → 0 < cnt →
        ∃ u, exec (.abortReachesTile q) s = .next u
          ∧ TfpAnswered s u h (.abort x n) 0 [0x08, 0, 0, BitVec.ofNat 8 cnt]))

/-! ## Time and the Ethernet links -/

/-- The Split Timer and its steering (R362, R363, R367, R369, R371-R376): a tick adds INC, a Sync or its
Follow_Up completes an offset, missing offsets end LOCKED, Announces feed the best master clock algorithm, and
the intervals of a port send its messages. -/
def Obligations.TimeIsSteered : Prop :=
  ∀ (s : State) (p : Fin 2) (oneStep : Bool) (seq : BitVec 16) (t2 origin : Nat) (corr rate : Int)
    (vec path : List Nat) (kind : Fin 3),
    let k := p.val
    let on := s.netOn k = true ∧ s.linkUp k = true
    let ptp := on ∧ s.rbit (netA k 0x00) 21 = true
    let got := s.rxFrame k
    let x := s.port k
    let now := s.cycleTime
    let alone := s.ptpRole (1 - k) ≠ 1
    let sync := exec (.sync p oneStep seq t2 origin corr rate) s
    let follow := exec (.followUp p seq origin corr rate) s
    let announce := exec (.announce p vec path) s
    let sends (u : State) (l : List OutMsg) (y : NetPort) : Prop := u.outs = s.outs ++ l ∧ u.port k = y
      ∧ u.port (1 - k) = s.port (1 - k) ∧ OnlyReg s u (netA k 0x24)
      ∧ u = { s with ctl := u.ctl, outs := u.outs, net0 := u.net0, net1 := u.net1 }
    (s.time.running = false → exec .splitTimerTick s = .next s)
    ∧ (s.time.running = true → ∃ u, exec .splitTimerTick s = .next u ∧ u = { s with time := u.time }
      ∧ u.time.split = s.time.split + u.time.inc ∧ u.time.sub = 0
      ∧ u.time.inc = (if s.time.incAt < s.now then s.time.incNext else s.time.inc))
    ∧ (¬ on → sync = .next s ∧ follow = .next s ∧ announce = .next s)
    ∧ (on → ¬ ptp → sync = .next (got.discard k) ∧ follow = .next (got.discard k)
      ∧ announce = .next (got.discard k))
    ∧ (ptp → s.ptpRole k ≠ 2 → sync = .next got ∧ follow = .next got)
    ∧ (ptp → s.ptpRole k = 2 → oneStep = false →
      sync = .next (got.modPort k (fun x => { x with sync := some ⟨seq.toNat, t2, now⟩ })))
    ∧ (ptp → s.ptpRole k = 2 → oneStep = true → alone →
      ∃ u, sync = .next u ∧ SyncCompletes s u k t2 origin corr rate ∧ u.port k = s.port k)
    ∧ (ptp → s.ptpRole k = 2 → x.sync = none → follow = .next got)
    ∧ (∀ y, ptp → s.ptpRole k = 2 → x.sync = some y →
      (y.seq ≠ seq.toNat → follow = .next got)
      ∧ (y.seq = seq.toNat → y.at' + s.syncInterval k < now →
        follow = .next (got.modPort k (fun x => { x with sync := none })))
      ∧ (y.seq = seq.toNat → now ≤ y.at' + s.syncInterval k → alone →
        ∃ u, follow = .next u ∧ SyncCompletes s u k y.t2 origin corr rate
          ∧ u.port k = { s.port k with sync := none }))
    ∧ (ptp → s.ptpRole k = 2 → oneStep = true → s.ptpRole (1 - k) = 1 → s.ptpOn (1 - k) = true →
      s.streamsOff = true → ∃ u, sync = .next u
        ∧ u.outs = s.outs ++ [.ptp (1 - k) 0 (s.port (1 - k)).syncSeq 0 now [],
          .ptp (1 - k) 1 (s.port (1 - k)).syncSeq (corr + ((now : Int) - t2).fdiv (2 ^ 16)) origin
            [(BitVec.ofInt 32 (rate + x.ratio)).toNat]]
        ∧ (u.port (1 - k)).syncSeq = ((s.port (1 - k)).syncSeq + 1) % 65536)
    ∧ (s.timeState = 1 → s.role ≠ 2 → ∃ u, exec .syncReceiptTimeout s = .next u ∧ u.timeState = 2
      ∧ u.time.split = s.time.split ∧ u.time.servoStale = true
      ∧ ∀ n, s.servoLoop = some n → u.rfld (loopA n 0x00) 0 2 = 1
        ∧ (s.rbit (loopA n 0x60) 25 = false → u.rget (loopA n 0x54) = s.rget (loopA n 0x7C))
        ∧ (s.rbit (loopA n 0x60) 25 = true →
          u.rget (loopA n 0x54) = BitVec.ofInt 32 ((s.time.incNext : Int) - 0x400000000)))
    ∧ (s.timeState ≠ 1 ∨ s.role = 2 → exec .syncReceiptTimeout s = .next s)
    ∧ (ptp → vec.length = 8 →
      let ignored := lget 0 vec 7 / 65536 = s.clockId ∨ 255 ≤ lget 0 vec 6 ∨ s.clockId ∈ path
      let worse := ∃ a, x.ann = some a ∧ vecLe vec a.vec = false ∧ lget 0 a.vec 7 ≠ lget 0 vec 7
      (ignored → announce = .next got)
      ∧ (¬ ignored → ∃ u, announce = .next u ∧ BmcaHolds u ∧ (worse → (u.port k).ann = x.ann)
        ∧ (¬ worse → (u.port k).ann = some ⟨vec, path⟩) ∧ u.port (1 - k) = s.port (1 - k)
        ∧ (s.servoLoop ≠ none → s.role ≠ 2 → s.timeState = 1 →
          (u.gmId ≠ s.gmId ∧ u.gmId ≠ 0) ∨ (s.slavePort ≠ 0 ∧ u.slavePort ≠ s.slavePort) → u.timeState = 2)
        ∧ u.time.split = s.time.split))
    ∧ (∃ u, exec (.announceReceiptTimeout p) s = .next u ∧ BmcaHolds u
      ∧ u.port k = { x with ann := none } ∧ u.port (1 - k) = s.port (1 - k) ∧ u.time.split = s.time.split)
    ∧ (¬ ptp → exec (.ptpMessageInterval p kind) s = .next s)
    ∧ (ptp → kind = 0 → s.ptpRole k = 1 → s.rbit (splA 0x04) 29 = true →
      ∃ u, exec (.ptpMessageInterval p kind) s = .next u ∧ sends u [.ptp k 0 x.syncSeq 0 now [],
        .ptp k 1 x.syncSeq 0 now [0]] { x with syncSeq := (x.syncSeq + 1) % 65536 })
    ∧ (ptp → kind = 1 → s.ptpRole k = 1 → s.gmId ≠ 0 →
      let v := match s.bestPort with
        | some b => (s.portVec b).getD []
        | none => s.ownVec
      let from' := match s.bestPort with
        | some b => ((s.port b).ann.map AnnInfo.path).getD []
        | none => []
      ∃ u, exec (.ptpMessageInterval p kind) s = .next u
        ∧ sends u [.ptp k 5 x.annSeq 0 now (lset v 7 (s.clockId * 65536 + (k + 1)) ++ from' ++ [s.clockId])]
          { x with annSeq := (x.annSeq + 1) % 65536 })
    ∧ (ptp → kind = 0 → ¬ (s.ptpRole k = 1 ∧ s.rbit (splA 0x04) 29 = true) →
      exec (.ptpMessageInterval p kind) s = .next s)
    ∧ (ptp → kind = 1 → ¬ (s.ptpRole k = 1 ∧ s.gmId ≠ 0) → exec (.ptpMessageInterval p kind) s = .next s)
    ∧ (ptp → kind = 2 →
      let asked : NetPort := { x with
        pdReq := some (x.pdSeq, now), pdResp := none, pdSeq := (x.pdSeq + 1) % 65536 }
      ∃ u, exec (.ptpMessageInterval p kind) s = .next u
        ∧ (x.pdReq = none → sends u [.ptp k 2 x.pdSeq 0 now []] asked)
        ∧ (x.pdReq.isSome = true → x.lost < 9 →
          sends u [.ptp k 2 x.pdSeq 0 now []] { asked with lost := x.lost + 1 })
        ∧ (x.pdReq.isSome = true → 9 ≤ x.lost → u.port k = asked ∧ u.rbit (netA k 0x18) 24 = false
          ∧ BmcaHolds u ∧ (s.streamsOff = true → u.outs = s.outs ++ [.ptp k 2 x.pdSeq 0 now []])))

/-- Peer delay and the Ethernet links (R346-R348, R367, R377): a Pdelay_Req is answered, a completed exchange
gives meanLinkDelay, links come and go with the port's PTP knowledge, ARP requests for the port's address are
answered, and every other frame is discarded and counted. -/
def Obligations.PeerDelayAndEthernet : Prop :=
  ∀ (s : State) (p : Fin 2) (seq : BitVec 16) (t2 t3 t4 source : Nat) (ratio : Int) (capable : Bool)
    (rate : Fin 3) (master : Bool) (target : Word) (mac : BitVec 48) (ip : Word),
    let k := p.val
    let on := s.netOn k = true ∧ s.linkUp k = true
    let ptp := on ∧ s.rbit (netA k 0x00) 21 = true
    let got := s.rxFrame k
    let x := s.port k
    let req := exec (.pdelayReq p seq t2 source) s
    let resp := exec (.pdelayResp p seq t2 t4) s
    let follow := exec (.pdelayRespFollowUp p seq t3 ratio capable) s
    let arp := exec (.arpRequest p target mac ip) s
    (¬ on → req = .next s ∧ resp = .next s ∧ follow = .next s ∧ arp = .next s
      ∧ exec (.frameDiscard p) s = .next s)
    ∧ (on → ¬ ptp → req = .next (got.discard k) ∧ resp = .next (got.discard k)
      ∧ follow = .next (got.discard k))
    ∧ (ptp → ∃ u, req = .next u ∧ u = { s with ctl := u.ctl, outs := u.outs }
      ∧ u.outs = s.outs ++ [.ptp k 3 seq.toNat 0 t2 [source], .ptp k 4 seq.toNat 0 s.cycleTime [source]]
      ∧ ∀ a, a ≠ netA k 0x20 → a ≠ netA k 0x24 → u.rget a = s.rget a)
    ∧ (ptp → x.pdReq.map Prod.fst = some seq.toNat →
      resp = .next (got.modPort k (fun x => { x with pdResp := some (t2, t4) })))
    ∧ (ptp → x.pdReq.map Prod.fst ≠ some seq.toNat → resp = .next got ∧ follow = .next got)
    ∧ (ptp → x.pdResp = none → follow = .next got)
    ∧ (∀ t1 a b, ptp → x.pdReq = some (seq.toNat, t1) → x.pdResp = some (a, b) →
      let trip : Int := ((b : Int) - t1) * (2 ^ 41 + ratio) - ((t3 : Int) - a) * 2 ^ 41
      ∃ u, follow = .next u ∧ (u.rget (netA k 0x34)).toNat = min (trip.fdiv (2 ^ 70)).toNat 0xFFFFFFFF
        ∧ u.rbit (netA k 0x18) 24 = capable ∧ BmcaHolds u
        ∧ u.port k = { x with pdReq := none, pdResp := none, lost := 0, ratio := ratio, delay := trip }
        ∧ u.port (1 - k) = s.port (1 - k) ∧ u.time.split = s.time.split)
    ∧ (let may := s.netOn k = true ∧ s.linkUp k = false ∧ x.waiting = false
      let fixed := s.rfld (netA k 0x00) 29 2
      let role := s.rfld (netA k 0x00) 27 2
      let fits := (fixed = 0 ∧ s.rbit (netA k 0x00) (26 - rate.val) = true ∨ fixed = rate.val + 1)
        ∧ (role = 0 ∨ role = 1 ∧ master = true ∨ role = 2 ∧ master = false)
      (¬ may → exec (.ethernetLinkUp p rate master) s = .next s ∧ exec (.ethernetTrainingFailed p) s = .next s)
      ∧ (¬ fits → exec (.ethernetLinkUp p rate master) s = .next s)
      ∧ (may → fits → ∃ u, exec (.ethernetLinkUp p rate master) s = .next u ∧ u.linkUp k = true
        ∧ u.rfld (netA k 0x18) 29 2 = rate.val + 1 ∧ u.rbit (netA k 0x18) 28 = master
        ∧ u.port k = { x with fails := 0 } ∧ BmcaHolds u ∧ (s.streamsOff = true → u.mem = s.mem))
      ∧ (may → x.fails < 4 → exec (.ethernetTrainingFailed p) s = .next
        (s.setPort k { x with fails := x.fails + 1 }))
      ∧ (may → 4 ≤ x.fails → ∃ u, exec (.ethernetTrainingFailed p) s = .next u
        ∧ u.port k = { x with fails := x.fails + 1, waiting := true } ∧ u.rbit (netA k 0x18) 27 = true
        ∧ OnlyReg s u (netA k 0x18) ∧ u = { s with ctl := u.ctl, net0 := u.net0, net1 := u.net1 }))
    ∧ (exec (.ethernetTrainRetry p) s = .next (s.setPort k { x with waiting := false }))
    ∧ (s.linkUp k = false → exec (.ethernetLinkLoss p) s = .next s)
    ∧ (s.linkUp k = true → ∃ u, exec (.ethernetLinkLoss p) s = .next u ∧ u.linkUp k = false
      ∧ u.rfld (netA k 0x18) 29 2 = 0 ∧ u.rbit (netA k 0x18) 24 = false ∧ u.ptpRole k = 0
      ∧ (u.rget (netA k 0x30)).toNat = min ((s.rget (netA k 0x30)).toNat + 1) 0xFFFFFFFF
      ∧ u.port k = { x with pdReq := none, pdResp := none, lost := 0, sync := none, ann := none } ∧ BmcaHolds u
      ∧ (s.streamsOff = true → u.mem = s.mem))
    ∧ (on → exec (.frameDiscard p) s = .next (got.discard k))
    ∧ (on → target.toNat ≠ s.portIp k ∨ target = 0 → arp = .next (got.discard k))
    ∧ (on → target.toNat = s.portIp k → target ≠ 0 →
      let f := beBytes 6 mac.toNat ++ beBytes 6 (s.portMac k) ++ [0x08, 0x06, 0x00, 0x01, 0x08, 0x00,
          0x06, 0x04, 0x00, 0x02] ++ beBytes 6 (s.portMac k) ++ beBytes 4 (s.portIp k)
        ++ beBytes 6 mac.toNat ++ beBytes 4 ip.toNat
      ∃ u, arp = .next u ∧ u.outs = s.outs ++ [.frame k (f ++ lrep (60 - f.length) 0)]
        ∧ (∀ a, a ≠ netA k 0x20 → a ≠ netA k 0x24 → u.rget a = s.rget a)
        ∧ u = { s with ctl := u.ctl, outs := u.outs })

/-! ## Host requests -/

/-- A command frame reaches its port (R348, R350, R351, R354, R355): a port without link sees nothing, an
encapsulation not enabled is discarded, a busy port queues it, a repeated SEQ is answered from the replay
store or with STALE and not executed again, and a malformed one is answered with BAD_FORMAT. -/
def Obligations.HostFrames : Prop :=
  ∀ (s : State) (c : Instr) (h : TfpHdr) (op : TfpOp), tfpOf c = some (h, op) →
    let k := h.port.val
    let x := s.port k
    let on := s.netOn k = true ∧ s.linkUp k = true
    let sent (u : State) (r : List Byte) : Prop := u.outs = s.outs ++ [.frame k
      (let f := s.tfpFrame k h.peer r; f ++ lrep (60 - f.length) 0)]
    (¬ on → exec c s = .next s)
    ∧ (on → s.tfpAccepts h = false → exec c s = .next ((s.rxFrame k).discard k))
    ∧ (on → s.tfpAccepts h = true → x.busy = true →
      exec c s = .next ((s.rxFrame k).setPort k { x with queue := x.queue ++ [(h, op)] }))
    ∧ (s.tfpTakes h → op.malformed = false → s.tfpFresh h = false → ¬ s.tfpNewer h →
      (∀ r, x.store.find? (fun e => e.1 == h.seq.toNat) = some (h.seq.toNat, r) →
        ∃ u, exec c s = .next u ∧ sent u ([r.headD 0, 0x81] ++ r.drop 2) ∧ u.port k = x
          ∧ u.rfld (netA k 0x2C) 16 16 = min (s.rfld (netA k 0x2C) 16 16 + 1) 65535
          ∧ u = { s with ctl := u.ctl, outs := u.outs, net0 := u.net0, net1 := u.net1 })
      ∧ (x.store.find? (fun e => e.1 == h.seq.toNat) = none → s.streamsOff = true →
        ∃ u, exec c s = .next u ∧ sent u (response h op.code 6 [] false) ∧ u.port k = x
          ∧ u.rfld (netA k 0x2C) 0 16 = min (s.rfld (netA k 0x2C) 0 16 + 1) 65535
          ∧ u = { s with ctl := u.ctl, outs := u.outs, net0 := u.net0, net1 := u.net1 }))
    ∧ (s.tfpTakes h → op.malformed = true → ∃ u, exec c s = .next u
      ∧ sent u (response h op.code 7 [] false) ∧ u.port k = x
      ∧ u = { s with ctl := u.ctl, outs := u.outs, net0 := u.net0, net1 := u.net1 })
    ∧ (∀ b : Byte, (¬ on → exec (.tfpMalformedFrame h b) s = .next s)
      ∧ (on → s.tfpAccepts h = false → exec (.tfpMalformedFrame h b) s = .next ((s.rxFrame k).discard k))
      ∧ (on → s.tfpAccepts h = true → ∃ u, exec (.tfpMalformedFrame h b) s = .next u
        ∧ sent u (response h b.toNat 7 [] false)
        ∧ (∀ a, a ≠ netA k 0x20 → a ≠ netA k 0x24 → u.rget a = s.rget a)
        ∧ u = { s with ctl := u.ctl, outs := u.outs }))

/-- What an executed command answers and does (R353-R359, R447, R448): control words read and written in
ascending order, a modify that writes one cycle after its read, data space read and written within the
partition's rights and pacer, an abort that waits for its tiles, subscriptions, MSH_STAT and its counts, and the
resets that EXPECT admits. -/
def Obligations.HostRequests : Prop :=
  (∀ (s : State) (c : Instr) (h : TfpHdr) (op : TfpOp), tfpOf c = some (h, op) → s.tfpTakes h →
    op.malformed = false → (s.tfpFresh h = true ∨ s.tfpNewer h) →
    let k := h.port.val
    let o := s.tfpOpened h op
    let still (u : State) : Prop := (∀ a, ¬ netCounts k a → u.rget a = o.rget a)
      ∧ u = { o with ctl := u.ctl, outs := u.outs, net0 := u.net0, net1 := u.net1 }
    let answersIn (b : State) (st : Nat) (pl : List Byte) (P : State → Prop) : Prop :=
      ∃ u, exec c s = .next u ∧ TfpAnswered b u h op st pl ∧ P u
    let answers (st : Nat) (pl : List Byte) (P : State → Prop) : Prop := answersIn o st pl P
    let held (P : State → Prop) : Prop := ∃ u, exec c s = .next u ∧ (u.port k).queue = [(h, op)]
      ∧ (u.port k).busy = true ∧ u.outs = s.outs ∧ P u
    let locked := s.sbLock = true
    let access (a n : Nat) (w : Bool) := s.hostAccess k a n w
    let paced (p : Nat) := s.paceAdmits p 0 false = true ∧ s.holds p 0 = false
    let toks (u : State) (p n : Nat) : Prop :=
      u.tokens p 0 = max (s.tokens p 0 - ((256 * n : Nat) : Int)) (-s.paceCap p 0)
    let gen (p : Nat) := s.rfld (mshA (0x200 + 4 * p)) 0 16
    (∀ d, op = .echo d → answers 0 d still)
    ∧ (∀ a n, op = .cread a n → o.readHung a n = true → held (fun _ => True))
    ∧ (∀ a n, op = .cread a n → o.readHung a n = false →
      let r := o.creadGo k a n
      answersIn r.1 r.2.2.2 (doneFail r.2.2.1 r.2.2.2 n ++ r.2.1) (fun u =>
        (∀ b, ¬ netCounts k b → u.rget b = r.1.rget b) ∧ u.mem = s.mem)
      ∧ (r.2.2.2 = 0 → r.2.2.1 = n ∧ r.2.1.length = 4 * n))
    ∧ (∀ a, op = .cread a 1 → o.readHung a 1 = false → (o.readReg k a).2.2 = 0 →
      answers 0 ([0, 1, 0, 1] ++ beWord (o.readReg k a).2.1) (fun _ => True))
    ∧ (¬ locked → (∀ a n, op ≠ .cread a n) → (∀ d, op ≠ .echo d) → answers 8 [] still)
    ∧ (locked →
      (∀ a ws, op = .cwrite a ws →
        let r := o.cwriteGo k a ws
        answersIn r.1 r.2.2 (doneFail r.2.1 r.2.2 ws.length) (fun u => ∀ b, ¬ netCounts k b → u.rget b = r.1.rget b)
        ∧ (r.2.2 = 0 → r.2.1 = ws.length))
      ∧ (∀ a w, op = .cwrite a [w] → (o.writeReg k a w).2 = 0 → answersIn (o.writeReg k a w).1 0 [0, 1, 0, 1] (fun u =>
        ∀ b, ¬ netCounts k b → u.rget b = (o.writeReg k a w).1.rget b))
      ∧ (∀ a m v, op = .cmodify a m v →
        (regSpec a = none → answers 1 (beWord 0) still)
        ∧ (let r := o.readReg k a
           let w := (r.2.1 &&& ~~~m) ||| (v &&& m)
           regSpec a ≠ none → (o.mayWrite k a w = false → answers 3 (beWord 0) still)
            ∧ (o.mayWrite k a w = true → r.2.2 ≠ 0 → answersIn r.1 r.2.2 (beWord 0) (fun u =>
              ∀ b, ¬ netCounts k b → u.rget b = r.1.rget b))
            ∧ (o.mayWrite k a w = true → r.2.2 = 0 → held (fun u => (u.port k).modify = some r.2.1
              ∧ (∀ b, ¬ netCounts k b → u.rget b = r.1.rget b) ∧ u.mem = s.mem))))
      ∧ (∀ a n, op = .dread a n →
        ((access a n false).1 ≠ 0 → answers (access a n false).1 [] still)
        ∧ ((access a n false).1 = 0 → (∀ p, (access a n false).2 = some p → paced p) →
          (s.poisoned a n = false → answers 0 (s.mread a n) (fun u => u.mem = s.mem
            ∧ ∀ p, (access a n false).2 = some p → toks u p n))
          ∧ (s.poisoned a n = true → s.streamsOff = true → answers 5 [] (fun u => u.mem = s.mem)))
        ∧ (∀ p, (access a n false).1 = 0 → (access a n false).2 = some p → ¬ paced p →
          held (fun u => u.dsp.held = s.dsp.held ++ [.host p k n])))
      ∧ (∀ a d, op = .dwrite a d →
        ((access a d.length true).1 ≠ 0 → answers (access a d.length true).1 [] still)
        ∧ ((access a d.length true).1 = 0 → (∀ p, (access a d.length true).2 = some p → paced p) →
          answers 0 [] (fun u => (∀ (i : Nat) (h : i < d.length), u.mget (a + i) = d[i])
            ∧ (∀ b, b < a ∨ a + d.length ≤ b → u.mget b = s.mget b)
            ∧ ∀ p, (access a d.length true).2 = some p → toks u p d.length))
        ∧ (∀ p, (access a d.length true).1 = 0 → (access a d.length true).2 = some p → ¬ paced p →
          held (fun u => u.mem = s.mem ∧ u.dsp.held = s.dsp.held ++ [.host p k d.length])))
      ∧ (∀ x n, op = .abort x n →
        (64 ≤ x → answers 9 [] still)
        ∧ (x < 64 → s.permPart k (s.ctxPart x) = false → answers 3 [] still)
        ∧ (x < 64 → s.permPart k (s.ctxPart x) = true → s.heatBegun x n = false → answers 9 [] still)
        ∧ (x < 64 → s.permPart k (s.ctxPart x) = true → s.heatBegun x n = true →
          held (fun u => u.tiles = s.tiles ∧ u.mem = s.mem)))
      ∧ (∀ st en, op = .tsub st en → answers 0 [] (fun u =>
        (∀ b ∈ u.obs.subs, b.port = h.port → b.stream = st → b.peer = h.peer →
          en = true ∧ b.session = h.session.toNat ∧ b.recs = [] ∧ b.seq = 0)
        ∧ (en = true → ∃ b ∈ u.obs.subs, b.port = h.port ∧ b.stream = st ∧ b.peer = h.peer)
        ∧ (∀ b, ¬ (b.port = h.port ∧ b.stream = st ∧ b.peer = h.peer) →
          (b ∈ u.obs.subs ↔ b ∈ s.obs.subs))))
      ∧ (op = .health → answers 0 (beWord (s.rget (mshA 0x04)) ++ beWord (s.rget (mshA 0x14))
        ++ beWord (s.rget (mshA 0x10)) ++ beWord (s.rget (mshA 0x08))) still)
      ∧ (∀ p e, op = .reinit p e →
        let reply (r : Nat) := leBytes 4 r ++ beBytes 4 (gen p)
        let down := p ∈ s.health.dead ∧ s.partState p = 0
        (16 ≤ p → answers 7 [] still)
        ∧ (p < 16 → s.permPart k p = false → answers 3 [] still)
        ∧ (p < 16 → s.permPart k p = true → down → answers 0 (reply 2) still)
        ∧ (p < 16 → s.permPart k p = true → ¬ down → s.partState p = 3 → held (fun _ => True))
        ∧ (p < 16 → s.permPart k p = true → ¬ down → s.partState p ≠ 3 → e ≠ gen p → answers 0 (reply 1) still)
        ∧ (p < 16 → s.permPart k p = true → ¬ down → s.partState p ≠ 3 → e = gen p → s.partEn p = false →
          answers 2 [] still)
        ∧ (p < 16 → s.permPart k p = true → ¬ down → s.partState p ≠ 3 → e = gen p → s.partEn p = true →
          (∀ r ∈ s.health.parts, r.part ≠ p) → s.streamsOff = true → s.waits = [] →
          (∀ t < 32, (s.tile t).ctx = none) → answers 0 (reply 0) (fun u => u.partState p = 3
            ∧ u.rget (mshA 0x08) = BitVec.ofNat 32 (verdictCode 3 0 p 0x07 k)
            ∧ ∃ r ∈ u.health.parts, r.part = p ∧ r.force = true)))
      ∧ (∀ e dev, op = (if dev = true then .devreset e else .pwrcycle e) →
        let due := (∃ q, (dev, q) ∈ s.health.ordered) ∨ (dev = false ∧ s.pins.pwrReq = true)
        (s.permDev k = false → answers 3 [] still)
        ∧ (s.permDev k = true → e ≠ (s.rget (mshA 0x14)).toNat ∨ due → answers 0 (leBytes 4 1) still)
        ∧ (s.permDev k = true → e = (s.rget (mshA 0x14)).toNat → ¬ due → answers 0 [0, 0, 0, 0] (fun u =>
          u.health = { s.health with ordered := s.health.ordered ++ [(dev, k)] } ∧ u.pins = s.pins ∧ u.tiles = s.tiles)))))
  ∧ (∀ (s : State) (p : Fin 2) (h : TfpHdr) (a : Nat) (m v old : Word) (r : RegSpec),
    let k := p.val
    let w := (old &&& ~~~m) ||| (v &&& m)
    let res := response h 0x03 0 (beWord old) false
    s.pending = [] → s.phase ≠ .off → s.streamsOff = true → (s.port (1 - k)).modify = none →
    (s.port k).modify = some old → s.waitingCmd k = some (h, .cmodify a m v) → h.port = p →
    (s.port k).queue = [(h, .cmodify a m v)] → regSpec a = some r → a < 0x00060000 → plainReg a →
    s.accepts k a w → ¬ netCounts k a → (∀ e, tfind s.ue a = some e → e.1 ≠ s.now + 1) → ∃ u, step s = .next u
      ∧ u.rget a = plainWord r.rw r.w1c (s.rget a) w ∧ (u.port k).modify = none ∧ (u.port k).queue = []
      ∧ (u.port k).busy = false ∧ (∃ l, (u.port k).store = l ++ [(h.seq.toNat, res)])
      ∧ (s.linkUp k = true → u.outs = s.outs ++ [.frame k
          (let f := u.tfpFrame k h.peer res; f ++ lrep (60 - f.length) 0)]))

/-- Telemetry and the observation buckets (R463, R464): a flushed frame of whole records goes when its port's
bucket holds its length, and held records reach their memory rings while the bucket is not negative. -/
def Obligations.StreamsDrain : Prop :=
  ∀ (s : State) (port : Fin 2) (stream : Fin 4) (peer : Peer),
    let which := s.obs.subs.findIdx? (fun b => b.port == port && b.stream == stream.val && b.peer == peer)
    let flush := exec (.telemetryFlush port stream peer) s
    (which = none → flush = .next s)
    ∧ (∀ i b, which = some i → s.obs.subs[i]? = some b →
      let f := s.telemFrame b
      let need := wireLen f * 10000
      (b.recs = [] → flush = .next s)
      ∧ (b.recs ≠ [] → s.linkUp port.val = true → lget 0 s.obs.portTok port.val < need →
        flush = .next (s.setSub i { b with due := true }))
      ∧ (b.recs ≠ [] → s.linkUp port.val = true → need ≤ lget 0 s.obs.portTok port.val →
        ∃ u, flush = .next u ∧ u.outs = s.outs ++ [.frame port.val (f ++ lrep (60 - f.length) 0)]
          ∧ u.obs = { s.obs with
              subs := lset s.obs.subs i { b with
                recs := b.recs.drop (fitRecs 1424 b.recs).length, seq := (b.seq + 1) % 2 ^ 32
                dropped := 0
                due := decide (1424 < ((b.recs.drop (fitRecs 1424 b.recs).length).map List.length).sum) }
              portTok := lset s.obs.portTok port.val (lget 0 s.obs.portTok port.val - need) }
          ∧ OnlyReg s u (netA port.val 0x24) ∧ u = { s with ctl := u.ctl, outs := u.outs, obs := u.obs }))
    ∧ (s.obs.subs = [] → s.obs.buf = [] ∨ s.obs.memTok < 0 → exec .obsPacerRelease s = .next s)
    ∧ (∀ k l, s.obs.subs = [] → s.obs.buf = [(k, l)] → k ≠ 3 → 0 ≤ s.obs.memTok →
      let size := s.rfld (obufA k.val 4) 0 16 * 65536
      let base := s.rfld (obufA k.val 0) 0 20 * 65536
      let at' := (s.rget (obufA k.val 8)).toNat
      ∃ u, exec .obsPacerRelease s = .next u ∧ u.obs.buf = []
        ∧ u.obs.memTok = max (s.obs.memTok - ((256 * l.length : Nat) : Int)) (-s.obsCap)
        ∧ OnlyReg s u (obufA k.val 8)
        ∧ (at' < size → l.length ≤ size →
          (u.rget (obufA k.val 8)).toNat = (at' + l.length) % size % 2 ^ 32
          ∧ (∀ (i : Nat) (h : i < l.length), u.mget (base + (at' + i) % size) = l[i])
          ∧ ∀ a, (∀ i < l.length, a ≠ base + (at' + i) % size) → u.mget a = s.mget a))

/-! ## Marshal -/

/-- Hang detection (R435-R439, R445): snapshots are kept while HDET_EN is set, a closed set in which nothing
completed between two of them is a hang, the stall watchdog reports a node that waits on nothing that waits,
a delayed reset begins when its delay ends, and a read of a hung unit's ring is answered with poison. -/
def Obligations.HangsAreBroken : Prop :=
  ∀ (s : State) (env : List GSnap) (node : GNode) (c : Fin 64) (p : Fin 2),
    let free (l : List GSnap) : List GSnap := l.filter (fun g => !s.hungNodes.contains g.node)
    let sets := (hungSets (free s.health.before) (free s.health.last)).map (fun l => l.map GSnap.node)
    let idle := s.waitingCmd 0 = none ∧ s.waitingCmd 1 = none
    (s.rbit (mshA 0x00) 31 = true → ∃ seen, exec (.graphSnapshot env) s = .next
        { s with health := { s.health with
            before := s.health.last, last := seen
            doms := (s.graph env).map (fun x => (x.node, (s.livePart x.node).getD 16, s.liveDev x.node))
            snapAt := some s.now, again := s.health.last.map GSnap.node } }
      ∧ ∀ x, x ∈ seen ↔ x ∈ s.graph env ∧ (x.node ∉ s.health.last.map GSnap.node
        ∨ ∃ y z, (s.graphStart.graph env).find? (fun g => g.node == x.node) = some y
          ∧ (s.graph env).find? (fun g => g.node == x.node) = some z ∧ y.mark = z.mark))
    ∧ (s.rbit (mshA 0x00) 31 = false → exec (.graphSnapshot env) s = .next
      { s with health := { s.health with before := [], last := [], doms := [], snapAt := none, again := [] } })
    ∧ (s.rbit (mshA 0x00) 31 = false ∨ sets = [] → exec .graphSearchEnd s = .next s)
    ∧ (∀ ns, s.rbit (mshA 0x00) 31 = true → sets = [ns] → ∃ u, exec .graphSearchEnd s = .next u
      ∧ HangDeclared s u ns 31 0x01 ns.length
      ∧ ((s.hangDomain ns).1 ≠ 5 ∨ s.rfld (mshA 0x00) 16 8 ≠ 0 →
        u.health.before = s.health.before.filter (fun g => !ns.contains g.node)
        ∧ u.health.last = s.health.last.filter (fun g => !ns.contains g.node)))
    ∧ (s.health.delayed = [] → exec .rholdExpiry s = .next s)
    ∧ (∀ r rest, s.health.delayed = r :: rest → s.resetting r.1 = false → idle →
      ∃ u, exec .rholdExpiry s = .next u ∧ ResetBegins u r.1
        ∧ (r.1.1 ≠ 5 → 1 ≤ r.1.1 → r.1.1 ≤ 4 → u.health.delayed = rest
          ∧ (rest = [] → u.rbit (mshA 0x04) 27 = false)))
    ∧ ((∀ x ∈ s.graph env, x.node ≠ node) ∨ s.rfld (mshA 0x00) 0 16 = 0 ∨ s.watched node = false →
      exec (.stallWatchdogExpiry node c env) s = .next s)
    ∧ (∀ x, (s.graph env).find? (fun g => g.node == node) = some x → s.rfld (mshA 0x00) 0 16 ≠ 0 →
      s.watched node = true →
      let on := ∀ e ∈ x.edges, ∀ g ∈ s.graph env, g.node ≠ e
      let stall := exec (.stallWatchdogExpiry node c env) s
      (¬ on → stall = .next s)
      ∧ (on → 8 ≤ node.kind → ∃ u, stall = .next u ∧ HangDeclared s u [node] 30 0x02 node.kind)
      ∧ (on → node.kind = 4 → ∃ u, stall = .next u ∧ u.rbit (mshA 0x04) 30 = true
        ∧ u.rfld (ctxA c.val 0x3C) 24 8 = 7 ∧ (s.streamsOff = true → u.mem = s.mem))
      ∧ (on → node.kind = 7 → node.a < 64 → ∃ u, stall = .next u ∧ u.rbit (mshA 0x04) 30 = true
        ∧ u.rfld (ctxA node.a 0x3C) 24 8 = 7 ∧ (s.streamsOff = true → u.mem = s.mem))
      ∧ (on → node.kind = 1 ∨ node.kind = 2 ∨ node.kind = 3 → ∃ u, stall = .next u
        ∧ u.rbit (mshA 0x04) 30 = true ∧ u.rfld (ctxA (s.ctxOn node.a) 0x3C) 24 8 = 7
        ∧ (s.streamsOff = true → u.mem = s.mem)))
    ∧ ((∀ h a n, s.waitingCmd p.val ≠ some (h, .cread a n)) →
      exec (.observationReadTimeout p) s = .next s)
    ∧ (∀ h a n, s.waitingCmd p.val = some (h, .cread a n) → h.port = p →
      (s.port p.val).queue = [(h, .cread a n)] → s.streamsOff = true →
      let unit := s.hungUnit a n
      ∃ u, exec (.observationReadTimeout p) s = .next u
        ∧ TfpAnswered s u h (.cread a n) 0
          (doneFail n 0 n ++ (List.replicate n (beWord 0xDEADDEAD)).flatten)
        ∧ u.rbit (mshA 0x04) 29 = true
        ∧ (u.rget (mshA 0x20)).toNat = min ((s.rget (mshA 0x20)).toNat + 1) 0xFFFFFFFF
        ∧ u.rget (mshA 0x08) = BitVec.ofNat 32 (verdictCode 0 unit.1 unit.2 0x0C (unit.1 * 32 + unit.2))
        ∧ u.tiles = s.tiles ∧ u.mem = s.mem)

/-- The ends of resets (R303, R440, R441): a tile or cluster comes back with its state cleared and its
scratchpad and saved heats kept, a partition enters RECOVERY or goes down, and its reload returns it to service
at the next boundary or takes it down. -/
def Obligations.ResetsEnd : Prop :=
  ∀ (s : State) (t : TileNo) (p : Fin 16),
    let unit := s.health.units.find? (fun u => (u.1 == 1 && u.2 == t.val) || (u.1 == 2 && u.2 == t.val / 8))
    let part := s.health.parts.find? (fun r => r.part == p.val)
    let idle := s.waitingCmd 0 = none ∧ s.waitingCmd 1 = none
    let mine (c : Nat) : Prop := s.ctxEn c = true ∧ s.ctxPart c = p.val
    (unit = none → exec (.tileResetComplete t) s = .next s)
    ∧ (∀ r, unit = some r → s.dsp.be = [] → ∃ u, exec (.tileResetComplete t) s = .next u
      ∧ u.health.units = s.health.units.erase r
      ∧ (∀ i, (if r.1 = 1 then i = t.val else i < 32 ∧ i / 8 = t.val / 8) →
        (u.tile i).inReset = false ∧ (u.tile i).ctx = none ∧ (u.tile i).tc = {}
          ∧ (∀ a, tileA i 0x5000 ≤ a → a < tileA (i + 1) 0 → u.rget a = regReset a)
          ∧ ∀ a, ringA i 0 ≤ a → a < ringA i 0x1000 → u.rget a = regReset a)
      ∧ (∀ i < 32, ¬ (if r.1 = 1 then i = t.val else i / 8 = t.val / 8) → (u.tile i).tc = (s.tile i).tc)
      ∧ (r.1 = 2 → ∀ e ∈ u.banks.last, e.1 / 16 ≠ t.val / 8)
      ∧ u.mem = s.mem ∧ u.stores = s.stores ∧ ((∀ e ∈ s.dsp.look, e.tiles = []) → u.saved = s.saved))
    ∧ (part = none → exec (.partitionResetComplete p) s = .next s
      ∧ exec (.partitionReloadComplete p) s = .next s)
    ∧ (∀ r, part = some r →
      let up := r.dead = false ∧ (r.force = true ∨ ∀ c < 64, mine c → s.ctxRestart c = true)
      let quiet := s.partState p.val = 3 ∧ s.partQuiet p.val = true
      (¬ quiet → exec (.partitionResetComplete p) s = .next s)
      ∧ (quiet → idle → ∃ u, exec (.partitionResetComplete p) s = .next u
        ∧ u.tokens p.val 0 = s.paceCap p.val 0 ∧ u.tokens p.val 1 = s.paceCap p.val 1
        ∧ (up → u.partState p.val = 2 ∧ u.health = s.health)
        ∧ (¬ up → u.tiles = s.tiles ∧ u.partState p.val = 0 ∧ u.health.parts = s.health.parts.erase r
          ∧ (∀ c < 64, mine c → c ∉ r.faulted → u.ctxState c = 0)
          ∧ ∀ c < 64, mine c → c ∈ r.faulted → u.ctxState c = s.ctxState c)
        ∧ u = { s with
            ctl := u.ctl, health := u.health, dsp := { s.dsp with tok := u.dsp.tok }, tiles := u.tiles
            saved := u.saved, obs := { s.obs with cmds := u.obs.cmds } })
      ∧ (let may := s.partState p.val = 2 ∧ ∀ c < 64, mine c → s.outstanding c (s.ctxBib c) = false
        (¬ may → exec (.partitionReloadComplete p) s = .next s)
        ∧ (may → (s.reloadPart p.val).2 = none →
          ∃ u, exec (.partitionReloadComplete p) s = .next u ∧ p.val ∈ u.dsp.serviceNext
            ∧ (∀ c < 64, mine c → u.ctxState c = 2)
            ∧ ∀ b < 32768, u.batonMask b = 2 ^ p.val → u.batonCount b = 0)
        ∧ (∀ sec, may → (s.reloadPart p.val).2 = some sec →
          ∃ u, exec (.partitionReloadComplete p) s = .next u ∧ u.partState p.val = 0
            ∧ p.val ∈ u.health.dead
            ∧ u.rget (mshA 0x08) = BitVec.ofNat 32 (verdictCode 3 3 p.val 0x05 sec))))

/-! ## The Relay Links -/

/-- Training and loss of a link, acknowledgement and replay (R27, R381-R383, R385, R386, R400).  `fails u c`: the
attempt has failed with TFAIL c; the link tries again at once, or stays OFF after four failures in a row. -/
def Obligations.LinksTrainAndReplay : Prop :=
  ∀ (s : State) (k : Fin 4) (ok lock : Bool) (bytes : List Byte) (part cascade : Word) (dev : Fin 16) (role : Fin 4)
    (ack : Option Word) (ctlCr lcCr beCr : BitVec 11),
    let n := k.val
    let a := linkA n 0x04
    let st := s.linkState n
    let l := s.lnk n
    let enters (u : State) (x : Nat) : Prop := Observed (s.rfldSet a 28 4 x) u
    let idle := s.waitingCmd 0 = none ∧ s.waitingCmd 1 = none
    let napDue := s.phase = .service ∧ st = 7 ∧ l.wait = [] ∧ ∀ q ∈ l.replay, q.2.ty = 0x30
    let owes := addCredits l.owed [2, 0, 0]
    let fails (u : State) (c : Nat) : Prop := u.rfld a 23 4 = c % 16
      ∧ u.rfld a 15 4 = min (s.rfld a 15 4 + 1) 15 ∧ u.linkState n = if 3 ≤ s.rfld a 15 4 then 0 else 1
    let step := exec (.relayTrainingStepComplete k ok part cascade dev role) s
    (1 ≤ st ∧ st ≤ 4 → ok = true → ∃ u, step = .next u ∧ enters u (st + 1))
    ∧ (1 ≤ st ∧ st ≤ 4 → ok = false → ∃ u, step = .next u ∧ fails u st)
    ∧ (st = 5 →
      let code := if part ≠ s.rget 0x00 then 5 else if cascade ≠ s.rget (rlyA 0x08) then 6
        else if dev.val = s.devnum then 7
        else if (role = 1 ∧ s.role = 1) ∨ role = 0 ∨ s.role = 0 then 8
        else if s.rbit (linkA n 0x00) 30 = true ∧ dev.val ≠ s.rfld (linkA n 0x00) 20 4 then 9 else 0
      ∃ u, step = .next u ∧ u.rfld a 19 4 = dev.val ∧ (code = 0 → u.linkState n = 6)
        ∧ (code ≠ 0 → fails u code))
    ∧ (st = 0 ∨ 6 ≤ st → step = .next s)
    ∧ (1 ≤ st ∧ st ≤ 4 → ∃ u, exec (.relayTrainingStepTimeout k) s = .next u ∧ fails u st)
    ∧ (st = 5 ∨ st = 6 → ∃ u, exec (.relayTrainingStepTimeout k) s = .next u
      ∧ fails u (Config.trainFail s.fresh).toNat ∧ u.fresh = s.fresh + 1)
    ∧ (st = 0 ∨ 7 ≤ st → exec (.relayTrainingStepTimeout k) s = .next s)
    ∧ (st = 6 → s.linksCalm → ∃ u, exec (.relayLinkActive k) s = .next u ∧ u.linkState n = 7
      ∧ u.rfld a 15 4 = 0
      ∧ u.lnk n = { l with credits := [32, 1024, 1024], nextSeq := 0, rxSeq := 0, replays := 0, owed := [] })
    ∧ (st ≠ 6 → exec (.relayLinkActive k) s = .next s)
    ∧ (let due := st = 0 ∧ s.rbit (linkA n 0x00) 31 = true ∧ 4 ≤ s.rfld a 15 4 ∧ s.clkState ≠ 2
      (due → ∃ u, exec (.relayRetryTimer k) s = .next u ∧ enters u 1)
      ∧ (¬ due → exec (.relayRetryTimer k) s = .next s))
    ∧ (let gone := st = 7 ∧ (lock = true ∨ 16 ≤ l.replays)
      (¬ gone → exec (.relayLinkLost k lock) s = .next s)
      ∧ (gone → idle → ∃ u, exec (.relayLinkLost k lock) s = .next u
        ∧ u.linkState n = (if s.rbit (linkA n 0x00) 31 then 1 else 0)
        ∧ u.rget (mshA 0x08) = BitVec.ofNat 32 (verdictCode 4 4 n 0x06 (if lock then 2 else 1))
        ∧ (s.outst = [] → u.lnk n = {})))
    ∧ (napDue → ∃ u, exec (.relayLinkNapEntry k) s = .next u ∧ enters u 8)
    ∧ (¬ napDue → exec (.relayLinkNapEntry k) s = .next s)
    ∧ (st = 8 → s.linksCalm → ∃ u, exec (.relayLinkNapExit k) s = .next u ∧ enters u 7)
    ∧ (st ≠ 8 → exec (.relayLinkNapExit k) s = .next s)
    ∧ (st ≠ 7 → exec (.linkNak k none) s = .next s ∧ exec (.linkNak k (some bytes)) s = .next s
      ∧ exec (.linkPacket k ack ctlCr lcCr beCr) s = .next s)
    ∧ (st = 7 → (∀ body, bytes ≠ body ++ leBytes 4 (crc32 body)) → ∃ u,
      exec (.linkNak k (some bytes)) s = .next u ∧ OnlyReg s u (linkA n 0x0C)
      ∧ (u.rget (linkA n 0x0C)).toNat = min ((s.rget (linkA n 0x0C)).toNat + 1) 0xFFFFFFFF
      ∧ (s.linksCalm → 2 ≤ lget 0 l.credits 0 → l.replayBytes + 20 ≤ 32768 →
        u.outs = s.outs ++ [s.linkSent n true l.rxSeq (addCredits l.owed [0, 0, 0])]))
    ∧ (∀ body, bytes = body ++ leBytes 4 (crc32 body) → exec (.linkNak k (some bytes)) s = .next s)
    ∧ (st = 7 →
      let again := s.outs ++ l.replay.map (fun q => OutMsg.packet n q.1 q.2 q.2.wire)
      ∃ u, exec (.linkNak k none) s = .next u ∧ OnlyReg s u (linkA n 0x10) ∧ again <+: u.outs
        ∧ (u.rget (linkA n 0x10)).toNat = min ((s.rget (linkA n 0x10)).toNat + 1) 0xFFFFFFFF
        ∧ (s.linksCalm → lget 0 owes 0 < 16 → u.outs = again
          ∧ u.lnk n = { l with replays := l.replays + 1, rxSeq := l.rxSeq + 1, owed := owes }))
    ∧ (st = 7 → s.linksCalm → lget 0 owes 0 < 16 →
      let keep := match ack with
        | some x => l.replay.filter (fun q => decide (x.toNat < q.1))
        | none => l.replay
      ∃ u, exec (.linkPacket k ack ctlCr lcCr beCr) s = .next u ∧ u = s.setLnk n { l with
        replay := keep
        replays := if keep.length < l.replay.length then 0 else l.replays
        credits := [min 32 (lget 0 l.credits 0 + ctlCr.toNat), min 1024 (lget 0 l.credits 1 + lcCr.toNat),
          min 1024 (lget 0 l.credits 2 + beCr.toNat)]
        rxSeq := l.rxSeq + 1, owed := owes, dry := (u.lnk n).dry })

/-- Time and alignment in a cascade (R286, R394-R397): TIME packets go downstream, an echo gives the delay, a
member's offset steps the time when it is the first or STEPS changed, and ALIGN is forwarded, adopted at first
and then checked. -/
def Obligations.CascadeTime : Prop :=
  ∀ (s : State) (k : Fin 4) (rx sent residence delay turn bound : Nat) (state : Fin 3) (steps : BitVec 16)
    (fabBase : Int) (len : BitVec 20) (phase : BitVec 30) (idx : Word) (switch : Option Word),
    let n := k.val
    let packet (echo : Bool) := exec (.time k echo rx sent residence delay turn state steps fabBase) s
    let shown (d : Nat) : Word := BitVec.ofNat 32 (min (d / 2 ^ 28) 0xFFFFFFFF)
    let o : Int := (rx : Int) - ((sent + residence + delay : Nat) : Int)
    let align := exec (.align k bound len phase idx switch none) s
    let got := s.received n 0 6
    let sends : List OutMsg := s.downstream.map (fun j =>
      got.ctlSent j (.align bound len.toNat phase.toNat idx.toNat (switch.map BitVec.toNat) none))
    let room := s.linksCalm ∧ ∀ j ∈ s.downstream, s.ctlRoom j
    let answers := s.linksCalm ∧ got.ctlRoom n
    let echo : List OutMsg := got.outs ++ [got.ctlSent n (.echo sent rx (s.cycleTime - rx))]
    let passes (u : State) : Prop := u = { s with links := u.links, outs := got.outs ++ sends }
    let own := ((s.rget (dspA 0x24)).toNat + 1) % 2 ^ 32
    (s.linkState n ≠ 7 → packet true = .next s ∧ packet false = .next s ∧ align = .next s)
    ∧ (s.linkState n = 7 →
      ((got.lnk n).timeSent ≠ some sent → packet true = .next got)
      ∧ ((got.lnk n).timeSent = some sent → packet true = .next
        ((got.setLnk n { got.lnk n with timeSent := none }).rset (linkA n 0x08) (shown ((rx - sent - turn) / 2))))
      ∧ (s.upstream ≠ some n → align = .next got
        ∧ (answers → ∃ u, packet false = .next u ∧ u = { s with links := u.links, outs := echo }
          ∧ (u.lnk n).nextSeq = (got.lnk n).nextSeq + 1 ∧ (u.lnk n).rxSeq = (s.lnk n).rxSeq + 1
          ∧ (u.lnk n).wait = [] ∧ ∀ j, j ≠ n → u.lnk j = s.lnk j))
      ∧ (s.upstream = some n → s.role = 2 → s.streamsOff = true → o ≤ (s.time.split : Int) → answers →
        let fresh := s.casc.synced = false ∨ ∃ m, s.casc.steps = some m ∧ m ≠ steps.toNat
        let refused := ¬ fresh ∧ s.jumpLimit < (o.natAbs : Int)
        ∃ u, packet false = .next u ∧ u.outs = echo ∧ u.rget (linkA n 0x08) = shown delay
          ∧ u.time.fabBase = fabBase ∧ u.timeState = state.val
          ∧ (s.coreHold = true ∨ refused → u.time.servo = s.time.servo)
          ∧ (s.coreHold = false → ¬ refused → u.time.servo = some (o, rx, s.now))
          ∧ u.rget (splA 0x28) = wordI (sat32 (o.fdiv (2 ^ 28)))
          ∧ u.casc = { s.casc with steps := some steps.toNat, synced := true }
          ∧ (fresh → (u.time.split : Int) = (s.time.split : Int) - o ∧ u.rbit (splA 0x04) 27 = true)
          ∧ (¬ fresh → u.time.split = s.time.split)
          ∧ (refused → u.rbit (splA 0x04) 28 = true
            ∧ u.rfld (splA 0x34) 16 16 = min (s.rfld (splA 0x34) 16 16 + 1) 65535)
          ∧ (∀ m, s.servoLoop = some m → u.rfld (loopA m 0x00) 0 2 = 2) ∧ u.mem = s.mem)
      ∧ (s.upstream = some n → s.role = 2 → room → s.sbLock = false → ∃ u, align = .next u ∧ passes u)
      ∧ (s.upstream = some n → s.role = 2 → room → s.sbLock = true → s.dsp.nextBound = none → 0 < len.toNat →
        ∃ u i, align = .next u ∧ u.dsp.nextBound = some (bound + i * (8 * len.toNat))
          ∧ s.nsUp ≤ bound + i * (8 * len.toNat) ∧ (0 < i → bound + i * (8 * len.toNat) < s.nsUp + 8 * len.toNat)
          ∧ u.dsp.align = some (bound + i * (8 * len.toNat), len.toNat, phase.toNat,
            (idx.toNat + i) % 2 ^ 32, 0)
          ∧ (∀ x, switch = some x → u.dsp.switchIdx = some x.toNat)
          ∧ u = { s with links := u.links, outs := got.outs ++ sends, dsp := u.dsp })
      ∧ (∀ nb, s.upstream = some n → s.role = 2 → room → s.sbLock = true → s.dsp.nextBound = some nb → switch = none →
        let agrees := idx.toNat = own ∧ nb ≤ bound + 8 ∧ bound ≤ nb + 8
        (agrees → ∃ u, align = .next u ∧ passes u)
        ∧ (¬ agrees → ∃ u b i, align = .next u ∧ u.rbit (rlyA 0x04) 26 = true
          ∧ b = bound + i * max 1 (8 * len.toNat) ∧ s.nsUp + 2000 ≤ b
          ∧ (0 < i → b < s.nsUp + 2000 + max 1 (8 * len.toNat))
          ∧ u.dsp.align = some (b, len.toNat, phase.toNat, (idx.toNat + i) % 2 ^ 32, 0) ∧ OnlyReg s u (rlyA 0x04)
          ∧ u = { s with ctl := u.ctl, links := u.links, outs := got.outs ++ sends, dsp := u.dsp })))
    ∧ (s.role = 0 → exec .timeSendInterval s = .next s)
    ∧ (s.role ≠ 0 →
      let steps := if s.role = 2 then s.casc.steps.getD 0 else s.rfld (splA 0x34) 0 16
      ∃ u, exec .timeSendInterval s = .next u ∧ u = { s with links := u.links, outs := u.outs }
      ∧ (room → u.outs = s.outs ++ s.downstream.map (fun j => s.ctlSent j
          (.time s.cycleTime 0 s.timeState steps s.time.fabBase)))
      ∧ (s.linksCalm →
        (∀ j ∈ s.downstream, s.ctlRoom j → (u.lnk j).timeSent = some s.cycleTime ∧ (u.lnk j).wait = [])
        ∧ (∀ j ∈ s.downstream, s.linkState j ≠ 7 → u.lnk j = { s.lnk j with
            wait := [s.ctlPkt j (.time 0 0 0 0 0)], dry := (u.lnk j).dry })
        ∧ ∀ j, j ∉ s.downstream → u.lnk j = s.lnk j))

/-- Packets that arrive (R306-R309, R384, R388, R391-R393, R443): acknowledged with their buffer's credits, a
request is admitted by a window or answered with its error, a reply ends its request or is dropped for an old
bib, batons are posted and waited for, and a packet for another device is forwarded. -/
def Obligations.PacketsArrive : Prop :=
  ∀ (s : State) (k : Fin 4) (h : PktHdr) (len : Fin 257) (data : List Byte) (poison : Bool) (code ty : Byte),
    let n := k.val
    let got (cost : Nat) : State := s.received n h.vc.val cost
    let cost (m : Nat) : Nat := ceilDiv (20 + 64 * ceilDiv m 64) 16
    let d := data.take 256
    let addr := bitsOf h.addr.toNat 0 46
    let reply (t m : Nat) (a : Nat) (b : List Byte) : Pkt :=
      { ty := t, src := s.devnum, dst := h.src.val, vc := h.vc.val, part := h.part.val, bib := h.bib.toNat
        ctx := h.ctx.val, ttl := 0, tag := h.tag.toNat, addr := a, len := m, data := b }
    let here := s.linkState n = 7 ∧ h.dst.val = s.devnum
    let req := s.outst.find? (fun o => o.tag == h.tag.toNat && o.ctx == h.ctx.val)
    let ended (o : Outst) (c : Nat) : State := { got c with outst := s.outst.erase o }
    let b := h.addr.toNat % 2 ^ 15
    let arg := h.addr.toNat / 2 ^ 32
    let mine := s.batonPermits b h.part.val = true ∧ s.batonProxy b = false
    let rd := mkPkt 0x01 h len.val [] false
    let wr := mkPkt 0x03 h d.length d poison
    let onward := mkPkt ty.toNat h len.val data poison
    let pass := exec (.packetForward k h ⟨ty, len⟩ data poison) s
    (s.linkState n ≠ 7 → exec (.rdReq k h len) s = .next s ∧ exec (.wrReq k h data poison) s = .next s
      ∧ exec (.rdRsp k h data poison) s = .next s ∧ exec (.wrAck k h) s = .next s
      ∧ exec (.errRsp k h code) s = .next s ∧ exec (.bpostPacket k h) s = .next s
      ∧ exec (.bwaitPacket k h) s = .next s ∧ exec (.bwaitRsp k h) s = .next s
      ∧ pass = .next s)
    ∧ (here →
      (s.window rd len.val false = none →
        exec (.rdReq k h len) s = .next ((got 2).sendBack h.src.val (reply 0x05 0 1 [])))
      ∧ (∀ w, s.window rd len.val false = some w → s.fenced w = true →
        exec (.rdReq k h len) s = .next ((got 2).sendBack h.src.val (reply 0x05 0 2 [])))
      ∧ (∀ w, s.window rd len.val false = some w → s.fenced w = false → s.poisoned addr len.val = false →
        exec (.rdReq k h len) s = .next ((got 2).sendBack h.src.val
          (reply 0x02 len.val h.addr.toNat (s.mread addr len.val))))
      ∧ (s.window wr d.length true = none →
        exec (.wrReq k h data poison) s = .next ((got (cost d.length)).sendBack h.src.val (reply 0x05 0 1 [])))
      ∧ (∀ w, s.window wr d.length true = some w → s.fenced w = true →
        exec (.wrReq k h data poison) s = .next ((got (cost d.length)).sendBack h.src.val (reply 0x05 0 2 [])))
      ∧ (∀ w, s.window wr d.length true = some w → s.fenced w = false → poison = false →
        exec (.wrReq k h data poison) s = .next (((got (cost d.length)).mwrite addr d).sendBack h.src.val
          (reply 0x04 0 h.addr.toNat [])))
      ∧ (req = none → exec (.rdRsp k h data poison) s = .next (got (cost data.length))
        ∧ exec (.wrAck k h) s = .next (got 2) ∧ exec (.bwaitRsp k h) s = .next (got 2)
        ∧ (h.tag ≠ 0 → exec (.errRsp k h code) s = .next (got 2)))
      ∧ (∀ o, req = some o → h.bib.toNat ≠ s.ctxBib h.ctx.val →
        exec (.rdRsp k h data poison) s = .next ((ended o (cost data.length)).rcount (linkA n 0x14) 0 32 1)
        ∧ exec (.wrAck k h) s = .next ((ended o 2).rcount (linkA n 0x14) 0 32 1)
        ∧ exec (.bwaitRsp k h) s = .next ((ended o 2).rcount (linkA n 0x14) 0 32 1)
        ∧ (h.tag ≠ 0 → exec (.errRsp k h code) s = .next ((ended o 2).rcount (linkA n 0x14) 0 32 1)))
      ∧ (∀ o r, req = some o → h.bib.toNat = s.ctxBib h.ctx.val → (s.tc o.tile).copy = some r → r.left = 0 →
        (∀ dst, o.kind = .copyRd dst → poison = false → r.err < 256 → exec (.rdRsp k h data poison) s = .next
          (((ended o (cost data.length)).mwrite dst data).modCopy o.tile (fun x =>
            { x with outst := x.outst - 1 })))
        ∧ (o.kind = .copyWr → r.err < 256 → exec (.wrAck k h) s = .next
          ((ended o 2).modCopy o.tile (fun x => { x with outst := x.outst - 1 })))
        ∧ (o.kind = .copyWr → h.tag ≠ 0 → 2 ≤ r.outst → ∃ u, exec (.errRsp k h code) s = .next u
          ∧ u = (ended o 2).setTile o.tile (u.tile o.tile)
          ∧ (u.tc o.tile).copy = some { r with
              outst := r.outst - 1
              err := if 256 ≤ r.err then r.err else if code = 1 then 257 else if code = 5 then 260 else 1031 }))
      ∧ (∀ o, req = some o → h.bib.toNat = s.ctxBib h.ctx.val → o.kind = .bwait →
        exec (.bwaitRsp k h) s = .next ((ended o 2).modCtx o.tile o.ctx (fun x => { x with hold := .none }))
        ∧ exec (.wrAck k h) s = .next ((ended o 2).modCtx o.tile o.ctx (fun x => { x with hold := .none })))
      ∧ (h.tag = 0 → h.bib.toNat ≠ s.ctxBib h.ctx.val →
        exec (.errRsp k h code) s = .next ((got 2).rcount (linkA n 0x14) 0 32 1))
      ∧ (h.tag = 0 → h.bib.toNat = s.ctxBib h.ctx.val → s.ctxEn h.ctx.val = true → s.streamsOff = true →
        ∃ u, exec (.errRsp k h code) s = .next u ∧ u.mem = s.mem
          ∧ u.rfld (ctxA h.ctx.val 0x3C) 24 8 = if code = 1 then 1 else if code = 5 then 4 else 7)
      ∧ (¬ mine → exec (.bpostPacket k h) s = .next ((got 2).sendBack h.src.val (reply 0x05 0 5 [])))
      ∧ (¬ (mine ∧ (s.waitCount < 512 ∨ s.satNow b arg = true)) → exec (.bwaitPacket k h) s = .next
        ((got 2).sendBack h.src.val (reply 0x05 0 5 [])))
      ∧ (mine → (∀ w ∈ s.waits, w.baton ≠ b) → s.batonEvt b = false → s.batonSem b = false →
        exec (.bpostPacket k h) s = .next ((got 2).rset (batonA b 0) (s.rget (batonA b 0) + BitVec.ofNat 32 arg)))
      ∧ (let wait : BWait := ⟨b, arg, .remote n h.src.val h.ctx.val h.bib.toNat h.tag.toNat h.vc.val,
          h.ctx.val, h.part.val⟩
        mine → (∀ w ∈ s.waits, w.baton ≠ b) → s.batonSem b = false →
        (countSat (s.batonCount b) arg = false → s.waitCount < 512 → exec (.bwaitPacket k h) s = .next
          { got 2 with waits := s.waits ++ [wait] })
        ∧ (countSat (s.batonCount b) arg = true → exec (.bwaitPacket k h) s = .next
          ((got 2).sendBack h.src.val { reply 0x12 0 (b + arg * 2 ^ 32) [] with part := 0 }))))
    ∧ (h.dst.val = s.devnum → pass = .next s)
    ∧ (s.linkState n = 7 → h.dst.val ≠ s.devnum →
      let g := got 0
      let q : Pkt := { onward with ttl := h.ttl.val - 1, held := some n }
      let l := g.lnk n
      let back := g.returned n h.vc.val onward.cost
      (∀ j m, s.route (s.dist h.dst.val) = some (j, m) → 2 ≤ h.ttl.val →
        let u := g.queuePkt j q
        pass = .next u
        ∧ (s.linksCalm → s.linkState j ≠ 7 → u.outs = g.outs
          ∧ u = g.setLnk j { g.lnk j with wait := (g.lnk j).wait ++ [q], dry := (u.lnk j).dry })
        ∧ (s.linksCalm → s.linkState j = 7 → j ≠ n → q.vc < 3 → q.cost ≤ lget 0 (g.lnk j).credits q.vc →
          (g.lnk j).replayBytes + q.size ≤ 32768 →
          l.wait = [] → 2 ≤ lget 0 l.credits 0 → l.replayBytes + 20 ≤ 32768 →
          (u.lnk j).wait = [] ∧ u.outs = g.outs ++ [.packet j (g.lnk j).nextSeq { q with held := none } q.wire,
            g.linkSent n false (s.lnk n).rxSeq (addCredits l.owed (lset [0, 0, 0] h.vc.val onward.cost))]))
      ∧ (h.ttl.val < 2 ∨ s.route (s.dist h.dst.val) = none →
        (isRequest ty.toNat = true → pass = .next (back.sendBack h.src.val (reply 0x05 0 3 [])))
        ∧ (isRequest ty.toNat = false → pass = .next back)))

/-! ## LPDDR5 and observation -/

/-- LPDDR5 in service (R27, R326, R327, R329, R330, R331, R345): a line read goes by its outcome, the scrub checks
every line in turn, MR4 fields show in the channels' registers, and power-down takes the channels in RUN. -/
def Obligations.MemoryRuns : Prop :=
  ∀ (s : State) (addr : BitVec 48) (own written : Bool) (k : Fin 16) (rate : Fin 32) (out : Fin 6) (found : Fin 3),
    let a := addr.toNat / 64 * 64
    let read := exec (.lpddr5ReadReply addr ⟨out, own⟩) s
    let here := a < s.usable ∧ s.chState (lpChannel a) = 0
    let lost (u : State) : Prop :=
      (s.streamsOff = true → u.mem = s.mem
        ∧ u.poison = (if s.fullNow a then s.poison else linsert s.poison a)
        ∧ u.lost = (if s.fullNow a then s.lost else linsert s.lost a))
        ∧ u.rfld (memA 0x18) 16 16 = min (s.rfld (memA 0x18) 16 16 + 1) 65535
        ∧ (s.rbit (memA 0x24) 31 = false → u.rget (memA 0x20) = BitVec.ofNat 32 a
          ∧ u.rbit (memA 0x24) 31 = true ∧ u.rfld (memA 0x24) 16 4 = lpChannel a)
        ∧ (own = true → s.deviceOwned a 64 = true →
          u.rget (mshA 0x08) = BitVec.ofNat 32 (verdictCode 0 3 (lpChannel a) 0x0B (lpChannel a)))
        ∧ (own = false ∨ s.deviceOwned a 64 = false → u.rget (mshA 0x08) = s.rget (mshA 0x08))
    let n := tget 0 s.scrub k.val
    let scrub := exec (.patrolScrub k ⟨found, written⟩) s
    let due := s.rfld (memA 0x10) 0 16 ≠ 0 ∧ s.chState k.val = 0 ∧ s.boot.mem = 3
    let moves (c : Nat) : State := { s with obs := { s.obs with bus := linsert s.obs.bus c } }
    let w := moves (lpChannel a)
    let v : State := { moves k.val with scrub := tput s.scrub k.val ((n + 1) % s.scrubLines) }
    let r := memA (0x100 + 4 * k.val)
    let powers (c : Instr) (p q : Nat) : Prop := ∃ u, exec c s = .next u ∧ u = { s with ctl := u.ctl }
      ∧ (∀ j < 16, u.chState j = (if s.chState j = p then q else s.chState j)
        ∧ u.rfld (memA (0x100 + 4 * j)) 0 30 = s.rfld (memA (0x100 + 4 * j)) 0 30)
      ∧ ∀ b, (∀ j < 16, b ≠ memA (0x100 + 4 * j)) → u.rget b = s.rget b
    (¬ here → read = .next s)
    ∧ (here →
      (out.val = 0 → read = .next w)
      ∧ (out.val = 1 → ∃ u, read = .next u ∧ Observed (w.rcount (memA 0x18) 0 16 1) u)
      ∧ (out.val = 2 → ∃ u, read = .next u ∧ lost u ∧ u.rget (memA 0x1C) = s.rget (memA 0x1C))
      ∧ (out.val = 3 → read = .next (w.rcount (memA 0x1C) 0 16 1))
      ∧ (out.val = 4 → read = .next (w.rcount (memA 0x1C) 16 16 1))
      ∧ (out.val = 5 → ∃ u, read = .next u ∧ lost u
        ∧ u.rfld (memA 0x1C) 16 16 = min (s.rfld (memA 0x1C) 16 16 + 1) 65535))
    ∧ (¬ due → scrub = .next s) ∧ (due → written = true → scrub = .next v)
    ∧ (∀ x, due → written = false → n < s.scrubLines → scrubAddr k.val n = some x →
      (found.val = 0 → s.poisoned x 64 = false → scrub = .next v)
      ∧ (found.val = 1 → s.poisoned x 64 = false → ∃ u, scrub = .next u
        ∧ Observed (v.rcount (memA 0x18) 0 16 1) u)
      ∧ (found.val = 2 ∨ s.poisoned x 64 = true → ∃ u, scrub = .next u ∧ u.scrub = v.scrub
        ∧ u.rfld (memA 0x18) 16 16 = min (s.rfld (memA 0x18) 16 16 + 1) 65535
        ∧ (s.streamsOff = true → u.poison = linsert s.poison x ∧ u.mem = s.mem)))
    ∧ (due → written = false → scrubAddr k.val n = none →
      (found.val = 0 → scrub = .next v)
      ∧ (found.val = 1 → scrub = .next (v.rcount (memA 0x18) 0 16 1))
      ∧ (found.val = 2 → scrub = .next (v.rcount (memA 0x18) 16 16 1)))
    ∧ (s.chState k.val ≠ 0 → exec (.mr4Read k rate) s = .next s)
    ∧ (s.chState k.val = 0 → ∃ u, exec (.mr4Read k rate) s = .next u ∧ u.rfld r 0 5 = rate.val
      ∧ (u.rbit (memA 0x04) 30 = true ↔
        rate.val = 31 ∨ ∃ j < 16, j ≠ k.val ∧ s.rfld (memA (0x100 + 4 * j)) 0 5 = 31)
      ∧ (∀ b, b ≠ r → b ≠ memA 0x04 → obsReg b = false → u.rget b = s.rget b)
      ∧ (rate.val = s.rfld r 0 5 → u = { s with ctl := u.ctl }) ∧ (s.streamsOff = true → u.mem = s.mem))
    ∧ exec (.perBankRefresh k) s = .next
      { s with obs := { s.obs with refresh := linsert s.obs.refresh k.val } }
    ∧ (s.phase ≠ .service ∨ s.clkState ≠ 0 → exec .memPowerDownEntry s = .next s)
    ∧ (s.phase = .service → s.clkState = 0 → powers .memPowerDownEntry 0 1)
    ∧ powers .memPowerDownExit 1 0

/-- Samples and tensor dumps (R460, R464, R465, R469-R473): every tile in RUN gives a sample; a match is copied
once at a time on its tile, into staging space it fits or it is dropped; MSH_DUMP_NOW dumps on each tile its
entry names; and the end of a dump produces its record.  With the tile's sequencer stopped, so that nothing else moves. -/
def Obligations.SamplesAndDumps : Prop :=
  ∀ (s : State) (t : TileNo) (src : Fin 3) (w : Word),
    let runs := (List.range 32).filter (fun i => decide ((s.tile i).power = .run))
    let none' := s.rfld (mshA 0x3000) 14 5 = 0 ∨ s.lap.zero = none ∨ s.streamOn 1 = false
      ∨ s.coreHold = true
    let copying := ∃ x ∈ s.obs.dumps, x.tile = t.val ∧ x.record.isSome = true ∧ x.immediate = false
    let waits (x : DumpReq) : Bool := x.tile == t.val && x.record.isNone
    let copied (x : DumpReq) : Bool := x.tile == t.val && x.record.isSome
    let next (d : DumpReq) : Prop := d ∈ s.obs.dumps ∧ waits d = true
      ∧ ∃ f, s.obs.dumps.find? waits = some f ∧ d.stamp = f.stamp
        ∧ ∀ x ∈ s.obs.dumps, waits x = true → x.stamp = f.stamp → x = d ∨ d.point < x.point
    let free := s.rfld (mshA 0x3008) 0 19
    let match' := exec (.dumpMatch t) s
    let stopped := s.working t.val = false ∧ (s.tile t.val).preq = none ∧ ∀ h ∈ (s.tc t.val).heats, s.recordDue h = false
    let point := fget w 0 8
    let named := (List.range 32).filter (s.dumpTile point)
    let now (i : Nat) : DumpReq :=
      { point := point, tile := i, ctx := s.dumpFld point 0 1 % 64, unit := 16, step := s.dumpFld point 2 1
        seq := 0, prob := s.dumpFld point 0xA 1, layer := s.dumpFld point 4 2, oper := s.dumpFld point 6 2
        heat := (((s.tc i).heats.getLast?).map Heat.num).getD 0, stamp := s.fabCount, immediate := true
        record := none }
    let need := (named.map (fun i => (s.dumpRecord (now i)).length)).sum
    (none' → exec .pcSample s = .next s)
    ∧ (∀ b, ¬ none' → s.rfld (obufA 1 4) 0 16 = 0 → s.obs.subs = [b] → b.stream = 1 → b.due = false →
      (b.recs.map List.length).sum + 16 * runs.length ≤ 1424 → exec .pcSample s = .next
        { s with obs := { s.obs with subs := [{ b with recs := b.recs ++ runs.map s.pcSample }] } })
    ∧ (¬ none' → s.rfld (obufA 1 4) 0 16 ≠ 0 → s.obs.subs = [] → s.obs.memTok < 0 →
      s.obsHeld + 16 * runs.length ≤ 16384 → exec .pcSample s = .next
        { s with obs := { s.obs with buf := s.obs.buf ++ runs.map (fun i => (1, s.pcSample i)) } })
    ∧ (copying ∨ s.obs.dumps.find? waits = none → match' = .next s)
    ∧ (∀ d, ¬ copying → next d → stopped →
      (free < (s.dumpRecord d).length → match' = .next
        { s with obs := { s.obs with dumps := s.obs.dumps.erase d, drops := s.obs.drops + 1 } })
      ∧ ((s.dumpRecord d).length ≤ free → s.streamsOff = true → s.dumpUnits d = [] → ∃ u, match' = .next u
        ∧ u.rfld (mshA 0x3008) 0 19 = free - (s.dumpRecord d).length
        ∧ u.obs = { s.obs with dumps := s.obs.dumps.map (fun x =>
            if x = d then { d with record := some (s.dumpRecord d) } else x) }
        ∧ u.mem = s.mem ∧ u.outs = s.outs
        ∧ (s.tileHung t.val = false → OnlyReg s u (mshA 0x3008))
        ∧ (s.tileHung t.val = true → u.rbit (mshA 0x04) 29 = true
          ∧ u.rget (mshA 0x08) = BitVec.ofNat 32 (verdictCode 0 1 t.val 0x0C (32 + t.val)))))
    ∧ (s.accepts src.val (mshA 0x300C) w →
      (fbit w 31 = false ∨ named = [] → exec (.mshDumpNow src w) s = .next s)
      ∧ (fbit w 31 = true → need ≤ free → (∀ i ∈ named, s.tileHung i = false ∧ s.dumpUnits (now i) = []) →
        (∀ x ∈ s.obs.dumps, x.immediate = false ∨ x.record.isSome = true) →
        ∃ u, exec (.mshDumpNow src w) s = .next u
          ∧ u.obs = { s.obs with dumps := s.obs.dumps ++ named.map (fun i =>
              { now i with record := some (s.dumpRecord (now i)) }) }
          ∧ u.rfld (mshA 0x3008) 0 19 = free - need ∧ OnlyReg s u (mshA 0x3008)
          ∧ u = { s with ctl := u.ctl, obs := u.obs })
      ∧ (fbit w 31 = true → (∀ i ∈ named, free < (s.dumpRecord (now i)).length) →
        (∀ x ∈ s.obs.dumps, x.immediate = false ∨ x.record.isSome = true) →
        exec (.mshDumpNow src w) s = .next { s with obs := { s.obs with drops := s.obs.drops + named.length } }))
    ∧ (s.obs.dumps.find? copied = none → exec (.dumpComplete t) s = .next s)
    ∧ (∀ d r0, s.obs.dumps.find? copied = some d → d.record = some r0 → stopped →
      let r := leBytes 4 s.obs.dumpSeq ++ (r0.drop 4).take 40 ++ leBytes 4 s.obs.drops ++ r0.drop 48
      let ended (b : List (Fin 4 × List Byte)) : Obs :=
        { s.obs with dumps := s.obs.dumps.erase d, drops := 0, dumpSeq := s.obs.dumpSeq + 1, buf := b }
      (s.streamsOff = true → ∃ u, exec (.dumpComplete t) s = .next u ∧ u.obs = ended s.obs.buf
        ∧ u.rfld (mshA 0x3008) 0 19 = (free + r.length) % 2 ^ 19 ∧ u.mem = s.mem ∧ u.outs = s.outs)
      ∧ ((∀ k < 3, s.streamOn k = false) → s.streamOn 3 = true → s.rfld (obufA 3 4) 0 16 ≠ 0 →
        s.obs.subs = [] → s.obs.memTok < 0 → s.coreHold = false → ∃ u, exec (.dumpComplete t) s = .next u
          ∧ u.obs = ended (s.obs.buf ++ [(3, r)]) ∧ u.rfld (mshA 0x3008) 0 19 = free
          ∧ u.mem = s.mem ∧ u.outs = s.outs))

/-! ## The test access port -/

/-- The test access port (R427, R496, R497): each instruction is selected, CTRL_ACCESS shifts out the outcome of
an earlier access and reads or writes a register as R427 permits, and a refused drive of the balls reports
status 3 and leaves BYPASS selected. -/
def Obligations.TestAccessPort : Prop :=
  ∀ (s : State) (op : Fin 4) (addr data : Word) (early : Bool) (balls load : BitVec 2048)
    (shift : Option (BitVec 2048)),
    let a := addr.toNat
    let x := s.tap
    let access := exec (.ctrlAccess op addr data early) s
    let seen := if early then x.oldWord.toNat * 16 + x.oldStatus else x.word.toNat * 16 + x.status
    let drives (l : List OutMsg) : List OutMsg := if s.hiZ then [] else l
    let ir (code : Nat) : List OutMsg := if x.instr = code then [] else [.ir 1]
    let sends : List OutMsg := drives (ir 0x20 ++ [.tdo seen])
    let done (u : State) (w : Word) (st : Nat) : State := { u with
      outs := s.outs ++ sends
      tap := { x with instr := 0x20, word := w, status := st, oldWord := x.word, oldStatus := x.status } }
    let sel (code : Nat) : State := { s with outs := s.outs ++ drives (ir code), tap := { x with instr := code } }
    let scan (code : Nat) : State := match shift with
      | none => sel code
      | some l => { sel code with
          fresh := s.fresh + 1
          outs := s.outs ++ drives (ir code ++ [.tdo (Config.ballCapture s.fresh).toNat])
          tap := { x with instr := code, boundary := l.toNat } }
    let refused : State := { sel 0xFF with tap := { x with
      instr := 0xFF, status := 3, word := 0, oldStatus := 3, oldWord := 0 } }
    let shut := s.sbLock = true ∧ s.rbit 0x24 31 = false
    (∃ u, exec (.ctrlAccess op addr data early) s = .next u ∧ u.tap.instr = 0x20
      ∧ s.outs ++ sends <+: u.outs)
    ∧ (op.val = 0 ∨ op.val = 3 → access = .next (done s x.word x.status))
    ∧ (op.val = 1 →
      (shut → access = .next (done s 0 3))
      ∧ (¬ shut → s.readHung a 1 = false →
        (regSpec a = none → access = .next (done s 0 1))
        ∧ (∀ r, regSpec a = some r → s.regBlocked a = true → access = .next (done s 0 3))
        ∧ (∀ r, regSpec a = some r → s.regBlocked a = false → ∃ u, access = .next u
          ∧ u.tap = (done s (s.regView 2 a &&& ~~~r.wo) 0).tap ∧ u.outs = s.outs ++ sends
          ∧ (r.rc = 0 → u = { done s (s.regView 2 a &&& ~~~r.wo) 0 with
              obs := { s.obs with latch := u.obs.latch } })
          ∧ u.mem = s.mem))
      ∧ (¬ shut → s.readHung a 1 = true → s.streamsOff = true →
        let unit := s.hungUnit a 1
        ∃ u, access = .next u ∧ u.tap = (done s 0xDEADDEAD 0).tap ∧ u.outs = s.outs ++ sends
          ∧ u.rbit (mshA 0x04) 29 = true
          ∧ u.rget (mshA 0x08) = BitVec.ofNat 32 (verdictCode 0 unit.1 unit.2 0x0C (unit.1 * 32 + unit.2))
          ∧ u.mem = s.mem))
    ∧ (op.val = 2 →
      (regSpec a = none → access = .next (done s 0 1))
      ∧ (∀ r, regSpec a = some r → s.sbLock = false ∨ s.rbit 0x24 30 = false ∨ s.mayWrite 2 a data = false
        ∨ s.regBlocked a = true → access = .next (done s 0 3))
      ∧ (∀ r, plainReg a → s.noErrNow a → s.accepts 2 a data → regSpec a = some r →
        access = .next (done (s.rset a (plainWord r.rw r.w1c (s.rget a) data)) 0 0))
      ∧ (∀ r, regSpec a = some r → s.sbLock = true → s.mayWrite 2 a data = true → s.regBlocked a = false →
        (s.rget a ^^^ data) &&& r.bl ≠ 0 → plainReg a → ∃ u, access = .next u ∧ u.tap = (done s 0 2).tap
          ∧ u.rbit 0x10 31 = true ∧ u.rfld 0x10 28 2 = 2 ∧ u.rget 0x14 = addr))
    ∧ exec .tapReset s = .next { s with tap := { s.tap with instr := 0xFF } }
    ∧ exec .bypass s = .next (sel 0xFF) ∧ exec .highz s = .next (sel 0x05) ∧ exec .clamp s = .next (sel 0x06)
    ∧ exec (.samplePreload balls load) s = .next { s with
      outs := s.outs ++ drives (ir 0x01 ++ [.tdo balls.toNat])
      tap := { s.tap with instr := 0x01, boundary := load.toNat } }
    ∧ (s.extestOk = true → exec (.extest shift) s = .next (scan 0x02)
      ∧ exec (.extestPulse shift) s = .next (scan 0x03) ∧ exec (.extestTrain shift) s = .next (scan 0x04))
    ∧ (s.extestOk = false → exec (.extest shift) s = .next refused
      ∧ exec (.extestPulse shift) s = .next refused ∧ exec (.extestTrain shift) s = .next refused)
    ∧ (s.hiZ = true → s.ballSource = .highImpedance ∧ s.pwrCycleSource = .highImpedance
      ∧ s.pwmSource = .highImpedance)
    ∧ (s.hiZ = false →
      ((sel 0x05).ballSource = .highImpedance) ∧ (sel 0x06).ballSource = .boundary
      ∧ (sel 0x02).ballSource = .boundary ∧ (sel 0xFF).ballSource = .functions
      ∧ (sel 0x01).ballSource = .functions)
    ∧ (s.extestOk = true ↔ s.phase = .failed ∨ (s.sbLock = true ∧ s.rbit 0x24 29 = true)
      ∨ s.sbLock = false ∧ s.boot.ran = false)
end

