-- ==== Sys2Proof/Laws/Bits.lean ====
section
/-!
SUPPORT. Fields of a register word: what a field and a bit read after a field has been replaced.
-/

namespace Sys2Proof.Machine

theorem bitsOf_testBit (w lo n i : Nat) : (bitsOf w lo n).testBit i = (decide (i < n) && w.testBit (lo + i)) := by
  simp [bitsOf, Nat.testBit_mod_two_pow, Nat.testBit_shiftRight]

theorem fmask_getLsbD (lo n i : Nat) :
    (fmask lo n).getLsbD i = (decide (i < 32) && decide (lo ≤ i) && decide (i < lo + n)) := by
  simp only [fmask, BitVec.getLsbD_ofNat, Nat.testBit_shiftLeft, Nat.testBit_two_pow_sub_one]
  by_cases h : lo ≤ i
  · simp only [h, decide_true, Bool.and_true, Bool.true_and]
    have : (i - lo < n) ↔ (i < lo + n) := by omega
    simp [this]
  · simp [h]

theorem fset_getLsbD (w : Word) (lo n v i : Nat) :
    (fset w lo n v).getLsbD i =
      (decide (i < 32) && if lo ≤ i ∧ i < lo + n then v.testBit (i - lo) else w.getLsbD i) := by
  by_cases hi : i < 32
  · simp only [fset, BitVec.getLsbD_or, BitVec.getLsbD_and, BitVec.getLsbD_not, fmask_getLsbD,
      BitVec.getLsbD_ofNat, Nat.testBit_shiftLeft, Nat.testBit_mod_two_pow, hi, decide_true,
      Bool.true_and, ge_iff_le]
    by_cases h1 : lo ≤ i
    · by_cases h2 : i < lo + n
      · have : i - lo < n := by omega
        simp [h1, h2, this]
      · have : ¬ i - lo < n := by omega
        simp [h1, h2, this]
    · simp [h1]
  · simp [hi, BitVec.getLsbD_of_ge _ _ (Nat.le_of_not_lt hi)]

theorem fget_testBit (w : Word) (lo n i : Nat) :
    (fget w lo n).testBit i = (decide (i < n) && w.getLsbD (lo + i)) := by
  simp [fget, bitsOf_testBit, BitVec.testBit_toNat]

/-- The field replaced reads what was written, modulo its width. -/
theorem fget_fset_self (w : Word) (lo n v : Nat) (h : lo + n ≤ 32) : fget (fset w lo n v) lo n = v % 2 ^ n := by
  apply Nat.eq_of_testBit_eq
  intro i
  rw [fget_testBit, fset_getLsbD, Nat.testBit_mod_two_pow]
  by_cases hi : i < n
  · have h1 : lo + i < 32 := by omega
    simp [hi, h1]
  · simp [hi]

/-- A field that does not meet the one replaced reads as before. -/
theorem fget_fset_ne (w : Word) (lo n lo' n' v : Nat) (h : lo' + n' ≤ lo ∨ lo + n ≤ lo') :
    fget (fset w lo n v) lo' n' = fget w lo' n' := by
  apply Nat.eq_of_testBit_eq
  intro i
  rw [fget_testBit, fget_testBit, fset_getLsbD]
  by_cases hi : i < n'
  · have h1 : ¬ (lo ≤ lo' + i ∧ lo' + i < lo + n) := by omega
    simp only [hi, h1, decide_true, Bool.true_and, if_false]
    by_cases h2 : lo' + i < 32
    · simp [h2]
    · simp [h2, BitVec.getLsbD_of_ge _ _ (Nat.le_of_not_lt h2)]
  · simp [hi]

/-- A bit outside the field replaced reads as before. -/
theorem fbit_fset_ne (w : Word) (lo n v i : Nat) (h : i < lo ∨ lo + n ≤ i) :
    fbit (fset w lo n v) i = fbit w i := by
  have h1 : ¬ (lo ≤ i ∧ i < lo + n) := by omega
  simp only [fbit, fset_getLsbD, h1, if_false]
  by_cases h2 : i < 32
  · simp [h2]
  · simp [h2, BitVec.getLsbD_of_ge _ _ (Nat.le_of_not_lt h2)]

/-- A bit set or cleared reads so. -/
theorem fbit_fsetBit_self (w : Word) (i : Nat) (b : Bool) (h : i < 32) : fbit (fsetBit w i b) i = b := by
  simp only [fbit, fsetBit, fset_getLsbD, h]
  cases b <;> simp

theorem fbit_fsetBit_ne (w : Word) (i j : Nat) (b : Bool) (h : j ≠ i) :
    fbit (fsetBit w i b) j = fbit w j := by
  unfold fsetBit
  exact fbit_fset_ne _ _ _ _ _ (by omega)

theorem fget_fsetBit_ne (w : Word) (i lo n : Nat) (b : Bool) (h : lo + n ≤ i ∨ i < lo) :
    fget (fsetBit w i b) lo n = fget w lo n := by
  unfold fsetBit
  exact fget_fset_ne _ _ _ _ _ _ (by omega)

theorem fget_lt (w : Word) (lo n : Nat) : fget w lo n < 2 ^ n := by
  simp only [fget, bitsOf]
  exact Nat.mod_lt _ (Nat.two_pow_pos n)

end Sys2Proof.Machine
end

