-- ==== Sys2Proof/Laws/Tab.lean ====
section
/-!
SUPPORT. What reads of a sparse table give after a write or a removal, and the canonical form that
writes keep.
-/

namespace Sys2Proof.Machine

variable {α : Type}

theorem tget_cons (d : α) (a : Nat) (w : α) (t : Tab α) (j : Nat) :
    tget d ((a, w) :: t) j = if a = j then w else tget d t j := rfl

theorem tget_tput (d : α) (t : Tab α) (k j : Nat) (v : α) :
    tget d (tput t k v) j = if j = k then v else tget d t j := by
  induction t with
  | nil => simp only [tput, tget_cons]; split <;> split <;> first | rfl | omega
  | cons e t ih =>
    obtain ⟨a, w⟩ := e
    unfold tput
    repeat' split
    all_goals (simp only [tget_cons, ih]; repeat' split)
    all_goals first | rfl | omega

theorem tget_tdel (d : α) (t : Tab α) (k j : Nat) :
    tget d (tdel t k) j = if j = k then d else tget d t j := by
  induction t with
  | nil => simp [tdel, tget]
  | cons e t ih =>
    obtain ⟨a, w⟩ := e
    unfold tdel
    repeat' split
    all_goals (simp only [tget_cons, ih]; repeat' split)
    all_goals first | rfl | omega

theorem tget_tset [DecidableEq α] (d : α) (t : Tab α) (k j : Nat) (v : α) :
    tget d (tset d t k v) j = if j = k then v else tget d t j := by
  unfold tset
  split
  · next h => rw [tget_tdel, h]
  · rw [tget_tput]

/-- A write under one default read under another: the key read is not the one written. -/
theorem tget_tset_ne [DecidableEq α] (d e : α) (t : Tab α) {k j : Nat} (v : α) (h : j ≠ k) :
    tget e (tset d t k v) j = tget e t j := by
  unfold tset
  split
  · rw [tget_tdel, if_neg h]
  · rw [tget_tput, if_neg h]

@[simp] theorem tget_tput_self (d : α) (t : Tab α) (k : Nat) (v : α) : tget d (tput t k v) k = v := by
  rw [tget_tput, if_pos rfl]

@[simp] theorem tget_tset_self [DecidableEq α] (d : α) (t : Tab α) (k : Nat) (v : α) :
    tget d (tset d t k v) k = v := by rw [tget_tset, if_pos rfl]

theorem tput_tput (t : Tab α) (k : Nat) (v w : α) : tput (tput t k v) k w = tput t k w := by
  induction t with
  | nil => simp [tput]
  | cons p t ih =>
    obtain ⟨a, x⟩ := p
    simp only [tput]
    split
    · simp [tput]
    · split
      · simp [tput]
      · rename_i h1 h2
        simp only [tput, if_neg h1, if_neg h2, ih]

theorem tget_tput_ne (d : α) (t : Tab α) {k j : Nat} (v : α) (h : j ≠ k) :
    tget d (tput t k v) j = tget d t j := by rw [tget_tput, if_neg h]

/-! ## The canonical form -/

variable [DecidableEq α]

theorem twfFrom_weaken {d : Nat → α} {b c : Nat} {t : Tab α} (hbc : b ≤ c) (h : twfFrom d c t = true) :
    twfFrom d b t = true := by
  cases t with
  | nil => rfl
  | cons e t =>
    obtain ⟨a, v⟩ := e
    simp only [twfFrom, Bool.and_eq_true, decide_eq_true_eq] at h ⊢
    exact ⟨⟨Nat.le_trans hbc h.1.1, h.1.2⟩, h.2⟩

theorem twfFrom_tput {d : Nat → α} {b k : Nat} {t : Tab α} {v : α} (hb : b ≤ k) (hv : v ≠ d k)
    (h : twfFrom d b t = true) : twfFrom d b (tput t k v) = true := by
  induction t generalizing b with
  | nil => simp [tput, twfFrom, hb, hv]
  | cons e t ih =>
    obtain ⟨a, w⟩ := e
    simp only [twfFrom, Bool.and_eq_true, decide_eq_true_eq] at h
    obtain ⟨⟨h1, h2⟩, h3⟩ := h
    unfold tput
    split
    · next e => subst e; simp [twfFrom, h1, hv, h3]
    · next ne =>
      split
      · next lt => simp [twfFrom, hb, hv, h2, h3, Nat.succ_le_of_lt lt]
      · next nlt =>
        have : a + 1 ≤ k := by omega
        simp [twfFrom, h1, h2, ih this h3]

theorem twfFrom_tdel {d : Nat → α} {b k : Nat} {t : Tab α} (h : twfFrom d b t = true) :
    twfFrom d b (tdel t k) = true := by
  induction t generalizing b with
  | nil => rfl
  | cons e t ih =>
    obtain ⟨a, w⟩ := e
    simp only [twfFrom, Bool.and_eq_true, decide_eq_true_eq] at h
    obtain ⟨⟨h1, h2⟩, h3⟩ := h
    unfold tdel
    split
    · exact twfFrom_weaken (by omega) (ih h3)
    · simp [twfFrom, h1, h2, ih h3]

/-- A write keeps the canonical form. -/
theorem twf_tset {d : Nat → α} {t : Tab α} (k : Nat) (v : α) (h : twf d t = true) :
    twf d (tset (d k) t k v) = true := by
  unfold tset
  split
  · exact twfFrom_tdel h
  · next hv => exact twfFrom_tput (Nat.zero_le _) hv h

theorem twfFrom_filter {d : Nat → α} {b : Nat} {t : Tab α} (p : Nat × α → Bool)
    (h : twfFrom d b t = true) : twfFrom d b (t.filter p) = true := by
  induction t generalizing b with
  | nil => rfl
  | cons e t ih =>
    obtain ⟨a, w⟩ := e
    simp only [twfFrom, Bool.and_eq_true, decide_eq_true_eq] at h
    obtain ⟨⟨h1, h2⟩, h3⟩ := h
    rw [List.filter_cons]
    split
    · simp [twfFrom, h1, h2, ih h3]
    · exact twfFrom_weaken (by omega) (ih h3)

/-- Dropping entries keeps the canonical form. -/
theorem twf_filter {d : Nat → α} {t : Tab α} (p : Nat × α → Bool) (h : twf d t = true) :
    twf d (t.filter p) = true := twfFrom_filter p h

/-! ## Lists -/

omit [DecidableEq α] in
theorem length_lset (l : List α) (n : Nat) (v : α) : (lset l n v).length = l.length := by
  induction l generalizing n with
  | nil => rfl
  | cons a t ih => cases n <;> simp [lset, ih]

omit [DecidableEq α] in
theorem lget_lset (d : α) (l : List α) (n j : Nat) (v : α) (h : n < l.length) :
    lget d (lset l n v) j = if j = n then v else lget d l j := by
  induction l generalizing n j with
  | nil => simp at h
  | cons a t ih =>
    cases n with
    | zero => cases j <;> simp [lset, lget]
    | succ n =>
      have h' : n < t.length := by simpa using h
      cases j with
      | zero => simp [lset, lget]
      | succ j => simp [lset, lget, ih n j h']

end Sys2Proof.Machine
end

