-- ==== Sys2Proof/Laws/Memory.lean ====
section
/-!
SUPPORT. Data space: every operation keeps the canonical form, a byte written reads back, and a write
leaves every other byte alone.
-/

namespace Sys2Proof.Machine

theorem memory_wf_cons (c : Host.Cell) (m : List Host.Cell) :
    Memory.wf (c :: m) = (c.2 != emptyByte && m.head?.all (fun d => decide (c.1 < d.1)) && Memory.wf m) := by
  cases m <;> simp [Memory.wf]

theorem twfFrom_of_wf {b : Nat} {m : List Host.Cell} (hb : m.head?.all (fun d => decide (b ≤ d.1)) = true)
    (h : Memory.wf m = true) : twfFrom (fun _ => emptyByte) b m = true := by
  induction m generalizing b with
  | nil => rfl
  | cons c m ih =>
    rw [memory_wf_cons] at h
    simp only [Bool.and_eq_true, bne_iff_ne] at h
    obtain ⟨⟨h1, h2⟩, h3⟩ := h
    simp only [List.head?_cons, Option.all_some, decide_eq_true_eq] at hb
    simp only [twfFrom, Bool.and_eq_true, decide_eq_true_eq]
    refine ⟨⟨hb, h1⟩, ih ?_ h3⟩
    simpa [Nat.succ_le_iff] using h2

theorem wf_of_twfFrom {b : Nat} {m : List Host.Cell} (h : twfFrom (fun _ => emptyByte) b m = true) :
    Memory.wf m = true ∧ m.head?.all (fun d => decide (b ≤ d.1)) = true := by
  induction m generalizing b with
  | nil => exact ⟨rfl, rfl⟩
  | cons c m ih =>
    simp only [twfFrom, Bool.and_eq_true, decide_eq_true_eq] at h
    obtain ⟨⟨h1, h2⟩, h3⟩ := h
    obtain ⟨i1, i2⟩ := ih h3
    refine ⟨?_, by simpa using h1⟩
    rw [memory_wf_cons]
    simp only [Bool.and_eq_true, bne_iff_ne]
    exact ⟨⟨h2, by simpa [Nat.succ_le_iff] using i2⟩, i1⟩

/-- The canonical form of data space is that of a table with default 0. -/
theorem memory_wf_iff (m : List Host.Cell) :
    Memory.wf m = true ↔ twf (fun _ => emptyByte) m = true :=
  ⟨fun h => twfFrom_of_wf (by cases m <;> simp) h, fun h => (wf_of_twfFrom h).1⟩

theorem memory_wf_tset {m : List Host.Cell} (a : Nat) (b : Byte) (h : Memory.wf m = true) :
    Memory.wf (tset emptyByte m a b) = true := by
  rw [memory_wf_iff] at h ⊢
  exact twf_tset (d := fun _ => emptyByte) a b h

theorem memory_wf_mputs {m : List Host.Cell} (l : List (Nat × Byte)) (h : Memory.wf m = true) :
    Memory.wf (mputs m l) = true := by
  induction l generalizing m with
  | nil => exact h
  | cons p l ih => exact ih (memory_wf_tset p.1 p.2 h)

theorem memory_wf_filter {m : List Host.Cell} (p : Host.Cell → Bool) (h : Memory.wf m = true) :
    Memory.wf (m.filter p) = true := by
  rw [memory_wf_iff] at h ⊢
  exact twf_filter p h

theorem mset_wf {s : State} (a : Nat) (b : Byte) (h : Memory.wf s.mem = true) :
    Memory.wf (s.mset a b).mem = true := memory_wf_tset a b h

theorem mwrite_wf {s : State} (a : Nat) (l : List Byte) (h : Memory.wf s.mem = true) :
    Memory.wf (s.mwrite a l).mem = true := memory_wf_mputs _ h

theorem mwriteVal_wf {s : State} (a n v : Nat) (h : Memory.wf s.mem = true) :
    Memory.wf (s.mwriteVal a n v).mem = true := mwrite_wf a _ h

theorem reset_mem_wf : Memory.wf State.reset.mem = true := rfl

/-! ## Reads after writes -/

theorem mget_mset (s : State) (a j : Nat) (b : Byte) :
    (s.mset a b).mget j = if j = a then b else s.mget j := tget_tset _ _ _ _ _

theorem tget_mputs_of_not_mem (m : List Host.Cell) (l : List (Nat × Byte)) (j : Nat)
    (h : ∀ p ∈ l, p.1 ≠ j) : tget emptyByte (mputs m l) j = tget emptyByte m j := by
  induction l generalizing m with
  | nil => rfl
  | cons p l ih =>
    have h1 : j ≠ p.1 := fun e => h p (by simp) e.symm
    show tget emptyByte (mputs (tset emptyByte m p.1 p.2) l) j = _
    rw [ih _ (fun q hq => h q (by simp [hq])), tget_tset, if_neg h1]

theorem mem_atAddr {a j : Nat} {l : List Byte} {b : Byte} (h : (j, b) ∈ atAddr a l) :
    a ≤ j ∧ j < a + l.length := by
  induction l generalizing a with
  | nil => simp [atAddr] at h
  | cons c l ih =>
    simp only [atAddr, List.mem_cons, Prod.mk.injEq] at h
    rcases h with ⟨rfl, rfl⟩ | h
    · simp
    · have := ih h
      simp only [List.length_cons]
      omega

/-- A write leaves every byte outside it alone. -/
theorem mget_mwrite_of_outside (s : State) (a j : Nat) (l : List Byte) (h : j < a ∨ a + l.length ≤ j) :
    (s.mwrite a l).mget j = s.mget j := by
  refine tget_mputs_of_not_mem _ _ _ (fun p hp e => ?_)
  have := mem_atAddr (a := a) (j := p.1) (b := p.2) hp
  omega

theorem tget_mputs_atAddr (m : List Host.Cell) (a i : Nat) (l : List Byte) (h : i < l.length) :
    tget emptyByte (mputs m (atAddr a l)) (a + i) = l[i] := by
  induction l generalizing m a i with
  | nil => simp at h
  | cons c l ih =>
    show tget emptyByte (mputs (tset emptyByte m a c) (atAddr (a + 1) l)) (a + i) = _
    cases i with
    | zero =>
      rw [tget_mputs_of_not_mem]
      · simp
      · intro p hp e
        have := mem_atAddr (a := a + 1) (j := p.1) (b := p.2) hp
        omega
    | succ i =>
      have := ih (tset emptyByte m a c) (a + 1) i (by simpa using h)
      rw [show a + (i + 1) = a + 1 + i by omega, this]
      simp

/-- A byte written reads back. -/
theorem mget_mwrite_of_inside (s : State) (a i : Nat) (l : List Byte) (h : i < l.length) :
    (s.mwrite a l).mget (a + i) = l[i] := tget_mputs_atAddr s.mem a i l h

theorem length_leBytes (n v : Nat) : (leBytes n v).length = n := by
  induction n generalizing v with
  | zero => rfl
  | succ n ih => simp [leBytes, ih]

theorem length_mread (s : State) (a n : Nat) : (s.mread a n).length = n := by
  induction n generalizing a with
  | zero => rfl
  | succ n ih => simp [State.mread, ih]

theorem mget_mread (s : State) (a n i : Nat) (h : i < (s.mread a n).length) : (s.mread a n)[i] = s.mget (a + i) := by
  induction n generalizing a i with
  | zero => simp [State.mread] at h
  | succ n ih =>
    cases i with
    | zero => simp [State.mread]
    | succ i =>
      simp only [State.mread, List.getElem_cons_succ]
      rw [ih (a + 1) i]
      congr 1
      omega

theorem ofLeBytes_leBytes (n v : Nat) : ofLeBytes (leBytes n v) = v % 2 ^ (8 * n) := by
  induction n generalizing v with
  | zero => simp [leBytes, ofLeBytes, Nat.mod_one]
  | succ n ih =>
    simp only [leBytes, ofLeBytes, ih, BitVec.toNat_ofNat, Nat.shiftRight_eq_div_pow]
    have : 2 ^ (8 * (n + 1)) = 2 ^ 8 * 2 ^ (8 * n) := by rw [← Nat.pow_add]; congr 1; omega
    rw [this, Nat.mod_mul, show (256 : Nat) = 2 ^ 8 from rfl]

/-- A little-endian value written reads back (R6). -/
theorem mval_mwriteVal (s : State) (a n v : Nat) : (s.mwriteVal a n v).mval a n = v % 2 ^ (8 * n) := by
  rw [← ofLeBytes_leBytes]
  unfold State.mval
  congr 1
  apply List.ext_getElem
  · rw [length_mread, length_leBytes]
  · intro i h1 h2
    rw [mget_mread]
    exact mget_mwrite_of_inside s a i _ h2

end Sys2Proof.Machine
end

