-- ==== Sys2Proof/Laws/Kept.lean ====
section
/-!
SUPPORT. The relation Kept between a state and a later one: its composition, and what the shapes of the
model's definitions (record updates, conditionals, loops) keep.
-/

namespace Sys2Proof.Machine

theorem kept_refl (s : State) : Kept s s := ⟨rfl, id, id, List.prefix_refl _⟩

theorem Kept.trans {a b c : State} (h : Kept a b) (k : Kept b c) : Kept a c :=
  ⟨k.pending.trans h.pending, fun x => k.mem (h.mem x), fun x => k.tap (h.tap x), h.outs.trans k.outs⟩

/-- A state that agrees with a kept one in the four fields is kept. -/
theorem kept_of_eq {a b c : State} (h : Kept a b) (h1 : c.pending = b.pending) (h2 : c.mem = b.mem)
    (h3 : c.tap = b.tap) (h4 : c.outs = b.outs) : Kept a c :=
  ⟨h1.trans h.pending, fun x => h2 ▸ h.mem x, fun x => h3 ▸ h.tap x, h4 ▸ h.outs⟩

/-- A record update of any other field. -/
theorem kept_mk_iff {a b : State} {f1 f2 f3 f4 f5 f7 g1 g2 g3 g4 g5 f8 f9 f10 f11 f12 f13 f14 f15 f16 f17 f18 f19 f20 f21 f22 f23 f24 f25 f26 f27 f29}  :
    Kept a (State.mk b.pending f1 f2 f3 f4 f5 b.mem f7 g1 g2 g3 g4 g5 f8 f9 f10 f11 f12 f13 f14 f15 f16 f17 f18 f19 f20 f21 f22 f23 f24 f25 f26 f27 b.tap f29 b.outs) ↔ Kept a b :=
  ⟨fun h => ⟨h.pending, h.mem, h.tap, h.outs⟩, fun h => ⟨h.pending, h.mem, h.tap, h.outs⟩⟩

theorem kept_ite {a x y : State} {c : Prop} [Decidable c] (hx : Kept a x) (hy : Kept a y) :
    Kept a (if c then x else y) := by split <;> assumption

theorem kept_ite_fst {α : Type} {a : State} {x y : State × α} {c : Prop} [Decidable c] (hx : Kept a x.1)
    (hy : Kept a y.1) : Kept a (if c then x else y).1 := by split <;> assumption

theorem kept_foldl {α : Type} {a s : State} (f : State → α → State) (l : List α)
    (hf : ∀ x y, Kept a x → Kept a (f x y)) (h : Kept a s) : Kept a (l.foldl f s) := by
  induction l generalizing s with
  | nil => exact h
  | cons b l ih => exact ih (hf s b h)

theorem kept_foldl_fst {α β : Type} {a : State} {x : State × β} (f : State × β → α → State × β) (l : List α)
    (hf : ∀ x y, Kept a x.1 → Kept a (f x y).1) (h : Kept a x.1) : Kept a (l.foldl f x).1 := by
  induction l generalizing x with
  | nil => exact h
  | cons b l ih => exact ih (hf x b h)

theorem kept_each {α : Type} {a s : State} (f : State → α → State) (l : List α)
    (hf : ∀ x y, Kept a x → Kept a (f x y)) (h : Kept a s) : Kept a (s.each l f) := kept_foldl f l hf h

theorem kept_filter {a s : State} (p : Host.Cell → Bool) (h : Kept a s) :
    Kept a { s with mem := s.mem.filter p } :=
  ⟨h.pending, fun x => memory_wf_filter p (h.mem x), h.tap, h.outs⟩

theorem kept_mputs {a s : State} (l : List (Nat × Byte)) (p : List Nat) (w : Nat × List (Nat × Nat))
    (h : Kept a s) : Kept a { s with mem := mputs s.mem l, poison := p, wrote := w } :=
  ⟨h.pending, fun x => memory_wf_mputs l (h.mem x), h.tap, h.outs⟩

theorem kept_out {a s : State} (m : OutMsg) (h : Kept a s) : Kept a { s with outs := s.outs ++ [m] } :=
  ⟨h.pending, h.mem, h.tap, h.outs.trans (List.prefix_append _ _)⟩

end Sys2Proof.Machine
end

