-- ==== Sys2Proof/Laws/KeptOps.lean ====
section
/-!
SUPPORT. Kept: one lemma per operation of the shared operations: registers, data space, records and events, batons, packets and counters.
-/

namespace Sys2Proof.Machine

theorem State.rset_kept {a0 : State} (s : State) (a : Nat) (v : Word)
    (hk0 : Kept a0 s) : Kept a0 (State.rset s a v) := by
  unfold State.rset
  try dsimp only
  repeat' (first
      | with_reducible assumption
      | intro _
      | simp only [kept_mk_iff])

theorem State.rfldSet_kept {a0 : State} (s : State) (a lo n v : Nat)
    (hk0 : Kept a0 s) : Kept a0 (State.rfldSet s a lo n v) := by
  unfold State.rfldSet
  try dsimp only
  repeat' (first
      | with_reducible assumption
      | intro _
      | simp only [kept_mk_iff]
      | with_reducible apply State.rset_kept)

theorem State.rbitSet_kept {a0 : State} (s : State) (a i : Nat) (b : Bool)
    (hk0 : Kept a0 s) : Kept a0 (State.rbitSet s a i b) := by
  unfold State.rbitSet
  try dsimp only
  repeat' (first
      | with_reducible assumption
      | intro _
      | simp only [kept_mk_iff]
      | with_reducible apply State.rset_kept)

theorem State.rcount_kept {a0 : State} (s : State) (a lo n k : Nat)
    (hk0 : Kept a0 s) : Kept a0 (State.rcount s a lo n k) := by
  unfold State.rcount
  try dsimp only
  repeat' (first
      | with_reducible assumption
      | intro _
      | simp only [kept_mk_iff]
      | with_reducible apply State.rfldSet_kept)

theorem State.rwrap_kept {a0 : State} (s : State) (a lo n k : Nat)
    (hk0 : Kept a0 s) : Kept a0 (State.rwrap s a lo n k) := by
  unfold State.rwrap
  try dsimp only
  repeat' (first
      | with_reducible assumption
      | intro _
      | simp only [kept_mk_iff]
      | with_reducible apply State.rfldSet_kept)

theorem State.mset_kept {a0 : State} (s : State) (a : Nat) (b : Byte) (h : Kept a0 s) : Kept a0 (s.mset a b) :=
  ⟨h.pending, fun x => memory_wf_tset a b (h.mem x), h.tap, h.outs⟩

theorem State.mwrite_kept {a0 : State} (s : State) (a : Nat) (l : List Byte) (h : Kept a0 s) : Kept a0 (s.mwrite a l) :=
  ⟨h.pending, fun x => memory_wf_mputs _ (h.mem x), h.tap, h.outs⟩

theorem State.mwriteVal_kept {a0 : State} (s : State) (a n v : Nat)
    (hk0 : Kept a0 s) : Kept a0 (State.mwriteVal s a n v) := by
  unfold State.mwriteVal
  try dsimp only
  repeat' (first
      | with_reducible assumption
      | intro _
      | simp only [kept_mk_iff]
      | with_reducible apply State.mwrite_kept)

theorem State.mpoison_kept {a0 : State} (s : State) (a : Nat)
    (hk0 : Kept a0 s) : Kept a0 (State.mpoison s a) := by
  unfold State.mpoison
  try dsimp only
  repeat' (first
      | with_reducible assumption
      | intro _
      | simp only [kept_mk_iff])

theorem State.setTile_kept {a0 : State} (s : State) (t : Nat) (x : Tile)
    (hk0 : Kept a0 s) : Kept a0 (State.setTile s t x) := by
  unfold State.setTile
  try dsimp only
  repeat' (first
      | with_reducible assumption
      | intro _
      | simp only [kept_mk_iff])

theorem State.modTile_kept {a0 : State} (s : State) (t : Nat) (f : Tile → Tile)
    (hk0 : Kept a0 s) : Kept a0 (State.modTile s t f) := by
  unfold State.modTile
  try dsimp only
  repeat' (first
      | with_reducible assumption
      | intro _
      | simp only [kept_mk_iff]
      | with_reducible apply State.setTile_kept)

theorem State.setTc_kept {a0 : State} (s : State) (t : Nat) (x : TCtx)
    (hk0 : Kept a0 s) : Kept a0 (State.setTc s t x) := by
  unfold State.setTc
  try dsimp only
  repeat' (first
      | with_reducible assumption
      | intro _
      | simp only [kept_mk_iff]
      | with_reducible apply State.setTile_kept)

theorem State.modTc_kept {a0 : State} (s : State) (t : Nat) (f : TCtx → TCtx)
    (hk0 : Kept a0 s) : Kept a0 (State.modTc s t f) := by
  unfold State.modTc
  try dsimp only
  repeat' (first
      | with_reducible assumption
      | intro _
      | simp only [kept_mk_iff]
      | with_reducible apply State.setTc_kept)

theorem State.acct_kept {a0 : State} (s : State) (c : Nat) (f : Acct → Acct)
    (hk0 : Kept a0 s) : Kept a0 (State.acct s c f) := by
  unfold State.acct
  try dsimp only
  repeat' (first
      | with_reducible assumption
      | intro _
      | simp only [kept_mk_iff]
      | with_reducible apply kept_ite)

theorem State.reportFault_kept {a0 : State} (s : State) (cause c t : Nat) (cls : Nat)
    (hk0 : Kept a0 s) : Kept a0 (State.reportFault s cause c t cls) := by
  unfold State.reportFault
  try dsimp only
  repeat' (first
      | with_reducible assumption
      | intro _
      | simp only [kept_mk_iff]
      | with_reducible apply State.rset_kept
      | with_reducible apply State.rbitSet_kept
      | with_reducible apply State.acct_kept
      | with_reducible apply State.rcount_kept
      | with_reducible apply kept_ite)

theorem State.out_kept {a0 : State} (s : State) (m : OutMsg) (h : Kept a0 s) : Kept a0 (s.out m) := kept_out m h

theorem State.ballOut_kept {a0 : State} (s : State) (m : OutMsg)
    (hk0 : Kept a0 s) : Kept a0 (State.ballOut s m) := by
  unfold State.ballOut
  try dsimp only
  repeat' (first
      | with_reducible assumption
      | intro _
      | simp only [kept_mk_iff]
      | with_reducible apply State.out_kept
      | with_reducible apply kept_ite)

theorem State.sendFrame_kept {a0 : State} (s : State) (k : Nat) (b : List Byte)
    (hk0 : Kept a0 s) : Kept a0 (State.sendFrame s k b) := by
  unfold State.sendFrame
  try dsimp only
  repeat' (first
      | with_reducible assumption
      | intro _
      | simp only [kept_mk_iff]
      | with_reducible apply State.rcount_kept
      | with_reducible apply State.out_kept
      | with_reducible apply kept_ite)

theorem State.ringWrite_kept {a0 : State} (s : State) (base size o : Nat) (l : List Byte)
    (hk0 : Kept a0 s) : Kept a0 (State.ringWrite s base size o l) := by
  unfold State.ringWrite
  try dsimp only
  repeat' (first
      | with_reducible assumption
      | intro _
      | simp only [kept_mk_iff]
      | with_reducible apply State.mwrite_kept
      | with_reducible apply kept_ite)

theorem State.ringPut_kept {a0 : State} (s : State) (k : Nat) (l : List Byte)
    (hk0 : Kept a0 s) : Kept a0 (State.ringPut s k l) := by
  unfold State.ringPut
  try dsimp only
  repeat' (first
      | with_reducible assumption
      | intro _
      | simp only [kept_mk_iff]
      | with_reducible apply State.rset_kept
      | with_reducible apply State.ringWrite_kept)

theorem State.stageFree_kept {a0 : State} (s : State) (n : Nat)
    (hk0 : Kept a0 s) : Kept a0 (State.stageFree s n) := by
  unfold State.stageFree
  try dsimp only
  repeat' (first
      | with_reducible assumption
      | intro _
      | simp only [kept_mk_iff]
      | with_reducible apply State.rfldSet_kept)

theorem State.obsDrain_kept {a0 : State} (s : State) (n0 : _)
    (hk0 : Kept a0 s) : Kept a0 (State.obsDrain s n0) := by
  induction n0 generalizing s with
  | zero =>
    unfold State.obsDrain
    try dsimp only
    repeat' (first
      | with_reducible assumption)
  | succ n ih =>
    unfold State.obsDrain
    try dsimp only
    repeat' (first
      | with_reducible assumption
      | with_reducible apply ih
      | intro _
      | simp only [kept_mk_iff]
      | with_reducible apply State.stageFree_kept
      | with_reducible apply State.ringPut_kept
      | with_reducible apply kept_ite
      | with_reducible apply kept_ite_fst
      | with_reducible apply kept_each
      | with_reducible apply kept_foldl
      | with_reducible apply kept_foldl_fst
      | dsimp only
      | split)

theorem State.toMemory_kept {a0 : State} (s : State) (k : Fin 4) (l : List Byte)
    (hk0 : Kept a0 s) : Kept a0 (State.toMemory s k l) := by
  unfold State.toMemory
  try dsimp only
  repeat' (first
      | with_reducible assumption
      | intro _
      | simp only [kept_mk_iff]
      | with_reducible apply State.obsDrain_kept
      | with_reducible apply State.stageFree_kept
      | with_reducible apply State.rcount_kept
      | with_reducible apply kept_ite)

theorem State.setSub_kept {a0 : State} (s : State) (i : Nat) (b : Sub)
    (hk0 : Kept a0 s) : Kept a0 (State.setSub s i b) := by
  unfold State.setSub
  try dsimp only
  repeat' (first
      | with_reducible assumption
      | intro _
      | simp only [kept_mk_iff])

theorem State.telemSend_kept {a0 : State} (s : State) (i : Nat)
    (hk0 : Kept a0 s) : Kept a0 (State.telemSend s i) := by
  unfold State.telemSend
  try dsimp only
  repeat' (first
      | with_reducible assumption
      | intro _
      | simp only [kept_mk_iff]
      | with_reducible apply State.setSub_kept
      | with_reducible apply State.sendFrame_kept
      | with_reducible apply kept_ite
      | with_reducible apply kept_ite_fst
      | with_reducible apply kept_each
      | with_reducible apply kept_foldl
      | with_reducible apply kept_foldl_fst
      | dsimp only
      | split)

theorem State.telemAll_kept {a0 : State} (s : State) (i : Nat)
    (hk0 : Kept a0 s) : Kept a0 (State.telemAll s i) := by
  unfold State.telemAll
  try dsimp only
  repeat' (first
      | with_reducible assumption
      | intro _
      | simp only [kept_mk_iff]
      | with_reducible apply State.telemSend_kept
      | with_reducible apply State.each_kept
      | with_reducible apply kept_ite
      | with_reducible apply kept_ite_fst
      | with_reducible apply kept_each)

theorem State.toPort_kept {a0 : State} (s : State) (k : Nat) (l : List Byte) (i : Nat)
    (hk0 : Kept a0 s) : Kept a0 (State.toPort s k l i) := by
  unfold State.toPort
  try dsimp only
  repeat' (first
      | with_reducible assumption
      | intro _
      | simp only [kept_mk_iff]
      | with_reducible apply State.setSub_kept
      | with_reducible apply State.telemAll_kept
      | with_reducible apply State.rcount_kept
      | with_reducible apply kept_ite
      | with_reducible apply kept_ite_fst
      | with_reducible apply kept_each
      | with_reducible apply kept_foldl
      | with_reducible apply kept_foldl_fst
      | dsimp only
      | split)

theorem State.streamRec_kept {a0 : State} (s : State) (k : Fin 4) (l pl : List Byte)
    (hk0 : Kept a0 s) : Kept a0 (State.streamRec s k l pl) := by
  unfold State.streamRec
  try dsimp only
  repeat' (first
      | with_reducible assumption
      | intro _
      | simp only [kept_mk_iff]
      | with_reducible apply State.stageFree_kept
      | with_reducible apply State.toMemory_kept
      | with_reducible apply State.toPort_kept
      | with_reducible apply State.each_kept
      | with_reducible apply kept_ite
      | with_reducible apply kept_ite_fst
      | with_reducible apply kept_each)

theorem State.rsetWords_kept {a0 : State} (s : State) (a : Nat) (n0 : _)
    (hk0 : Kept a0 s) : Kept a0 (State.rsetWords s a n0) := by
  induction n0 generalizing s a with
  | nil =>
    unfold State.rsetWords
    try dsimp only
    repeat' (first
      | with_reducible assumption)
  | cons x n ih =>
    unfold State.rsetWords
    try dsimp only
    repeat' (first
      | with_reducible assumption
      | with_reducible apply ih
      | intro _
      | simp only [kept_mk_iff]
      | with_reducible apply State.rset_kept)

theorem State.event_kept {a0 : State} (s : State) (q code : Nat) (w : EvOf) (d0 d1 : Nat)
    (hk0 : Kept a0 s) : Kept a0 (State.event s q code w d0 d1) := by
  unfold State.event
  try dsimp only
  repeat' (first
      | with_reducible assumption
      | intro _
      | simp only [kept_mk_iff]
      | with_reducible apply State.rset_kept
      | with_reducible apply State.rsetWords_kept
      | with_reducible apply State.streamRec_kept)

theorem State.eventCtx_kept {a0 : State} (s : State) (q code c heat layer oper d0 d1 : Nat)
    (hk0 : Kept a0 s) : Kept a0 (State.eventCtx s q code c heat layer oper d0 d1) := by
  unfold State.eventCtx
  try dsimp only
  repeat' (first
      | with_reducible assumption
      | intro _
      | simp only [kept_mk_iff]
      | with_reducible apply State.event_kept)

theorem State.setCmds_kept {a0 : State} (s : State) (t u : Nat) (l : List UnitCmd)
    (hk0 : Kept a0 s) : Kept a0 (State.setCmds s t u l) := by
  unfold State.setCmds
  try dsimp only
  repeat' (first
      | with_reducible assumption
      | intro _
      | simp only [kept_mk_iff])

theorem State.eventTile_kept {a0 : State} (s : State) (t code d0 d1 : Nat) (ids : Option CmdIds)
    (hk0 : Kept a0 s) : Kept a0 (State.eventTile s t code d0 d1 ids) := by
  unfold State.eventTile
  try dsimp only
  repeat' (first
      | with_reducible assumption
      | intro _
      | simp only [kept_mk_iff]
      | with_reducible apply State.eventCtx_kept)

theorem State.faultTile_kept {a0 : State} (s : State) (t c cause : Nat) (cls : Nat) (ids : Option CmdIds)
    (hk0 : Kept a0 s) : Kept a0 (State.faultTile s t c cause cls ids) := by
  unfold State.faultTile
  try dsimp only
  repeat' (first
      | with_reducible assumption
      | intro _
      | simp only [kept_mk_iff]
      | with_reducible apply State.eventTile_kept
      | with_reducible apply State.reportFault_kept
      | with_reducible apply kept_ite)

theorem State.faultDsp_kept {a0 : State} (s : State) (c cause : Nat) (cls : Nat)
    (hk0 : Kept a0 s) : Kept a0 (State.faultDsp s c cause cls) := by
  unfold State.faultDsp
  try dsimp only
  repeat' (first
      | with_reducible assumption
      | intro _
      | simp only [kept_mk_iff]
      | with_reducible apply State.eventCtx_kept
      | with_reducible apply State.reportFault_kept
      | with_reducible apply kept_ite)

theorem State.loanDirty_kept {a0 : State} (s : State) (t c a n : Nat)
    (hk0 : Kept a0 s) : Kept a0 (State.loanDirty s t c a n) := by
  unfold State.loanDirty
  try dsimp only
  repeat' (first
      | with_reducible assumption
      | intro _
      | simp only [kept_mk_iff])

theorem State.eccShow_kept {a0 : State} (s : State) (r : Nat) (w : Word × Word)
    (hk0 : Kept a0 s) : Kept a0 (State.eccShow s r w) := by
  unfold State.eccShow
  try dsimp only
  repeat' (first
      | with_reducible assumption
      | intro _
      | simp only [kept_mk_iff]
      | with_reducible apply State.rset_kept
      | with_reducible apply kept_ite)

theorem State.eccCapture_kept {a0 : State} (s : State) (a : Nat)
    (hk0 : Kept a0 s) : Kept a0 (State.eccCapture s a) := by
  unfold State.eccCapture
  try dsimp only
  repeat' (first
      | with_reducible assumption
      | intro _
      | simp only [kept_mk_iff]
      | with_reducible apply State.eccShow_kept
      | with_reducible apply kept_ite)

theorem State.eccCleared_kept {a0 : State} (s : State) (r : Nat)
    (hk0 : Kept a0 s) : Kept a0 (State.eccCleared s r) := by
  unfold State.eccCleared
  try dsimp only
  repeat' (first
      | with_reducible assumption
      | intro _
      | simp only [kept_mk_iff]
      | with_reducible apply State.eccShow_kept
      | with_reducible apply kept_ite
      | with_reducible apply kept_ite_fst
      | with_reducible apply kept_each
      | with_reducible apply kept_foldl
      | with_reducible apply kept_foldl_fst
      | dsimp only
      | split)

theorem State.eccUE_kept {a0 : State} (s : State) (a : Nat)
    (hk0 : Kept a0 s) : Kept a0 (State.eccUE s a) := by
  unfold State.eccUE
  try dsimp only
  repeat' (first
      | with_reducible assumption
      | intro _
      | simp only [kept_mk_iff]
      | with_reducible apply State.rcount_kept
      | with_reducible apply State.eccCapture_kept
      | with_reducible apply State.event_kept)

theorem State.eccCE_kept {a0 : State} (s : State) (a : Nat)
    (hk0 : Kept a0 s) : Kept a0 (State.eccCE s a) := by
  unfold State.eccCE
  try dsimp only
  repeat' (first
      | with_reducible assumption
      | intro _
      | simp only [kept_mk_iff]
      | with_reducible apply State.rcount_kept
      | with_reducible apply State.event_kept)

theorem State.takePoison_kept {a0 : State} (s : State) (k : Nat)
    (hk0 : Kept a0 s) : Kept a0 (State.takePoison s k) := by
  unfold State.takePoison
  try dsimp only
  repeat' (first
      | with_reducible assumption
      | intro _
      | simp only [kept_mk_iff]
      | with_reducible apply State.eccUE_kept
      | with_reducible apply kept_ite)

theorem State.readPoison_kept {a0 : State} (s : State) (a n : Nat)
    (hk0 : Kept a0 s) : Kept a0 (State.readPoison s a n) := by
  unfold State.readPoison
  try dsimp only
  repeat' (first
      | with_reducible assumption
      | intro _
      | simp only [kept_mk_iff]
      | with_reducible apply State.takePoison_kept
      | with_reducible apply State.each_kept
      | with_reducible apply kept_ite
      | with_reducible apply kept_ite_fst
      | with_reducible apply kept_each)

theorem State.readUnits_kept {a0 : State} (s : State) (t c : Nat) (ids : Option CmdIds) (n0 : _)
    (hk0 : Kept a0 s) : Kept a0 (State.readUnits s t c ids n0) := by
  induction n0 generalizing s t c ids with
  | nil =>
    unfold State.readUnits
    try dsimp only
    repeat' (first
      | with_reducible assumption)
  | cons x n ih =>
    unfold State.readUnits
    try dsimp only
    repeat' (first
      | with_reducible assumption
      | with_reducible apply ih
      | intro _
      | simp only [kept_mk_iff]
      | with_reducible apply State.takePoison_kept
      | with_reducible apply State.faultTile_kept
      | with_reducible apply State.each_kept
      | with_reducible apply kept_ite
      | with_reducible apply kept_ite_fst
      | with_reducible apply kept_each)

theorem State.stagePoison_kept {a0 : State} (s : State) (t c : Nat) (l : List (Nat × Nat)) (ids : Option CmdIds)
    (hk0 : Kept a0 s) : Kept a0 (State.stagePoison s t c l ids) := by
  unfold State.stagePoison
  try dsimp only
  repeat' (first
      | with_reducible assumption
      | intro _
      | simp only [kept_mk_iff]
      | with_reducible apply State.readUnits_kept)

theorem State.stageReads_kept {a0 : State} (s : State) (t c : Nat) (l : List (Nat × Nat)) (ids : Option CmdIds)
    (hk0 : Kept a0 s) : Kept a0 (State.stageReads s t c l ids) := by
  unfold State.stageReads
  try dsimp only
  repeat' (first
      | with_reducible assumption
      | intro _
      | simp only [kept_mk_iff]
      | with_reducible apply State.faultTile_kept
      | with_reducible apply State.stagePoison_kept
      | with_reducible apply kept_ite
      | with_reducible apply kept_ite_fst
      | with_reducible apply kept_each
      | with_reducible apply kept_foldl
      | with_reducible apply kept_foldl_fst
      | dsimp only
      | split)

theorem State.portWrite_kept {a0 : State} (s : State) (t c a : Nat) (l : List Byte) (ids : Option CmdIds)
    (hk0 : Kept a0 s) : Kept a0 (State.portWrite s t c a l ids) := by
  unfold State.portWrite
  try dsimp only
  repeat' (first
      | with_reducible assumption
      | intro _
      | simp only [kept_mk_iff]
      | with_reducible apply State.faultTile_kept
      | with_reducible apply State.loanDirty_kept
      | with_reducible apply State.mwrite_kept
      | with_reducible apply kept_ite
      | with_reducible apply kept_ite_fst
      | with_reducible apply kept_each
      | with_reducible apply kept_foldl
      | with_reducible apply kept_foldl_fst
      | dsimp only
      | split)

theorem State.markUnit_kept {a0 : State} (s : State) (a : Nat)
    (hk0 : Kept a0 s) : Kept a0 (State.markUnit s a) := by
  unfold State.markUnit
  try dsimp only
  repeat' (first
      | with_reducible assumption
      | intro _
      | simp only [kept_mk_iff]
      | with_reducible apply State.mpoison_kept)

theorem State.poisonRange_kept {a0 : State} (s : State) (good : Nat → Bool) (a n : Nat)
    (hk0 : Kept a0 s) : Kept a0 (State.poisonRange s good a n) := by
  unfold State.poisonRange
  try dsimp only
  repeat' (first
      | with_reducible assumption
      | intro _
      | simp only [kept_mk_iff]
      | with_reducible apply State.markUnit_kept
      | with_reducible apply State.each_kept
      | with_reducible apply kept_ite
      | with_reducible apply kept_ite_fst
      | with_reducible apply kept_each)

theorem State.moveBytes_kept {a0 : State} (s : State) (src dst n : Nat)
    (hk0 : Kept a0 s) : Kept a0 (State.moveBytes s src dst n) := by
  unfold State.moveBytes
  try dsimp only
  repeat' (first
      | with_reducible assumption
      | intro _
      | simp only [kept_mk_iff]
      | with_reducible apply State.poisonRange_kept
      | with_reducible apply State.readPoison_kept
      | with_reducible apply State.each_kept
      | with_reducible apply State.mwrite_kept
      | with_reducible apply kept_ite
      | with_reducible apply kept_ite_fst
      | with_reducible apply kept_each)

theorem State.writeMarked_kept {a0 : State} (s : State) (a : Nat) (l : List Byte) (poison : Bool)
    (hk0 : Kept a0 s) : Kept a0 (State.writeMarked s a l poison) := by
  unfold State.writeMarked
  try dsimp only
  repeat' (first
      | with_reducible assumption
      | intro _
      | simp only [kept_mk_iff]
      | with_reducible apply State.mwrite_kept
      | with_reducible apply State.poisonRange_kept
      | with_reducible apply kept_ite)

theorem State.chargeMem_kept {a0 : State} (s : State) (c n : Nat)
    (hk0 : Kept a0 s) : Kept a0 (State.chargeMem s c n) := by
  unfold State.chargeMem
  try dsimp only
  repeat' (first
      | with_reducible assumption
      | intro _
      | simp only [kept_mk_iff]
      | with_reducible apply State.acct_kept)

theorem State.chargeRly_kept {a0 : State} (s : State) (c n : Nat)
    (hk0 : Kept a0 s) : Kept a0 (State.chargeRly s c n) := by
  unfold State.chargeRly
  try dsimp only
  repeat' (first
      | with_reducible assumption
      | intro _
      | simp only [kept_mk_iff]
      | with_reducible apply State.acct_kept)

theorem State.setTokens_kept {a0 : State} (s : State) (p kind : Nat) (v : Int)
    (hk0 : Kept a0 s) : Kept a0 (State.setTokens s p kind v) := by
  unfold State.setTokens
  try dsimp only
  repeat' (first
      | with_reducible assumption
      | intro _
      | simp only [kept_mk_iff])

theorem State.paceTake_kept {a0 : State} (s : State) (p kind n : Nat)
    (hk0 : Kept a0 s) : Kept a0 (State.paceTake s p kind n) := by
  unfold State.paceTake
  try dsimp only
  repeat' (first
      | with_reducible assumption
      | intro _
      | simp only [kept_mk_iff]
      | with_reducible apply State.setTokens_kept)

theorem State.hold_kept {a0 : State} (s : State) (h : Held)
    (hk0 : Kept a0 s) : Kept a0 (State.hold s h) := by
  unfold State.hold
  try dsimp only
  repeat' (first
      | with_reducible assumption
      | intro _
      | simp only [kept_mk_iff])

theorem State.setLnk_kept {a0 : State} (s : State) (k : Nat) (l : Link)
    (hk0 : Kept a0 s) : Kept a0 (State.setLnk s k l) := by
  unfold State.setLnk
  try dsimp only
  repeat' (first
      | with_reducible assumption
      | intro _
      | simp only [kept_mk_iff])

theorem State.linkQueue_kept {a0 : State} (s : State) (k : Nat) (nak : Bool) (seq : Nat) (credits : List Nat)
    (hk0 : Kept a0 s) : Kept a0 (State.linkQueue s k nak seq credits) := by
  unfold State.linkQueue
  try dsimp only
  repeat' (first
      | with_reducible assumption
      | intro _
      | simp only [kept_mk_iff]
      | with_reducible apply State.setLnk_kept)

theorem State.freeBuf_kept {a0 : State} (s : State) (p : Pkt)
    (hk0 : Kept a0 s) : Kept a0 (State.freeBuf s p) := by
  unfold State.freeBuf
  try dsimp only
  repeat' (first
      | with_reducible assumption
      | intro _
      | simp only [kept_mk_iff]
      | with_reducible apply State.linkQueue_kept
      | with_reducible apply kept_ite
      | with_reducible apply kept_ite_fst
      | with_reducible apply kept_each
      | with_reducible apply kept_foldl
      | with_reducible apply kept_foldl_fst
      | dsimp only
      | split)

theorem State.pump_kept {a0 : State} (s : State) (k : Nat) (n0 : _)
    (hk0 : Kept a0 s) : Kept a0 (State.pump s k n0) := by
  induction n0 generalizing s k with
  | zero =>
    unfold State.pump
    try dsimp only
    repeat' (first
      | with_reducible assumption)
  | succ n ih =>
    unfold State.pump
    try dsimp only
    repeat' (first
      | with_reducible assumption
      | with_reducible apply ih
      | intro _
      | simp only [kept_mk_iff]
      | with_reducible apply State.out_kept
      | with_reducible apply State.freeBuf_kept
      | with_reducible apply State.setLnk_kept
      | with_reducible apply kept_ite
      | with_reducible apply kept_ite_fst
      | with_reducible apply kept_each
      | with_reducible apply kept_foldl
      | with_reducible apply kept_foldl_fst
      | dsimp only
      | split)

theorem State.pumpAll_kept {a0 : State} (s : State) (k : Nat)
    (hk0 : Kept a0 s) : Kept a0 (State.pumpAll s k) := by
  unfold State.pumpAll
  try dsimp only
  repeat' (first
      | with_reducible assumption
      | intro _
      | simp only [kept_mk_iff]
      | with_reducible apply State.pump_kept
      | with_reducible apply State.each_kept
      | with_reducible apply kept_ite
      | with_reducible apply kept_ite_fst
      | with_reducible apply kept_each)

theorem State.queuePkt_kept {a0 : State} (s : State) (k : Nat) (p : Pkt)
    (hk0 : Kept a0 s) : Kept a0 (State.queuePkt s k p) := by
  unfold State.queuePkt
  try dsimp only
  repeat' (first
      | with_reducible assumption
      | intro _
      | simp only [kept_mk_iff]
      | with_reducible apply State.setLnk_kept
      | with_reducible apply State.pumpAll_kept)

theorem State.sendLink_kept {a0 : State} (s : State) (k : Nat) (nak : Bool) (seq : Nat) (credits : List Nat)
    (hk0 : Kept a0 s) : Kept a0 (State.sendLink s k nak seq credits) := by
  unfold State.sendLink
  try dsimp only
  repeat' (first
      | with_reducible assumption
      | intro _
      | simp only [kept_mk_iff]
      | with_reducible apply State.pumpAll_kept
      | with_reducible apply State.linkQueue_kept)

theorem State.sendCtl_kept {a0 : State} (s : State) (k : Nat) (m : CtlMsg)
    (hk0 : Kept a0 s) : Kept a0 (State.sendCtl s k m) := by
  unfold State.sendCtl
  try dsimp only
  repeat' (first
      | with_reducible assumption
      | intro _
      | simp only [kept_mk_iff]
      | with_reducible apply State.queuePkt_kept)

theorem State.issuePkt_kept {a0 : State} (s : State) (pt k : Nat) (p : Pkt)
    (hk0 : Kept a0 s) : Kept a0 (State.issuePkt s pt k p) := by
  unfold State.issuePkt
  try dsimp only
  repeat' (first
      | with_reducible assumption
      | intro _
      | simp only [kept_mk_iff]
      | with_reducible apply State.chargeRly_kept
      | with_reducible apply State.queuePkt_kept
      | with_reducible apply State.paceTake_kept)

theorem State.pacedPkt_kept {a0 : State} (s : State) (c k : Nat) (p : Pkt)
    (hk0 : Kept a0 s) : Kept a0 (State.pacedPkt s c k p) := by
  unfold State.pacedPkt
  try dsimp only
  repeat' (first
      | with_reducible assumption
      | intro _
      | simp only [kept_mk_iff]
      | with_reducible apply State.issuePkt_kept
      | with_reducible apply State.hold_kept
      | with_reducible apply kept_ite)

theorem State.sendBack_kept {a0 : State} (s : State) (dst : Nat) (p : Pkt)
    (hk0 : Kept a0 s) : Kept a0 (State.sendBack s dst p) := by
  unfold State.sendBack
  try dsimp only
  repeat' (first
      | with_reducible assumption
      | intro _
      | simp only [kept_mk_iff]
      | with_reducible apply State.queuePkt_kept
      | with_reducible apply kept_ite
      | with_reducible apply kept_ite_fst
      | with_reducible apply kept_each
      | with_reducible apply kept_foldl
      | with_reducible apply kept_foldl_fst
      | dsimp only
      | split)

theorem State.request_kept {a0 s x : State} {c t d ty addr len : Nat} {data : List Byte} {poison : Bool}
    {kind : ReqKind} (e : s.request c t d ty addr len data poison kind = some x) (h : Kept a0 s) :
    Kept a0 x := by
  unfold State.request at e
  split at e
  · cases e
  · cases e
    apply State.pacedPkt_kept
    exact kept_mk_iff.2 h

theorem State.modCtx_kept {a0 : State} (s : State) (t c : Nat) (f : TCtx → TCtx)
    (hk0 : Kept a0 s) : Kept a0 (State.modCtx s t c f) := by
  unfold State.modCtx
  try dsimp only
  repeat' (first
      | with_reducible assumption
      | intro _
      | simp only [kept_mk_iff]
      | with_reducible apply State.modTc_kept
      | with_reducible apply kept_ite)

theorem State.modCopy_kept {a0 : State} (s : State) (t : Nat) (f : CopyRun → CopyRun)
    (hk0 : Kept a0 s) : Kept a0 (State.modCopy s t f) := by
  unfold State.modCopy
  try dsimp only
  repeat' (first
      | with_reducible assumption
      | intro _
      | simp only [kept_mk_iff]
      | with_reducible apply State.modTc_kept)

theorem State.remotePiece_kept {a0 s x : State} {c t src dst n : Nat} {rd : Nat → ReqKind}
    {wr : ReqKind} (e : s.remotePiece c t src dst n rd wr = some x) (h : Kept a0 s) : Kept a0 x := by
  unfold State.remotePiece at e
  split at e
  · exact State.request_kept e h
  · split at e
    · exact State.request_kept e (State.readPoison_kept _ _ _ h)
    · cases e

theorem State.copyBlock_kept {a0 : State} (s : State) (t c : Nat) (n0 : _)
    (hk0 : Kept a0 s) : Kept a0 (State.copyBlock s t c n0) := by
  induction n0 generalizing s t c with
  | zero =>
    unfold State.copyBlock
    try dsimp only
    repeat' (first
      | with_reducible assumption)
  | succ n ih =>
    unfold State.copyBlock
    try dsimp only
    repeat' (first
      | with_reducible assumption
      | with_reducible apply ih
      | intro _
      | simp only [kept_mk_iff]
      | with_reducible apply State.modCopy_kept
      | refine State.remotePiece_kept (by assumption) ?_
      | with_reducible apply kept_ite
      | with_reducible apply kept_ite_fst
      | with_reducible apply kept_each
      | with_reducible apply kept_foldl
      | with_reducible apply kept_foldl_fst
      | dsimp only
      | split)

theorem State.releaseWait_kept {a0 : State} (s : State) (w : BWait)
    (hk0 : Kept a0 s) : Kept a0 (State.releaseWait s w) := by
  unfold State.releaseWait
  try dsimp only
  repeat' (first
      | with_reducible assumption
      | intro _
      | simp only [kept_mk_iff]
      | with_reducible apply State.sendBack_kept
      | with_reducible apply State.modTc_kept
      | with_reducible apply State.hold_kept
      | with_reducible apply kept_ite
      | with_reducible apply kept_ite_fst
      | with_reducible apply kept_each
      | with_reducible apply kept_foldl
      | with_reducible apply kept_foldl_fst
      | dsimp only
      | split)

theorem State.serveCount_kept {a0 : State} (s : State) (b : Nat)
    (hk0 : Kept a0 s) : Kept a0 (State.serveCount s b) := by
  unfold State.serveCount
  try dsimp only
  repeat' (first
      | with_reducible assumption
      | intro _
      | simp only [kept_mk_iff]
      | with_reducible apply State.releaseWait_kept
      | with_reducible apply State.each_kept
      | with_reducible apply kept_ite
      | with_reducible apply kept_ite_fst
      | with_reducible apply kept_each)

theorem State.serveSem_kept {a0 : State} (s : State) (b : Nat) (n0 : _)
    (hk0 : Kept a0 s) : Kept a0 (State.serveSem s b n0) := by
  induction n0 generalizing s b with
  | zero =>
    unfold State.serveSem
    try dsimp only
    repeat' (first
      | with_reducible assumption)
  | succ n ih =>
    unfold State.serveSem
    try dsimp only
    repeat' (first
      | with_reducible assumption
      | with_reducible apply ih
      | intro _
      | simp only [kept_mk_iff]
      | with_reducible apply State.rset_kept
      | with_reducible apply State.releaseWait_kept
      | with_reducible apply kept_ite
      | with_reducible apply kept_ite_fst
      | with_reducible apply kept_each
      | with_reducible apply kept_foldl
      | with_reducible apply kept_foldl_fst
      | dsimp only
      | split)

theorem State.serveBaton_kept {a0 : State} (s : State) (b : Nat)
    (hk0 : Kept a0 s) : Kept a0 (State.serveBaton s b) := by
  unfold State.serveBaton
  try dsimp only
  repeat' (first
      | with_reducible assumption
      | intro _
      | simp only [kept_mk_iff]
      | with_reducible apply State.serveCount_kept
      | with_reducible apply State.serveSem_kept
      | with_reducible apply kept_ite)

theorem State.postLocal_kept {a0 : State} (s : State) (b arg : Nat)
    (hk0 : Kept a0 s) : Kept a0 (State.postLocal s b arg) := by
  unfold State.postLocal
  try dsimp only
  repeat' (first
      | with_reducible assumption
      | intro _
      | simp only [kept_mk_iff]
      | with_reducible apply State.rset_kept
      | with_reducible apply State.rbitSet_kept
      | with_reducible apply State.serveBaton_kept
      | with_reducible apply kept_ite)

theorem State.post_kept {a0 : State} (s : State) (c b arg : Nat) (fault : State → Nat → State) (hfault : ∀ u0 u1, Kept a0 u0 → Kept a0 (fault u0 u1))
    (hk0 : Kept a0 s) : Kept a0 (State.post s c b arg fault) := by
  unfold State.post
  try dsimp only
  repeat' (first
      | with_reducible assumption
      | intro _
      | simp only [kept_mk_iff]
      | with_reducible apply hfault
      | with_reducible apply State.pacedPkt_kept
      | with_reducible apply State.postLocal_kept
      | with_reducible apply kept_ite
      | with_reducible apply kept_ite_fst
      | with_reducible apply kept_each
      | with_reducible apply kept_foldl
      | with_reducible apply kept_foldl_fst
      | dsimp only
      | split)

theorem State.postHost_kept {a0 : State} (s : State) (b arg : Nat)
    (hk0 : Kept a0 s) : Kept a0 (State.postHost s b arg) := by
  unfold State.postHost
  try dsimp only
  repeat' (first
      | with_reducible assumption
      | intro _
      | simp only [kept_mk_iff]
      | with_reducible apply State.queuePkt_kept
      | with_reducible apply State.postLocal_kept
      | with_reducible apply kept_ite
      | with_reducible apply kept_ite_fst
      | with_reducible apply kept_each
      | with_reducible apply kept_foldl
      | with_reducible apply kept_foldl_fst
      | dsimp only
      | split)

theorem State.enterWait_kept {a0 : State} (s : State) (w : BWait)
    (hk0 : Kept a0 s) : Kept a0 (State.enterWait s w) := by
  unfold State.enterWait
  try dsimp only
  repeat' (first
      | with_reducible assumption
      | intro _
      | simp only [kept_mk_iff]
      | with_reducible apply State.serveBaton_kept)

theorem State.waitTile_kept {a0 : State} (s : State) (t c b arg : Nat)
    (hk0 : Kept a0 s) : Kept a0 (State.waitTile s t c b arg) := by
  unfold State.waitTile
  try dsimp only
  repeat' (first
      | with_reducible assumption
      | intro _
      | simp only [kept_mk_iff]
      | refine State.request_kept (by assumption) ?_
      | with_reducible apply State.modTc_kept
      | with_reducible apply State.hold_kept
      | with_reducible apply State.enterWait_kept
      | with_reducible apply State.faultTile_kept
      | with_reducible apply kept_ite
      | with_reducible apply kept_ite_fst
      | with_reducible apply kept_each
      | with_reducible apply kept_foldl
      | with_reducible apply kept_foldl_fst
      | dsimp only
      | split)

theorem State.batonWait_kept {a0 : State} (s : State) (t c b arg : Nat)
    (hk0 : Kept a0 s) : Kept a0 (State.batonWait s t c b arg) := by
  unfold State.batonWait
  try dsimp only
  repeat' (first
      | with_reducible assumption
      | intro _
      | simp only [kept_mk_iff]
      | with_reducible apply State.waitTile_kept
      | with_reducible apply State.faultTile_kept
      | with_reducible apply kept_ite)

theorem State.withdraw_kept {a0 : State} (s : State) (t : Nat)
    (hk0 : Kept a0 s) : Kept a0 (State.withdraw s t) := by
  unfold State.withdraw
  try dsimp only
  repeat' (first
      | with_reducible assumption
      | intro _
      | simp only [kept_mk_iff]
      | with_reducible apply State.serveBaton_kept
      | with_reducible apply State.each_kept
      | with_reducible apply kept_ite
      | with_reducible apply kept_ite_fst
      | with_reducible apply kept_each)

theorem State.startOutput_kept {a0 : State} (s : State) (t c : Nat) (q : QCmd) (di slot smode : Nat) (qx : Int) (hrec : Nat) (src : List (List FVal)) (fl : FlagSet) (extra : List (Nat × Byte))
    (hk0 : Kept a0 s) : Kept a0 (State.startOutput s t c q di slot smode qx hrec src fl extra) := by
  unfold State.startOutput
  try dsimp only
  repeat' (first
      | with_reducible assumption
      | intro _
      | simp only [kept_mk_iff]
      | with_reducible apply State.setTc_kept
      | with_reducible apply State.mwrite_kept
      | with_reducible apply kept_ite)

theorem State.startMac_kept {a0 : State} (s : State) (t c : Nat) (q : QCmd) (o : MacOps)
    (hk0 : Kept a0 s) : Kept a0 (State.startMac s t c q o) := by
  unfold State.startMac
  try dsimp only
  repeat' (first
      | with_reducible assumption
      | intro _
      | simp only [kept_mk_iff]
      | with_reducible apply State.startOutput_kept)

theorem State.startConv_kept {a0 : State} (s : State) (t c : Nat) (q : QCmd) (o : ConvOps)
    (hk0 : Kept a0 s) : Kept a0 (State.startConv s t c q o) := by
  unfold State.startConv
  try dsimp only
  repeat' (first
      | with_reducible assumption
      | intro _
      | simp only [kept_mk_iff]
      | with_reducible apply State.startOutput_kept)

theorem State.startXtload_kept {a0 : State} (s : State) (t c : Nat) (q : QCmd) (k : Nat) (bf : Bool) (src : Nat)
    (hk0 : Kept a0 s) : Kept a0 (State.startXtload s t c q k bf src) := by
  unfold State.startXtload
  try dsimp only
  repeat' (first
      | with_reducible assumption
      | intro _
      | simp only [kept_mk_iff]
      | with_reducible apply State.modTc_kept)

theorem State.cntSet_kept {a0 : State} (s : State) (a v : Nat)
    (hk0 : Kept a0 s) : Kept a0 (State.cntSet s a v) := by
  unfold State.cntSet
  try dsimp only
  repeat' (first
      | with_reducible assumption
      | intro _
      | simp only [kept_mk_iff])

theorem State.cmdStart_kept {a0 : State} (s : State) (t u c seq : Nat) (i : CmdIds)
    (hk0 : Kept a0 s) : Kept a0 (State.cmdStart s t u c seq i) := by
  unfold State.cmdStart
  try dsimp only
  repeat' (first
      | with_reducible assumption
      | intro _
      | simp only [kept_mk_iff]
      | with_reducible apply State.setCmds_kept)

theorem State.solveStart_kept {a0 : State} (s : State) (t u c heat : Nat) (r : SolveRun)
    (hk0 : Kept a0 s) : Kept a0 (State.solveStart s t u c heat r) := by
  unfold State.solveStart
  try dsimp only
  repeat' (first
      | with_reducible assumption
      | intro _
      | simp only [kept_mk_iff]
      | with_reducible apply State.cmdStart_kept
      | with_reducible apply kept_ite)

theorem State.cmdRecord_kept {a0 : State} (s : State) (t u : Nat) (k : UnitCmd) (abandoned : Bool)
    (hk0 : Kept a0 s) : Kept a0 (State.cmdRecord s t u k abandoned) := by
  unfold State.cmdRecord
  try dsimp only
  repeat' (first
      | with_reducible assumption
      | intro _
      | simp only [kept_mk_iff]
      | with_reducible apply State.streamRec_kept
      | with_reducible apply kept_ite)

theorem State.cmdEnd_kept {a0 : State} (s : State) (t u seq : Nat)
    (hk0 : Kept a0 s) : Kept a0 (State.cmdEnd s t u seq) := by
  unfold State.cmdEnd
  try dsimp only
  repeat' (first
      | with_reducible assumption
      | intro _
      | simp only [kept_mk_iff]
      | with_reducible apply State.setCmds_kept
      | with_reducible apply State.cmdRecord_kept
      | with_reducible apply kept_ite
      | with_reducible apply kept_ite_fst
      | with_reducible apply kept_each
      | with_reducible apply kept_foldl
      | with_reducible apply kept_foldl_fst
      | dsimp only
      | split)

theorem State.parkCmds_kept {a0 : State} (s : State) (t : Nat)
    (hk0 : Kept a0 s) : Kept a0 (State.parkCmds s t) := by
  unfold State.parkCmds
  try dsimp only
  repeat' (first
      | with_reducible assumption
      | intro _
      | simp only [kept_mk_iff]
      | with_reducible apply State.setCmds_kept
      | with_reducible apply State.each_kept
      | with_reducible apply kept_ite
      | with_reducible apply kept_ite_fst
      | with_reducible apply kept_each)

theorem State.cmdsAbandoned_kept {a0 : State} (s : State) (t : Nat) (l : Tab (List UnitCmd))
    (hk0 : Kept a0 s) : Kept a0 (State.cmdsAbandoned s t l) := by
  unfold State.cmdsAbandoned
  try dsimp only
  repeat' (first
      | with_reducible assumption
      | intro _
      | simp only [kept_mk_iff]
      | with_reducible apply State.cmdRecord_kept
      | with_reducible apply State.each_kept
      | with_reducible apply kept_ite
      | with_reducible apply kept_ite_fst
      | with_reducible apply kept_each)

theorem State.cntCycle_kept {a0 : State} (s : State) (b cls reason : Nat)
    (hk0 : Kept a0 s) : Kept a0 (State.cntCycle s b cls reason) := by
  unfold State.cntCycle
  try dsimp only
  repeat' (first
      | with_reducible assumption
      | intro _
      | simp only [kept_mk_iff]
      | with_reducible apply State.rwrap_kept
      | with_reducible apply State.cntSet_kept
      | with_reducible apply kept_ite
      | with_reducible apply kept_ite_fst
      | with_reducible apply kept_each
      | with_reducible apply kept_foldl
      | with_reducible apply kept_foldl_fst
      | dsimp only
      | split)

theorem State.unitCnt_kept {a0 : State} (s : State) (t u cls reason : Nat)
    (hk0 : Kept a0 s) : Kept a0 (State.unitCnt s t u cls reason) := by
  unfold State.unitCnt
  try dsimp only
  repeat' (first
      | with_reducible assumption
      | intro _
      | simp only [kept_mk_iff]
      | with_reducible apply State.cntCycle_kept
      | with_reducible apply State.setCmds_kept
      | with_reducible apply kept_ite
      | with_reducible apply kept_ite_fst
      | with_reducible apply kept_each
      | with_reducible apply kept_foldl
      | with_reducible apply kept_foldl_fst
      | dsimp only
      | split)

theorem State.dumpCount_kept {a0 : State} (s : State) (i : Nat)
    (hk0 : Kept a0 s) : Kept a0 (State.dumpCount s i).1 := by
  unfold State.dumpCount
  try dsimp only
  repeat' (first
      | with_reducible assumption
      | intro _
      | simp only [kept_mk_iff])

theorem State.dumpTake_kept {a0 : State} (s : State) (d : DumpReq)
    (hk0 : Kept a0 s) : Kept a0 (State.dumpTake s d) := by
  unfold State.dumpTake
  try dsimp only
  repeat' (first
      | with_reducible assumption
      | intro _
      | simp only [kept_mk_iff]
      | with_reducible apply State.rbitSet_kept
      | with_reducible apply State.modTile_kept
      | with_reducible apply kept_ite)

theorem State.dumpGate_kept {a0 : State} (s : State) (t c u step seq prob layer oper heat : Nat) (solve : Bool)
    (hk0 : Kept a0 s) : Kept a0 (State.dumpGate s t c u step seq prob layer oper heat solve).1 := by
  unfold State.dumpGate
  try dsimp only
  repeat' (first
      | with_reducible assumption
      | intro _
      | simp only [kept_mk_iff]
      | with_reducible apply State.dumpTake_kept
      | with_reducible apply State.dumpCount_kept
      | with_reducible apply kept_ite
      | with_reducible apply kept_ite_fst
      | with_reducible apply kept_each
      | with_reducible apply kept_foldl)

theorem State.dropDumps_kept {a0 : State} (s : State) (f : DumpReq → Bool)
    (hk0 : Kept a0 s) : Kept a0 (State.dropDumps s f) := by
  unfold State.dropDumps
  try dsimp only
  repeat' (first
      | with_reducible assumption
      | intro _
      | simp only [kept_mk_iff]
      | with_reducible apply State.stageFree_kept)

end Sys2Proof.Machine
end

