-- ==== Sys2Proof/Laws/KeptStage.lean ====
section
/-!
SUPPORT. Kept: one lemma per operation of the solver stages.
-/

namespace Sys2Proof.Machine

theorem State.modSlot_kept {a0 : State} (s : State) (t heat prob : Nat) (f : Slot → Slot)
    (hk0 : Kept a0 s) : Kept a0 (State.modSlot s t heat prob f) := by
  unfold State.modSlot
  try dsimp only
  repeat' (first
      | with_reducible assumption
      | intro _
      | simp only [kept_mk_iff]
      | with_reducible apply State.modTc_kept)

theorem State.modSolve_kept {a0 : State} (s : State) (t heat : Nat) (f : SolveRun → SolveRun)
    (hk0 : Kept a0 s) : Kept a0 (State.modSolve s t heat f) := by
  unfold State.modSolve
  try dsimp only
  repeat' (first
      | with_reducible assumption
      | intro _
      | simp only [kept_mk_iff]
      | with_reducible apply State.modTc_kept)

theorem State.leave_kept {a0 : State} (s : State) (t c heat : Nat) (l : List Nat)
    (hk0 : Kept a0 s) : Kept a0 (State.leave s t c heat l) := by
  unfold State.leave
  try dsimp only
  repeat' (first
      | with_reducible assumption
      | intro _
      | simp only [kept_mk_iff]
      | with_reducible apply State.cmdEnd_kept
      | with_reducible apply State.dumpGate_kept
      | with_reducible apply State.modTc_kept
      | with_reducible apply State.modSolve_kept
      | with_reducible apply State.each_kept
      | with_reducible apply kept_ite
      | with_reducible apply kept_ite_fst
      | with_reducible apply kept_each
      | with_reducible apply kept_foldl
      | with_reducible apply kept_foldl_fst
      | dsimp only
      | split)

theorem State.slotRead_kept {a0 : State} (s : State) (t c heat prob : Nat)
    (hk0 : Kept a0 s) : Kept a0 (State.slotRead s t c heat prob) := by
  unfold State.slotRead
  try dsimp only
  repeat' (first
      | with_reducible assumption
      | intro _
      | simp only [kept_mk_iff]
      | with_reducible apply State.faultTile_kept
      | with_reducible apply State.stageReads_kept
      | with_reducible apply kept_ite
      | with_reducible apply kept_ite_fst
      | with_reducible apply kept_each
      | with_reducible apply kept_foldl
      | with_reducible apply kept_foldl_fst
      | dsimp only
      | split)

theorem State.enterStage_kept {a0 : State} (s : State) (t c heat prob : Nat) (st : StageName)
    (hk0 : Kept a0 s) : Kept a0 (State.enterStage s t c heat prob st) := by
  unfold State.enterStage
  try dsimp only
  repeat' (first
      | with_reducible assumption
      | intro _
      | simp only [kept_mk_iff]
      | with_reducible apply State.modTc_kept
      | with_reducible apply State.solveStart_kept
      | with_reducible apply State.modTile_kept
      | with_reducible apply kept_ite
      | with_reducible apply kept_ite_fst
      | with_reducible apply kept_each
      | with_reducible apply kept_foldl
      | with_reducible apply kept_foldl_fst
      | dsimp only
      | split)

theorem State.leftSolve_kept {a0 : State} (s : State) (t c heat pf : Nat)
    (hk0 : Kept a0 s) : Kept a0 (State.leftSolve s t c heat pf) := by
  unfold State.leftSolve
  try dsimp only
  repeat' (first
      | with_reducible assumption
      | intro _
      | simp only [kept_mk_iff]
      | with_reducible apply State.modSolve_kept
      | with_reducible apply State.modTile_kept
      | with_reducible apply kept_ite
      | with_reducible apply kept_ite_fst
      | with_reducible apply kept_each
      | with_reducible apply kept_foldl
      | with_reducible apply kept_foldl_fst
      | dsimp only
      | split)

theorem State.quitSolve_kept {a0 : State} (s : State) (t c : Nat) (sl : Slot)
    (hk0 : Kept a0 s) : Kept a0 (State.quitSolve s t c sl) := by
  unfold State.quitSolve
  try dsimp only
  repeat' (first
      | with_reducible assumption
      | intro _
      | simp only [kept_mk_iff]
      | with_reducible apply State.leftSolve_kept
      | with_reducible apply kept_ite)

theorem State.skipToEmit_kept {a0 : State} (s : State) (t c heat prob mark : Nat)
    (hk0 : Kept a0 s) : Kept a0 (State.skipToEmit s t c heat prob mark) := by
  unfold State.skipToEmit
  try dsimp only
  repeat' (first
      | with_reducible assumption
      | intro _
      | simp only [kept_mk_iff]
      | with_reducible apply State.modSlot_kept
      | with_reducible apply State.quitSolve_kept
      | with_reducible apply State.leave_kept
      | with_reducible apply kept_ite
      | with_reducible apply kept_ite_fst
      | with_reducible apply kept_each
      | with_reducible apply kept_foldl
      | with_reducible apply kept_foldl_fst
      | dsimp only
      | split)

theorem State.leaveFactor_kept {a0 : State} (s : State) (t c heat prob : Nat)
    (hk0 : Kept a0 s) : Kept a0 (State.leaveFactor s t c heat prob) := by
  unfold State.leaveFactor
  try dsimp only
  repeat' (first
      | with_reducible assumption
      | intro _
      | simp only [kept_mk_iff]
      | with_reducible apply State.leave_kept
      | with_reducible apply State.modSlot_kept
      | with_reducible apply State.skipToEmit_kept
      | with_reducible apply kept_ite
      | with_reducible apply kept_ite_fst
      | with_reducible apply kept_each
      | with_reducible apply kept_foldl
      | with_reducible apply kept_foldl_fst
      | dsimp only
      | split)

theorem State.advance_kept {a0 : State} (s : State) (t c : Nat) (n0 : _)
    (hk0 : Kept a0 s) : Kept a0 (State.advance s t c n0) := by
  induction n0 generalizing s t c with
  | zero =>
    unfold State.advance
    try dsimp only
    repeat' (first
      | with_reducible assumption)
  | succ n ih =>
    unfold State.advance
    try dsimp only
    repeat' (first
      | with_reducible assumption
      | with_reducible apply ih
      | intro _
      | simp only [kept_mk_iff]
      | with_reducible apply State.slotRead_kept
      | with_reducible apply State.leaveFactor_kept
      | with_reducible apply State.enterStage_kept
      | with_reducible apply kept_ite
      | with_reducible apply kept_ite_fst
      | with_reducible apply kept_each
      | with_reducible apply kept_foldl
      | with_reducible apply kept_foldl_fst
      | dsimp only
      | split)

theorem State.stageWork_kept {a0 : State} (s : State) (t c : Nat) (sl : Slot)
    (hk0 : Kept a0 s) : Kept a0 (State.stageWork s t c sl) := by
  unfold State.stageWork
  try dsimp only
  repeat' (first
      | with_reducible assumption
      | intro _
      | simp only [kept_mk_iff]
      | with_reducible apply State.modSlot_kept
      | with_reducible apply State.modTc_kept
      | with_reducible apply State.leftSolve_kept
      | with_reducible apply kept_ite
      | with_reducible apply kept_ite_fst
      | with_reducible apply kept_each
      | with_reducible apply kept_foldl
      | with_reducible apply kept_foldl_fst
      | dsimp only
      | split)

theorem State.finishStage_kept {a0 : State} (s : State) (t c : Nat) (sl : Slot)
    (hk0 : Kept a0 s) : Kept a0 (State.finishStage s t c sl) := by
  unfold State.finishStage
  try dsimp only
  repeat' (first
      | with_reducible assumption
      | intro _
      | simp only [kept_mk_iff]
      | with_reducible apply State.leave_kept
      | with_reducible apply State.stageWork_kept
      | with_reducible apply State.modSlot_kept)

theorem State.writeOutputs_kept {a0 : State} (s : State) (t c : Nat) (e : Env) (fb : Bool) (prob : Nat)
    (hk0 : Kept a0 s) : Kept a0 (State.writeOutputs s t c e fb prob).1 := by
  unfold State.writeOutputs
  try dsimp only
  repeat' (first
      | with_reducible assumption
      | intro _
      | dsimp only
      | with_reducible apply State.portWrite_kept
      | with_reducible apply State.out_kept
      | with_reducible apply kept_ite
      | with_reducible apply kept_ite_fst
      | with_reducible apply kept_each
      | with_reducible apply kept_foldl
      | with_reducible apply kept_foldl_fst
      | dsimp only
      | split)

theorem State.writeIterStore_kept {a0 : State} (s : State) (t c : Nat) (e : Env) (sl : Slot) (code : Nat)
    (hk0 : Kept a0 s) : Kept a0 (State.writeIterStore s t c e sl code) := by
  unfold State.writeIterStore
  try dsimp only
  repeat' (first
      | with_reducible assumption
      | intro _
      | simp only [kept_mk_iff]
      | with_reducible apply State.portWrite_kept
      | with_reducible apply kept_ite)

theorem State.commitTile_kept {a0 : State} (s : State) (t c : Nat) (h : Heat) (r : SolveRun) (sl : Slot) (pf : Nat) (first : Bool)
    (hk0 : Kept a0 s) : Kept a0 (State.commitTile s t c h r sl pf first) := by
  unfold State.commitTile
  try dsimp only
  repeat' (first
      | with_reducible assumption
      | intro _
      | simp only [kept_mk_iff]
      | with_reducible apply State.eventCtx_kept
      | with_reducible apply State.modTile_kept
      | with_reducible apply State.writeIterStore_kept
      | with_reducible apply State.writeOutputs_kept
      | with_reducible apply State.modTc_kept
      | with_reducible apply State.modSolve_kept
      | with_reducible apply State.portWrite_kept
      | with_reducible apply kept_ite
      | with_reducible apply kept_ite_fst)

theorem State.commitRank_kept {a0 : State} (s : State) (u c heat prob mark pf : Nat) (first : Bool)
    (hk0 : Kept a0 s) : Kept a0 (State.commitRank s u c heat prob mark pf first) := by
  unfold State.commitRank
  try dsimp only
  repeat' (first
      | with_reducible assumption
      | intro _
      | simp only [kept_mk_iff]
      | with_reducible apply State.quitSolve_kept
      | with_reducible apply State.leave_kept
      | with_reducible apply State.modSolve_kept
      | with_reducible apply State.commitTile_kept
      | with_reducible apply State.solveStart_kept
      | with_reducible apply kept_ite
      | with_reducible apply kept_ite_fst
      | with_reducible apply kept_each
      | with_reducible apply kept_foldl
      | with_reducible apply kept_foldl_fst
      | dsimp only
      | split)

theorem State.commitProblem_kept {a0 : State} (s : State) (t c heat prob mark : Nat)
    (hk0 : Kept a0 s) : Kept a0 (State.commitProblem s t c heat prob mark) := by
  unfold State.commitProblem
  try dsimp only
  repeat' (first
      | with_reducible assumption
      | intro _
      | simp only [kept_mk_iff]
      | with_reducible apply State.commitRank_kept
      | with_reducible apply State.acct_kept
      | with_reducible apply kept_ite
      | with_reducible apply kept_ite_fst
      | with_reducible apply kept_each
      | with_reducible apply kept_foldl)

theorem State.startSolve_kept {a0 : State} (s : State) (t c : Nat) (q : QCmd) (tm count xl : Nat)
    (hk0 : Kept a0 s) : Kept a0 (State.startSolve s t c q tm count xl) := by
  unfold State.startSolve
  try dsimp only
  repeat' (first
      | with_reducible assumption
      | intro _
      | simp only [kept_mk_iff]
      | with_reducible apply State.modTc_kept
      | with_reducible apply State.commitRank_kept
      | with_reducible apply State.each_kept
      | with_reducible apply State.stageReads_kept
      | with_reducible apply kept_ite
      | with_reducible apply kept_ite_fst
      | with_reducible apply kept_each)

theorem State.startCopy_kept {a0 : State} (s : State) (t c : Nat) (q : QCmd) (src dst len : Nat)
    (hk0 : Kept a0 s) : Kept a0 (State.startCopy s t c q src dst len) := by
  unfold State.startCopy
  try dsimp only
  repeat' (first
      | with_reducible assumption
      | intro _
      | simp only [kept_mk_iff]
      | with_reducible apply State.chargeMem_kept
      | with_reducible apply State.modTc_kept
      | with_reducible apply State.hold_kept
      | with_reducible apply State.cmdStart_kept
      | with_reducible apply State.faultTile_kept
      | with_reducible apply State.paceTake_kept
      | with_reducible apply State.copyBlock_kept
      | with_reducible apply State.modCopy_kept
      | with_reducible apply kept_ite)

theorem State.startTensor_kept {a0 : State} (s : State) (t c : Nat) (q : QCmd)
    (hk0 : Kept a0 s) : Kept a0 (State.startTensor s t c q) := by
  unfold State.startTensor
  try dsimp only
  repeat' (first
      | with_reducible assumption
      | intro _
      | simp only [kept_mk_iff]
      | with_reducible apply State.cmdStart_kept
      | with_reducible apply State.modTc_kept
      | with_reducible apply State.startXtload_kept
      | with_reducible apply State.stagePoison_kept
      | with_reducible apply State.faultTile_kept
      | with_reducible apply State.startConv_kept
      | with_reducible apply State.startMac_kept
      | with_reducible apply kept_ite
      | with_reducible apply kept_ite_fst
      | with_reducible apply kept_each
      | with_reducible apply kept_foldl
      | with_reducible apply kept_foldl_fst
      | dsimp only
      | split)

theorem State.mayStart_kept {a0 : State} (s : State) (t c u : Nat) (q : QCmd) (solve : Bool)
    (hk0 : Kept a0 s) : Kept a0 (State.mayStart s t c u q solve).1 := by
  unfold State.mayStart
  try dsimp only
  repeat' (first
      | with_reducible assumption
      | intro _
      | dsimp only
      | with_reducible apply State.dumpGate_kept
      | with_reducible apply kept_ite
      | with_reducible apply kept_ite_fst)

theorem State.startHeads_kept {a0 : State} (s : State) (t c : Nat)
    (hk0 : Kept a0 s) : Kept a0 (State.startHeads s t c) := by
  unfold State.startHeads
  try dsimp only
  repeat' (first
      | with_reducible assumption
      | intro _
      | dsimp only
      | with_reducible apply State.startSolve_kept
      | with_reducible apply State.modTc_kept
      | with_reducible apply State.post_kept
      | with_reducible apply State.mayStart_kept
      | with_reducible apply State.faultTile_kept
      | with_reducible apply State.startTensor_kept
      | with_reducible apply State.startCopy_kept
      | with_reducible apply State.dumpGate_kept
      | with_reducible apply kept_ite
      | with_reducible apply kept_ite_fst
      | with_reducible apply kept_each
      | with_reducible apply kept_foldl
      | with_reducible apply kept_foldl_fst
      | dsimp only
      | split)

theorem State.kickN_kept {a0 : State} (s : State) (t : Nat) (n0 : _)
    (hk0 : Kept a0 s) : Kept a0 (State.kickN s t n0) := by
  induction n0 generalizing s t with
  | zero =>
    unfold State.kickN
    try dsimp only
    repeat' (first
      | with_reducible assumption)
  | succ n ih =>
    unfold State.kickN
    try dsimp only
    repeat' (first
      | with_reducible assumption
      | with_reducible apply ih
      | intro _
      | simp only [kept_mk_iff]
      | with_reducible apply State.modTc_kept
      | with_reducible apply State.startHeads_kept
      | with_reducible apply State.advance_kept
      | with_reducible apply kept_ite)

theorem State.heatRecord_kept {a0 : State} (s : State) (t : Nat) (h : Heat) (fl : FlagSet)
    (hk0 : Kept a0 s) : Kept a0 (State.heatRecord s t h fl) := by
  unfold State.heatRecord
  try dsimp only
  repeat' (first
      | with_reducible assumption
      | intro _
      | simp only [kept_mk_iff]
      | with_reducible apply State.modTc_kept
      | with_reducible apply State.portWrite_kept
      | with_reducible apply kept_ite
      | with_reducible apply kept_ite_fst
      | with_reducible apply kept_each
      | with_reducible apply kept_foldl
      | with_reducible apply kept_foldl_fst
      | dsimp only
      | split)

theorem State.recordHeats_kept {a0 : State} (s : State) (t : Nat)
    (hk0 : Kept a0 s) : Kept a0 (State.recordHeats s t) := by
  unfold State.recordHeats
  try dsimp only
  repeat' (first
      | with_reducible assumption
      | intro _
      | simp only [kept_mk_iff]
      | with_reducible apply State.heatRecord_kept
      | with_reducible apply State.each_kept
      | with_reducible apply kept_ite
      | with_reducible apply kept_ite_fst
      | with_reducible apply kept_each
      | with_reducible apply kept_foldl
      | with_reducible apply kept_foldl_fst
      | dsimp only
      | split)

theorem State.kick_kept {a0 : State} (s : State) (t : Nat)
    (hk0 : Kept a0 s) : Kept a0 (State.kick s t) := by
  unfold State.kick
  try dsimp only
  repeat' (first
      | with_reducible assumption
      | intro _
      | simp only [kept_mk_iff]
      | with_reducible apply State.recordHeats_kept
      | with_reducible apply State.kickN_kept)

theorem State.tilesDo_kept {a0 : State} (s : State) (ts : List Nat) (f : Nat → State → State)
    (hf : ∀ t x, Kept a0 x → Kept a0 (f t x)) (h : Kept a0 s) : Kept a0 (s.tilesDo ts f) :=
  kept_foldl (fun s u => f u s) ts (fun x y hx => hf y x hx) h

theorem State.kickAll_kept {a0 : State} (s : State) (ts : List Nat)
    (hk0 : Kept a0 s) : Kept a0 (State.kickAll s ts) := by
  unfold State.kickAll
  try dsimp only
  repeat' (first
      | with_reducible assumption
      | intro _
      | simp only [kept_mk_iff]
      | with_reducible apply State.kick_kept
      | with_reducible apply State.tilesDo_kept)

theorem State.kickGang_kept {a0 : State} (s : State) (t heat : Nat)
    (hk0 : Kept a0 s) : Kept a0 (State.kickGang s t heat) := by
  unfold State.kickGang
  try dsimp only
  repeat' (first
      | with_reducible assumption
      | intro _
      | simp only [kept_mk_iff]
      | with_reducible apply State.kick_kept
      | with_reducible apply State.kickAll_kept)

theorem State.wroteWhole_kept {a0 : State} (s : State) (t c : Nat) (l : List (Nat × Nat))
    (hk0 : Kept a0 s) : Kept a0 (State.wroteWhole s t c l) := by
  unfold State.wroteWhole
  try dsimp only
  repeat' (first
      | with_reducible assumption
      | intro _
      | simp only [kept_mk_iff]
      | with_reducible apply State.loanDirty_kept
      | with_reducible apply State.each_kept
      | with_reducible apply kept_ite
      | with_reducible apply kept_ite_fst
      | with_reducible apply kept_each)

theorem State.commitFactor_kept {a0 : State} (s : State) (t c : Nat) (sl : Slot)
    (hk0 : Kept a0 s) : Kept a0 (State.commitFactor s t c sl) := by
  unfold State.commitFactor
  try dsimp only
  repeat' (first
      | with_reducible assumption
      | intro _
      | simp only [kept_mk_iff]
      | with_reducible apply State.modSlot_kept
      | with_reducible apply State.wroteWhole_kept)

theorem State.cutFacTile_kept {a0 : State} (s : State) (t c heat : Nat)
    (hk0 : Kept a0 s) : Kept a0 (State.cutFacTile s t c heat) := by
  unfold State.cutFacTile
  try dsimp only
  repeat' (first
      | with_reducible assumption
      | intro _
      | simp only [kept_mk_iff]
      | with_reducible apply State.modSlot_kept
      | with_reducible apply State.modTc_kept
      | with_reducible apply State.leaveFactor_kept
      | with_reducible apply State.each_kept
      | with_reducible apply kept_ite
      | with_reducible apply kept_ite_fst
      | with_reducible apply kept_each)

theorem State.cutOutTile_kept {a0 : State} (s : State) (t c heat : Nat)
    (hk0 : Kept a0 s) : Kept a0 (State.cutOutTile s t c heat) := by
  unfold State.cutOutTile
  try dsimp only
  repeat' (first
      | with_reducible assumption
      | intro _
      | simp only [kept_mk_iff]
      | with_reducible apply State.modTc_kept
      | with_reducible apply State.each_kept
      | with_reducible apply State.skipToEmit_kept
      | with_reducible apply kept_ite
      | with_reducible apply kept_ite_fst
      | with_reducible apply kept_each)

theorem State.raceRecords_kept {a0 : State} (s : State) (t c heat : Nat)
    (hk0 : Kept a0 s) : Kept a0 (State.raceRecords s t c heat) := by
  unfold State.raceRecords
  try dsimp only
  repeat' (first
      | with_reducible assumption
      | intro _
      | simp only [kept_mk_iff]
      | with_reducible apply State.each_kept
      | with_reducible apply State.portWrite_kept
      | with_reducible apply kept_ite
      | with_reducible apply kept_ite_fst
      | with_reducible apply kept_each
      | with_reducible apply kept_foldl
      | with_reducible apply kept_foldl_fst
      | dsimp only
      | split)

theorem State.takeSolve_kept {a0 : State} (s : State) (t c heat : Nat)
    (hk0 : Kept a0 s) : Kept a0 (State.takeSolve s t c heat) := by
  unfold State.takeSolve
  try dsimp only
  repeat' (first
      | with_reducible assumption
      | intro _
      | simp only [kept_mk_iff]
      | with_reducible apply State.startSolve_kept
      | with_reducible apply State.modTc_kept
      | with_reducible apply kept_ite
      | with_reducible apply kept_ite_fst
      | with_reducible apply kept_each
      | with_reducible apply kept_foldl
      | with_reducible apply kept_foldl_fst
      | dsimp only
      | split)

theorem State.abortHeat_kept {a0 : State} (s : State) (t c heat : Nat)
    (hk0 : Kept a0 s) : Kept a0 (State.abortHeat s t c heat).1 := by
  unfold State.abortHeat
  try dsimp only
  repeat' (first
      | with_reducible assumption
      | intro _
      | dsimp only
      | with_reducible apply State.raceRecords_kept
      | with_reducible apply State.modTc_kept
      | with_reducible apply State.takeSolve_kept
      | with_reducible apply State.each_kept
      | with_reducible apply State.commitProblem_kept
      | with_reducible apply kept_ite
      | with_reducible apply kept_ite_fst
      | with_reducible apply kept_each
      | with_reducible apply kept_foldl
      | with_reducible apply kept_foldl_fst
      | dsimp only
      | split)

end Sys2Proof.Machine
end

