-- ==== Sys2Proof/Laws/KeptTile.lean ====
section
/-!
SUPPORT. Kept: one lemma per operation of the Scalar Lane, the sequencer, issue and pre-emption.
-/

namespace Sys2Proof.Machine

theorem State.stopPartners_kept {a0 : State} (s : State) (t : Nat) (stop : Bool)
    (hk0 : Kept a0 s) : Kept a0 (State.stopPartners s t stop) := by
  unfold State.stopPartners
  try dsimp only
  repeat' (first
      | with_reducible assumption
      | intro _
      | simp only [kept_mk_iff]
      | with_reducible apply State.modTc_kept
      | with_reducible apply State.each_kept
      | with_reducible apply kept_ite
      | with_reducible apply kept_ite_fst
      | with_reducible apply kept_each)

theorem State.takeTrap_kept {a0 : State} (s : State) (t pc : Nat) (raised : List FlagSet)
    (hk0 : Kept a0 s) : Kept a0 (State.takeTrap s t pc raised) := by
  unfold State.takeTrap
  try dsimp only
  repeat' (first
      | with_reducible assumption
      | intro _
      | simp only [kept_mk_iff]
      | with_reducible apply State.modTc_kept
      | with_reducible apply State.stopPartners_kept
      | with_reducible apply State.eventTile_kept
      | with_reducible apply State.faultTile_kept
      | with_reducible apply kept_ite)

theorem State.retire_kept {a0 : State} (s : State) (t pc npc : Nat) (o : LaneOut)
    (hk0 : Kept a0 s) : Kept a0 (State.retire s t pc npc o) := by
  unfold State.retire
  try dsimp only
  repeat' (first
      | with_reducible assumption
      | intro _
      | simp only [kept_mk_iff]
      | with_reducible apply State.setTc_kept
      | with_reducible apply State.faultTile_kept
      | with_reducible apply State.takeTrap_kept
      | with_reducible apply kept_ite)

theorem State.drainV_kept {a0 : State} (s : State) (t : Nat)
    (hk0 : Kept a0 s) : Kept a0 (State.drainV s t) := by
  unfold State.drainV
  try dsimp only
  repeat' (first
      | with_reducible assumption
      | intro _
      | simp only [kept_mk_iff]
      | with_reducible apply State.out_kept
      | with_reducible apply State.modTc_kept
      | with_reducible apply State.retire_kept
      | with_reducible apply State.kick_kept
      | with_reducible apply kept_ite
      | with_reducible apply kept_ite_fst
      | with_reducible apply kept_each
      | with_reducible apply kept_foldl
      | with_reducible apply kept_foldl_fst
      | dsimp only
      | split)

theorem State.endRun_kept {a0 : State} (s : State) (t : Nat)
    (hk0 : Kept a0 s) : Kept a0 (State.endRun s t) := by
  unfold State.endRun
  try dsimp only
  repeat' (first
      | with_reducible assumption
      | intro _
      | simp only [kept_mk_iff]
      | with_reducible apply State.cmdEnd_kept
      | with_reducible apply kept_ite)

theorem State.laneIds_kept {a0 : State} (s : State) (t : Nat)
    (hk0 : Kept a0 s) : Kept a0 (State.laneIds s t) := by
  unfold State.laneIds
  try dsimp only
  repeat' (first
      | with_reducible assumption
      | intro _
      | simp only [kept_mk_iff]
      | with_reducible apply State.cmdStart_kept
      | with_reducible apply State.endRun_kept
      | with_reducible apply kept_ite)

theorem State.takeStamp_kept {a0 : State} (s : State) (t : Nat)
    (hk0 : Kept a0 s) : Kept a0 (State.takeStamp s t) := by
  unfold State.takeStamp
  try dsimp only
  repeat' (first
      | with_reducible assumption
      | intro _
      | simp only [kept_mk_iff]
      | with_reducible apply State.modTc_kept
      | with_reducible apply kept_ite
      | with_reducible apply kept_ite_fst
      | with_reducible apply kept_each
      | with_reducible apply kept_foldl
      | with_reducible apply kept_foldl_fst
      | dsimp only
      | split)

theorem State.issueDo_kept {a0 : State} (s : State) (t : Nat) (f : State → State) (hf : ∀ u0, Kept a0 u0 → Kept a0 (f u0))
    (hk0 : Kept a0 s) : Kept a0 (State.issueDo s t f) := by
  unfold State.issueDo
  try dsimp only
  repeat' (first
      | with_reducible assumption
      | intro _
      | simp only [kept_mk_iff]
      | with_reducible apply hf
      | with_reducible apply State.drainV_kept
      | with_reducible apply State.takeStamp_kept
      | with_reducible apply kept_ite)

theorem State.laneDo_kept {a0 : State} (s : State) (t : Nat) (f : State → State) (hf : ∀ u0, Kept a0 u0 → Kept a0 (f u0))
    (hk0 : Kept a0 s) : Kept a0 (State.laneDo s t f) := by
  unfold State.laneDo
  try dsimp only
  repeat' (first
      | with_reducible assumption
      | intro _
      | simp only [kept_mk_iff]
      | with_reducible apply hf
      | with_reducible apply State.laneIds_kept
      | with_reducible apply State.issueDo_kept)

theorem State.lane_kept {a0 : State} (s : State) (t : Nat) (f : TCtx → LaneOut)
    (hk0 : Kept a0 s) : Kept a0 (State.lane s t f) := by
  unfold State.lane
  try dsimp only
  repeat' (first
      | with_reducible assumption
      | intro _
      | simp only [kept_mk_iff]
      | with_reducible apply State.laneDo_kept
      | with_reducible apply State.retire_kept)

theorem State.laneV_kept {a0 : State} (s : State) (t : Nat) (f : TCtx → LaneOut × Nat)
    (hk0 : Kept a0 s) : Kept a0 (State.laneV s t f) := by
  unfold State.laneV
  try dsimp only
  repeat' (first
      | with_reducible assumption
      | intro _
      | simp only [kept_mk_iff]
      | with_reducible apply State.modTc_kept
      | with_reducible apply State.laneDo_kept)

theorem State.jump_kept {a0 : State} (s : State) (t : Nat) (imm : BitVec 16) (taken : TCtx → Bool)
    (hk0 : Kept a0 s) : Kept a0 (State.jump s t imm taken) := by
  unfold State.jump
  try dsimp only
  repeat' (first
      | with_reducible assumption
      | intro _
      | simp only [kept_mk_iff]
      | with_reducible apply State.modTc_kept
      | with_reducible apply State.issueDo_kept)

theorem State.int2_kept {a0 : State} (s : State) (t : TileNo) (rd a b : RegNo) (aux : Byte) (f : Nat → Nat → Nat → Int × FlagSet)
    (hk0 : Kept a0 s) : Kept a0 (State.int2 s t rd a b aux f) := by
  unfold State.int2
  try dsimp only
  repeat' (first
      | with_reducible assumption
      | intro _
      | simp only [kept_mk_iff]
      | with_reducible apply State.lane_kept)

theorem State.int1_kept {a0 : State} (s : State) (t : TileNo) (rd a : RegNo) (aux : Byte) (f : Nat → Nat → Int × FlagSet)
    (hk0 : Kept a0 s) : Kept a0 (State.int1 s t rd a aux f) := by
  unfold State.int1
  try dsimp only
  repeat' (first
      | with_reducible assumption
      | intro _
      | simp only [kept_mk_iff]
      | with_reducible apply State.lane_kept)

theorem State.bit2_kept {a0 : State} (s : State) (t : TileNo) (rd a b : RegNo) (f : DWord → DWord → DWord)
    (hk0 : Kept a0 s) : Kept a0 (State.bit2 s t rd a b f) := by
  unfold State.bit2
  try dsimp only
  repeat' (first
      | with_reducible assumption
      | intro _
      | simp only [kept_mk_iff]
      | with_reducible apply State.lane_kept)

theorem State.shift_kept {a0 : State} (s : State) (t : TileNo) (rd rs1 rs2 : RegNo) (aux : Byte) (imm : BitVec 16) (f : Nat → Nat → Nat → Int)
    (hk0 : Kept a0 s) : Kept a0 (State.shift s t rd rs1 rs2 aux imm f) := by
  unfold State.shift
  try dsimp only
  repeat' (first
      | with_reducible assumption
      | intro _
      | simp only [kept_mk_iff]
      | with_reducible apply State.lane_kept)

theorem State.fp2_kept {a0 : State} (s : State) (t : TileNo) (rd a b : RegNo) (aux : Byte) (f : FFmt → Bool → Nat → Nat → Nat × FlagSet)
    (hk0 : Kept a0 s) : Kept a0 (State.fp2 s t rd a b aux f) := by
  unfold State.fp2
  try dsimp only
  repeat' (first
      | with_reducible assumption
      | intro _
      | simp only [kept_mk_iff]
      | with_reducible apply State.lane_kept)

theorem State.fp1_kept {a0 : State} (s : State) (t : TileNo) (rd a : RegNo) (aux : Byte) (f : FFmt → Bool → Nat → Nat × FlagSet)
    (hk0 : Kept a0 s) : Kept a0 (State.fp1 s t rd a aux f) := by
  unfold State.fp1
  try dsimp only
  repeat' (first
      | with_reducible assumption
      | intro _
      | simp only [kept_mk_iff]
      | with_reducible apply State.lane_kept)

theorem State.fpCmp_kept {a0 : State} (s : State) (t : TileNo) (rd a b : RegNo) (aux : Byte) (f : FFmt → Bool → Nat → Nat → Option Bool × FlagSet)
    (hk0 : Kept a0 s) : Kept a0 (State.fpCmp s t rd a b aux f) := by
  unfold State.fpCmp
  try dsimp only
  repeat' (first
      | with_reducible assumption
      | intro _
      | simp only [kept_mk_iff]
      | with_reducible apply State.lane_kept)

theorem State.gateAll_kept {a0 : State} (s : State) (ts : List Nat) (c u step prob heat : Nat) (r : SolveRun)
    (hk0 : Kept a0 s) : Kept a0 (State.gateAll s ts c u step prob heat r).1 := by
  unfold State.gateAll
  try dsimp only
  repeat' (first
      | with_reducible assumption
      | intro _
      | dsimp only
      | with_reducible apply State.dumpGate_kept
      | with_reducible apply kept_ite
      | with_reducible apply kept_ite_fst
      | with_reducible apply kept_each
      | with_reducible apply kept_foldl
      | with_reducible apply kept_foldl_fst)

theorem State.enterRank_kept {a0 : State} (s : State) (c heat i u : Nat)
    (hk0 : Kept a0 s) : Kept a0 (State.enterRank s c heat i u) := by
  unfold State.enterRank
  try dsimp only
  repeat' (first
      | with_reducible assumption
      | intro _
      | simp only [kept_mk_iff]
      | with_reducible apply State.modTc_kept
      | with_reducible apply State.modSolve_kept
      | with_reducible apply State.readUnits_kept
      | with_reducible apply State.faultTile_kept
      | with_reducible apply State.modTile_kept
      | with_reducible apply State.solveStart_kept
      | with_reducible apply kept_ite
      | with_reducible apply kept_ite_fst
      | with_reducible apply kept_each
      | with_reducible apply kept_foldl
      | with_reducible apply kept_foldl_fst
      | dsimp only
      | split)

theorem State.iterateRank_kept {a0 : State} (s : State) (u c : Nat) (sl : Slot)
    (hk0 : Kept a0 s) : Kept a0 (State.iterateRank s u c sl) := by
  unfold State.iterateRank
  try dsimp only
  repeat' (first
      | with_reducible assumption
      | intro _
      | simp only [kept_mk_iff]
      | with_reducible apply State.modSlot_kept)

theorem State.modHeatAny_kept {a0 : State} (s : State) (c n : Nat) (f : Heat → Heat)
    (hk0 : Kept a0 s) : Kept a0 (State.modHeatAny s c n f) := by
  unfold State.modHeatAny
  try dsimp only
  repeat' (first
      | with_reducible assumption
      | intro _
      | simp only [kept_mk_iff]
      | with_reducible apply State.modTc_kept
      | with_reducible apply State.tilesDo_kept
      | with_reducible apply kept_ite)

theorem State.pendingCuts_kept {a0 : State} (s : State) (u c : Nat)
    (hk0 : Kept a0 s) : Kept a0 (State.pendingCuts s u c) := by
  unfold State.pendingCuts
  try dsimp only
  repeat' (first
      | with_reducible assumption
      | intro _
      | simp only [kept_mk_iff]
      | with_reducible apply State.cutFacTile_kept
      | with_reducible apply State.modTc_kept
      | with_reducible apply State.each_kept
      | with_reducible apply State.cutOutTile_kept
      | with_reducible apply kept_ite
      | with_reducible apply kept_ite_fst
      | with_reducible apply kept_each)

theorem State.entryIds_kept {a0 : State} (s : State) (t : Nat) (h : CmdHdr)
    (hk0 : Kept a0 s) : Kept a0 (State.entryIds s t h) := by
  unfold State.entryIds
  try dsimp only
  repeat' (first
      | with_reducible assumption
      | intro _
      | simp only [kept_mk_iff]
      | with_reducible apply State.modTc_kept
      | with_reducible apply State.endRun_kept)

theorem State.seqEntry_kept {a0 : State} (s : State) (t : Nat) (h : CmdHdr) (f : State → State) (hf : ∀ u0, Kept a0 u0 → Kept a0 (f u0))
    (hk0 : Kept a0 s) : Kept a0 (State.seqEntry s t h f) := by
  unfold State.seqEntry
  try dsimp only
  repeat' (first
      | with_reducible assumption
      | intro _
      | simp only [kept_mk_iff]
      | with_reducible apply hf
      | with_reducible apply State.issueDo_kept
      | with_reducible apply State.modTc_kept
      | with_reducible apply State.entryIds_kept)

theorem State.enqueue_kept {a0 : State} (s : State) (t : Nat) (h : CmdHdr) (k : Queue) (units : List Nat) (op : StageOp)
    (hk0 : Kept a0 s) : Kept a0 (State.enqueue s t h k units op) := by
  unfold State.enqueue
  try dsimp only
  repeat' (first
      | with_reducible assumption
      | intro _
      | simp only [kept_mk_iff]
      | with_reducible apply State.issueDo_kept
      | with_reducible apply State.modTc_kept
      | with_reducible apply State.entryIds_kept
      | with_reducible apply State.kick_kept
      | with_reducible apply kept_ite)

theorem State.issueFault_kept {a0 : State} (s : State) (t : Nat) (h : CmdHdr) (k : Queue) (cause : Nat)
    (hk0 : Kept a0 s) : Kept a0 (State.issueFault s t h k cause) := by
  unfold State.issueFault
  try dsimp only
  repeat' (first
      | with_reducible assumption
      | intro _
      | simp only [kept_mk_iff]
      | with_reducible apply State.issueDo_kept
      | with_reducible apply State.faultTile_kept
      | with_reducible apply State.entryIds_kept
      | with_reducible apply kept_ite)

theorem State.mwriteAll_kept {a0 : State} (s : State) (l : List (Nat × Byte)) (h : Kept a0 s) :
    Kept a0 (s.mwriteAll l) := kept_mputs _ _ _ h

theorem State.unitDone_kept {a0 : State} (s : State) (t c u : Nat) (q : QCmd)
    (hk0 : Kept a0 s) : Kept a0 (State.unitDone s t c u q) := by
  unfold State.unitDone
  try dsimp only
  repeat' (first
      | with_reducible assumption
      | intro _
      | simp only [kept_mk_iff]
      | with_reducible apply State.modTc_kept
      | with_reducible apply State.dumpGate_kept
      | with_reducible apply State.cmdEnd_kept
      | with_reducible apply State.kickGang_kept
      | with_reducible apply State.kick_kept
      | with_reducible apply kept_ite)

theorem State.copyEnd_kept {a0 : State} (s : State) (t c : Nat) (r : CopyRun) (err : Nat)
    (hk0 : Kept a0 s) : Kept a0 (State.copyEnd s t c r err) := by
  unfold State.copyEnd
  try dsimp only
  repeat' (first
      | with_reducible assumption
      | intro _
      | simp only [kept_mk_iff]
      | with_reducible apply State.faultTile_kept
      | with_reducible apply State.modTc_kept
      | with_reducible apply State.unitDone_kept
      | with_reducible apply kept_ite)

theorem State.copyMove_kept {a0 : State} (s : State) (t c : Nat) (r : CopyRun) (n : Nat)
    (hk0 : Kept a0 s) : Kept a0 (State.copyMove s t c r n) := by
  unfold State.copyMove
  try dsimp only
  repeat' (first
      | with_reducible assumption
      | intro _
      | simp only [kept_mk_iff]
      | with_reducible apply State.loanDirty_kept
      | with_reducible apply State.modTc_kept
      | with_reducible apply State.moveBytes_kept
      | with_reducible apply kept_ite
      | with_reducible apply kept_ite_fst
      | with_reducible apply kept_each
      | with_reducible apply kept_foldl
      | with_reducible apply kept_foldl_fst
      | dsimp only
      | split)

theorem State.modLook_kept {a0 : State} (s : State) (f : LookEntry → Bool) (g : LookEntry → LookEntry)
    (hk0 : Kept a0 s) : Kept a0 (State.modLook s f g) := by
  unfold State.modLook
  try dsimp only
  repeat' (first
      | with_reducible assumption
      | intro _
      | simp only [kept_mk_iff])

theorem State.modBe_kept {a0 : State} (s : State) (f : BeRun → Bool) (g : BeRun → BeRun)
    (hk0 : Kept a0 s) : Kept a0 (State.modBe s f g) := by
  unfold State.modBe
  try dsimp only
  repeat' (first
      | with_reducible assumption
      | intro _
      | simp only [kept_mk_iff])

theorem State.requestPreempt_kept {a0 : State} (s : State) (t entry : Nat)
    (hk0 : Kept a0 s) : Kept a0 (State.requestPreempt s t entry) := by
  unfold State.requestPreempt
  try dsimp only
  repeat' (first
      | with_reducible assumption
      | intro _
      | simp only [kept_mk_iff]
      | with_reducible apply State.modTile_kept
      | with_reducible apply State.tilesDo_kept)

theorem State.startReclaim_kept {a0 : State} (s : State) (t entry : Nat)
    (hk0 : Kept a0 s) : Kept a0 (State.startReclaim s t entry) := by
  unfold State.startReclaim
  try dsimp only
  repeat' (first
      | with_reducible assumption
      | intro _
      | simp only [kept_mk_iff]
      | with_reducible apply State.requestPreempt_kept
      | with_reducible apply State.eventCtx_kept
      | with_reducible apply State.rbitSet_kept
      | with_reducible apply State.modTile_kept
      | with_reducible apply kept_ite
      | with_reducible apply kept_ite_fst
      | with_reducible apply kept_each
      | with_reducible apply kept_foldl
      | with_reducible apply kept_foldl_fst
      | dsimp only
      | split)

theorem State.tileRuns_kept {a0 : State} (s : State) (t : Nat)
    (hk0 : Kept a0 s) : Kept a0 (State.tileRuns s t) := by
  unfold State.tileRuns
  try dsimp only
  repeat' (first
      | with_reducible assumption
      | intro _
      | simp only [kept_mk_iff]
      | with_reducible apply State.modTile_kept
      | with_reducible apply State.tilesDo_kept
      | with_reducible apply kept_ite)

theorem State.unpark_kept {a0 : State} (s : State) (t c : Nat)
    (hk0 : Kept a0 s) : Kept a0 (State.unpark s t c) := by
  unfold State.unpark
  try dsimp only
  repeat' (first
      | with_reducible assumption
      | intro _
      | simp only [kept_mk_iff]
      | with_reducible apply State.setCmds_kept
      | with_reducible apply State.each_kept
      | with_reducible apply kept_ite
      | with_reducible apply kept_ite_fst
      | with_reducible apply kept_each
      | with_reducible apply kept_foldl
      | with_reducible apply kept_foldl_fst
      | dsimp only
      | split)

theorem State.settle_kept {a0 : State} (s : State) (t : Nat)
    (hk0 : Kept a0 s) : Kept a0 (State.settle s t) := by
  unfold State.settle
  try dsimp only
  repeat' (first
      | with_reducible assumption
      | intro _
      | simp only [kept_mk_iff]
      | with_reducible apply State.requestPreempt_kept
      | with_reducible apply State.unpark_kept
      | with_reducible apply State.hold_kept
      | with_reducible apply State.setTile_kept
      | with_reducible apply State.tileRuns_kept
      | with_reducible apply kept_ite
      | with_reducible apply kept_ite_fst
      | with_reducible apply kept_each
      | with_reducible apply kept_foldl
      | with_reducible apply kept_foldl_fst
      | dsimp only
      | split)

theorem State.settleAll_kept {a0 : State} (s : State) (ts : List Nat)
    (hk0 : Kept a0 s) : Kept a0 (State.settleAll s ts) := by
  unfold State.settleAll
  try dsimp only
  repeat' (first
      | with_reducible assumption
      | intro _
      | simp only [kept_mk_iff]
      | with_reducible apply State.settle_kept
      | with_reducible apply State.tilesDo_kept)

theorem State.resumeCopy_kept {a0 : State} (s : State) (t : Nat)
    (hk0 : Kept a0 s) : Kept a0 (State.resumeCopy s t) := by
  unfold State.resumeCopy
  try dsimp only
  repeat' (first
      | with_reducible assumption
      | intro _
      | simp only [kept_mk_iff]
      | with_reducible apply State.copyBlock_kept
      | with_reducible apply kept_ite
      | with_reducible apply kept_ite_fst
      | with_reducible apply kept_each
      | with_reducible apply kept_foldl
      | with_reducible apply kept_foldl_fst
      | dsimp only
      | split)

theorem State.stopUnit_kept {a0 : State} (s : State) (t u : Nat) (span : Bool)
    (hk0 : Kept a0 s) : Kept a0 (State.stopUnit s t u span) := by
  unfold State.stopUnit
  try dsimp only
  repeat' (first
      | with_reducible assumption
      | intro _
      | simp only [kept_mk_iff]
      | with_reducible apply State.modTile_kept)

theorem State.beginSave_kept {a0 : State} (s : State) (ts : List Nat) (c : Nat)
    (hk0 : Kept a0 s) : Kept a0 (State.beginSave s ts c) := by
  unfold State.beginSave
  try dsimp only
  repeat' (first
      | with_reducible assumption
      | intro _
      | simp only [kept_mk_iff]
      | with_reducible apply State.acct_kept
      | with_reducible apply State.withdraw_kept
      | with_reducible apply State.setTile_kept
      | with_reducible apply State.rbitSet_kept
      | with_reducible apply State.eventTile_kept
      | with_reducible apply State.rset_kept
      | with_reducible apply State.tilesDo_kept
      | with_reducible apply kept_ite)

theorem State.trySave_kept {a0 : State} (s : State) (t : Nat)
    (hk0 : Kept a0 s) : Kept a0 (State.trySave s t) := by
  unfold State.trySave
  try dsimp only
  repeat' (first
      | with_reducible assumption
      | intro _
      | simp only [kept_mk_iff]
      | with_reducible apply State.beginSave_kept
      | with_reducible apply kept_ite)

theorem State.stopWork_kept {a0 : State} (s : State) (t u : Nat)
    (hk0 : Kept a0 s) : Kept a0 (State.stopWork s t u) := by
  unfold State.stopWork
  try dsimp only
  repeat' (first
      | with_reducible assumption
      | intro _
      | simp only [kept_mk_iff]
      | with_reducible apply State.copyMove_kept
      | with_reducible apply State.modTc_kept
      | with_reducible apply kept_ite
      | with_reducible apply kept_ite_fst
      | with_reducible apply kept_each
      | with_reducible apply kept_foldl
      | with_reducible apply kept_foldl_fst
      | dsimp only
      | split)

theorem State.saveTile_kept {a0 : State} (s : State) (t c : Nat)
    (hk0 : Kept a0 s) : Kept a0 (State.saveTile s t c) := by
  unfold State.saveTile
  try dsimp only
  repeat' (first
      | with_reducible assumption
      | intro _
      | simp only [kept_mk_iff]
      | with_reducible apply State.parkCmds_kept
      | with_reducible apply State.modTile_kept
      | with_reducible apply State.mwrite_kept)

theorem State.beSaved_kept {a0 : State} (s : State) (t c : Nat)
    (hk0 : Kept a0 s) : Kept a0 (State.beSaved s t c) := by
  unfold State.beSaved
  try dsimp only
  repeat' (first
      | with_reducible assumption
      | intro _
      | simp only [kept_mk_iff]
      | with_reducible apply kept_ite
      | with_reducible apply kept_ite_fst
      | with_reducible apply kept_each
      | with_reducible apply kept_foldl
      | with_reducible apply kept_foldl_fst
      | dsimp only
      | split)

theorem State.resumeWait_kept {a0 : State} (s : State) (t c : Nat)
    (hk0 : Kept a0 s) : Kept a0 (State.resumeWait s t c) := by
  unfold State.resumeWait
  try dsimp only
  repeat' (first
      | with_reducible assumption
      | intro _
      | simp only [kept_mk_iff]
      | with_reducible apply State.hold_kept
      | with_reducible apply State.enterWait_kept
      | with_reducible apply kept_ite
      | with_reducible apply kept_ite_fst
      | with_reducible apply kept_each
      | with_reducible apply kept_foldl
      | with_reducible apply kept_foldl_fst
      | dsimp only
      | split)

theorem State.showSolv_kept {a0 : State} (s : State) (t c : Nat)
    (hk0 : Kept a0 s) : Kept a0 (State.showSolv s t c) := by
  unfold State.showSolv
  try dsimp only
  repeat' (first
      | with_reducible assumption
      | intro _
      | simp only [kept_mk_iff]
      | with_reducible apply State.modTile_kept
      | with_reducible apply kept_ite
      | with_reducible apply kept_ite_fst
      | with_reducible apply kept_each
      | with_reducible apply kept_foldl
      | with_reducible apply kept_foldl_fst
      | dsimp only
      | split)

theorem State.restoreTile_kept {a0 : State} (s : State) (t c : Nat)
    (hk0 : Kept a0 s) : Kept a0 (State.restoreTile s t c) := by
  unfold State.restoreTile
  try dsimp only
  repeat' (first
      | with_reducible assumption
      | intro _
      | simp only [kept_mk_iff]
      | with_reducible apply State.parkCmds_kept
      | with_reducible apply State.faultTile_kept
      | with_reducible apply State.pendingCuts_kept
      | with_reducible apply State.readPoison_kept
      | with_reducible apply State.eventTile_kept
      | with_reducible apply State.showSolv_kept
      | with_reducible apply State.modTile_kept
      | with_reducible apply State.resumeWait_kept
      | with_reducible apply State.cmdsAbandoned_kept
      | with_reducible apply kept_ite)

theorem State.residentCheck_kept {a0 : State} (s : State) (t c : Nat) (h : Heat)
    (hk0 : Kept a0 s) : Kept a0 (State.residentCheck s t c h) := by
  unfold State.residentCheck
  try dsimp only
  repeat' (first
      | with_reducible assumption
      | intro _
      | simp only [kept_mk_iff])

theorem State.beginHeat_kept {a0 : State} (s : State) (c : Nat) (ts : List Nat) (pc entry : Nat) (lc dead : Bool) (startNs : Nat)
    (hk0 : Kept a0 s) : Kept a0 (State.beginHeat s c ts pc entry lc dead startNs) := by
  unfold State.beginHeat
  try dsimp only
  repeat' (first
      | with_reducible assumption
      | intro _
      | simp only [kept_mk_iff]
      | with_reducible apply State.modTc_kept
      | with_reducible apply State.residentCheck_kept
      | with_reducible apply State.hold_kept
      | with_reducible apply State.eventTile_kept
      | with_reducible apply State.cmdStart_kept
      | with_reducible apply State.rset_kept
      | with_reducible apply kept_ite
      | with_reducible apply kept_ite_fst
      | with_reducible apply kept_each
      | with_reducible apply kept_foldl)

theorem State.beginBe_kept {a0 : State} (s : State)
    (hk0 : Kept a0 s) : Kept a0 (State.beginBe s) := by
  unfold State.beginBe
  try dsimp only
  repeat' (first
      | with_reducible assumption
      | intro _
      | simp only [kept_mk_iff]
      | with_reducible apply State.modTc_kept
      | with_reducible apply State.each_kept
      | with_reducible apply State.modBe_kept
      | with_reducible apply State.beginHeat_kept
      | with_reducible apply State.tilesDo_kept
      | with_reducible apply kept_ite
      | with_reducible apply kept_ite_fst
      | with_reducible apply kept_each)

end Sys2Proof.Machine
end

