-- ==== Sys2Proof/Laws/KeptDispatch.lean ====
section
/-!
SUPPORT. Kept: one lemma per operation of the Dispatcher: entries, loans, best-effort work and teardowns.
-/

namespace Sys2Proof.Machine

theorem State.skipEntry_kept {a0 : State} (s : State) (idx c reason : Nat)
    (hk0 : Kept a0 s) : Kept a0 (State.skipEntry s idx c reason) := by
  unfold State.skipEntry
  try dsimp only
  repeat' (first
      | with_reducible assumption
      | intro _
      | simp only [kept_mk_iff]
      | with_reducible apply State.eventCtx_kept
      | with_reducible apply State.acct_kept
      | with_reducible apply State.rbitSet_kept
      | with_reducible apply State.rcount_kept
      | with_reducible apply kept_ite)

theorem State.rdWrap_kept {a0 : State} (s : State)
    (hk0 : Kept a0 s) : Kept a0 (State.rdWrap s) := by
  unfold State.rdWrap
  try dsimp only
  repeat' (first
      | with_reducible assumption
      | intro _
      | simp only [kept_mk_iff]
      | with_reducible apply kept_ite
      | with_reducible apply kept_ite_fst
      | with_reducible apply kept_each
      | with_reducible apply kept_foldl
      | with_reducible apply kept_foldl_fst
      | dsimp only
      | split)

theorem State.modPf_kept {a0 : State} (s : State) (j j' : PfJob)
    (hk0 : Kept a0 s) : Kept a0 (State.modPf s j j') := by
  unfold State.modPf
  try dsimp only
  repeat' (first
      | with_reducible assumption
      | intro _
      | simp only [kept_mk_iff])

theorem State.dropPf_kept {a0 : State} (s : State) (j : PfJob)
    (hk0 : Kept a0 s) : Kept a0 (State.dropPf s j) := by
  unfold State.dropPf
  try dsimp only
  repeat' (first
      | with_reducible assumption
      | intro _
      | simp only [kept_mk_iff])

theorem State.pfBlock_kept {a0 : State} (s : State) (j : PfJob) (n0 : _)
    (hk0 : Kept a0 s) : Kept a0 (State.pfBlock s j n0).1 := by
  induction n0 generalizing s j with
  | zero =>
    unfold State.pfBlock
    try dsimp only
    repeat' (first
      | with_reducible assumption)
  | succ n ih =>
    unfold State.pfBlock
    try dsimp only
    repeat' (first
      | with_reducible assumption
      | with_reducible apply ih
      | intro _
      | simp only [kept_mk_iff]
      | refine State.remotePiece_kept (by assumption) ?_
      | with_reducible apply kept_ite
      | with_reducible apply kept_ite_fst
      | with_reducible apply kept_each
      | with_reducible apply kept_foldl
      | with_reducible apply kept_foldl_fst
      | dsimp only
      | split)

theorem State.pfStart_kept {a0 : State} (s : State) (j : PfJob)
    (hk0 : Kept a0 s) : Kept a0 (State.pfStart s j) := by
  unfold State.pfStart
  try dsimp only
  repeat' (first
      | with_reducible assumption
      | intro _
      | simp only [kept_mk_iff]
      | with_reducible apply State.chargeMem_kept
      | with_reducible apply State.faultDsp_kept
      | with_reducible apply State.modPf_kept
      | with_reducible apply State.paceTake_kept
      | with_reducible apply State.dropPf_kept
      | with_reducible apply State.pfBlock_kept
      | with_reducible apply kept_ite)

theorem State.pfKick_kept {a0 : State} (s : State)
    (hk0 : Kept a0 s) : Kept a0 (State.pfKick s) := by
  unfold State.pfKick
  try dsimp only
  repeat' (first
      | with_reducible assumption
      | intro _
      | simp only [kept_mk_iff]
      | with_reducible apply State.pfStart_kept
      | with_reducible apply State.each_kept
      | with_reducible apply kept_ite
      | with_reducible apply kept_ite_fst
      | with_reducible apply kept_each)

theorem State.pfBegin_kept {a0 : State} (s : State) (c pfl : Nat) (tiles : List Nat)
    (hk0 : Kept a0 s) : Kept a0 (State.pfBegin s c pfl tiles) := by
  unfold State.pfBegin
  try dsimp only
  repeat' (first
      | with_reducible assumption
      | intro _
      | simp only [kept_mk_iff]
      | with_reducible apply State.post_kept
      | with_reducible apply State.readPoison_kept
      | with_reducible apply State.faultDsp_kept
      | with_reducible apply State.pfStart_kept
      | with_reducible apply kept_ite)

theorem State.wakeTiles_kept {a0 : State} (s : State) (e : LookEntry)
    (hk0 : Kept a0 s) : Kept a0 (State.wakeTiles s e) := by
  unfold State.wakeTiles
  try dsimp only
  repeat' (first
      | with_reducible assumption
      | intro _
      | simp only [kept_mk_iff]
      | with_reducible apply State.startReclaim_kept
      | with_reducible apply State.pfBegin_kept
      | with_reducible apply State.tilesDo_kept
      | with_reducible apply State.settleAll_kept
      | with_reducible apply kept_ite
      | with_reducible apply kept_ite_fst
      | with_reducible apply kept_each
      | with_reducible apply kept_foldl
      | with_reducible apply kept_foldl_fst
      | dsimp only
      | split)

theorem State.wakeEntry_kept {a0 : State} (s : State) (e : LookEntry)
    (hk0 : Kept a0 s) : Kept a0 (State.wakeEntry s e) := by
  unfold State.wakeEntry
  try dsimp only
  repeat' (first
      | with_reducible assumption
      | intro _
      | simp only [kept_mk_iff]
      | with_reducible apply State.skipEntry_kept
      | with_reducible apply State.wakeTiles_kept
      | with_reducible apply kept_ite
      | with_reducible apply kept_ite_fst
      | with_reducible apply kept_each
      | with_reducible apply kept_foldl
      | with_reducible apply kept_foldl_fst
      | dsimp only
      | split)

theorem State.wakeDue_kept {a0 : State} (s : State)
    (hk0 : Kept a0 s) : Kept a0 (State.wakeDue s) := by
  unfold State.wakeDue
  try dsimp only
  repeat' (first
      | with_reducible assumption
      | intro _
      | simp only [kept_mk_iff]
      | with_reducible apply State.wakeEntry_kept
      | with_reducible apply State.each_kept
      | with_reducible apply kept_ite
      | with_reducible apply kept_ite_fst
      | with_reducible apply kept_each)

theorem State.startEntry_kept {a0 : State} (s : State) (e : LookEntry) (late : Nat)
    (hk0 : Kept a0 s) : Kept a0 (State.startEntry s e late) := by
  unfold State.startEntry
  try dsimp only
  repeat' (first
      | with_reducible assumption
      | intro _
      | simp only [kept_mk_iff]
      | with_reducible apply State.rbitSet_kept
      | with_reducible apply State.beginHeat_kept
      | with_reducible apply State.modLook_kept
      | with_reducible apply State.eventCtx_kept
      | with_reducible apply State.acct_kept
      | with_reducible apply State.rcount_kept
      | with_reducible apply kept_ite)

theorem State.wakeDone_kept {a0 : State} (s : State) (e : LookEntry)
    (hk0 : Kept a0 s) : Kept a0 (State.wakeDone s e) := by
  unfold State.wakeDone
  try dsimp only
  repeat' (first
      | with_reducible assumption
      | intro _
      | simp only [kept_mk_iff]
      | with_reducible apply State.startEntry_kept
      | with_reducible apply State.modLook_kept
      | with_reducible apply kept_ite
      | with_reducible apply kept_ite_fst
      | with_reducible apply kept_each
      | with_reducible apply kept_foldl
      | with_reducible apply kept_foldl_fst
      | dsimp only
      | split)

theorem State.beqPush_kept {a0 : State} (s : State) (c idx : Nat) (w : Word)
    (hk0 : Kept a0 s) : Kept a0 (State.beqPush s c idx w).1 := by
  unfold State.beqPush
  try dsimp only
  repeat' (first
      | with_reducible assumption
      | intro _
      | simp only [kept_mk_iff]
      | with_reducible apply State.eventCtx_kept
      | with_reducible apply State.acct_kept
      | with_reducible apply State.rbitSet_kept
      | with_reducible apply State.rcount_kept
      | with_reducible apply kept_ite
      | with_reducible apply kept_ite_fst)

theorem State.startEvent_kept {a0 : State} (s : State) (i : Nat)
    (hk0 : Kept a0 s) : Kept a0 (State.startEvent s i) := by
  unfold State.startEvent
  try dsimp only
  repeat' (first
      | with_reducible assumption
      | intro _
      | simp only [kept_mk_iff]
      | with_reducible apply State.wakeEntry_kept
      | with_reducible apply State.wakeDone_kept
      | with_reducible apply State.skipEntry_kept
      | with_reducible apply State.beqPush_kept
      | with_reducible apply kept_ite
      | with_reducible apply kept_ite_fst
      | with_reducible apply kept_each
      | with_reducible apply kept_foldl
      | with_reducible apply kept_foldl_fst
      | dsimp only
      | split)

theorem State.endLoans_kept {a0 : State} (s : State) (c : Nat) (ts : List Nat)
    (hk0 : Kept a0 s) : Kept a0 (State.endLoans s c ts) := by
  unfold State.endLoans
  try dsimp only
  repeat' (first
      | with_reducible assumption
      | intro _
      | simp only [kept_mk_iff])

theorem State.heldTrigger_kept {a0 : State} (s : State) (i : Nat)
    (hk0 : Kept a0 s) : Kept a0 (State.heldTrigger s i) := by
  unfold State.heldTrigger
  try dsimp only
  repeat' (first
      | with_reducible assumption
      | intro _
      | simp only [kept_mk_iff]
      | with_reducible apply State.startEvent_kept
      | with_reducible apply kept_ite)

theorem State.resnap_kept {a0 : State} (s : State) (t c : Nat)
    (hk0 : Kept a0 s) : Kept a0 (State.resnap s t c) := by
  unfold State.resnap
  try dsimp only
  repeat' (first
      | with_reducible assumption
      | intro _
      | simp only [kept_mk_iff]
      | with_reducible apply State.modTc_kept
      | with_reducible apply State.residentCheck_kept
      | with_reducible apply kept_ite
      | with_reducible apply kept_ite_fst
      | with_reducible apply kept_each
      | with_reducible apply kept_foldl
      | with_reducible apply kept_foldl_fst
      | dsimp only
      | split)

theorem State.endHeat_kept {a0 : State} (s : State) (h : Heat)
    (hk0 : Kept a0 s) : Kept a0 (State.endHeat s h) := by
  unfold State.endHeat
  try dsimp only
  repeat' (first
      | with_reducible assumption
      | intro _
      | simp only [kept_mk_iff]
      | with_reducible apply State.heldTrigger_kept
      | with_reducible apply State.eventCtx_kept
      | with_reducible apply State.tilesDo_kept
      | with_reducible apply State.resnap_kept
      | with_reducible apply State.each_kept
      | with_reducible apply State.modTile_kept
      | with_reducible apply State.cmdEnd_kept
      | with_reducible apply State.recordHeats_kept
      | with_reducible apply State.modTc_kept
      | with_reducible apply State.beginBe_kept
      | with_reducible apply State.endLoans_kept
      | with_reducible apply State.kickAll_kept
      | with_reducible apply State.acct_kept
      | with_reducible apply State.settleAll_kept
      | with_reducible apply kept_ite
      | with_reducible apply kept_ite_fst
      | with_reducible apply kept_each
      | with_reducible apply kept_foldl
      | with_reducible apply kept_foldl_fst
      | dsimp only
      | split)

theorem State.chargeWake_kept {a0 : State} (s : State) (t pj : Nat)
    (hk0 : Kept a0 s) : Kept a0 (State.chargeWake s t pj) := by
  unfold State.chargeWake
  try dsimp only
  repeat' (first
      | with_reducible assumption
      | intro _
      | simp only [kept_mk_iff]
      | with_reducible apply State.acct_kept
      | with_reducible apply kept_ite
      | with_reducible apply kept_ite_fst
      | with_reducible apply kept_each
      | with_reducible apply kept_foldl
      | with_reducible apply kept_foldl_fst
      | dsimp only
      | split)

theorem State.pfNext_kept {a0 : State} (s : State) (j : PfJob)
    (hk0 : Kept a0 s) : Kept a0 (State.pfNext s j) := by
  unfold State.pfNext
  try dsimp only
  repeat' (first
      | with_reducible assumption
      | intro _
      | simp only [kept_mk_iff]
      | with_reducible apply State.post_kept
      | with_reducible apply State.faultDsp_kept
      | with_reducible apply State.modPf_kept
      | with_reducible apply State.pfStart_kept
      | with_reducible apply State.dropPf_kept
      | with_reducible apply kept_ite)

theorem State.grantLoan_kept {a0 : State} (s : State) (c len : Nat) (ts : List Nat)
    (hk0 : Kept a0 s) : Kept a0 (State.grantLoan s c len ts) := by
  unfold State.grantLoan
  try dsimp only
  repeat' (first
      | with_reducible assumption
      | intro _
      | simp only [kept_mk_iff]
      | with_reducible apply State.tilesDo_kept
      | with_reducible apply State.eventCtx_kept
      | with_reducible apply kept_ite)

theorem State.takeSlice_kept {a0 : State} (s : State) (c : Nat)
    (hk0 : Kept a0 s) : Kept a0 (State.takeSlice s c).1 := by
  unfold State.takeSlice
  try dsimp only
  repeat' (first
      | with_reducible assumption
      | intro _
      | dsimp only
      | with_reducible apply State.rset_kept
      | with_reducible apply kept_ite
      | with_reducible apply kept_ite_fst)

theorem State.beResume_kept {a0 : State} (s : State) (r : BeRun)
    (hk0 : Kept a0 s) : Kept a0 (State.beResume s r) := by
  unfold State.beResume
  try dsimp only
  repeat' (first
      | with_reducible assumption
      | intro _
      | simp only [kept_mk_iff]
      | with_reducible apply State.tilesDo_kept
      | with_reducible apply State.takeSlice_kept
      | with_reducible apply State.grantLoan_kept
      | with_reducible apply State.modTile_kept
      | with_reducible apply State.modBe_kept
      | with_reducible apply State.settleAll_kept
      | with_reducible apply kept_ite)

theorem State.bePlace_kept {a0 : State} (s : State) (c : Nat) (w : Word) (rest : List Word) (ts : List Nat)
    (hk0 : Kept a0 s) : Kept a0 (State.bePlace s c w rest ts) := by
  unfold State.bePlace
  try dsimp only
  repeat' (first
      | with_reducible assumption
      | intro _
      | simp only [kept_mk_iff]
      | with_reducible apply State.beginBe_kept
      | with_reducible apply State.takeSlice_kept
      | with_reducible apply State.grantLoan_kept
      | with_reducible apply State.rbitSet_kept
      | with_reducible apply State.settleAll_kept
      | with_reducible apply kept_ite)

theorem State.moveLines_kept {a0 : State} (s : State) (t c base : Nat) (lines : List Nat) (back : Bool)
    (hk0 : Kept a0 s) : Kept a0 (State.moveLines s t c base lines back) := by
  unfold State.moveLines
  try dsimp only
  repeat' (first
      | with_reducible assumption
      | intro _
      | simp only [kept_mk_iff]
      | with_reducible apply State.chargeMem_kept
      | with_reducible apply State.moveBytes_kept
      | with_reducible apply State.each_kept
      | with_reducible apply kept_ite
      | with_reducible apply kept_ite_fst
      | with_reducible apply kept_each)

theorem State.unbegunLoan_kept {a0 : State} (s : State) (t c : Nat)
    (hk0 : Kept a0 s) : Kept a0 (State.unbegunLoan s t c) := by
  unfold State.unbegunLoan
  try dsimp only
  repeat' (first
      | with_reducible assumption
      | intro _
      | simp only [kept_mk_iff]
      | with_reducible apply State.tilesDo_kept
      | with_reducible apply State.modTile_kept
      | with_reducible apply State.modBe_kept
      | with_reducible apply kept_ite
      | with_reducible apply kept_ite_fst
      | with_reducible apply kept_each
      | with_reducible apply kept_foldl
      | with_reducible apply kept_foldl_fst
      | dsimp only
      | split)

theorem State.verdict_kept {a0 : State} (s : State) (domain cls index cause detail : Nat)
    (hk0 : Kept a0 s) : Kept a0 (State.verdict s domain cls index cause detail) := by
  unfold State.verdict
  try dsimp only
  repeat' (first
      | with_reducible assumption
      | intro _
      | simp only [kept_mk_iff]
      | with_reducible apply State.rfldSet_kept
      | with_reducible apply State.event_kept
      | with_reducible apply State.rset_kept)

theorem State.setHealth_kept {a0 : State} (s : State) (h : Health)
    (hk0 : Kept a0 s) : Kept a0 (State.setHealth s h) := by
  unfold State.setHealth
  try dsimp only
  repeat' (first
      | with_reducible assumption
      | intro _
      | simp only [kept_mk_iff])

theorem State.loadFactor_kept {a0 : State} (s : State) (t c off : Nat)
    (hk0 : Kept a0 s) : Kept a0 (State.loadFactor s t c off) := by
  unfold State.loadFactor
  try dsimp only
  repeat' (first
      | with_reducible assumption
      | intro _
      | simp only [kept_mk_iff]
      | with_reducible apply State.stagePoison_kept
      | with_reducible apply State.wroteWhole_kept
      | with_reducible apply State.faultTile_kept
      | with_reducible apply kept_ite)

theorem State.loadTile_kept {a0 : State} (s : State) (t c : Nat)
    (hk0 : Kept a0 s) : Kept a0 (State.loadTile s t c) := by
  unfold State.loadTile
  try dsimp only
  repeat' (first
      | with_reducible assumption
      | intro _
      | simp only [kept_mk_iff]
      | with_reducible apply State.mwriteVal_kept
      | with_reducible apply State.each_kept
      | with_reducible apply State.loadFactor_kept
      | with_reducible apply kept_ite
      | with_reducible apply kept_ite_fst
      | with_reducible apply kept_each)

theorem State.loadContext_kept {a0 : State} (s : State) (c : Nat) (first : Bool)
    (hk0 : Kept a0 s) : Kept a0 (State.loadContext s c first) := by
  unfold State.loadContext
  try dsimp only
  repeat' (first
      | with_reducible assumption
      | intro _
      | simp only [kept_mk_iff]
      | with_reducible apply State.loadTile_kept
      | with_reducible apply State.rset_kept
      | with_reducible apply State.each_kept
      | with_reducible apply kept_ite
      | with_reducible apply kept_ite_fst
      | with_reducible apply kept_each)

theorem State.dropCopy_kept {a0 : State} (s : State) (t c : Nat)
    (hk0 : Kept a0 s) : Kept a0 (State.dropCopy s t c) := by
  unfold State.dropCopy
  try dsimp only
  repeat' (first
      | with_reducible assumption
      | intro _
      | simp only [kept_mk_iff]
      | with_reducible apply State.rcount_kept
      | with_reducible apply State.moveBytes_kept
      | with_reducible apply kept_ite
      | with_reducible apply kept_ite_fst
      | with_reducible apply kept_each
      | with_reducible apply kept_foldl
      | with_reducible apply kept_foldl_fst
      | dsimp only
      | split)

theorem State.dropPrefetch_kept {a0 : State} (s : State) (c : Nat)
    (hk0 : Kept a0 s) : Kept a0 (State.dropPrefetch s c) := by
  unfold State.dropPrefetch
  try dsimp only
  repeat' (first
      | with_reducible assumption
      | intro _
      | simp only [kept_mk_iff]
      | with_reducible apply State.rcount_kept
      | with_reducible apply State.each_kept
      | with_reducible apply State.moveBytes_kept
      | with_reducible apply kept_ite
      | with_reducible apply kept_ite_fst
      | with_reducible apply kept_each)

theorem State.abandonTile_kept {a0 : State} (s : State) (t c : Nat)
    (hk0 : Kept a0 s) : Kept a0 (State.abandonTile s t c) := by
  unfold State.abandonTile
  try dsimp only
  repeat' (first
      | with_reducible assumption
      | intro _
      | simp only [kept_mk_iff]
      | with_reducible apply State.withdraw_kept
      | with_reducible apply State.parkCmds_kept
      | with_reducible apply State.cmdsAbandoned_kept
      | with_reducible apply State.dropDumps_kept
      | with_reducible apply State.modTile_kept)

theorem State.dropContext_kept {a0 : State} (s : State) (c : Nat)
    (hk0 : Kept a0 s) : Kept a0 (State.dropContext s c) := by
  unfold State.dropContext
  try dsimp only
  repeat' (first
      | with_reducible assumption
      | intro _
      | simp only [kept_mk_iff]
      | with_reducible apply State.each_kept
      | with_reducible apply State.serveBaton_kept
      | with_reducible apply kept_ite
      | with_reducible apply kept_ite_fst
      | with_reducible apply kept_each)

theorem State.teardown_kept {a0 : State} (s : State) (c : Nat)
    (hk0 : Kept a0 s) : Kept a0 (State.teardown s c) := by
  unfold State.teardown
  try dsimp only
  repeat' (first
      | with_reducible assumption
      | intro _
      | simp only [kept_mk_iff]
      | with_reducible apply State.mwriteVal_kept
      | with_reducible apply State.settleAll_kept
      | with_reducible apply State.rfldSet_kept
      | with_reducible apply State.modTile_kept
      | with_reducible apply State.dropPrefetch_kept
      | with_reducible apply State.each_kept
      | with_reducible apply State.skipEntry_kept
      | with_reducible apply State.cmdsAbandoned_kept
      | with_reducible apply State.dropContext_kept
      | with_reducible apply State.abandonTile_kept
      | with_reducible apply State.beginBe_kept
      | with_reducible apply State.eventCtx_kept
      | with_reducible apply State.dropCopy_kept
      | with_reducible apply State.parkCmds_kept
      | with_reducible apply State.tilesDo_kept
      | with_reducible apply kept_ite
      | with_reducible apply kept_ite_fst
      | with_reducible apply kept_each)

theorem State.partReset_kept {a0 : State} (s : State) (p : Nat) (force dead : Bool) (h : Kept a0 s) :
    Kept a0 (s.partReset p force dead) := by
  unfold State.partReset
  apply kept_ite (State.setHealth_kept _ _ h)
  refine kept_each _ _ (fun x c hx => State.teardown_kept x c hx) ?_
  refine kept_each _ _ (fun x t hx => State.startReclaim_kept x t _ hx) ?_
  exact kept_mk_iff.2 (State.rwrap_kept _ _ _ _ _ (State.rfldSet_kept _ _ _ _ _ (State.setHealth_kept _ _ h)))

theorem State.partDown_kept {a0 : State} (s : State) (r : PartReset)
    (hk0 : Kept a0 s) : Kept a0 (State.partDown s r) := by
  unfold State.partDown
  try dsimp only
  repeat' (first
      | with_reducible assumption
      | intro _
      | simp only [kept_mk_iff]
      | with_reducible apply State.rfldSet_kept
      | with_reducible apply State.each_kept
      | with_reducible apply kept_ite
      | with_reducible apply kept_ite_fst
      | with_reducible apply kept_each)

theorem State.abandonMove_kept {a0 : State} (s : State) (t : Nat)
    (hk0 : Kept a0 s) : Kept a0 (State.abandonMove s t) := by
  unfold State.abandonMove
  try dsimp only
  repeat' (first
      | with_reducible assumption
      | intro _
      | simp only [kept_mk_iff]
      | with_reducible apply State.modTile_kept
      | with_reducible apply State.cmdsAbandoned_kept
      | with_reducible apply State.mwriteVal_kept
      | with_reducible apply State.parkCmds_kept
      | with_reducible apply State.abandonTile_kept
      | with_reducible apply kept_ite
      | with_reducible apply kept_ite_fst
      | with_reducible apply kept_each
      | with_reducible apply kept_foldl
      | with_reducible apply kept_foldl_fst
      | dsimp only
      | split)

theorem State.unitReset_kept {a0 : State} (s : State) (domain index : Nat)
    (hk0 : Kept a0 s) : Kept a0 (State.unitReset s domain index) := by
  unfold State.unitReset
  try dsimp only
  repeat' (first
      | with_reducible assumption
      | intro _
      | simp only [kept_mk_iff]
      | with_reducible apply State.teardown_kept
      | with_reducible apply State.setHealth_kept
      | with_reducible apply State.each_kept
      | with_reducible apply State.tilesDo_kept
      | with_reducible apply State.abandonMove_kept
      | with_reducible apply State.modTile_kept
      | with_reducible apply kept_ite
      | with_reducible apply kept_ite_fst
      | with_reducible apply kept_each)

theorem State.resetTile_kept {a0 : State} (s : State) (t : Nat)
    (hk0 : Kept a0 s) : Kept a0 (State.resetTile s t) := by
  unfold State.resetTile
  try dsimp only
  repeat' (first
      | with_reducible assumption
      | intro _
      | simp only [kept_mk_iff]
      | with_reducible apply State.setTile_kept
      | with_reducible apply State.dropDumps_kept)

theorem State.resetPorts_kept {a0 : State} (s : State) (k : Nat)
    (hk0 : Kept a0 s) : Kept a0 (State.resetPorts s k) := by
  unfold State.resetPorts
  try dsimp only
  repeat' (first
      | with_reducible assumption
      | intro _
      | simp only [kept_mk_iff])

end Sys2Proof.Machine
end

