-- ==== Sys2Proof/Laws/KeptPorts.lean ====
section
/-!
SUPPORT. Kept: one lemma per operation of loops, generators, probes, Sample Ports, PWM and the time servo.
-/

namespace Sys2Proof.Machine

theorem State.setLoop_kept {a0 : State} (s : State) (n : Nat) (x : LoopSt)
    (hk0 : Kept a0 s) : Kept a0 (State.setLoop s n x) := by
  unfold State.setLoop
  try dsimp only
  repeat' (first
      | with_reducible assumption
      | intro _
      | simp only [kept_mk_iff])

theorem State.modLoop_kept {a0 : State} (s : State) (n : Nat) (f : LoopSt → LoopSt)
    (hk0 : Kept a0 s) : Kept a0 (State.modLoop s n f) := by
  unfold State.modLoop
  try dsimp only
  repeat' (first
      | with_reducible assumption
      | intro _
      | simp only [kept_mk_iff]
      | with_reducible apply State.setLoop_kept)

theorem State.setGen_kept {a0 : State} (s : State) (g : Nat) (x : GenSt)
    (hk0 : Kept a0 s) : Kept a0 (State.setGen s g x) := by
  unfold State.setGen
  try dsimp only
  repeat' (first
      | with_reducible assumption
      | intro _
      | simp only [kept_mk_iff])

theorem State.setProbe_kept {a0 : State} (s : State) (p : Nat) (x : ProbeSt)
    (hk0 : Kept a0 s) : Kept a0 (State.setProbe s p x) := by
  unfold State.setProbe
  try dsimp only
  repeat' (first
      | with_reducible assumption
      | intro _
      | simp only [kept_mk_iff])

theorem State.setSpt_kept {a0 : State} (s : State) (p : Nat) (x : SptSt)
    (hk0 : Kept a0 s) : Kept a0 (State.setSpt s p x) := by
  unfold State.setSpt
  try dsimp only
  repeat' (first
      | with_reducible assumption
      | intro _
      | simp only [kept_mk_iff])

theorem State.setPwm_kept {a0 : State} (s : State) (c : Nat) (x : PwmSt)
    (hk0 : Kept a0 s) : Kept a0 (State.setPwm s c x) := by
  unfold State.setPwm
  try dsimp only
  repeat' (first
      | with_reducible assumption
      | intro _
      | simp only [kept_mk_iff])

theorem State.pwmIdle_kept {a0 : State} (s : State) (c : Nat)
    (hk0 : Kept a0 s) : Kept a0 (State.pwmIdle s c) := by
  unfold State.pwmIdle
  try dsimp only
  repeat' (first
      | with_reducible assumption
      | intro _
      | simp only [kept_mk_iff]
      | with_reducible apply State.rbitSet_kept
      | with_reducible apply State.rfldSet_kept
      | with_reducible apply State.setPwm_kept)

theorem State.safeDest_kept {a0 : State} (s : State) (n : Nat)
    (hk0 : Kept a0 s) : Kept a0 (State.safeDest s n) := by
  unfold State.safeDest
  try dsimp only
  repeat' (first
      | with_reducible assumption
      | intro _
      | simp only [kept_mk_iff]
      | with_reducible apply State.pwmIdle_kept
      | with_reducible apply kept_ite
      | with_reducible apply kept_ite_fst
      | with_reducible apply kept_each
      | with_reducible apply kept_foldl
      | with_reducible apply kept_foldl_fst
      | dsimp only
      | split)

theorem State.genEdges_kept {a0 : State} (s : State) (n : Nat)
    (hk0 : Kept a0 s) : Kept a0 (State.genEdges s n) := by
  unfold State.genEdges
  try dsimp only
  repeat' (first
      | with_reducible assumption
      | intro _
      | simp only [kept_mk_iff]
      | with_reducible apply State.rbitSet_kept
      | with_reducible apply State.setGen_kept
      | with_reducible apply State.rfldSet_kept
      | with_reducible apply State.each_kept
      | with_reducible apply kept_ite
      | with_reducible apply kept_ite_fst
      | with_reducible apply kept_each)

theorem State.genLap_kept {a0 : State} (s : State) (g : Nat)
    (hk0 : Kept a0 s) : Kept a0 (State.genLap s g).1 := by
  unfold State.genLap
  try dsimp only
  repeat' (first
      | with_reducible assumption
      | intro _
      | dsimp only
      | with_reducible apply State.rbitSet_kept
      | with_reducible apply State.rwrap_kept
      | with_reducible apply State.setGen_kept
      | with_reducible apply kept_ite
      | with_reducible apply kept_ite_fst)

theorem State.loopFlags_kept {a0 : State} (s : State) (n m : Nat)
    (hk0 : Kept a0 s) : Kept a0 (State.loopFlags s n m) := by
  unfold State.loopFlags
  try dsimp only
  repeat' (first
      | with_reducible assumption
      | intro _
      | simp only [kept_mk_iff]
      | with_reducible apply State.rset_kept
      | with_reducible apply State.modLoop_kept)

theorem State.preset_kept {a0 : State} (s : State) (n : Nat) (u : Int)
    (hk0 : Kept a0 s) : Kept a0 (State.preset s n u) := by
  unfold State.preset
  try dsimp only
  repeat' (first
      | with_reducible assumption
      | intro _
      | simp only [kept_mk_iff]
      | with_reducible apply State.modLoop_kept)

theorem State.stepMode_kept {a0 : State} (s : State) (n : Nat)
    (hk0 : Kept a0 s) : Kept a0 (State.stepMode s n).1 := by
  unfold State.stepMode
  try dsimp only
  repeat' (first
      | with_reducible assumption
      | intro _
      | dsimp only
      | with_reducible apply State.rfldSet_kept
      | with_reducible apply State.preset_kept
      | with_reducible apply kept_ite
      | with_reducible apply kept_ite_fst)

theorem State.latch_kept {a0 : State} (s : State) (n : Nat) (y : Word) (split : Nat)
    (hk0 : Kept a0 s) : Kept a0 (State.latch s n y split) := by
  unfold State.latch
  try dsimp only
  repeat' (first
      | with_reducible assumption
      | intro _
      | simp only [kept_mk_iff]
      | with_reducible apply State.rset_kept
      | with_reducible apply State.modLoop_kept)

theorem State.stepLatch_kept {a0 : State} (s : State) (n : Nat)
    (hk0 : Kept a0 s) : Kept a0 (State.stepLatch s n).1 := by
  unfold State.stepLatch
  try dsimp only
  repeat' (first
      | with_reducible assumption
      | intro _
      | simp only [kept_mk_iff]
      | with_reducible apply State.rfldSet_kept
      | with_reducible apply State.latch_kept
      | with_reducible apply State.rcount_kept
      | with_reducible apply State.modLoop_kept
      | with_reducible apply kept_ite
      | with_reducible apply kept_ite_fst
      | with_reducible apply kept_each
      | with_reducible apply kept_foldl
      | with_reducible apply kept_foldl_fst
      | dsimp only
      | split)

theorem State.stepStale_kept {a0 : State} (s : State) (n : Nat) (fresh rep : Bool)
    (hk0 : Kept a0 s) : Kept a0 (State.stepStale s n fresh rep).1 := by
  unfold State.stepStale
  try dsimp only
  repeat' (first
      | with_reducible assumption
      | intro _
      | simp only [kept_mk_iff]
      | with_reducible apply State.leave_kept
      | with_reducible apply State.loopFlags_kept
      | with_reducible apply State.event_kept
      | with_reducible apply State.rbitSet_kept
      | with_reducible apply State.rcount_kept
      | with_reducible apply kept_ite)

theorem State.applyOut_kept {a0 : State} (s : State) (n : Nat) (v : Word)
    (hk0 : Kept a0 s) : Kept a0 (State.applyOut s n v) := by
  unfold State.applyOut
  try dsimp only
  repeat' (first
      | with_reducible assumption
      | intro _
      | simp only [kept_mk_iff]
      | with_reducible apply State.rset_kept
      | with_reducible apply State.rbitSet_kept
      | with_reducible apply State.modLoop_kept
      | with_reducible apply kept_ite)

theorem State.applySafe_kept {a0 : State} (s : State) (n : Nat)
    (hk0 : Kept a0 s) : Kept a0 (State.applySafe s n) := by
  unfold State.applySafe
  try dsimp only
  repeat' (first
      | with_reducible assumption
      | intro _
      | simp only [kept_mk_iff]
      | with_reducible apply State.safeDest_kept
      | with_reducible apply State.rbitSet_kept)

theorem State.stepApply_kept {a0 : State} (s : State) (n : Nat) (enter : Bool)
    (hk0 : Kept a0 s) : Kept a0 (State.stepApply s n enter) := by
  unfold State.stepApply
  try dsimp only
  repeat' (first
      | with_reducible assumption
      | intro _
      | simp only [kept_mk_iff]
      | with_reducible apply State.out_kept
      | with_reducible apply State.applySafe_kept
      | with_reducible apply State.modLoop_kept
      | with_reducible apply State.applyOut_kept
      | with_reducible apply kept_ite
      | with_reducible apply kept_ite_fst
      | with_reducible apply kept_each
      | with_reducible apply kept_foldl
      | with_reducible apply kept_foldl_fst
      | dsimp only
      | split)

theorem State.stepRamp_kept {a0 : State} (s : State) (n : Nat) (restart : Bool)
    (hk0 : Kept a0 s) : Kept a0 (State.stepRamp s n restart) := by
  unfold State.stepRamp
  try dsimp only
  repeat' (first
      | with_reducible assumption
      | intro _
      | simp only [kept_mk_iff]
      | with_reducible apply State.rset_kept
      | with_reducible apply State.modLoop_kept
      | with_reducible apply kept_ite)

theorem State.probeEntry_kept {a0 : State} (s : State) (n p : Nat) (trig inj : Bool) (g : Word)
    (hk0 : Kept a0 s) : Kept a0 (State.probeEntry s n p trig inj g) := by
  unfold State.probeEntry
  try dsimp only
  repeat' (first
      | with_reducible assumption
      | intro _
      | simp only [kept_mk_iff]
      | with_reducible apply State.rset_kept
      | with_reducible apply State.rbitSet_kept
      | with_reducible apply State.post_kept
      | with_reducible apply State.rfldSet_kept
      | with_reducible apply State.setProbe_kept
      | with_reducible apply kept_ite
      | with_reducible apply kept_ite_fst
      | with_reducible apply kept_each
      | with_reducible apply kept_foldl
      | with_reducible apply kept_foldl_fst
      | dsimp only
      | split)

theorem State.probeLap_kept {a0 : State} (s : State) (n p : Nat) (rec trg inj : Bool) (g : Word)
    (hk0 : Kept a0 s) : Kept a0 (State.probeLap s n p rec trg inj g) := by
  unfold State.probeLap
  try dsimp only
  repeat' (first
      | with_reducible assumption
      | intro _
      | simp only [kept_mk_iff]
      | with_reducible apply State.setProbe_kept
      | with_reducible apply State.probeEntry_kept
      | with_reducible apply kept_ite)

theorem State.lapEnd_kept {a0 : State} (s : State) (n : Nat) (ps : List (Nat × Bool × Bool)) (inj : Bool) (g : Word)
    (hk0 : Kept a0 s) : Kept a0 (State.lapEnd s n ps inj g) := by
  unfold State.lapEnd
  try dsimp only
  repeat' (first
      | with_reducible assumption
      | intro _
      | simp only [kept_mk_iff]
      | with_reducible apply State.modLoop_kept
      | with_reducible apply State.probeLap_kept
      | with_reducible apply State.each_kept
      | with_reducible apply kept_ite
      | with_reducible apply kept_ite_fst
      | with_reducible apply kept_each)

theorem State.stepProbes_kept {a0 : State} (s : State) (n : Nat)
    (hk0 : Kept a0 s) : Kept a0 (State.stepProbes s n).1 := by
  unfold State.stepProbes
  try dsimp only
  repeat' (first
      | with_reducible assumption
      | intro _
      | dsimp only
      | with_reducible apply State.setProbe_kept
      | with_reducible apply State.rbitSet_kept
      | with_reducible apply kept_ite
      | with_reducible apply kept_ite_fst
      | with_reducible apply kept_each
      | with_reducible apply kept_foldl
      | with_reducible apply kept_foldl_fst)

theorem State.issueUpdate_kept {a0 : State} (s : State) (n : Nat) (ps : List (Nat × Bool))
    (hk0 : Kept a0 s) : Kept a0 (State.issueUpdate s n ps) := by
  unfold State.issueUpdate
  try dsimp only
  repeat' (first
      | with_reducible assumption
      | intro _
      | simp only [kept_mk_iff]
      | with_reducible apply State.rset_kept
      | with_reducible apply State.genLap_kept
      | with_reducible apply State.modLoop_kept
      | with_reducible apply kept_ite
      | with_reducible apply kept_ite_fst
      | with_reducible apply kept_each
      | with_reducible apply kept_foldl
      | with_reducible apply kept_foldl_fst
      | dsimp only
      | split)

theorem State.formErr_kept {a0 : State} (s : State) (n : Nat)
    (hk0 : Kept a0 s) : Kept a0 (State.formErr s n) := by
  unfold State.formErr
  try dsimp only
  repeat' (first
      | with_reducible assumption
      | intro _
      | simp only [kept_mk_iff]
      | with_reducible apply State.rset_kept
      | with_reducible apply State.loopFlags_kept
      | with_reducible apply kept_ite)

theorem State.slip_kept {a0 : State} (s : State) (n : Nat) (ps : List (Nat × Bool × Bool))
    (hk0 : Kept a0 s) : Kept a0 (State.slip s n ps) := by
  unfold State.slip
  try dsimp only
  repeat' (first
      | with_reducible assumption
      | intro _
      | simp only [kept_mk_iff]
      | with_reducible apply State.lapEnd_kept
      | with_reducible apply State.out_kept
      | with_reducible apply State.loopFlags_kept
      | with_reducible apply State.formErr_kept
      | with_reducible apply State.rcount_kept
      | with_reducible apply State.modLoop_kept)

theorem State.genBack_kept {a0 : State} (s : State) (w : Nat × GenSt × Word)
    (hk0 : Kept a0 s) : Kept a0 (State.genBack s w) := by
  unfold State.genBack
  try dsimp only
  repeat' (first
      | with_reducible assumption
      | intro _
      | simp only [kept_mk_iff]
      | with_reducible apply State.rfldSet_kept
      | with_reducible apply State.setGen_kept
      | with_reducible apply State.rbitSet_kept
      | with_reducible apply kept_ite)

theorem State.revoke_kept {a0 : State} (s : State) (m : Nat)
    (hk0 : Kept a0 s) : Kept a0 (State.revoke s m) := by
  unfold State.revoke
  try dsimp only
  repeat' (first
      | with_reducible assumption
      | intro _
      | simp only [kept_mk_iff]
      | with_reducible apply State.slip_kept
      | with_reducible apply State.genBack_kept
      | with_reducible apply State.modLoop_kept
      | with_reducible apply kept_ite
      | with_reducible apply kept_ite_fst
      | with_reducible apply kept_each
      | with_reducible apply kept_foldl
      | with_reducible apply kept_foldl_fst
      | dsimp only
      | split)

theorem State.issueOrSlip_kept {a0 : State} (s : State) (n : Nat) (ps : List (Nat × Bool))
    (hk0 : Kept a0 s) : Kept a0 (State.issueOrSlip s n ps) := by
  unfold State.issueOrSlip
  try dsimp only
  repeat' (first
      | with_reducible assumption
      | intro _
      | simp only [kept_mk_iff]
      | with_reducible apply State.revoke_kept
      | with_reducible apply State.slip_kept
      | with_reducible apply State.issueUpdate_kept
      | with_reducible apply kept_ite
      | with_reducible apply kept_ite_fst
      | with_reducible apply kept_each
      | with_reducible apply kept_foldl
      | with_reducible apply kept_foldl_fst
      | dsimp only
      | split)

theorem State.boundary_kept {a0 : State} (s : State) (n : Nat)
    (hk0 : Kept a0 s) : Kept a0 (State.boundary s n) := by
  unfold State.boundary
  try dsimp only
  repeat' (first
      | with_reducible assumption
      | intro _
      | simp only [kept_mk_iff]
      | with_reducible apply State.leave_kept
      | with_reducible apply State.rset_kept
      | with_reducible apply State.out_kept
      | with_reducible apply State.stepRamp_kept
      | with_reducible apply State.rwrap_kept
      | with_reducible apply State.stepProbes_kept
      | with_reducible apply State.preset_kept
      | with_reducible apply State.formErr_kept
      | with_reducible apply State.issueOrSlip_kept
      | with_reducible apply State.stepLatch_kept
      | with_reducible apply State.genEdges_kept
      | with_reducible apply State.stepStale_kept
      | with_reducible apply State.stepApply_kept
      | with_reducible apply State.stepMode_kept
      | with_reducible apply State.lapEnd_kept
      | with_reducible apply State.modLoop_kept
      | with_reducible apply kept_ite)

theorem State.setTarget_kept {a0 : State} (s : State) (n : Nat) (v : Word)
    (hk0 : Kept a0 s) : Kept a0 (State.setTarget s n v) := by
  unfold State.setTarget
  try dsimp only
  repeat' (first
      | with_reducible assumption
      | intro _
      | simp only [kept_mk_iff]
      | with_reducible apply State.rset_kept
      | with_reducible apply State.modLoop_kept)

theorem State.loopRefuse_kept {a0 : State} (s : State) (n k : Nat)
    (hk0 : Kept a0 s) : Kept a0 (State.loopRefuse s n k).1 := by
  unfold State.loopRefuse
  try dsimp only
  repeat' (first
      | with_reducible assumption
      | intro _
      | simp only [kept_mk_iff]
      | with_reducible apply State.loopFlags_kept
      | with_reducible apply State.event_kept
      | with_reducible apply State.rcount_kept)

theorem State.loopWrite_kept {a0 : State} (s : State) (boot : Bool) (n off : Nat) (m v : Word)
    (hk0 : Kept a0 s) : Kept a0 (State.loopWrite s boot n off m v).1 := by
  unfold State.loopWrite
  try dsimp only
  repeat' (first
      | with_reducible assumption
      | intro _
      | dsimp only
      | with_reducible apply State.rset_kept
      | with_reducible apply State.loopFlags_kept
      | with_reducible apply State.modLoop_kept
      | with_reducible apply State.setTarget_kept
      | with_reducible apply State.loopRefuse_kept
      | with_reducible apply kept_ite
      | with_reducible apply kept_ite_fst)

theorem State.genWrite_kept {a0 : State} (s : State) (g off : Nat) (m v : Word)
    (hk0 : Kept a0 s) : Kept a0 (State.genWrite s g off m v).1 := by
  unfold State.genWrite
  try dsimp only
  repeat' (first
      | with_reducible assumption
      | intro _
      | dsimp only
      | with_reducible apply State.rset_kept
      | with_reducible apply State.setGen_kept
      | with_reducible apply State.rcount_kept
      | with_reducible apply State.rbitSet_kept
      | with_reducible apply kept_ite
      | with_reducible apply kept_ite_fst)

theorem State.probeWrite_kept {a0 : State} (s : State) (p off : Nat) (m v : Word)
    (hk0 : Kept a0 s) : Kept a0 (State.probeWrite s p off m v).1 := by
  unfold State.probeWrite
  try dsimp only
  repeat' (first
      | with_reducible assumption
      | intro _
      | dsimp only
      | with_reducible apply State.rset_kept
      | with_reducible apply State.rfldSet_kept
      | with_reducible apply State.setProbe_kept
      | with_reducible apply State.rbitSet_kept
      | with_reducible apply State.rcount_kept
      | with_reducible apply kept_ite
      | with_reducible apply kept_ite_fst)

theorem State.rxMove_kept {a0 : State} (s : State) (p st : Nat)
    (hk0 : Kept a0 s) : Kept a0 (State.rxMove s p st) := by
  unfold State.rxMove
  try dsimp only
  repeat' (first
      | with_reducible assumption
      | intro _
      | simp only [kept_mk_iff]
      | with_reducible apply State.rfldSet_kept
      | with_reducible apply State.setSpt_kept)

theorem State.rxLost_kept {a0 : State} (s : State) (p : Nat)
    (hk0 : Kept a0 s) : Kept a0 (State.rxLost s p) := by
  unfold State.rxLost
  try dsimp only
  repeat' (first
      | with_reducible assumption
      | intro _
      | simp only [kept_mk_iff]
      | with_reducible apply State.rxMove_kept
      | with_reducible apply State.rbitSet_kept
      | with_reducible apply State.rcount_kept
      | with_reducible apply kept_ite)

theorem State.rxPartial_kept {a0 : State} (s : State) (p : Nat)
    (hk0 : Kept a0 s) : Kept a0 (State.rxPartial s p) := by
  unfold State.rxPartial
  try dsimp only
  repeat' (first
      | with_reducible assumption
      | intro _
      | simp only [kept_mk_iff]
      | with_reducible apply State.rcount_kept
      | with_reducible apply State.setSpt_kept)

theorem State.rxDiscard_kept {a0 : State} (s : State) (p : Nat)
    (hk0 : Kept a0 s) : Kept a0 (State.rxDiscard s p) := by
  unfold State.rxDiscard
  try dsimp only
  repeat' (first
      | with_reducible assumption
      | intro _
      | simp only [kept_mk_iff]
      | with_reducible apply State.rfldSet_kept
      | with_reducible apply State.rxMove_kept
      | with_reducible apply State.rxLost_kept
      | with_reducible apply State.rcount_kept
      | with_reducible apply kept_ite)

theorem State.rxAccept_kept {a0 : State} (s : State) (p seq split : Nat) (samples : List Word)
    (hk0 : Kept a0 s) : Kept a0 (State.rxAccept s p seq split samples) := by
  unfold State.rxAccept
  try dsimp only
  repeat' (first
      | with_reducible assumption
      | intro _
      | simp only [kept_mk_iff]
      | with_reducible apply State.rset_kept
      | with_reducible apply State.rfldSet_kept
      | with_reducible apply State.setSpt_kept
      | with_reducible apply State.rxMove_kept
      | with_reducible apply State.rbitSet_kept)

theorem State.sptRefuse_kept {a0 : State} (s : State) (p : Nat)
    (hk0 : Kept a0 s) : Kept a0 (State.sptRefuse s p).1 := by
  unfold State.sptRefuse
  try dsimp only
  repeat' (first
      | with_reducible assumption
      | intro _
      | simp only [kept_mk_iff]
      | with_reducible apply State.rbitSet_kept)

theorem State.sptWrite_kept {a0 : State} (s : State) (p off : Nat) (m v : Word)
    (hk0 : Kept a0 s) : Kept a0 (State.sptWrite s p off m v).1 := by
  unfold State.sptWrite
  try dsimp only
  repeat' (first
      | with_reducible assumption
      | intro _
      | dsimp only
      | with_reducible apply State.rset_kept
      | with_reducible apply State.rbitSet_kept
      | with_reducible apply State.sptRefuse_kept
      | with_reducible apply State.setSpt_kept
      | with_reducible apply State.rxMove_kept
      | with_reducible apply kept_ite
      | with_reducible apply kept_ite_fst
      | with_reducible apply kept_each
      | with_reducible apply kept_foldl
      | with_reducible apply kept_foldl_fst
      | dsimp only
      | split)

theorem State.carrier_kept {a0 : State} (s : State) (c : Nat)
    (hk0 : Kept a0 s) : Kept a0 (State.carrier s c) := by
  unfold State.carrier
  try dsimp only
  repeat' (first
      | with_reducible assumption
      | intro _
      | simp only [kept_mk_iff]
      | with_reducible apply State.rbitSet_kept
      | with_reducible apply State.setPwm_kept
      | with_reducible apply State.rfldSet_kept
      | with_reducible apply State.hold_kept
      | with_reducible apply State.pwmIdle_kept
      | with_reducible apply kept_ite
      | with_reducible apply kept_ite_fst
      | with_reducible apply kept_each
      | with_reducible apply kept_foldl
      | with_reducible apply kept_foldl_fst
      | dsimp only
      | split)

theorem State.carrierComp_kept {a0 : State} (s : State) (k : Nat)
    (hk0 : Kept a0 s) : Kept a0 (State.carrierComp s k) := by
  unfold State.carrierComp
  try dsimp only
  repeat' (first
      | with_reducible assumption
      | intro _
      | simp only [kept_mk_iff]
      | with_reducible apply State.rbitSet_kept
      | with_reducible apply State.setPwm_kept)

theorem State.tripEffect_kept {a0 : State} (s : State) (c : Nat)
    (hk0 : Kept a0 s) : Kept a0 (State.tripEffect s c) := by
  unfold State.tripEffect
  try dsimp only
  repeat' (first
      | with_reducible assumption
      | intro _
      | simp only [kept_mk_iff]
      | with_reducible apply State.rbitSet_kept
      | with_reducible apply State.setPwm_kept
      | with_reducible apply kept_ite)

theorem State.tripClear_kept {a0 : State} (s : State) (v : Word)
    (hk0 : Kept a0 s) : Kept a0 (State.tripClear s v) := by
  unfold State.tripClear
  try dsimp only
  repeat' (first
      | with_reducible assumption
      | intro _
      | simp only [kept_mk_iff]
      | with_reducible apply State.rbitSet_kept
      | with_reducible apply State.each_kept
      | with_reducible apply kept_ite
      | with_reducible apply kept_ite_fst
      | with_reducible apply kept_each)

theorem State.pwmWrite_kept {a0 : State} (s : State) (c off : Nat) (m v : Word)
    (hk0 : Kept a0 s) : Kept a0 (State.pwmWrite s c off m v).1 := by
  unfold State.pwmWrite
  try dsimp only
  repeat' (first
      | with_reducible assumption
      | intro _
      | dsimp only
      | with_reducible apply State.rset_kept
      | with_reducible apply State.rbitSet_kept
      | with_reducible apply kept_ite
      | with_reducible apply kept_ite_fst)

theorem State.pwmResetSafe_kept {a0 : State} (s : State)
    (hk0 : Kept a0 s) : Kept a0 (State.pwmResetSafe s) := by
  unfold State.pwmResetSafe
  try dsimp only
  repeat' (first
      | with_reducible assumption
      | intro _
      | simp only [kept_mk_iff])

theorem State.outputsService_kept {a0 : State} (s : State)
    (hk0 : Kept a0 s) : Kept a0 (State.outputsService s) := by
  unfold State.outputsService
  try dsimp only
  repeat' (first
      | with_reducible assumption
      | intro _
      | simp only [kept_mk_iff]
      | with_reducible apply State.rset_kept
      | with_reducible apply State.setPwm_kept
      | with_reducible apply State.each_kept
      | with_reducible apply kept_ite
      | with_reducible apply kept_ite_fst
      | with_reducible apply kept_each)

theorem State.setModeReq_kept {a0 : State} (s : State) (n m : Nat)
    (hk0 : Kept a0 s) : Kept a0 (State.setModeReq s n m) := by
  unfold State.setModeReq
  try dsimp only
  repeat' (first
      | with_reducible assumption
      | intro _
      | simp only [kept_mk_iff]
      | with_reducible apply State.rfldSet_kept
      | with_reducible apply State.modLoop_kept)

theorem State.setMan_kept {a0 : State} (s : State) (n : Nat) (v : Word)
    (hk0 : Kept a0 s) : Kept a0 (State.setMan s n v) := by
  unfold State.setMan
  try dsimp only
  repeat' (first
      | with_reducible assumption
      | intro _
      | simp only [kept_mk_iff]
      | with_reducible apply State.rset_kept
      | with_reducible apply State.modLoop_kept)

theorem State.servoMode_kept {a0 : State} (s : State) (st : Nat)
    (hk0 : Kept a0 s) : Kept a0 (State.servoMode s st) := by
  unfold State.servoMode
  try dsimp only
  repeat' (first
      | with_reducible assumption
      | intro _
      | simp only [kept_mk_iff]
      | with_reducible apply State.setMan_kept
      | with_reducible apply State.setModeReq_kept
      | with_reducible apply kept_ite
      | with_reducible apply kept_ite_fst
      | with_reducible apply kept_each
      | with_reducible apply kept_foldl
      | with_reducible apply kept_foldl_fst
      | dsimp only
      | split)

theorem State.setTime_kept {a0 : State} (s : State) (new : Nat)
    (hk0 : Kept a0 s) : Kept a0 (State.setTime s new) := by
  unfold State.setTime
  try dsimp only
  repeat' (first
      | with_reducible assumption
      | intro _
      | simp only [kept_mk_iff]
      | with_reducible apply State.rfldSet_kept
      | with_reducible apply State.servoMode_kept
      | with_reducible apply State.event_kept
      | with_reducible apply kept_ite)

theorem State.stepTime_kept {a0 : State} (s : State) (o : Int)
    (hk0 : Kept a0 s) : Kept a0 (State.stepTime s o) := by
  unfold State.stepTime
  try dsimp only
  repeat' (first
      | with_reducible assumption
      | intro _
      | simp only [kept_mk_iff]
      | with_reducible apply State.rset_kept
      | with_reducible apply State.rcount_kept
      | with_reducible apply State.event_kept
      | with_reducible apply State.rbitSet_kept)

theorem State.jumpRefused_kept {a0 : State} (s : State)
    (hk0 : Kept a0 s) : Kept a0 (State.jumpRefused s) := by
  unfold State.jumpRefused
  try dsimp only
  repeat' (first
      | with_reducible assumption
      | intro _
      | simp only [kept_mk_iff]
      | with_reducible apply State.rcount_kept
      | with_reducible apply State.setTime_kept
      | with_reducible apply State.rbitSet_kept)

theorem State.showOffset_kept {a0 : State} (s : State) (o : Int) (t2 : Nat)
    (hk0 : Kept a0 s) : Kept a0 (State.showOffset s o t2) := by
  unfold State.showOffset
  try dsimp only
  repeat' (first
      | with_reducible assumption
      | intro _
      | simp only [kept_mk_iff]
      | with_reducible apply State.rset_kept
      | with_reducible apply kept_ite)

theorem State.qualified_kept {a0 : State} (s : State) (o : Int) (t2 : Nat)
    (hk0 : Kept a0 s) : Kept a0 (State.qualified s o t2) := by
  unfold State.qualified
  try dsimp only
  repeat' (first
      | with_reducible assumption
      | intro _
      | simp only [kept_mk_iff]
      | with_reducible apply State.rbitSet_kept
      | with_reducible apply State.setTime_kept
      | with_reducible apply State.stepTime_kept
      | with_reducible apply State.jumpRefused_kept
      | with_reducible apply State.showOffset_kept
      | with_reducible apply kept_ite)

theorem State.setPort_kept {a0 : State} (s : State) (k : Nat) (p : NetPort)
    (hk0 : Kept a0 s) : Kept a0 (State.setPort s k p) := by
  unfold State.setPort
  try dsimp only
  repeat' (first
      | with_reducible assumption
      | intro _
      | simp only [kept_mk_iff]
      | with_reducible apply kept_ite)

theorem State.modPort_kept {a0 : State} (s : State) (k : Nat) (f : NetPort → NetPort)
    (hk0 : Kept a0 s) : Kept a0 (State.modPort s k f) := by
  unfold State.modPort
  try dsimp only
  repeat' (first
      | with_reducible assumption
      | intro _
      | simp only [kept_mk_iff]
      | with_reducible apply State.setPort_kept)

theorem State.rxFrame_kept {a0 : State} (s : State) (k : Nat)
    (hk0 : Kept a0 s) : Kept a0 (State.rxFrame s k) := by
  unfold State.rxFrame
  try dsimp only
  repeat' (first
      | with_reducible assumption
      | intro _
      | simp only [kept_mk_iff]
      | with_reducible apply State.rcount_kept)

theorem State.discard_kept {a0 : State} (s : State) (k : Nat)
    (hk0 : Kept a0 s) : Kept a0 (State.discard s k) := by
  unfold State.discard
  try dsimp only
  repeat' (first
      | with_reducible assumption
      | intro _
      | simp only [kept_mk_iff]
      | with_reducible apply State.rcount_kept)

theorem State.bmca_kept {a0 : State} (s : State)
    (hk0 : Kept a0 s) : Kept a0 (State.bmca s) := by
  unfold State.bmca
  try dsimp only
  repeat' (first
      | with_reducible assumption
      | intro _
      | simp only [kept_mk_iff]
      | with_reducible apply State.rbitSet_kept
      | with_reducible apply State.rfldSet_kept
      | with_reducible apply State.setTime_kept
      | with_reducible apply State.rset_kept
      | with_reducible apply State.each_kept
      | with_reducible apply kept_ite
      | with_reducible apply kept_ite_fst
      | with_reducible apply kept_each)

theorem State.linkDown_kept {a0 : State} (s : State) (k : Nat)
    (hk0 : Kept a0 s) : Kept a0 (State.linkDown s k) := by
  unfold State.linkDown
  try dsimp only
  repeat' (first
      | with_reducible assumption
      | intro _
      | simp only [kept_mk_iff]
      | with_reducible apply State.bmca_kept
      | with_reducible apply State.rbitSet_kept
      | with_reducible apply State.rfldSet_kept
      | with_reducible apply State.modPort_kept)

theorem State.ptpRx_kept {a0 : State} (s : State) (k : Nat) (f : State → State) (hf : ∀ u0, Kept a0 u0 → Kept a0 (f u0))
    (hk0 : Kept a0 s) : Kept a0 (State.ptpRx s k f) := by
  unfold State.ptpRx
  try dsimp only
  repeat' (first
      | with_reducible assumption
      | intro _
      | simp only [kept_mk_iff]
      | with_reducible apply hf
      | with_reducible apply State.rxFrame_kept
      | with_reducible apply State.discard_kept
      | with_reducible apply kept_ite)

theorem State.ptpSend_kept {a0 : State} (s : State) (k kind seq : Nat) (corr : Int) (stamp : Nat) (data : List Nat)
    (hk0 : Kept a0 s) : Kept a0 (State.ptpSend s k kind seq corr stamp data) := by
  unfold State.ptpSend
  try dsimp only
  repeat' (first
      | with_reducible assumption
      | intro _
      | simp only [kept_mk_iff]
      | with_reducible apply State.rcount_kept
      | with_reducible apply State.out_kept
      | with_reducible apply kept_ite)

theorem State.relaySync_kept {a0 : State} (s : State) (k t2 origin : Nat) (corr rate : Int)
    (hk0 : Kept a0 s) : Kept a0 (State.relaySync s k t2 origin corr rate) := by
  unfold State.relaySync
  try dsimp only
  repeat' (first
      | with_reducible assumption
      | intro _
      | simp only [kept_mk_iff]
      | with_reducible apply State.modPort_kept
      | with_reducible apply State.ptpSend_kept
      | with_reducible apply kept_ite)

theorem State.syncDone_kept {a0 : State} (s : State) (k t2 origin : Nat) (corr rate : Int)
    (hk0 : Kept a0 s) : Kept a0 (State.syncDone s k t2 origin corr rate) := by
  unfold State.syncDone
  try dsimp only
  repeat' (first
      | with_reducible assumption
      | intro _
      | simp only [kept_mk_iff]
      | with_reducible apply State.relaySync_kept
      | with_reducible apply State.qualified_kept
      | with_reducible apply kept_ite)

theorem State.pdelayLost_kept {a0 : State} (s : State) (k : Nat)
    (hk0 : Kept a0 s) : Kept a0 (State.pdelayLost s k) := by
  unfold State.pdelayLost
  try dsimp only
  repeat' (first
      | with_reducible assumption
      | intro _
      | simp only [kept_mk_iff]
      | with_reducible apply State.bmca_kept
      | with_reducible apply State.modPort_kept
      | with_reducible apply State.rbitSet_kept
      | with_reducible apply kept_ite)

end Sys2Proof.Machine
end

