-- ==== Sys2Proof/Laws/KeptDevice.lean ====
section
/-!
SUPPORT. Kept: one lemma per operation of resets, Relay Links, major cycles, dumps and register access.
-/

namespace Sys2Proof.Machine

theorem State.modBoot_kept {a0 : State} (s : State) (f : Boot → Boot)
    (hk0 : Kept a0 s) : Kept a0 (State.modBoot s f) := by
  unfold State.modBoot
  try dsimp only
  repeat' (first
      | with_reducible assumption
      | intro _
      | simp only [kept_mk_iff])

theorem State.modPins_kept {a0 : State} (s : State) (f : Pins → Pins)
    (hk0 : Kept a0 s) : Kept a0 (State.modPins s f) := by
  unfold State.modPins
  try dsimp only
  repeat' (first
      | with_reducible assumption
      | intro _
      | simp only [kept_mk_iff])

theorem State.bootStep_kept {a0 : State} (s : State) (n : Nat)
    (hk0 : Kept a0 s) : Kept a0 (State.bootStep s n) := by
  unfold State.bootStep
  try dsimp only
  repeat' (first
      | with_reducible assumption
      | intro _
      | simp only [kept_mk_iff]
      | with_reducible apply State.rfldSet_kept
      | with_reducible apply State.event_kept)

theorem State.bootFail_kept {a0 : State} (s : State) (code detail : Nat)
    (hk0 : Kept a0 s) : Kept a0 (State.bootFail s code detail) := by
  unfold State.bootFail
  try dsimp only
  repeat' (first
      | with_reducible assumption
      | intro _
      | simp only [kept_mk_iff]
      | with_reducible apply State.modPins_kept
      | with_reducible apply State.rfldSet_kept
      | with_reducible apply State.modBoot_kept
      | with_reducible apply State.bootStep_kept)

theorem State.enterEntry_kept {a0 : State} (s : State) (i : Nat)
    (hk0 : Kept a0 s) : Kept a0 (State.enterEntry s i) := by
  unfold State.enterEntry
  try dsimp only
  repeat' (first
      | with_reducible assumption
      | intro _
      | simp only [kept_mk_iff]
      | with_reducible apply State.modBoot_kept
      | with_reducible apply State.rfldSet_kept
      | with_reducible apply State.bootFail_kept
      | with_reducible apply kept_ite)

theorem State.nextEntry_kept {a0 : State} (s : State)
    (hk0 : Kept a0 s) : Kept a0 (State.nextEntry s) := by
  unfold State.nextEntry
  try dsimp only
  repeat' (first
      | with_reducible assumption
      | intro _
      | simp only [kept_mk_iff]
      | with_reducible apply State.enterEntry_kept)

theorem State.bootLinks_kept {a0 : State} (s : State)
    (hk0 : Kept a0 s) : Kept a0 (State.bootLinks s) := by
  unfold State.bootLinks
  try dsimp only
  repeat' (first
      | with_reducible assumption
      | intro _
      | simp only [kept_mk_iff]
      | with_reducible apply State.nextEntry_kept
      | with_reducible apply kept_ite
      | with_reducible apply kept_ite_fst
      | with_reducible apply kept_each
      | with_reducible apply kept_foldl
      | with_reducible apply kept_foldl_fst
      | dsimp only
      | split)

theorem State.strapRole_kept {a0 : State} (s : State)
    (hk0 : Kept a0 s) : Kept a0 (State.strapRole s) := by
  unfold State.strapRole
  try dsimp only
  repeat' (first
      | with_reducible assumption
      | intro _
      | simp only [kept_mk_iff]
      | with_reducible apply State.rfldSet_kept)

theorem State.deviceReset_kept {a0 : State} (s : State) (held : Bool) (h : Kept a0 s) :
    Kept a0 (s.deviceReset held) :=
  State.bootStep_kept _ _ (State.strapRole_kept _ (State.rcount_kept _ _ _ _ _
    (State.rbitSet_kept _ _ _ _ (State.rfldSet_kept _ _ _ _ _ (State.rfldSet_kept _ _ _ _ _
      (State.modPins_kept _ _ (State.pwmResetSafe_kept _
        ⟨h.pending, fun _ => rfl, h.tap, h.outs⟩)))))))

theorem State.powerOff_kept {a0 : State} (s : State) (h : Kept a0 s) : Kept a0 s.powerOff :=
  ⟨h.pending, fun _ => rfl, h.tap, h.outs⟩

theorem State.freshTime_kept {a0 : State} (s : State)
    (hk0 : Kept a0 s) : Kept a0 (State.freshTime s) := by
  unfold State.freshTime
  try dsimp only
  repeat' (first
      | with_reducible assumption
      | intro _
      | simp only [kept_mk_iff]
      | with_reducible apply State.rfldSet_kept)

theorem State.powerOn_kept {a0 : State} (s : State) (role : Nat) (dual : Bool) (h : Kept a0 s) :
    Kept a0 (s.powerOn role dual) :=
  State.bootStep_kept _ _ (State.rfldSet_kept _ _ _ _ _
    (State.strapRole_kept _ (kept_of_eq h rfl rfl rfl rfl)))

theorem State.powerCycle_kept {a0 : State} (s : State)
    (hk0 : Kept a0 s) : Kept a0 (State.powerCycle s) := by
  unfold State.powerCycle
  try dsimp only
  repeat' (first
      | with_reducible assumption
      | intro _
      | simp only [kept_mk_iff]
      | with_reducible apply State.modPins_kept
      | with_reducible apply State.rbitSet_kept
      | with_reducible apply State.out_kept
      | with_reducible apply State.rfldSet_kept
      | with_reducible apply State.modLoop_kept
      | with_reducible apply State.each_kept
      | with_reducible apply kept_ite
      | with_reducible apply kept_ite_fst
      | with_reducible apply kept_each)

theorem State.unorder_kept {a0 : State} (s : State) (o : Bool × Nat)
    (hk0 : Kept a0 s) : Kept a0 (State.unorder s o) := by
  unfold State.unorder
  try dsimp only
  repeat' (first
      | with_reducible assumption
      | intro _
      | simp only [kept_mk_iff]
      | with_reducible apply State.setHealth_kept)

theorem State.setLinkState_kept {a0 : State} (s : State) (k st : Nat)
    (hk0 : Kept a0 s) : Kept a0 (State.setLinkState s k st) := by
  unfold State.setLinkState
  try dsimp only
  repeat' (first
      | with_reducible assumption
      | intro _
      | simp only [kept_mk_iff]
      | with_reducible apply State.rfldSet_kept
      | with_reducible apply State.event_kept)

theorem State.pathCheck_kept {a0 : State} (s : State)
    (hk0 : Kept a0 s) : Kept a0 (State.pathCheck s) := by
  unfold State.pathCheck
  try dsimp only
  repeat' (first
      | with_reducible assumption
      | intro _
      | simp only [kept_mk_iff]
      | with_reducible apply State.setTime_kept
      | with_reducible apply State.servoMode_kept
      | with_reducible apply kept_ite)

theorem State.copyReply_kept {a0 : State} (s : State) (t c err : Nat)
    (hk0 : Kept a0 s) : Kept a0 (State.copyReply s t c err) := by
  unfold State.copyReply
  try dsimp only
  repeat' (first
      | with_reducible assumption
      | intro _
      | simp only [kept_mk_iff]
      | with_reducible apply State.copyEnd_kept
      | with_reducible apply State.copyBlock_kept
      | with_reducible apply State.modCopy_kept
      | with_reducible apply kept_ite
      | with_reducible apply kept_ite_fst
      | with_reducible apply kept_each
      | with_reducible apply kept_foldl
      | with_reducible apply kept_foldl_fst
      | dsimp only
      | split)

theorem State.pfReply_kept {a0 : State} (s : State) (c id err cls : Nat)
    (hk0 : Kept a0 s) : Kept a0 (State.pfReply s c id err cls) := by
  unfold State.pfReply
  try dsimp only
  repeat' (first
      | with_reducible assumption
      | intro _
      | simp only [kept_mk_iff]
      | with_reducible apply State.faultDsp_kept
      | with_reducible apply State.modPf_kept
      | with_reducible apply State.dropPf_kept
      | with_reducible apply State.pfBlock_kept
      | with_reducible apply kept_ite
      | with_reducible apply kept_ite_fst
      | with_reducible apply kept_each
      | with_reducible apply kept_foldl
      | with_reducible apply kept_foldl_fst
      | dsimp only
      | split)

theorem State.failRequest_kept {a0 : State} (s : State) (o : Outst) (code : Nat)
    (hk0 : Kept a0 s) : Kept a0 (State.failRequest s o code) := by
  unfold State.failRequest
  try dsimp only
  repeat' (first
      | with_reducible assumption
      | intro _
      | simp only [kept_mk_iff]
      | with_reducible apply State.copyReply_kept
      | with_reducible apply State.hold_kept
      | with_reducible apply State.pfReply_kept
      | with_reducible apply State.faultTile_kept
      | with_reducible apply State.modCtx_kept
      | with_reducible apply kept_ite
      | with_reducible apply kept_ite_fst
      | with_reducible apply kept_each
      | with_reducible apply kept_foldl
      | with_reducible apply kept_foldl_fst
      | dsimp only
      | split)

theorem State.readReply_kept {a0 : State} (s : State) (o : Outst) (data : List Byte) (poison : Bool)
    (hk0 : Kept a0 s) : Kept a0 (State.readReply s o data poison) := by
  unfold State.readReply
  try dsimp only
  repeat' (first
      | with_reducible assumption
      | intro _
      | simp only [kept_mk_iff]
      | with_reducible apply State.pfReply_kept
      | with_reducible apply State.copyReply_kept
      | with_reducible apply State.writeMarked_kept
      | with_reducible apply kept_ite
      | with_reducible apply kept_ite_fst
      | with_reducible apply kept_each
      | with_reducible apply kept_foldl
      | with_reducible apply kept_foldl_fst
      | dsimp only
      | split)

theorem State.doneReply_kept {a0 : State} (s : State) (o : Outst)
    (hk0 : Kept a0 s) : Kept a0 (State.doneReply s o) := by
  unfold State.doneReply
  try dsimp only
  repeat' (first
      | with_reducible assumption
      | intro _
      | simp only [kept_mk_iff]
      | with_reducible apply State.copyReply_kept
      | with_reducible apply State.hold_kept
      | with_reducible apply State.pfReply_kept
      | with_reducible apply State.modCtx_kept
      | with_reducible apply kept_ite
      | with_reducible apply kept_ite_fst
      | with_reducible apply kept_each
      | with_reducible apply kept_foldl
      | with_reducible apply kept_foldl_fst
      | dsimp only
      | split)

theorem State.reply_kept {a0 : State} (s : State) (k : Nat) (p : Pkt) (f : State → Outst → State) (hf : ∀ u0 u1, Kept a0 u0 → Kept a0 (f u0 u1))
    (hk0 : Kept a0 s) : Kept a0 (State.reply s k p f) := by
  unfold State.reply
  try dsimp only
  repeat' (first
      | with_reducible assumption
      | intro _
      | simp only [kept_mk_iff]
      | with_reducible apply hf
      | with_reducible apply State.rcount_kept
      | with_reducible apply kept_ite
      | with_reducible apply kept_ite_fst
      | with_reducible apply kept_each
      | with_reducible apply kept_foldl
      | with_reducible apply kept_foldl_fst
      | dsimp only
      | split)

theorem State.linkReset_kept {a0 : State} (s : State) (k : Nat)
    (hk0 : Kept a0 s) : Kept a0 (State.linkReset s k) := by
  unfold State.linkReset
  try dsimp only
  repeat' (first
      | with_reducible assumption
      | intro _
      | simp only [kept_mk_iff]
      | with_reducible apply State.setLinkState_kept
      | with_reducible apply State.failRequest_kept
      | with_reducible apply State.pathCheck_kept
      | with_reducible apply State.each_kept
      | with_reducible apply State.setLnk_kept
      | with_reducible apply kept_ite
      | with_reducible apply kept_ite_fst
      | with_reducible apply kept_each)

theorem State.trainFail_kept {a0 : State} (s : State) (k code : Nat)
    (hk0 : Kept a0 s) : Kept a0 (State.trainFail s k code) := by
  unfold State.trainFail
  try dsimp only
  repeat' (first
      | with_reducible assumption
      | intro _
      | simp only [kept_mk_iff]
      | with_reducible apply State.bootLinks_kept
      | with_reducible apply State.rfldSet_kept
      | with_reducible apply State.setLinkState_kept
      | with_reducible apply State.rcount_kept)

theorem State.linkTaken_kept {a0 : State} (s : State) (k : Nat)
    (hk0 : Kept a0 s) : Kept a0 (State.linkTaken s k) := by
  unfold State.linkTaken
  try dsimp only
  repeat' (first
      | with_reducible assumption
      | intro _
      | simp only [kept_mk_iff]
      | with_reducible apply State.sendLink_kept
      | with_reducible apply State.pumpAll_kept
      | with_reducible apply State.setLnk_kept
      | with_reducible apply kept_ite)

theorem State.errRsp_kept {a0 : State} (s : State) (p : Pkt) (code : Nat)
    (hk0 : Kept a0 s) : Kept a0 (State.errRsp s p code) := by
  unfold State.errRsp
  try dsimp only
  repeat' (first
      | with_reducible assumption
      | intro _
      | simp only [kept_mk_iff]
      | with_reducible apply State.sendBack_kept)

theorem State.rsp_kept {a0 : State} (s : State) (p : Pkt) (ty len : Nat) (data : List Byte) (poison : Bool)
    (hk0 : Kept a0 s) : Kept a0 (State.rsp s p ty len data poison) := by
  unfold State.rsp
  try dsimp only
  repeat' (first
      | with_reducible assumption
      | intro _
      | simp only [kept_mk_iff]
      | with_reducible apply State.sendBack_kept)

theorem State.forward_kept {a0 : State} (s : State) (p : Pkt)
    (hk0 : Kept a0 s) : Kept a0 (State.forward s p) := by
  unfold State.forward
  try dsimp only
  repeat' (first
      | with_reducible assumption
      | intro _
      | simp only [kept_mk_iff]
      | with_reducible apply State.queuePkt_kept
      | with_reducible apply State.errRsp_kept
      | with_reducible apply State.pumpAll_kept
      | with_reducible apply State.freeBuf_kept
      | with_reducible apply kept_ite
      | with_reducible apply kept_ite_fst
      | with_reducible apply kept_each
      | with_reducible apply kept_foldl
      | with_reducible apply kept_foldl_fst
      | dsimp only
      | split)

theorem State.arrive_kept {a0 : State} (s : State) (k : Nat) (p : Pkt) (f : State → State) (hf : ∀ u0, Kept a0 u0 → Kept a0 (f u0))
    (hk0 : Kept a0 s) : Kept a0 (State.arrive s k p f) := by
  unfold State.arrive
  try dsimp only
  repeat' (first
      | with_reducible assumption
      | intro _
      | simp only [kept_mk_iff]
      | with_reducible apply hf
      | with_reducible apply State.sendLink_kept
      | with_reducible apply State.setLnk_kept
      | with_reducible apply State.forward_kept
      | with_reducible apply kept_ite)

theorem State.remoteAccess_kept {a0 : State} (s : State) (p : Pkt) (n : Nat) (write : Bool) (f : State → State) (hf : ∀ u0, Kept a0 u0 → Kept a0 (f u0))
    (hk0 : Kept a0 s) : Kept a0 (State.remoteAccess s p n write f) := by
  unfold State.remoteAccess
  try dsimp only
  repeat' (first
      | with_reducible assumption
      | intro _
      | simp only [kept_mk_iff]
      | with_reducible apply hf
      | with_reducible apply State.errRsp_kept
      | with_reducible apply kept_ite
      | with_reducible apply kept_ite_fst
      | with_reducible apply kept_each
      | with_reducible apply kept_foldl
      | with_reducible apply kept_foldl_fst
      | dsimp only
      | split)

theorem State.tableWrite_kept {a0 : State} (s : State) (i w : Nat) (v : Word)
    (hk0 : Kept a0 s) : Kept a0 (State.tableWrite s i w v).1 := by
  unfold State.tableWrite
  try dsimp only
  repeat' (first
      | with_reducible assumption
      | intro _
      | dsimp only
      | with_reducible apply State.rset_kept
      | with_reducible apply State.rbitSet_kept
      | with_reducible apply kept_ite
      | with_reducible apply kept_ite_fst)

theorem State.release_kept {a0 : State} (s : State) (f : LookEntry → Bool)
    (hk0 : Kept a0 s) : Kept a0 (State.release s f) := by
  unfold State.release
  try dsimp only
  repeat' (first
      | with_reducible assumption
      | intro _
      | simp only [kept_mk_iff]
      | with_reducible apply State.settleAll_kept)

theorem State.reread_kept {a0 : State} (s : State) (t : Nat) (next : Bool)
    (hk0 : Kept a0 s) : Kept a0 (State.reread s t next) := by
  unfold State.reread
  try dsimp only
  repeat' (first
      | with_reducible assumption
      | intro _
      | simp only [kept_mk_iff]
      | with_reducible apply State.release_kept
      | with_reducible apply kept_ite)

theorem State.arm_kept {a0 : State} (s : State) (host : Bool)
    (hk0 : Kept a0 s) : Kept a0 (State.arm s host).1 := by
  unfold State.arm
  try dsimp only
  repeat' (first
      | with_reducible assumption
      | intro _
      | simp only [kept_mk_iff]
      | with_reducible apply State.reread_kept
      | with_reducible apply State.rbitSet_kept
      | with_reducible apply kept_ite
      | with_reducible apply kept_ite_fst
      | with_reducible apply kept_each
      | with_reducible apply kept_foldl
      | with_reducible apply kept_foldl_fst
      | dsimp only
      | split)

theorem State.disarm_kept {a0 : State} (s : State)
    (hk0 : Kept a0 s) : Kept a0 (State.disarm s) := by
  unfold State.disarm
  try dsimp only
  repeat' (first
      | with_reducible assumption
      | intro _
      | simp only [kept_mk_iff]
      | with_reducible apply State.reread_kept
      | with_reducible apply State.rbitSet_kept
      | with_reducible apply kept_ite
      | with_reducible apply kept_ite_fst
      | with_reducible apply kept_each
      | with_reducible apply kept_foldl
      | with_reducible apply kept_foldl_fst
      | dsimp only
      | split)

theorem State.firstBoundary_kept {a0 : State} (s : State)
    (hk0 : Kept a0 s) : Kept a0 (State.firstBoundary s) := by
  unfold State.firstBoundary
  try dsimp only
  repeat' (first
      | with_reducible assumption
      | intro _
      | simp only [kept_mk_iff]
      | with_reducible apply State.rset_kept
      | with_reducible apply kept_ite)

theorem State.snapshot_kept {a0 : State} (s : State)
    (hk0 : Kept a0 s) : Kept a0 (State.snapshot s) := by
  unfold State.snapshot
  try dsimp only
  repeat' (first
      | with_reducible assumption
      | intro _
      | simp only [kept_mk_iff]
      | with_reducible apply State.each_kept
      | with_reducible apply State.mwrite_kept
      | with_reducible apply kept_ite
      | with_reducible apply kept_ite_fst
      | with_reducible apply kept_each)

theorem State.holdRefused_kept {a0 : State} (s : State) (cause : Nat)
    (hk0 : Kept a0 s) : Kept a0 (State.holdRefused s cause) := by
  unfold State.holdRefused
  try dsimp only
  repeat' (first
      | with_reducible assumption
      | intro _
      | simp only [kept_mk_iff]
      | with_reducible apply State.rfldSet_kept
      | with_reducible apply State.rbitSet_kept)

theorem State.holdAccept_kept {a0 : State} (s : State) (casc : Bool)
    (hk0 : Kept a0 s) : Kept a0 (State.holdAccept s casc) := by
  unfold State.holdAccept
  try dsimp only
  repeat' (first
      | with_reducible assumption
      | intro _
      | simp only [kept_mk_iff]
      | with_reducible apply State.rfldSet_kept
      | with_reducible apply State.rbitSet_kept)

theorem State.exitHold_kept {a0 : State} (s : State)
    (hk0 : Kept a0 s) : Kept a0 (State.exitHold s) := by
  unfold State.exitHold
  try dsimp only
  repeat' (first
      | with_reducible assumption
      | intro _
      | simp only [kept_mk_iff]
      | with_reducible apply State.rfldSet_kept)

theorem State.holdWrite_kept {a0 : State} (s : State) (v : Word)
    (hk0 : Kept a0 s) : Kept a0 (State.holdWrite s v).1 := by
  unfold State.holdWrite
  try dsimp only
  repeat' (first
      | with_reducible assumption
      | intro _
      | simp only [kept_mk_iff]
      | with_reducible apply State.rset_kept
      | with_reducible apply State.holdRefused_kept
      | with_reducible apply State.exitHold_kept
      | with_reducible apply State.holdAccept_kept
      | with_reducible apply kept_ite
      | with_reducible apply kept_ite_fst)

theorem State.holdBoundary_kept {a0 : State} (s : State) (b : Nat)
    (hk0 : Kept a0 s) : Kept a0 (State.holdBoundary s b) := by
  unfold State.holdBoundary
  try dsimp only
  repeat' (first
      | with_reducible assumption
      | intro _
      | simp only [kept_mk_iff]
      | with_reducible apply State.tilesDo_kept
      | with_reducible apply State.abandonTile_kept
      | with_reducible apply State.each_kept
      | with_reducible apply State.rcount_kept
      | with_reducible apply State.settleAll_kept
      | with_reducible apply kept_ite
      | with_reducible apply kept_ite_fst
      | with_reducible apply kept_each)

theorem State.linkOff_kept {a0 : State} (s : State) (k : Nat)
    (hk0 : Kept a0 s) : Kept a0 (State.linkOff s k) := by
  unfold State.linkOff
  try dsimp only
  repeat' (first
      | with_reducible assumption
      | intro _
      | simp only [kept_mk_iff]
      | with_reducible apply State.setLinkState_kept
      | with_reducible apply State.linkReset_kept)

theorem State.holdReached_kept {a0 : State} (s : State)
    (hk0 : Kept a0 s) : Kept a0 (State.holdReached s) := by
  unfold State.holdReached
  try dsimp only
  repeat' (first
      | with_reducible assumption
      | intro _
      | simp only [kept_mk_iff]
      | with_reducible apply State.setTime_kept
      | with_reducible apply State.linkDown_kept
      | with_reducible apply State.rwrap_kept
      | with_reducible apply State.exitHold_kept
      | with_reducible apply State.rfldSet_kept
      | with_reducible apply State.each_kept
      | with_reducible apply kept_ite
      | with_reducible apply kept_ite_fst
      | with_reducible apply kept_each)

theorem State.unusedHold_kept {a0 : State} (s : State)
    (hk0 : Kept a0 s) : Kept a0 (State.unusedHold s) := by
  unfold State.unusedHold
  try dsimp only
  repeat' (first
      | with_reducible assumption
      | intro _
      | simp only [kept_mk_iff]
      | with_reducible apply State.rbitSet_kept
      | with_reducible apply State.hold_kept
      | with_reducible apply State.tilesDo_kept
      | with_reducible apply State.each_kept
      | with_reducible apply State.modTile_kept
      | with_reducible apply kept_ite
      | with_reducible apply kept_ite_fst
      | with_reducible apply kept_each)

theorem State.sendAlign_kept {a0 : State} (s : State)
    (hk0 : Kept a0 s) : Kept a0 (State.sendAlign s) := by
  unfold State.sendAlign
  try dsimp only
  repeat' (first
      | with_reducible assumption
      | intro _
      | simp only [kept_mk_iff]
      | with_reducible apply State.sendCtl_kept
      | with_reducible apply State.each_kept
      | with_reducible apply kept_ite
      | with_reducible apply kept_ite_fst
      | with_reducible apply kept_each
      | with_reducible apply kept_foldl
      | with_reducible apply kept_foldl_fst
      | dsimp only
      | split)

theorem State.switchRange_kept {a0 : State} (s : State)
    (hk0 : Kept a0 s) : Kept a0 (State.switchRange s) := by
  unfold State.switchRange
  try dsimp only
  repeat' (first
      | with_reducible assumption
      | intro _
      | simp only [kept_mk_iff]
      | with_reducible apply State.rset_kept
      | with_reducible apply State.rbitSet_kept
      | with_reducible apply kept_ite)

theorem State.fabStart_kept {a0 : State} (s : State)
    (hk0 : Kept a0 s) : Kept a0 (State.fabStart s) := by
  unfold State.fabStart
  try dsimp only
  repeat' (first
      | with_reducible assumption
      | intro _
      | simp only [kept_mk_iff])

theorem State.enterService_kept {a0 : State} (s : State)
    (hk0 : Kept a0 s) : Kept a0 (State.enterService s) := by
  unfold State.enterService
  try dsimp only
  repeat' (first
      | with_reducible assumption
      | intro _
      | simp only [kept_mk_iff]
      | with_reducible apply State.setTokens_kept
      | with_reducible apply State.outputsService_kept
      | with_reducible apply State.bootStep_kept
      | with_reducible apply State.servoMode_kept
      | with_reducible apply State.rfldSet_kept
      | with_reducible apply State.wakeDue_kept
      | with_reducible apply State.fabStart_kept
      | with_reducible apply State.each_kept
      | with_reducible apply State.settleAll_kept
      | with_reducible apply kept_ite
      | with_reducible apply kept_ite_fst
      | with_reducible apply kept_each)

theorem State.returnService_kept {a0 : State} (s : State)
    (hk0 : Kept a0 s) : Kept a0 (State.returnService s) := by
  unfold State.returnService
  try dsimp only
  repeat' (first
      | with_reducible assumption
      | intro _
      | simp only [kept_mk_iff]
      | with_reducible apply State.rfldSet_kept
      | with_reducible apply State.each_kept
      | with_reducible apply State.settleAll_kept
      | with_reducible apply kept_ite
      | with_reducible apply kept_ite_fst
      | with_reducible apply kept_each)

theorem State.adoptAlign_kept {a0 : State} (s : State) (b : Nat)
    (hk0 : Kept a0 s) : Kept a0 (State.adoptAlign s b) := by
  unfold State.adoptAlign
  try dsimp only
  repeat' (first
      | with_reducible assumption
      | intro _
      | simp only [kept_mk_iff]
      | with_reducible apply State.rset_kept
      | with_reducible apply kept_ite
      | with_reducible apply kept_ite_fst
      | with_reducible apply kept_each
      | with_reducible apply kept_foldl
      | with_reducible apply kept_foldl_fst
      | dsimp only
      | split)

theorem State.boundSwitch_kept {a0 : State} (s : State) (b : Nat) (sw : Bool)
    (hk0 : Kept a0 s) : Kept a0 (State.boundSwitch s b sw) := by
  unfold State.boundSwitch
  try dsimp only
  repeat' (first
      | with_reducible assumption
      | intro _
      | simp only [kept_mk_iff]
      | with_reducible apply State.switchRange_kept
      | with_reducible apply State.reread_kept
      | with_reducible apply kept_ite)

theorem State.passOver_kept {a0 : State} (s : State) (nb b : Nat)
    (hk0 : Kept a0 s) : Kept a0 (State.passOver s nb b) := by
  unfold State.passOver
  try dsimp only
  repeat' (first
      | with_reducible assumption
      | intro _
      | simp only [kept_mk_iff]
      | with_reducible apply State.release_kept
      | with_reducible apply kept_ite)

theorem State.boundCount_kept {a0 : State} (s : State)
    (hk0 : Kept a0 s) : Kept a0 (State.boundCount s) := by
  unfold State.boundCount
  try dsimp only
  repeat' (first
      | with_reducible assumption
      | intro _
      | simp only [kept_mk_iff]
      | with_reducible apply State.snapshot_kept
      | with_reducible apply kept_ite)

theorem State.actBoundary_kept {a0 : State} (s : State) (nb b k : Nat) (sw : Bool)
    (hk0 : Kept a0 s) : Kept a0 (State.actBoundary s nb b k sw) := by
  unfold State.actBoundary
  try dsimp only
  repeat' (first
      | with_reducible assumption
      | intro _
      | simp only [kept_mk_iff]
      | with_reducible apply State.rset_kept
      | with_reducible apply State.rbitSet_kept
      | with_reducible apply State.boundCount_kept
      | with_reducible apply State.adoptAlign_kept
      | with_reducible apply State.holdBoundary_kept
      | with_reducible apply State.passOver_kept
      | with_reducible apply State.boundSwitch_kept
      | with_reducible apply State.enterService_kept
      | with_reducible apply State.returnService_kept
      | with_reducible apply State.sendAlign_kept
      | with_reducible apply State.rcount_kept
      | with_reducible apply kept_ite)

theorem State.memberOffset_kept {a0 : State} (s : State) (o : Int) (rx : Nat) (state steps : Nat)
    (hk0 : Kept a0 s) : Kept a0 (State.memberOffset s o rx state steps) := by
  unfold State.memberOffset
  try dsimp only
  repeat' (first
      | with_reducible assumption
      | intro _
      | simp only [kept_mk_iff]
      | with_reducible apply State.rset_kept
      | with_reducible apply State.rbitSet_kept
      | with_reducible apply State.rfldSet_kept
      | with_reducible apply State.rcount_kept
      | with_reducible apply State.setModeReq_kept
      | with_reducible apply State.event_kept
      | with_reducible apply State.stepTime_kept
      | with_reducible apply State.showOffset_kept
      | with_reducible apply kept_ite
      | with_reducible apply kept_ite_fst
      | with_reducible apply kept_each
      | with_reducible apply kept_foldl
      | with_reducible apply kept_foldl_fst
      | dsimp only
      | split)

theorem State.alignFirst_kept {a0 : State} (s : State) (t len ph idx : Nat)
    (hk0 : Kept a0 s) : Kept a0 (State.alignFirst s t len ph idx) := by
  unfold State.alignFirst
  try dsimp only
  repeat' (first
      | with_reducible assumption
      | intro _
      | simp only [kept_mk_iff])

theorem State.alignCheck_kept {a0 : State} (s : State) (nb t len ph idx : Nat)
    (hk0 : Kept a0 s) : Kept a0 (State.alignCheck s nb t len ph idx) := by
  unfold State.alignCheck
  try dsimp only
  repeat' (first
      | with_reducible assumption
      | intro _
      | simp only [kept_mk_iff]
      | with_reducible apply State.rbitSet_kept
      | with_reducible apply kept_ite)

theorem State.orderSwitch_kept {a0 : State} (s : State) (i : Nat)
    (hk0 : Kept a0 s) : Kept a0 (State.orderSwitch s i) := by
  unfold State.orderSwitch
  try dsimp only
  repeat' (first
      | with_reducible assumption
      | intro _
      | simp only [kept_mk_iff]
      | with_reducible apply State.reread_kept
      | with_reducible apply kept_ite
      | with_reducible apply kept_ite_fst
      | with_reducible apply kept_each
      | with_reducible apply kept_foldl
      | with_reducible apply kept_foldl_fst
      | dsimp only
      | split)

theorem State.dumpTimeout_kept {a0 : State} (s : State) (cls index : Nat)
    (hk0 : Kept a0 s) : Kept a0 (State.dumpTimeout s cls index) := by
  unfold State.dumpTimeout
  try dsimp only
  repeat' (first
      | with_reducible assumption
      | intro _
      | simp only [kept_mk_iff]
      | with_reducible apply State.rcount_kept
      | with_reducible apply State.verdict_kept
      | with_reducible apply State.rbitSet_kept)

theorem State.dumpStop_kept {a0 : State} (s : State) (d : DumpReq)
    (hk0 : Kept a0 s) : Kept a0 (State.dumpStop s d) := by
  unfold State.dumpStop
  try dsimp only
  repeat' (first
      | with_reducible assumption
      | intro _
      | simp only [kept_mk_iff]
      | with_reducible apply State.stopUnit_kept
      | with_reducible apply State.trySave_kept
      | with_reducible apply kept_ite)

theorem State.stageDump_kept {a0 : State} (s : State) (d : DumpReq)
    (hk0 : Kept a0 s) : Kept a0 (State.stageDump s d) := by
  unfold State.stageDump
  try dsimp only
  repeat' (first
      | with_reducible assumption
      | intro _
      | simp only [kept_mk_iff]
      | with_reducible apply State.takePoison_kept
      | with_reducible apply State.dumpTimeout_kept
      | with_reducible apply State.rfldSet_kept
      | with_reducible apply State.each_kept
      | with_reducible apply kept_ite
      | with_reducible apply kept_ite_fst
      | with_reducible apply kept_each)

theorem State.dumpNow_kept {a0 : State} (s : State) (i : Nat)
    (hk0 : Kept a0 s) : Kept a0 (State.dumpNow s i) := by
  unfold State.dumpNow
  try dsimp only
  repeat' (first
      | with_reducible assumption
      | intro _
      | simp only [kept_mk_iff]
      | with_reducible apply State.each_kept
      | with_reducible apply State.stageDump_kept
      | with_reducible apply kept_ite
      | with_reducible apply kept_ite_fst
      | with_reducible apply kept_each)

theorem State.latchSet_kept {a0 : State} (s : State) (a src : Nat) (v : Nat)
    (hk0 : Kept a0 s) : Kept a0 (State.latchSet s a src v) := by
  unfold State.latchSet
  try dsimp only
  repeat' (first
      | with_reducible assumption
      | intro _
      | simp only [kept_mk_iff])

theorem State.atStart_kept {a0 : State} (s : State)
    (hk0 : Kept a0 s) : Kept a0 (State.atStart s) := by
  unfold State.atStart
  try dsimp only
  repeat' (first
      | with_reducible assumption
      | intro _
      | simp only [kept_mk_iff])

theorem State.cntLatch_kept {a0 : State} (s : State) (src b o : Nat)
    (hk0 : Kept a0 s) : Kept a0 (State.cntLatch s src b o) := by
  unfold State.cntLatch
  try dsimp only
  repeat' (first
      | with_reducible assumption
      | intro _
      | simp only [kept_mk_iff]
      | with_reducible apply State.latchSet_kept
      | with_reducible apply State.atStart_kept
      | with_reducible apply kept_ite)

theorem State.readLatch_kept {a0 : State} (s : State) (src a : Nat)
    (hk0 : Kept a0 s) : Kept a0 (State.readLatch s src a) := by
  unfold State.readLatch
  try dsimp only
  repeat' (first
      | with_reducible assumption
      | intro _
      | simp only [kept_mk_iff]
      | with_reducible apply State.latchSet_kept
      | with_reducible apply State.cntLatch_kept
      | with_reducible apply kept_ite)

theorem State.readClear_kept {a0 : State} (s : State) (a : Nat) (rc : Word)
    (hk0 : Kept a0 s) : Kept a0 (State.readClear s a rc) := by
  unfold State.readClear
  try dsimp only
  repeat' (first
      | with_reducible assumption
      | intro _
      | simp only [kept_mk_iff]
      | with_reducible apply State.rset_kept
      | with_reducible apply State.modTile_kept
      | with_reducible apply kept_ite)

theorem State.readReg_kept {a0 : State} (s : State) (src a : Nat)
    (hk0 : Kept a0 s) : Kept a0 (State.readReg s src a).1 := by
  unfold State.readReg
  try dsimp only
  repeat' (first
      | with_reducible assumption
      | intro _
      | dsimp only
      | with_reducible apply State.readLatch_kept
      | with_reducible apply State.readClear_kept
      | with_reducible apply kept_ite
      | with_reducible apply kept_ite_fst
      | with_reducible apply kept_each
      | with_reducible apply kept_foldl
      | with_reducible apply kept_foldl_fst
      | dsimp only
      | split)

theorem State.regRead_kept {a0 : State} (s : State) (src : Fin 3) (a : Nat)
    (hk0 : Kept a0 s) : Kept a0 (State.regRead s src a) := by
  unfold State.regRead
  try dsimp only
  repeat' (first
      | with_reducible assumption
      | intro _
      | simp only [kept_mk_iff]
      | with_reducible apply State.readReg_kept
      | with_reducible apply kept_ite)

theorem State.plainWrite_kept {a0 : State} (s : State) (a : Nat) (r : RegSpec) (v : Word)
    (hk0 : Kept a0 s) : Kept a0 (State.plainWrite s a r v) := by
  unfold State.plainWrite
  try dsimp only
  repeat' (first
      | with_reducible assumption
      | intro _
      | simp only [kept_mk_iff]
      | with_reducible apply State.rset_kept
      | with_reducible apply State.eccCleared_kept
      | with_reducible apply kept_ite)

theorem State.clearCounters_kept {a0 : State} (s : State)
    (hk0 : Kept a0 s) : Kept a0 (State.clearCounters s) := by
  unfold State.clearCounters
  try dsimp only
  repeat' (first
      | with_reducible assumption
      | intro _
      | simp only [kept_mk_iff])

theorem State.obsCtrlWrite_kept {a0 : State} (s : State) (r : RegSpec) (v : Word)
    (hk0 : Kept a0 s) : Kept a0 (State.obsCtrlWrite s r v).1 := by
  unfold State.obsCtrlWrite
  try dsimp only
  repeat' (first
      | with_reducible assumption
      | intro _
      | dsimp only
      | with_reducible apply State.plainWrite_kept
      | with_reducible apply State.clearCounters_kept
      | with_reducible apply kept_ite
      | with_reducible apply kept_ite_fst)

theorem State.dumpWrite_kept {a0 : State} (s : State) (a : Nat) (r : RegSpec) (v : Word)
    (hk0 : Kept a0 s) : Kept a0 (State.dumpWrite s a r v) := by
  unfold State.dumpWrite
  try dsimp only
  repeat' (first
      | with_reducible assumption
      | intro _
      | simp only [kept_mk_iff]
      | with_reducible apply State.plainWrite_kept
      | with_reducible apply kept_ite)

theorem State.postWrite_kept {a0 : State} (s : State) (b : Nat) (v : Word)
    (hk0 : Kept a0 s) : Kept a0 (State.postWrite s b v).1 := by
  unfold State.postWrite
  try dsimp only
  repeat' (first
      | with_reducible assumption
      | intro _
      | dsimp only
      | with_reducible apply State.postHost_kept
      | with_reducible apply kept_ite
      | with_reducible apply kept_ite_fst)

theorem State.mshWrite_kept {a0 : State} (s : State) (a : Nat) (r : RegSpec) (v : Word)
    (hk0 : Kept a0 s) : Kept a0 (State.mshWrite s a r v).1 := by
  unfold State.mshWrite
  try dsimp only
  repeat' (first
      | with_reducible assumption
      | intro _
      | dsimp only
      | with_reducible apply State.plainWrite_kept
      | with_reducible apply State.obsCtrlWrite_kept
      | with_reducible apply State.dumpWrite_kept
      | with_reducible apply State.dumpNow_kept
      | with_reducible apply kept_ite
      | with_reducible apply kept_ite_fst)

theorem State.lapWrite_kept {a0 : State} (s : State) (boot : Bool) (a : Nat) (r : RegSpec) (v : Word)
    (hk0 : Kept a0 s) : Kept a0 (State.lapWrite s boot a r v).1 := by
  unfold State.lapWrite
  try dsimp only
  repeat' (first
      | with_reducible assumption
      | intro _
      | dsimp only
      | with_reducible apply State.loopWrite_kept
      | with_reducible apply State.probeWrite_kept
      | with_reducible apply State.plainWrite_kept
      | with_reducible apply State.genWrite_kept
      | with_reducible apply State.rcount_kept
      | with_reducible apply kept_ite
      | with_reducible apply kept_ite_fst)

theorem State.ioWrite_kept {a0 : State} (s : State) (a : Nat) (r : RegSpec) (v : Word)
    (hk0 : Kept a0 s) : Kept a0 (State.ioWrite s a r v).1 := by
  unfold State.ioWrite
  try dsimp only
  repeat' (first
      | with_reducible assumption
      | intro _
      | dsimp only
      | with_reducible apply State.sptWrite_kept
      | with_reducible apply State.plainWrite_kept
      | with_reducible apply State.tripClear_kept
      | with_reducible apply State.pwmWrite_kept
      | with_reducible apply kept_ite
      | with_reducible apply kept_ite_fst)

theorem State.dspWrite_kept {a0 : State} (s : State) (boot : Bool) (a : Nat) (r : RegSpec) (v : Word)
    (hk0 : Kept a0 s) : Kept a0 (State.dspWrite s boot a r v).1 := by
  unfold State.dspWrite
  try dsimp only
  repeat' (first
      | with_reducible assumption
      | intro _
      | dsimp only
      | with_reducible apply State.plainWrite_kept
      | with_reducible apply State.arm_kept
      | with_reducible apply State.beqPush_kept
      | with_reducible apply State.disarm_kept
      | with_reducible apply kept_ite
      | with_reducible apply kept_ite_fst)

theorem State.fieldWrite_kept {a0 : State} (s : State) (boot : Bool) (a : Nat) (r : RegSpec) (v : Word)
    (hk0 : Kept a0 s) : Kept a0 (State.fieldWrite s boot a r v).1 := by
  unfold State.fieldWrite
  try dsimp only
  repeat' (first
      | with_reducible assumption
      | intro _
      | dsimp only
      | with_reducible apply State.holdWrite_kept
      | with_reducible apply State.lapWrite_kept
      | with_reducible apply State.tableWrite_kept
      | with_reducible apply State.plainWrite_kept
      | with_reducible apply State.dspWrite_kept
      | with_reducible apply State.ioWrite_kept
      | with_reducible apply State.mshWrite_kept
      | with_reducible apply State.postWrite_kept
      | with_reducible apply kept_ite
      | with_reducible apply kept_ite_fst)

theorem State.violation_kept {a0 : State} (s : State) (src a : Nat)
    (hk0 : Kept a0 s) : Kept a0 (State.violation s src a) := by
  unfold State.violation
  try dsimp only
  repeat' (first
      | with_reducible assumption
      | intro _
      | simp only [kept_mk_iff]
      | with_reducible apply State.rfldSet_kept
      | with_reducible apply State.rset_kept
      | with_reducible apply State.rbitSet_kept
      | with_reducible apply State.rcount_kept)

theorem State.writeReg_kept {a0 : State} (s : State) (src a : Nat) (v : Word)
    (hk0 : Kept a0 s) : Kept a0 (State.writeReg s src a v).1 := by
  unfold State.writeReg
  try dsimp only
  repeat' (first
      | with_reducible assumption
      | intro _
      | dsimp only
      | with_reducible apply State.violation_kept
      | with_reducible apply State.fieldWrite_kept
      | with_reducible apply kept_ite
      | with_reducible apply kept_ite_fst
      | with_reducible apply kept_each
      | with_reducible apply kept_foldl
      | with_reducible apply kept_foldl_fst
      | dsimp only
      | split)

theorem State.scriptWrite_kept {a0 : State} (s : State) (a : Nat) (v : Word)
    (hk0 : Kept a0 s) : Kept a0 (State.scriptWrite s a v).1 := by
  unfold State.scriptWrite
  try dsimp only
  repeat' (first
      | with_reducible assumption
      | intro _
      | simp only [kept_mk_iff]
      | with_reducible apply State.rset_kept
      | with_reducible apply State.fieldWrite_kept
      | with_reducible apply kept_ite
      | with_reducible apply kept_ite_fst
      | with_reducible apply kept_each
      | with_reducible apply kept_foldl
      | with_reducible apply kept_foldl_fst
      | dsimp only
      | split)

theorem State.hostWrite_kept {a0 : State} (s : State) (src : Fin 3) (a : Nat) (v : Word)
    (hk0 : Kept a0 s) : Kept a0 (State.hostWrite s src a v) := by
  unfold State.hostWrite
  try dsimp only
  repeat' (first
      | with_reducible assumption
      | intro _
      | simp only [kept_mk_iff]
      | with_reducible apply State.writeReg_kept)

end Sys2Proof.Machine
end

