-- ==== Sys2Proof/Laws/KeptHost.lean ====
section
/-!
SUPPORT. Kept: one lemma per operation of reloads, the boot script, the host ports, health and the test port.
-/

namespace Sys2Proof.Machine

theorem State.replayWords_kept {a0 : State} (s : State) (a : Nat) (n0 : _)
    (hk0 : Kept a0 s) : Kept a0 (State.replayWords s a n0) := by
  induction n0 generalizing s a with
  | nil =>
    unfold State.replayWords
    try dsimp only
    repeat' (first
      | with_reducible assumption)
  | cons x n ih =>
    unfold State.replayWords
    try dsimp only
    repeat' (first
      | with_reducible assumption
      | with_reducible apply ih
      | intro _
      | simp only [kept_mk_iff]
      | with_reducible apply State.fieldWrite_kept
      | with_reducible apply kept_ite
      | with_reducible apply kept_ite_fst
      | with_reducible apply kept_each
      | with_reducible apply kept_foldl
      | with_reducible apply kept_foldl_fst
      | dsimp only
      | split)

theorem State.reload_kept {a0 : State} (s : State) (n0 : _)
    (hk0 : Kept a0 s) : Kept a0 (State.reload s n0).1 := by
  induction n0 generalizing s with
  | nil =>
    unfold State.reload
    try dsimp only
    repeat' (first
      | with_reducible assumption)
  | cons x n ih =>
    unfold State.reload
    try dsimp only
    repeat' (first
      | with_reducible assumption
      | with_reducible apply ih
      | intro _
      | dsimp only
      | with_reducible apply State.replayWords_kept
      | with_reducible apply State.readPoison_kept
      | with_reducible apply State.mwrite_kept
      | with_reducible apply kept_ite
      | with_reducible apply kept_ite_fst)

theorem State.reloadPart_kept {a0 : State} (s : State) (p : Nat)
    (hk0 : Kept a0 s) : Kept a0 (State.reloadPart s p).1 := by
  unfold State.reloadPart
  try dsimp only
  repeat' (first
      | with_reducible assumption
      | intro _
      | simp only [kept_mk_iff]
      | with_reducible apply State.readPoison_kept
      | with_reducible apply State.reload_kept
      | with_reducible apply kept_ite
      | with_reducible apply kept_ite_fst)

theorem State.reloadFailed_kept {a0 : State} (s : State) (p sec : Nat)
    (hk0 : Kept a0 s) : Kept a0 (State.reloadFailed s p sec) := by
  unfold State.reloadFailed
  try dsimp only
  repeat' (first
      | with_reducible assumption
      | intro _
      | simp only [kept_mk_iff]
      | with_reducible apply State.verdict_kept
      | with_reducible apply State.setHealth_kept)

theorem State.clearBatons_kept {a0 : State} (s : State) (p : Nat)
    (hk0 : Kept a0 s) : Kept a0 (State.clearBatons s p) := by
  unfold State.clearBatons
  try dsimp only
  repeat' (first
      | with_reducible assumption
      | intro _
      | simp only [kept_mk_iff]
      | with_reducible apply State.rset_kept
      | with_reducible apply State.each_kept
      | with_reducible apply kept_ite
      | with_reducible apply kept_ite_fst
      | with_reducible apply kept_each)

theorem State.flashSetup_kept {a0 : State} (s : State)
    (hk0 : Kept a0 s) : Kept a0 (State.flashSetup s) := by
  unfold State.flashSetup
  try dsimp only
  repeat' (first
      | with_reducible assumption
      | intro _
      | simp only [kept_mk_iff]
      | with_reducible apply State.each_kept
      | with_reducible apply State.ballOut_kept
      | with_reducible apply kept_ite
      | with_reducible apply kept_ite_fst
      | with_reducible apply kept_each)

theorem State.flashRead_kept {a0 : State} (s : State) (o : Nat)
    (hk0 : Kept a0 s) : Kept a0 (State.flashRead s o) := by
  unfold State.flashRead
  try dsimp only
  repeat' (first
      | with_reducible assumption
      | intro _
      | simp only [kept_mk_iff]
      | with_reducible apply State.ballOut_kept
      | with_reducible apply kept_ite)

theorem State.slotFail_kept {a0 : State} (s : State) (code detail : Nat)
    (hk0 : Kept a0 s) : Kept a0 (State.slotFail s code detail) := by
  unfold State.slotFail
  try dsimp only
  repeat' (first
      | with_reducible assumption
      | intro _
      | simp only [kept_mk_iff]
      | with_reducible apply State.rfldSet_kept
      | with_reducible apply State.bootStep_kept
      | with_reducible apply State.flashRead_kept
      | with_reducible apply State.bootFail_kept
      | with_reducible apply State.modBoot_kept
      | with_reducible apply kept_ite)

theorem State.setVerified_kept {a0 : State} (s : State) (b : Bool)
    (hk0 : Kept a0 s) : Kept a0 (State.setVerified s b) := by
  unfold State.setVerified
  try dsimp only
  repeat' (first
      | with_reducible assumption
      | intro _
      | simp only [kept_mk_iff]
      | with_reducible apply State.rbitSet_kept)

theorem State.entryFail_kept {a0 : State} (s : State) (code : Nat)
    (hk0 : Kept a0 s) : Kept a0 (State.entryFail s code) := by
  unfold State.entryFail
  try dsimp only
  repeat' (first
      | with_reducible assumption
      | intro _
      | simp only [kept_mk_iff]
      | with_reducible apply State.bootFail_kept)

theorem State.scriptPut_kept {a0 : State} (s : State) (a v : Nat) (board : Bool)
    (hk0 : Kept a0 s) : Kept a0 (State.scriptPut s a v board) := by
  unfold State.scriptPut
  try dsimp only
  repeat' (first
      | with_reducible assumption
      | intro _
      | simp only [kept_mk_iff]
      | with_reducible apply State.entryFail_kept
      | with_reducible apply State.setVerified_kept
      | with_reducible apply State.scriptWrite_kept
      | with_reducible apply State.nextEntry_kept
      | with_reducible apply kept_ite)

theorem State.pollRead_kept {a0 : State} (s : State)
    (hk0 : Kept a0 s) : Kept a0 (State.pollRead s) := by
  unfold State.pollRead
  try dsimp only
  repeat' (first
      | with_reducible assumption
      | intro _
      | simp only [kept_mk_iff]
      | with_reducible apply State.nextEntry_kept
      | with_reducible apply State.entryFail_kept
      | with_reducible apply State.readReg_kept
      | with_reducible apply State.modBoot_kept
      | with_reducible apply kept_ite)

theorem State.trainLinks_kept {a0 : State} (s : State) (m : Nat)
    (hk0 : Kept a0 s) : Kept a0 (State.trainLinks s m) := by
  unfold State.trainLinks
  try dsimp only
  repeat' (first
      | with_reducible assumption
      | intro _
      | simp only [kept_mk_iff]
      | with_reducible apply State.setLinkState_kept
      | with_reducible apply State.each_kept
      | with_reducible apply kept_ite
      | with_reducible apply kept_ite_fst
      | with_reducible apply kept_each)

theorem State.memTrained_kept {a0 : State} (s : State) (m : Nat)
    (hk0 : Kept a0 s) : Kept a0 (State.memTrained s m) := by
  unfold State.memTrained
  try dsimp only
  repeat' (first
      | with_reducible assumption
      | intro _
      | simp only [kept_mk_iff]
      | with_reducible apply State.rfldSet_kept
      | with_reducible apply State.each_kept
      | with_reducible apply kept_ite
      | with_reducible apply kept_ite_fst
      | with_reducible apply kept_each)

theorem State.zeroFill_kept {a0 : State} (s : State) (hk0 : Kept a0 s) : Kept a0 s.zeroFill :=
  ⟨hk0.pending, fun x => memory_wf_filter _ (hk0.mem x), hk0.tap, hk0.outs⟩

theorem State.scriptWords_kept {a0 : State} (s : State) (a : Nat) (n0 : _)
    (hk0 : Kept a0 s) : Kept a0 (State.scriptWords s a n0).1 := by
  induction n0 generalizing s a with
  | nil =>
    unfold State.scriptWords
    try dsimp only
    repeat' (first
      | with_reducible assumption)
  | cons x n ih =>
    unfold State.scriptWords
    try dsimp only
    repeat' (first
      | with_reducible assumption
      | with_reducible apply ih
      | intro _
      | dsimp only
      | with_reducible apply State.scriptWrite_kept
      | with_reducible apply kept_ite
      | with_reducible apply kept_ite_fst)

theorem State.shadowPut_kept {a0 : State} (s : State) (n : Nat) (l : List Byte)
    (hk0 : Kept a0 s) : Kept a0 (State.shadowPut s n l) := by
  unfold State.shadowPut
  try dsimp only
  repeat' (first
      | with_reducible assumption
      | intro _
      | simp only [kept_mk_iff]
      | with_reducible apply State.modBoot_kept
      | with_reducible apply State.mwrite_kept)

theorem State.lockFixed_kept {a0 : State} (s : State)
    (hk0 : Kept a0 s) : Kept a0 (State.lockFixed s) := by
  unfold State.lockFixed
  try dsimp only
  repeat' (first
      | with_reducible assumption
      | intro _
      | simp only [kept_mk_iff]
      | with_reducible apply State.rset_kept
      | with_reducible apply State.setTime_kept
      | with_reducible apply State.modBoot_kept
      | with_reducible apply State.rbitSet_kept
      | with_reducible apply State.unusedHold_kept
      | with_reducible apply State.firstBoundary_kept
      | with_reducible apply kept_ite)

theorem State.intDiv_kept {a0 : State} (s : State) (t : TileNo) (rd rs1 rs2 : RegNo) (aux : Byte) (f : Nat → Bool → Nat → Nat → Int × FlagSet)
    (hk0 : Kept a0 s) : Kept a0 (State.intDiv s t rd rs1 rs2 aux f) := by
  unfold State.intDiv
  try dsimp only
  repeat' (first
      | with_reducible assumption
      | intro _
      | simp only [kept_mk_iff]
      | with_reducible apply State.laneV_kept)

theorem State.fp3_kept {a0 : State} (s : State) (t : TileNo) (rd a b c : RegNo) (aux : Byte) (neg : Bool)
    (hk0 : Kept a0 s) : Kept a0 (State.fp3 s t rd a b c aux neg) := by
  unfold State.fp3
  try dsimp only
  repeat' (first
      | with_reducible assumption
      | intro _
      | simp only [kept_mk_iff]
      | with_reducible apply State.lane_kept)

theorem State.laneFault_kept {a0 : State} (s : State) (t cause : Nat)
    (hk0 : Kept a0 s) : Kept a0 (State.laneFault s t cause) := by
  unfold State.laneFault
  try dsimp only
  repeat' (first
      | with_reducible assumption
      | intro _
      | simp only [kept_mk_iff]
      | with_reducible apply State.faultTile_kept)

theorem State.respond_kept {a0 : State} (s : State) (h : TfpHdr) (r : List Byte)
    (hk0 : Kept a0 s) : Kept a0 (State.respond s h r) := by
  unfold State.respond
  try dsimp only
  repeat' (first
      | with_reducible assumption
      | intro _
      | simp only [kept_mk_iff]
      | with_reducible apply State.sendFrame_kept)

theorem State.creadGo_kept {a0 : State} (s : State) (k a : Nat) (n0 : _)
    (hk0 : Kept a0 s) : Kept a0 (State.creadGo s k a n0).1 := by
  induction n0 generalizing s k a with
  | zero =>
    unfold State.creadGo
    try dsimp only
    repeat' (first
      | with_reducible assumption)
  | succ n ih =>
    unfold State.creadGo
    try dsimp only
    repeat' (first
      | with_reducible assumption
      | with_reducible apply ih
      | intro _
      | dsimp only
      | with_reducible apply State.readReg_kept
      | with_reducible apply kept_ite
      | with_reducible apply kept_ite_fst)

theorem State.cwriteGo_kept {a0 : State} (s : State) (k a : Nat) (n0 : _)
    (hk0 : Kept a0 s) : Kept a0 (State.cwriteGo s k a n0).1 := by
  induction n0 generalizing s k a with
  | nil =>
    unfold State.cwriteGo
    try dsimp only
    repeat' (first
      | with_reducible assumption)
  | cons x n ih =>
    unfold State.cwriteGo
    try dsimp only
    repeat' (first
      | with_reducible assumption
      | with_reducible apply ih
      | intro _
      | dsimp only
      | with_reducible apply State.writeReg_kept
      | with_reducible apply kept_ite
      | with_reducible apply kept_ite_fst)

theorem State.cmodify_kept {a0 : State} (s : State) (k a : Nat) (m v : Word)
    (hk0 : Kept a0 s) : Kept a0 (State.cmodify s k a m v).1 := by
  unfold State.cmodify
  try dsimp only
  repeat' (first
      | with_reducible assumption
      | intro _
      | dsimp only
      | with_reducible apply State.readReg_kept
      | with_reducible apply State.modPort_kept
      | with_reducible apply kept_ite
      | with_reducible apply kept_ite_fst)

theorem State.hostData_kept {a0 : State} (s : State) (n0 : TfpOp) (hk0 : Kept a0 s) :
    Kept a0 (s.hostData n0).1 := by
  unfold State.hostData
  split
  · exact kept_ite_fst (State.readPoison_kept _ _ _ hk0) hk0
  · exact State.mwrite_kept _ _ _ hk0
  · exact hk0

theorem State.hostStart_kept {a0 : State} (s : State) (k a n : Nat) (op : TfpOp) (write : Bool)
    (hk0 : Kept a0 s) : Kept a0 (State.hostStart s k a n op write).1 := by
  unfold State.hostStart
  try dsimp only
  repeat' (first
      | with_reducible assumption
      | intro _
      | dsimp only
      | with_reducible apply State.hold_kept
      | with_reducible apply State.paceTake_kept
      | with_reducible apply State.hostData_kept
      | with_reducible apply kept_ite
      | with_reducible apply kept_ite_fst
      | with_reducible apply kept_each
      | with_reducible apply kept_foldl
      | with_reducible apply kept_foldl_fst
      | dsimp only
      | split)

theorem State.withSaved_kept {α : Type} {a0 : State} (s : State) (c : Nat) (ts : List Nat)
    (f : State → State × α) (hf : ∀ x, Kept a0 x → Kept a0 (f x).1) (h : Kept a0 s) :
    Kept a0 (s.withSaved c ts f).1 := by
  unfold State.withSaved
  refine kept_each _ _ (fun x o hx => ?_) (hf _ (kept_each _ _ (fun x t hx => ?_) h))
  · exact State.setTile_kept _ _ _ (kept_of_eq hx rfl rfl rfl rfl)
  · split
    · exact State.setTile_kept _ _ _ hx
    · exact hx

theorem State.doAbort_kept {a0 : State} (s : State) (c h : Nat)
    (hk0 : Kept a0 s) : Kept a0 (State.doAbort s c h).1 := by
  unfold State.doAbort
  try dsimp only
  repeat' (first
      | with_reducible assumption
      | intro _
      | dsimp only
      | with_reducible apply State.withSaved_kept
      | with_reducible apply State.kickAll_kept
      | with_reducible apply State.abortHeat_kept
      | with_reducible apply kept_ite
      | with_reducible apply kept_ite_fst
      | with_reducible apply kept_each
      | with_reducible apply kept_foldl
      | with_reducible apply kept_foldl_fst
      | dsimp only
      | split)

theorem State.reinit_kept {a0 : State} (s : State) (k p expect : Nat)
    (hk0 : Kept a0 s) : Kept a0 (State.reinit s k p expect).1 := by
  unfold State.reinit
  try dsimp only
  repeat' (first
      | with_reducible assumption
      | intro _
      | dsimp only
      | with_reducible apply State.verdict_kept
      | with_reducible apply State.partReset_kept
      | with_reducible apply kept_ite
      | with_reducible apply kept_ite_fst)

theorem State.orderReset_kept {a0 : State} (s : State) (k expect : Nat) (device : Bool)
    (hk0 : Kept a0 s) : Kept a0 (State.orderReset s k expect device).1 := by
  unfold State.orderReset
  try dsimp only
  repeat' (first
      | with_reducible assumption
      | intro _
      | dsimp only
      | with_reducible apply State.setHealth_kept
      | with_reducible apply kept_ite
      | with_reducible apply kept_ite_fst)

theorem State.subscribe_kept {a0 : State} (s : State) (h : TfpHdr) (stream : Nat) (en : Bool)
    (hk0 : Kept a0 s) : Kept a0 (State.subscribe s h stream en) := by
  unfold State.subscribe
  try dsimp only
  repeat' (first
      | with_reducible assumption
      | intro _
      | simp only [kept_mk_iff])

theorem State.tfpExec_kept {a0 : State} (s : State) (h : TfpHdr) (op : TfpOp)
    (hk0 : Kept a0 s) : Kept a0 (State.tfpExec s h op).1 := by
  unfold State.tfpExec
  try dsimp only
  repeat' (first
      | with_reducible assumption
      | intro _
      | dsimp only
      | with_reducible apply State.cmodify_kept
      | with_reducible apply State.reinit_kept
      | with_reducible apply State.hostStart_kept
      | with_reducible apply State.cwriteGo_kept
      | with_reducible apply State.subscribe_kept
      | with_reducible apply State.orderReset_kept
      | with_reducible apply State.creadGo_kept
      | with_reducible apply kept_ite
      | with_reducible apply kept_ite_fst
      | with_reducible apply kept_each
      | with_reducible apply kept_foldl
      | with_reducible apply kept_foldl_fst
      | dsimp only
      | split)

theorem State.tfpDone_kept {a0 : State} (s : State) (h : TfpHdr) (op : TfpOp) (status : Nat) (pl : List Byte)
    (hk0 : Kept a0 s) : Kept a0 (State.tfpDone s h op status pl) := by
  unfold State.tfpDone
  try dsimp only
  repeat' (first
      | with_reducible assumption
      | intro _
      | simp only [kept_mk_iff]
      | with_reducible apply State.modPort_kept
      | with_reducible apply State.respond_kept)

theorem State.tfpDrop_kept {a0 : State} (s : State) (k : Nat)
    (hk0 : Kept a0 s) : Kept a0 (State.tfpDrop s k) := by
  unfold State.tfpDrop
  try dsimp only
  repeat' (first
      | with_reducible assumption
      | intro _
      | simp only [kept_mk_iff]
      | with_reducible apply State.modPort_kept)

theorem State.tfpRun_kept {a0 : State} (s : State) (h : TfpHdr) (op : TfpOp)
    (hk0 : Kept a0 s) : Kept a0 (State.tfpRun s h op) := by
  unfold State.tfpRun
  try dsimp only
  repeat' (first
      | with_reducible assumption
      | intro _
      | simp only [kept_mk_iff]
      | with_reducible apply State.modPort_kept
      | with_reducible apply State.tfpDone_kept
      | with_reducible apply State.tfpExec_kept
      | with_reducible apply kept_ite
      | with_reducible apply kept_ite_fst
      | with_reducible apply kept_each
      | with_reducible apply kept_foldl
      | with_reducible apply kept_foldl_fst
      | dsimp only
      | split)

theorem State.tfpHead_kept {a0 : State} (s : State) (h : TfpHdr) (op : TfpOp)
    (hk0 : Kept a0 s) : Kept a0 (State.tfpHead s h op) := by
  unfold State.tfpHead
  try dsimp only
  repeat' (first
      | with_reducible assumption
      | intro _
      | simp only [kept_mk_iff]
      | with_reducible apply State.tfpRun_kept
      | with_reducible apply State.modPort_kept
      | with_reducible apply State.respond_kept
      | with_reducible apply State.rset_kept
      | with_reducible apply State.tfpDrop_kept
      | with_reducible apply State.rbitSet_kept
      | with_reducible apply State.rfldSet_kept
      | with_reducible apply State.event_kept
      | with_reducible apply State.rcount_kept
      | with_reducible apply kept_ite
      | with_reducible apply kept_ite_fst
      | with_reducible apply kept_each
      | with_reducible apply kept_foldl
      | with_reducible apply kept_foldl_fst
      | dsimp only
      | split)

theorem State.servePort_kept {a0 : State} (s : State) (k : Nat) (n0 : _)
    (hk0 : Kept a0 s) : Kept a0 (State.servePort s k n0) := by
  induction n0 generalizing s k with
  | zero =>
    unfold State.servePort
    try dsimp only
    repeat' (first
      | with_reducible assumption)
  | succ n ih =>
    unfold State.servePort
    try dsimp only
    repeat' (first
      | with_reducible assumption
      | with_reducible apply ih
      | intro _
      | simp only [kept_mk_iff]
      | with_reducible apply State.tfpHead_kept
      | with_reducible apply kept_ite
      | with_reducible apply kept_ite_fst
      | with_reducible apply kept_each
      | with_reducible apply kept_foldl
      | with_reducible apply kept_foldl_fst
      | dsimp only
      | split)

theorem State.serveAll_kept {a0 : State} (s : State) (k : Nat)
    (hk0 : Kept a0 s) : Kept a0 (State.serveAll s k) := by
  unfold State.serveAll
  try dsimp only
  repeat' (first
      | with_reducible assumption
      | intro _
      | simp only [kept_mk_iff]
      | with_reducible apply State.servePort_kept)

theorem State.retryPort_kept {a0 : State} (s : State) (k : Nat)
    (hk0 : Kept a0 s) : Kept a0 (State.retryPort s k) := by
  unfold State.retryPort
  try dsimp only
  repeat' (first
      | with_reducible assumption
      | intro _
      | simp only [kept_mk_iff]
      | with_reducible apply State.serveAll_kept
      | with_reducible apply State.tfpRun_kept
      | with_reducible apply kept_ite
      | with_reducible apply kept_ite_fst
      | with_reducible apply kept_each
      | with_reducible apply kept_foldl
      | with_reducible apply kept_foldl_fst
      | dsimp only
      | split)

theorem State.endWaiting_kept {a0 : State} (s : State) (k st : Nat) (pl : List Byte)
    (hk0 : Kept a0 s) : Kept a0 (State.endWaiting s k st pl) := by
  unfold State.endWaiting
  try dsimp only
  repeat' (first
      | with_reducible assumption
      | intro _
      | simp only [kept_mk_iff]
      | with_reducible apply State.serveAll_kept
      | with_reducible apply State.tfpDone_kept
      | with_reducible apply kept_ite
      | with_reducible apply kept_ite_fst
      | with_reducible apply kept_each
      | with_reducible apply kept_foldl
      | with_reducible apply kept_foldl_fst
      | dsimp only
      | split)

theorem State.cmodifyWrite_kept {a0 : State} (s : State) (k : Nat)
    (hk0 : Kept a0 s) : Kept a0 (State.cmodifyWrite s k) := by
  unfold State.cmodifyWrite
  try dsimp only
  repeat' (first
      | with_reducible assumption
      | intro _
      | simp only [kept_mk_iff]
      | with_reducible apply State.cmodify_kept
      | with_reducible apply State.modPort_kept
      | with_reducible apply State.writeReg_kept
      | with_reducible apply State.endWaiting_kept
      | with_reducible apply kept_ite
      | with_reducible apply kept_ite_fst
      | with_reducible apply kept_each
      | with_reducible apply kept_foldl
      | with_reducible apply kept_foldl_fst
      | dsimp only
      | split)

theorem State.tfpArrive_kept {a0 : State} (s : State) (h : TfpHdr) (op : TfpOp)
    (hk0 : Kept a0 s) : Kept a0 (State.tfpArrive s h op) := by
  unfold State.tfpArrive
  try dsimp only
  repeat' (first
      | with_reducible assumption
      | intro _
      | simp only [kept_mk_iff]
      | with_reducible apply State.modPort_kept
      | with_reducible apply State.serveAll_kept
      | with_reducible apply State.discard_kept
      | with_reducible apply State.rxFrame_kept
      | with_reducible apply kept_ite)

theorem State.endHungReads_kept {a0 : State} (s : State)
    (hk0 : Kept a0 s) : Kept a0 (State.endHungReads s) := by
  unfold State.endHungReads
  try dsimp only
  repeat' (first
      | with_reducible assumption
      | intro _
      | simp only [kept_mk_iff]
      | with_reducible apply State.endWaiting_kept
      | with_reducible apply State.each_kept
      | with_reducible apply kept_ite
      | with_reducible apply kept_ite_fst
      | with_reducible apply kept_each
      | with_reducible apply kept_foldl
      | with_reducible apply kept_foldl_fst
      | dsimp only
      | split)

theorem State.doReset_kept {a0 : State} (s : State) (r : Nat × Nat)
    (hk0 : Kept a0 s) : Kept a0 (State.doReset s r) := by
  unfold State.doReset
  try dsimp only
  repeat' (first
      | with_reducible assumption
      | intro _
      | simp only [kept_mk_iff]
      | with_reducible apply State.partReset_kept
      | with_reducible apply State.deviceReset_kept
      | with_reducible apply State.unitReset_kept
      | with_reducible apply State.linkReset_kept
      | with_reducible apply kept_ite)

theorem State.orderResets_kept {a0 : State} (s : State) (rs : List ((Nat × Nat) × List GNode))
    (hk0 : Kept a0 s) : Kept a0 (State.orderResets s rs) := by
  unfold State.orderResets
  try dsimp only
  repeat' (first
      | with_reducible assumption
      | intro _
      | simp only [kept_mk_iff]
      | with_reducible apply State.setHealth_kept
      | with_reducible apply State.each_kept
      | with_reducible apply State.rbitSet_kept
      | with_reducible apply State.doReset_kept
      | with_reducible apply kept_ite
      | with_reducible apply kept_ite_fst
      | with_reducible apply kept_each)

theorem State.graphStart_kept {a0 : State} (s : State)
    (hk0 : Kept a0 s) : Kept a0 (State.graphStart s) := by
  unfold State.graphStart
  try dsimp only
  repeat' (first
      | with_reducible assumption
      | intro _
      | simp only [kept_mk_iff])

theorem State.graphCycle_kept {a0 : State} (s : State)
    (hk0 : Kept a0 s) : Kept a0 (State.graphCycle s) := by
  unfold State.graphCycle
  try dsimp only
  repeat' (first
      | with_reducible assumption
      | intro _
      | simp only [kept_mk_iff]
      | with_reducible apply State.setHealth_kept
      | with_reducible apply kept_ite)

theorem State.declareHang_kept {a0 : State} (s : State) (ns : List GNode)
    (hk0 : Kept a0 s) : Kept a0 (State.declareHang s ns) := by
  unfold State.declareHang
  try dsimp only
  repeat' (first
      | with_reducible assumption
      | intro _
      | simp only [kept_mk_iff]
      | with_reducible apply State.rbitSet_kept
      | with_reducible apply State.verdict_kept)

theorem State.paceCycle_kept {a0 : State} (s : State) (p kind : Nat)
    (hk0 : Kept a0 s) : Kept a0 (State.paceCycle s p kind) := by
  unfold State.paceCycle
  try dsimp only
  repeat' (first
      | with_reducible assumption
      | intro _
      | simp only [kept_mk_iff]
      | with_reducible apply State.setTokens_kept)

theorem State.obsCycle_kept {a0 : State} (s : State)
    (hk0 : Kept a0 s) : Kept a0 (State.obsCycle s) := by
  unfold State.obsCycle
  try dsimp only
  repeat' (first
      | with_reducible assumption
      | intro _
      | simp only [kept_mk_iff])

theorem State.heldCycle_kept {a0 : State} (s : State)
    (hk0 : Kept a0 s) : Kept a0 (State.heldCycle s) := by
  unfold State.heldCycle
  try dsimp only
  repeat' (first
      | with_reducible assumption
      | intro _
      | simp only [kept_mk_iff]
      | with_reducible apply State.each_kept
      | with_reducible apply State.rcount_kept
      | with_reducible apply kept_ite
      | with_reducible apply kept_ite_fst
      | with_reducible apply kept_each)

theorem State.tileCycle_kept {a0 : State} (s : State) (t : Nat)
    (hk0 : Kept a0 s) : Kept a0 (State.tileCycle s t) := by
  unfold State.tileCycle
  try dsimp only
  repeat' (first
      | with_reducible assumption
      | intro _
      | simp only [kept_mk_iff]
      | with_reducible apply State.unitCnt_kept
      | with_reducible apply State.acct_kept
      | with_reducible apply State.each_kept
      | with_reducible apply kept_ite
      | with_reducible apply kept_ite_fst
      | with_reducible apply kept_each
      | with_reducible apply kept_foldl
      | with_reducible apply kept_foldl_fst
      | dsimp only
      | split)

theorem State.linkCycle_kept {a0 : State} (s : State) (k : Nat)
    (hk0 : Kept a0 s) : Kept a0 (State.linkCycle s k) := by
  unfold State.linkCycle
  try dsimp only
  repeat' (first
      | with_reducible assumption
      | intro _
      | simp only [kept_mk_iff]
      | with_reducible apply State.cntCycle_kept
      | with_reducible apply kept_ite)

theorem State.memCycle_kept {a0 : State} (s : State) (rs : List (Nat × Nat)) (k : Nat)
    (hk0 : Kept a0 s) : Kept a0 (State.memCycle s rs k) := by
  unfold State.memCycle
  try dsimp only
  repeat' (first
      | with_reducible assumption
      | intro _
      | simp only [kept_mk_iff]
      | with_reducible apply State.cntCycle_kept
      | with_reducible apply kept_ite)

theorem State.lapCycle_kept {a0 : State} (s : State) (j : Nat)
    (hk0 : Kept a0 s) : Kept a0 (State.lapCycle s j) := by
  unfold State.lapCycle
  try dsimp only
  repeat' (first
      | with_reducible assumption
      | intro _
      | simp only [kept_mk_iff]
      | with_reducible apply State.cntCycle_kept
      | with_reducible apply kept_ite)

theorem State.sliceCycle_kept {a0 : State} (s : State)
    (hk0 : Kept a0 s) : Kept a0 (State.sliceCycle s) := by
  unfold State.sliceCycle
  try dsimp only
  repeat' (first
      | with_reducible assumption
      | intro _
      | simp only [kept_mk_iff])

theorem State.begin_kept {a0 : State} (s : State)
    (hk0 : Kept a0 s) : Kept a0 (State.begin s) := by
  unfold State.begin
  try dsimp only
  repeat' (first
      | with_reducible assumption
      | intro _
      | simp only [kept_mk_iff])

theorem State.cycle_kept {a0 : State} (s : State)
    (hk0 : Kept a0 s) : Kept a0 (State.cycle s) := by
  unfold State.cycle
  try dsimp only
  repeat' (first
      | with_reducible assumption
      | intro _
      | simp only [kept_mk_iff]
      | with_reducible apply State.begin_kept
      | with_reducible apply State.paceCycle_kept
      | with_reducible apply State.heldCycle_kept
      | with_reducible apply State.obsCycle_kept
      | with_reducible apply State.sliceCycle_kept
      | with_reducible apply State.graphCycle_kept
      | with_reducible apply State.linkCycle_kept
      | with_reducible apply State.tripEffect_kept
      | with_reducible apply State.cmodifyWrite_kept
      | with_reducible apply State.lapCycle_kept
      | with_reducible apply State.memCycle_kept
      | with_reducible apply State.each_kept
      | with_reducible apply State.tileCycle_kept
      | with_reducible apply kept_ite
      | with_reducible apply kept_ite_fst
      | with_reducible apply kept_each)

theorem State.lineLost_kept {a0 : State} (s : State) (a : Nat) (own : Bool)
    (hk0 : Kept a0 s) : Kept a0 (State.lineLost s a own) := by
  unfold State.lineLost
  try dsimp only
  repeat' (first
      | with_reducible assumption
      | intro _
      | simp only [kept_mk_iff]
      | with_reducible apply State.verdict_kept
      | with_reducible apply State.eccUE_kept
      | with_reducible apply State.mpoison_kept
      | with_reducible apply kept_ite)

theorem State.onBus_kept {a0 : State} (s : State) (k : Nat)
    (hk0 : Kept a0 s) : Kept a0 (State.onBus s k) := by
  unfold State.onBus
  try dsimp only
  repeat' (first
      | with_reducible assumption
      | intro _
      | simp only [kept_mk_iff])

theorem State.modTap_kept {a0 : State} (s : State) (f : Tap → Tap)
    (hf : ∀ x, Tap.wf x = true → Tap.wf (f x) = true) (h : Kept a0 s) : Kept a0 (s.modTap f) :=
  ⟨h.pending, h.mem, fun x => hf _ (h.tap x), h.outs⟩

theorem State.jtagRead_kept {a0 : State} (s : State) (a : Nat)
    (hk0 : Kept a0 s) : Kept a0 (State.jtagRead s a).1 := by
  unfold State.jtagRead
  try dsimp only
  repeat' (first
      | with_reducible assumption
      | intro _
      | dsimp only
      | with_reducible apply State.readReg_kept
      | with_reducible apply State.dumpTimeout_kept
      | with_reducible apply kept_ite
      | with_reducible apply kept_ite_fst)

theorem State.tapSelect_kept {a0 : State} (s : State) (code : Nat)
    (hc : [0x01, 0x02, 0x03, 0x04, 0x05, 0x06, 0x20, 0xFF].contains code = true) (h : Kept a0 s) :
    Kept a0 (s.tapSelect code) := by
  refine State.modTap_kept _ _ (fun x hx => ?_) (kept_ite h (State.ballOut_kept _ _ h))
  unfold Tap.wf at hx ⊢
  rw [hc]
  simp only [Bool.and_eq_true] at hx ⊢
  exact ⟨⟨trivial, hx.1.2⟩, hx.2⟩

theorem State.boundaryScan_kept {a0 : State} (s : State) (load : BitVec 2048) (h : Kept a0 s) :
    Kept a0 (s.boundaryScan load) :=
  State.modTap_kept _ _ (fun _ hx => hx) (State.ballOut_kept _ _ (kept_mk_iff.2 h))

theorem State.drive_kept {a0 : State} (s : State) (code : Nat) (load : Option (BitVec 2048))
    (hc : [0x01, 0x02, 0x03, 0x04, 0x05, 0x06, 0x20, 0xFF].contains code = true) (h : Kept a0 s) :
    Kept a0 (s.drive code load) := by
  unfold State.drive
  split
  · split
    · exact State.boundaryScan_kept _ _ (State.tapSelect_kept _ _ hc h)
    · exact State.tapSelect_kept _ _ hc h
  · refine State.modTap_kept _ _ (fun x hx => ?_) (State.tapSelect_kept _ _ rfl h)
    unfold Tap.wf at hx ⊢
    simp only [Bool.and_eq_true, decide_eq_true_eq] at hx ⊢
    exact ⟨⟨hx.1.1, by decide⟩, by decide⟩

end Sys2Proof.Machine
end

