-- ==== Sys2Proof/Laws/Registers.lean ====
section
/-!
SUPPORT. Control registers: what a register, a field and a bit read after a write, and the fields of the
state that a register write leaves alone.
-/

namespace Sys2Proof.Machine

theorem rget_rset (s : State) (a b : Nat) (v : Word) : (s.rset a v).rget b = if b = a then v else s.rget b := by
  unfold State.rget State.rset
  by_cases h : b = a
  · subst h; simp
  · rw [if_neg h]; exact tget_tset_ne _ _ _ _ h

@[simp] theorem rget_rset_self (s : State) (a : Nat) (v : Word) : (s.rset a v).rget a = v := by
  rw [rget_rset, if_pos rfl]

theorem rget_rset_ne (s : State) {a b : Nat} (v : Word) (h : b ≠ a) : (s.rset a v).rget b = s.rget b := by
  rw [rget_rset, if_neg h]

theorem rget_rfldSet_ne (s : State) {a b : Nat} (lo n v : Nat) (h : b ≠ a) :
    (s.rfldSet a lo n v).rget b = s.rget b := rget_rset_ne s _ h

theorem rget_rbitSet_ne (s : State) {a b : Nat} (i : Nat) (v : Bool) (h : b ≠ a) :
    (s.rbitSet a i v).rget b = s.rget b := rget_rset_ne s _ h

theorem rget_rcount_ne (s : State) {a b : Nat} (lo n k : Nat) (h : b ≠ a) :
    (s.rcount a lo n k).rget b = s.rget b := rget_rset_ne s _ h

theorem rget_rwrap_ne (s : State) {a b : Nat} (lo n k : Nat) (h : b ≠ a) :
    (s.rwrap a lo n k).rget b = s.rget b := rget_rset_ne s _ h

theorem rfld_rfldSet_self (s : State) (a lo n v : Nat) (h : lo + n ≤ 32) :
    (s.rfldSet a lo n v).rfld a lo n = v % 2 ^ n := by
  unfold State.rfld State.rfldSet
  rw [rget_rset_self, fget_fset_self _ _ _ _ h]

theorem rfld_rfldSet_ne (s : State) (a lo n lo' n' v : Nat) (h : lo' + n' ≤ lo ∨ lo + n ≤ lo') :
    (s.rfldSet a lo n v).rfld a lo' n' = s.rfld a lo' n' := by
  unfold State.rfld State.rfldSet
  rw [rget_rset_self, fget_fset_ne _ _ _ _ _ _ h]

theorem rbit_rbitSet_self (s : State) (a i : Nat) (b : Bool) (h : i < 32) :
    (s.rbitSet a i b).rbit a i = b := by
  unfold State.rbit State.rbitSet
  rw [rget_rset_self, fbit_fsetBit_self _ _ _ h]

theorem rbit_rbitSet_ne (s : State) (a i j : Nat) (b : Bool) (h : j ≠ i) :
    (s.rbitSet a i b).rbit a j = s.rbit a j := by
  unfold State.rbit State.rbitSet
  rw [rget_rset_self, fbit_fsetBit_ne _ _ _ _ h]

/-- A field reads the same in states whose register does. -/
theorem rfld_congr {s t : State} {a : Nat} (h : t.rget a = s.rget a) (lo n : Nat) :
    t.rfld a lo n = s.rfld a lo n := by unfold State.rfld; rw [h]

theorem rbit_congr {s t : State} {a : Nat} (h : t.rget a = s.rget a) (i : Nat) : t.rbit a i = s.rbit a i := by
  unfold State.rbit; rw [h]

/-- A register that a write of data space, tiles or another field leaves reads as before. -/
theorem rget_of_ctl {s t : State} (h : t.ctl = s.ctl) (a : Nat) : t.rget a = s.rget a := by
  unfold State.rget; rw [h]

theorem mget_of_mem {s t : State} (h : t.mem = s.mem) (a : Nat) : t.mget a = s.mget a := by
  unfold State.mget; rw [h]

end Sys2Proof.Machine
end

