-- ==== Sys2Proof/Laws/Observed.lean ====
section
/-!
SUPPORT. Observed: the records of events, of streams and of telemetry change the registers and the memory
that observation writes, and nothing else.
-/

namespace Sys2Proof.Machine

theorem Observed.refl (s : State) : Observed s s := ⟨rfl, fun _ _ => rfl, fun _ => ⟨rfl, rfl, rfl, rfl, rfl⟩⟩

theorem obsReg_enable : obsReg (mshA 0x3000) = false := by decide

theorem streamOn_congr {s t : State} (h : t.rget (mshA 0x3000) = s.rget (mshA 0x3000)) (k : Nat) :
    t.streamOn k = s.streamOn k := rbit_congr h _

theorem Observed.streamsOff {s t : State} (h : Observed s t) : t.streamsOff = s.streamsOff := by
  unfold State.streamsOff
  congr 1
  funext k
  rw [streamOn_congr (h.regs _ obsReg_enable)]

theorem Observed.trans {a b c : State} (h : Observed a b) (k : Observed b c) : Observed a c where
  rest := by rw [k.rest, h.rest]
  regs r hr := (k.regs r hr).trans (h.regs r hr)
  quiet q := by
    obtain ⟨h1, h2, h3, h4, h5⟩ := h.quiet q
    obtain ⟨k1, k2, k3, k4, k5⟩ := k.quiet (h.streamsOff ▸ q)
    exact ⟨k1.trans h1, k2.trans h2, k3.trans h3, k4.trans h4, k5.trans h5⟩

/-- An enabled stream is no quiet state. -/
theorem not_quiet {s : State} {k : Nat} (hk : k < 4) (h : s.streamOn k = true) : s.streamsOff ≠ true := by
  intro q
  unfold State.streamsOff at q
  rw [List.all_eq_true] at q
  have := q k (List.mem_range.2 hk)
  simp [h] at this

/-- What a stream may do once it is enabled: as Observed, with no claim about quiet states. -/
structure Streamed (s t : State) : Prop where
  rest : t = { s with ctl := t.ctl, mem := t.mem, poison := t.poison, wrote := t.wrote, obs := t.obs, outs := t.outs }
  regs : ∀ a, obsReg a = false → t.rget a = s.rget a

theorem Streamed.refl (s : State) : Streamed s s := ⟨rfl, fun _ _ => rfl⟩

theorem Streamed.trans {a b c : State} (h : Streamed a b) (k : Streamed b c) : Streamed a c where
  rest := by rw [k.rest, h.rest]
  regs r hr := (k.regs r hr).trans (h.regs r hr)

theorem Streamed.observed {s t : State} (h : Streamed s t) (n : s.streamsOff ≠ true) : Observed s t :=
  ⟨h.rest, h.regs, fun q => absurd q n⟩

theorem streamed_ite {a x y : State} {c : Prop} [Decidable c] (hx : Streamed a x) (hy : Streamed a y) :
    Streamed a (if c then x else y) := by split <;> assumption

/-- A record update of data space, poison marks, observation or what has been sent. -/
theorem streamed_mk {a b : State} {m p w o q} (h : Streamed a b) :
    Streamed a (State.mk b.pending b.phase b.faults b.now b.fresh b.ctl m p b.lost b.ue w b.banks b.was b.scrub b.tiles b.loans b.stores b.tmpls b.saved b.links b.emitQ b.outst b.nextTag b.waits b.dsp b.lap o b.time b.health b.net0 b.net1 b.boot b.pins b.tap b.casc q) where
  rest := by rw [h.rest]
  regs := h.regs

theorem Streamed.rset {s x : State} {a : Nat} (v : Word) (h : obsReg a = true) (k : Streamed s x) :
    Streamed s (x.rset a v) where
  rest := by rw [k.rest]; rfl
  regs b hb := (rget_rset_ne x v (fun e => by rw [e, h] at hb; cases hb)).trans (k.regs b hb)

theorem Streamed.mwrite {s x : State} (a : Nat) (l : List Byte) (k : Streamed s x) : Streamed s (x.mwrite a l) :=
  streamed_mk k

/-! ## Streams and telemetry -/

theorem obufReg {k off : Nat} (hk : k < 4) (ho : off < 16) : obsReg (obufA k off) = true := by
  unfold obsReg obufA mshA
  have h1 : 0x00080000 + 0x3008 ≤ 0x00080000 + (0x3010 + 16 * k + off) := by omega
  have h2 : 0x00080000 + (0x3010 + 16 * k + off) < 0x00080000 + 0x3050 := by omega
  simp [h1, h2]

theorem netReg (k : Nat) (hk : k < 2) : obsReg (netA k 0x24) = true ∧ obsReg (netA k 0x28) = true := by
  have : k = 0 ∨ k = 1 := by omega
  rcases this with rfl | rfl <;> exact ⟨by decide, by decide⟩

theorem sendFrame_streamed {a s : State} (k : Nat) (b : List Byte) (hk : k < 2) (h : Streamed a s) :
    Streamed a (s.sendFrame k b) := by
  unfold State.sendFrame
  split
  · exact Streamed.rset _ (netReg k hk).1 (streamed_mk h)
  · exact Streamed.rset _ (netReg k hk).2 h

theorem ringWrite_streamed {a s : State} (base size o : Nat) (l : List Byte) (h : Streamed a s) :
    Streamed a (s.ringWrite base size o l) :=
  streamed_ite (Streamed.mwrite _ _ h) (Streamed.mwrite _ _ (Streamed.mwrite _ _ h))

theorem ringPut_streamed {a s : State} (k : Nat) (l : List Byte) (hk : k < 4) (h : Streamed a s) :
    Streamed a (s.ringPut k l) :=
  Streamed.rset _ (obufReg hk (by omega)) (ringWrite_streamed _ _ _ _ h)

theorem stageFree_streamed {a s : State} (n : Nat) (h : Streamed a s) : Streamed a (s.stageFree n) :=
  Streamed.rset _ (by decide) h

theorem obsDrain_streamed {a : State} (n : Nat) {s : State} (h : Streamed a s) : Streamed a (s.obsDrain n) := by
  induction n generalizing s with
  | zero => exact h
  | succ n ih =>
    unfold State.obsDrain
    split
    · exact h
    · split
      · exact h
      · exact ih (ringPut_streamed _ _ (Fin.isLt _)
          (streamed_ite (stageFree_streamed _ (streamed_mk h)) (streamed_mk h)))

theorem toMemory_streamed {a s : State} (k : Fin 4) (l : List Byte) (h : Streamed a s) :
    Streamed a (s.toMemory k l) := by
  unfold State.toMemory
  split
  · exact streamed_ite (stageFree_streamed _ h) h
  · split
    · exact Streamed.rset _ (obufReg k.isLt (by omega)) h
    · exact obsDrain_streamed _ (streamed_mk h)

theorem telemSend_streamed {a s : State} (i : Nat) (h : Streamed a s) : Streamed a (s.telemSend i) := by
  unfold State.telemSend
  split
  · exact h
  · dsimp only
    split
    · exact h
    · split
      · exact h
      · exact streamed_mk (streamed_mk (sendFrame_streamed _ _ (Fin.isLt _) h))

theorem telemAll_streamed {a s : State} (i : Nat) (h : Streamed a s) : Streamed a (s.telemAll i) := by
  unfold State.telemAll State.each
  generalize List.range _ = l
  induction l generalizing s with
  | nil => exact h
  | cons b l ih => exact ih (telemSend_streamed i h)

theorem toPort_streamed {a s : State} (k : Nat) (l : List Byte) (i : Nat) (hk : k < 4) (h : Streamed a s) :
    Streamed a (s.toPort k l i) := by
  unfold State.toPort
  split
  · exact h
  · split
    · exact h
    · split
      · exact Streamed.rset _ (obufReg hk (by omega)) (streamed_mk h)
      · exact telemAll_streamed _ (streamed_mk h)

theorem streamed_each {α : Type} {a s : State} (l : List α) (f : State → α → State)
    (hf : ∀ x y, Streamed a x → Streamed a (f x y)) (h : Streamed a s) : Streamed a (s.each l f) := by
  unfold State.each
  induction l generalizing s with
  | nil => exact h
  | cons b l ih => exact ih (hf s b h)

/-- A record of a stream. -/
theorem streamRec_streamed {a s : State} (k : Fin 4) (l pl : List Byte) (h : Streamed a s) :
    Streamed a (s.streamRec k l pl) := by
  unfold State.streamRec
  split
  · exact streamed_each _ _ (fun x i hx => toPort_streamed k.val pl i k.isLt hx) (toMemory_streamed k l h)
  · exact streamed_ite (stageFree_streamed _ h) h

theorem streamRec_observed (s : State) (k : Fin 4) (l pl : List Byte) : Observed s (s.streamRec k l pl) := by
  have hs := streamRec_streamed (s := s) k l pl (Streamed.refl s)
  by_cases h : s.streamOn k.val = true
  · exact hs.observed (not_quiet k.isLt h)
  · refine ⟨hs.rest, hs.regs, fun _ => ?_⟩
    unfold State.streamRec
    have h' : (s.streamOn k.val && !s.coreHold) ≠ true := fun e => h (Bool.and_eq_true_iff.1 e).1
    rw [if_neg h']
    split <;> exact ⟨rfl, rfl, rfl, rfl, rfl⟩

/-! ## Events -/

theorem Observed.rset {s x : State} {a : Nat} (v : Word) (h : obsReg a = true) (k : Observed s x) :
    Observed s (x.rset a v) where
  rest := by rw [k.rest]; rfl
  regs b hb := (rget_rset_ne x v (fun e => by rw [e, h] at hb; cases hb)).trans (k.regs b hb)
  quiet := k.quiet

theorem ringReg {q off : Nat} (hq : q < 64) (ho : off < 0x1000) : obsReg (ringA q off) = true := by
  unfold obsReg ringA
  have h1 : 0x000C0000 ≤ 0x000C0000 + 0x1000 * q + off := by omega
  have h2 : 0x000C0000 + 0x1000 * q + off < 0x00100000 := by omega
  simp [h1, h2]

theorem rsetWords_observed {s x : State} (q off : Nat) (l : List Word) (hq : q < 64)
    (h : off + 4 * l.length ≤ 0x1000) (k : Observed s x) : Observed s (x.rsetWords (ringA q off) l) := by
  induction l generalizing x off with
  | nil => exact k
  | cons w l ih =>
    unfold State.rsetWords
    simp only [List.length_cons] at h
    have e : ringA q off + 4 = ringA q (off + 4) := by unfold ringA; omega
    rw [e]
    exact ih (off + 4) (by omega) (Observed.rset w (ringReg hq (by omega)) k)

theorem length_wordsOf (l : List Byte) : (wordsOf l).length = l.length / 4 := by
  fun_induction wordsOf l with
  | case1 a b c d t ih => simp only [List.length_cons, ih]; omega
  | case2 l h =>
    match l, h with
    | [], _ => rfl
    | [_], _ => simp
    | [_, _], _ => simp
    | [_, _, _], _ => simp
    | a :: b :: c :: d :: t, h => exact absurd rfl (h a b c d t)

/-- The record of an event in a ring (R466). -/
theorem event_observed {a s : State} (q code : Nat) (w : EvOf) (d0 d1 : Nat) (hq : q < 64) (h : Observed a s) :
    Observed a (s.event q code w d0 d1) := by
  unfold State.event
  extract_lets n st b s1
  refine h.trans (Observed.trans (b := s1.rset _ _) ?_ (streamRec_observed _ _ _ _))
  refine Observed.rset _ (ringReg hq (by decide)) (rsetWords_observed q _ _ hq ?_ (Observed.refl s))
  have h1 : n % 64 < 64 := Nat.mod_lt _ (by decide)
  have h2 : b.length = 32 := by
    simp only [b, List.length_append, length_leBytes, List.length_cons, List.length_nil]
  rw [length_wordsOf, h2]
  omega

theorem eventCtx_observed {a s : State} (q code c heat layer oper d0 d1 : Nat) (hq : q < 64) (h : Observed a s) :
    Observed a (s.eventCtx q code c heat layer oper d0 d1) := event_observed _ _ _ _ _ hq h

theorem eventTile_observed {a s : State} (t code d0 d1 : Nat) (ids : Option CmdIds) (ht : t < 64) (h : Observed a s) :
    Observed a (s.eventTile t code d0 d1 ids) := eventCtx_observed _ _ _ _ _ _ _ _ ht h

end Sys2Proof.Machine
end

