-- ==== Sys2Proof/Laws/State.lean ====
section
/-!
SUPPORT. One lemma per field per update of the state: what it leaves, and what it writes.
-/

namespace Sys2Proof.Machine

/-! ## State.rset -/

@[simp] theorem State.rset_pending (s : State) (a : Nat) (v : Word) : (s.rset a v).pending = s.pending := rfl
@[simp] theorem State.rset_phase (s : State) (a : Nat) (v : Word) : (s.rset a v).phase = s.phase := rfl
@[simp] theorem State.rset_faults (s : State) (a : Nat) (v : Word) : (s.rset a v).faults = s.faults := rfl
@[simp] theorem State.rset_now (s : State) (a : Nat) (v : Word) : (s.rset a v).now = s.now := rfl
@[simp] theorem State.rset_fresh (s : State) (a : Nat) (v : Word) : (s.rset a v).fresh = s.fresh := rfl
@[simp] theorem State.rset_ctl (s : State) (a : Nat) (v : Word) : (s.rset a v).ctl = tset (regReset a) s.ctl a v := rfl
@[simp] theorem State.rset_mem (s : State) (a : Nat) (v : Word) : (s.rset a v).mem = s.mem := rfl
@[simp] theorem State.rset_poison (s : State) (a : Nat) (v : Word) : (s.rset a v).poison = s.poison := rfl
@[simp] theorem State.rset_lost (s : State) (a : Nat) (v : Word) : (s.rset a v).lost = s.lost := rfl
@[simp] theorem State.rset_ue (s : State) (a : Nat) (v : Word) : (s.rset a v).ue = s.ue := rfl
@[simp] theorem State.rset_wrote (s : State) (a : Nat) (v : Word) : (s.rset a v).wrote = s.wrote := rfl
@[simp] theorem State.rset_was (s : State) (a : Nat) (v : Word) : (s.rset a v).was = s.was := rfl
@[simp] theorem State.rset_banks (s : State) (a : Nat) (v : Word) : (s.rset a v).banks = s.banks := rfl
@[simp] theorem State.rset_scrub (s : State) (a : Nat) (v : Word) : (s.rset a v).scrub = s.scrub := rfl
@[simp] theorem State.rset_tiles (s : State) (a : Nat) (v : Word) : (s.rset a v).tiles = s.tiles := rfl
@[simp] theorem State.rset_loans (s : State) (a : Nat) (v : Word) : (s.rset a v).loans = s.loans := rfl
@[simp] theorem State.rset_stores (s : State) (a : Nat) (v : Word) : (s.rset a v).stores = s.stores := rfl
@[simp] theorem State.rset_tmpls (s : State) (a : Nat) (v : Word) : (s.rset a v).tmpls = s.tmpls := rfl
@[simp] theorem State.rset_saved (s : State) (a : Nat) (v : Word) : (s.rset a v).saved = s.saved := rfl
@[simp] theorem State.rset_links (s : State) (a : Nat) (v : Word) : (s.rset a v).links = s.links := rfl
@[simp] theorem State.rset_emitQ (s : State) (a : Nat) (v : Word) : (s.rset a v).emitQ = s.emitQ := rfl
@[simp] theorem State.rset_outst (s : State) (a : Nat) (v : Word) : (s.rset a v).outst = s.outst := rfl
@[simp] theorem State.rset_nextTag (s : State) (a : Nat) (v : Word) : (s.rset a v).nextTag = s.nextTag := rfl
@[simp] theorem State.rset_waits (s : State) (a : Nat) (v : Word) : (s.rset a v).waits = s.waits := rfl
@[simp] theorem State.rset_dsp (s : State) (a : Nat) (v : Word) : (s.rset a v).dsp = s.dsp := rfl
@[simp] theorem State.rset_lap (s : State) (a : Nat) (v : Word) : (s.rset a v).lap = s.lap := rfl
@[simp] theorem State.rset_obs (s : State) (a : Nat) (v : Word) : (s.rset a v).obs = s.obs := rfl
@[simp] theorem State.rset_time (s : State) (a : Nat) (v : Word) : (s.rset a v).time = s.time := rfl
@[simp] theorem State.rset_health (s : State) (a : Nat) (v : Word) : (s.rset a v).health = s.health := rfl
@[simp] theorem State.rset_net0 (s : State) (a : Nat) (v : Word) : (s.rset a v).net0 = s.net0 := rfl
@[simp] theorem State.rset_net1 (s : State) (a : Nat) (v : Word) : (s.rset a v).net1 = s.net1 := rfl
@[simp] theorem State.rset_boot (s : State) (a : Nat) (v : Word) : (s.rset a v).boot = s.boot := rfl
@[simp] theorem State.rset_pins (s : State) (a : Nat) (v : Word) : (s.rset a v).pins = s.pins := rfl
@[simp] theorem State.rset_tap (s : State) (a : Nat) (v : Word) : (s.rset a v).tap = s.tap := rfl
@[simp] theorem State.rset_casc (s : State) (a : Nat) (v : Word) : (s.rset a v).casc = s.casc := rfl
@[simp] theorem State.rset_outs (s : State) (a : Nat) (v : Word) : (s.rset a v).outs = s.outs := rfl

/-! ## State.mset -/

@[simp] theorem State.mset_pending (s : State) (a : Nat) (b : Byte) : (s.mset a b).pending = s.pending := rfl
@[simp] theorem State.mset_phase (s : State) (a : Nat) (b : Byte) : (s.mset a b).phase = s.phase := rfl
@[simp] theorem State.mset_faults (s : State) (a : Nat) (b : Byte) : (s.mset a b).faults = s.faults := rfl
@[simp] theorem State.mset_now (s : State) (a : Nat) (b : Byte) : (s.mset a b).now = s.now := rfl
@[simp] theorem State.mset_fresh (s : State) (a : Nat) (b : Byte) : (s.mset a b).fresh = s.fresh := rfl
@[simp] theorem State.mset_ctl (s : State) (a : Nat) (b : Byte) : (s.mset a b).ctl = s.ctl := rfl
@[simp] theorem State.mset_mem (s : State) (a : Nat) (b : Byte) : (s.mset a b).mem = tset emptyByte s.mem a b := rfl
@[simp] theorem State.mset_poison (s : State) (a : Nat) (b : Byte) : (s.mset a b).poison = s.poison := rfl
@[simp] theorem State.mset_lost (s : State) (a : Nat) (b : Byte) : (s.mset a b).lost = s.lost := rfl
@[simp] theorem State.mset_ue (s : State) (a : Nat) (b : Byte) : (s.mset a b).ue = s.ue := rfl
@[simp] theorem State.mset_wrote (s : State) (a : Nat) (b : Byte) : (s.mset a b).wrote = s.wrote := rfl
@[simp] theorem State.mset_was (s : State) (a : Nat) (b : Byte) : (s.mset a b).was = s.was := rfl
@[simp] theorem State.mset_banks (s : State) (a : Nat) (b : Byte) : (s.mset a b).banks = s.banks := rfl
@[simp] theorem State.mset_scrub (s : State) (a : Nat) (b : Byte) : (s.mset a b).scrub = s.scrub := rfl
@[simp] theorem State.mset_tiles (s : State) (a : Nat) (b : Byte) : (s.mset a b).tiles = s.tiles := rfl
@[simp] theorem State.mset_loans (s : State) (a : Nat) (b : Byte) : (s.mset a b).loans = s.loans := rfl
@[simp] theorem State.mset_stores (s : State) (a : Nat) (b : Byte) : (s.mset a b).stores = s.stores := rfl
@[simp] theorem State.mset_tmpls (s : State) (a : Nat) (b : Byte) : (s.mset a b).tmpls = s.tmpls := rfl
@[simp] theorem State.mset_saved (s : State) (a : Nat) (b : Byte) : (s.mset a b).saved = s.saved := rfl
@[simp] theorem State.mset_links (s : State) (a : Nat) (b : Byte) : (s.mset a b).links = s.links := rfl
@[simp] theorem State.mset_emitQ (s : State) (a : Nat) (b : Byte) : (s.mset a b).emitQ = s.emitQ := rfl
@[simp] theorem State.mset_outst (s : State) (a : Nat) (b : Byte) : (s.mset a b).outst = s.outst := rfl
@[simp] theorem State.mset_nextTag (s : State) (a : Nat) (b : Byte) : (s.mset a b).nextTag = s.nextTag := rfl
@[simp] theorem State.mset_waits (s : State) (a : Nat) (b : Byte) : (s.mset a b).waits = s.waits := rfl
@[simp] theorem State.mset_dsp (s : State) (a : Nat) (b : Byte) : (s.mset a b).dsp = s.dsp := rfl
@[simp] theorem State.mset_lap (s : State) (a : Nat) (b : Byte) : (s.mset a b).lap = s.lap := rfl
@[simp] theorem State.mset_obs (s : State) (a : Nat) (b : Byte) : (s.mset a b).obs = s.obs := rfl
@[simp] theorem State.mset_time (s : State) (a : Nat) (b : Byte) : (s.mset a b).time = s.time := rfl
@[simp] theorem State.mset_health (s : State) (a : Nat) (b : Byte) : (s.mset a b).health = s.health := rfl
@[simp] theorem State.mset_net0 (s : State) (a : Nat) (b : Byte) : (s.mset a b).net0 = s.net0 := rfl
@[simp] theorem State.mset_net1 (s : State) (a : Nat) (b : Byte) : (s.mset a b).net1 = s.net1 := rfl
@[simp] theorem State.mset_boot (s : State) (a : Nat) (b : Byte) : (s.mset a b).boot = s.boot := rfl
@[simp] theorem State.mset_pins (s : State) (a : Nat) (b : Byte) : (s.mset a b).pins = s.pins := rfl
@[simp] theorem State.mset_tap (s : State) (a : Nat) (b : Byte) : (s.mset a b).tap = s.tap := rfl
@[simp] theorem State.mset_casc (s : State) (a : Nat) (b : Byte) : (s.mset a b).casc = s.casc := rfl
@[simp] theorem State.mset_outs (s : State) (a : Nat) (b : Byte) : (s.mset a b).outs = s.outs := rfl

/-! ## State.mwrite -/

@[simp] theorem State.mwrite_pending (s : State) (a : Nat) (l : List Byte) : (s.mwrite a l).pending = s.pending := rfl
@[simp] theorem State.mwrite_phase (s : State) (a : Nat) (l : List Byte) : (s.mwrite a l).phase = s.phase := rfl
@[simp] theorem State.mwrite_faults (s : State) (a : Nat) (l : List Byte) : (s.mwrite a l).faults = s.faults := rfl
@[simp] theorem State.mwrite_now (s : State) (a : Nat) (l : List Byte) : (s.mwrite a l).now = s.now := rfl
@[simp] theorem State.mwrite_fresh (s : State) (a : Nat) (l : List Byte) : (s.mwrite a l).fresh = s.fresh := rfl
@[simp] theorem State.mwrite_ctl (s : State) (a : Nat) (l : List Byte) : (s.mwrite a l).ctl = s.ctl := rfl
@[simp] theorem State.mwrite_mem (s : State) (a : Nat) (l : List Byte) : (s.mwrite a l).mem = mputs s.mem (atAddr a l) := rfl
@[simp] theorem State.mwrite_lost (s : State) (a : Nat) (l : List Byte) : (s.mwrite a l).lost = s.lost := rfl
@[simp] theorem State.mwrite_ue (s : State) (a : Nat) (l : List Byte) : (s.mwrite a l).ue = s.ue := rfl
@[simp] theorem State.mwrite_wrote (s : State) (a : Nat) (l : List Byte) : (s.mwrite a l).wrote = (s.now, (a, l.length) :: s.wroteNow) := rfl
@[simp] theorem State.mwrite_was (s : State) (a : Nat) (l : List Byte) : (s.mwrite a l).was = s.was := rfl
@[simp] theorem State.mwrite_banks (s : State) (a : Nat) (l : List Byte) : (s.mwrite a l).banks = s.banks := rfl
@[simp] theorem State.mwrite_scrub (s : State) (a : Nat) (l : List Byte) : (s.mwrite a l).scrub = s.scrub := rfl
@[simp] theorem State.mwrite_tiles (s : State) (a : Nat) (l : List Byte) : (s.mwrite a l).tiles = s.tiles := rfl
@[simp] theorem State.mwrite_loans (s : State) (a : Nat) (l : List Byte) : (s.mwrite a l).loans = s.loans := rfl
@[simp] theorem State.mwrite_stores (s : State) (a : Nat) (l : List Byte) : (s.mwrite a l).stores = s.stores := rfl
@[simp] theorem State.mwrite_tmpls (s : State) (a : Nat) (l : List Byte) : (s.mwrite a l).tmpls = s.tmpls := rfl
@[simp] theorem State.mwrite_saved (s : State) (a : Nat) (l : List Byte) : (s.mwrite a l).saved = s.saved := rfl
@[simp] theorem State.mwrite_links (s : State) (a : Nat) (l : List Byte) : (s.mwrite a l).links = s.links := rfl
@[simp] theorem State.mwrite_emitQ (s : State) (a : Nat) (l : List Byte) : (s.mwrite a l).emitQ = s.emitQ := rfl
@[simp] theorem State.mwrite_outst (s : State) (a : Nat) (l : List Byte) : (s.mwrite a l).outst = s.outst := rfl
@[simp] theorem State.mwrite_nextTag (s : State) (a : Nat) (l : List Byte) : (s.mwrite a l).nextTag = s.nextTag := rfl
@[simp] theorem State.mwrite_waits (s : State) (a : Nat) (l : List Byte) : (s.mwrite a l).waits = s.waits := rfl
@[simp] theorem State.mwrite_dsp (s : State) (a : Nat) (l : List Byte) : (s.mwrite a l).dsp = s.dsp := rfl
@[simp] theorem State.mwrite_lap (s : State) (a : Nat) (l : List Byte) : (s.mwrite a l).lap = s.lap := rfl
@[simp] theorem State.mwrite_obs (s : State) (a : Nat) (l : List Byte) : (s.mwrite a l).obs = s.obs := rfl
@[simp] theorem State.mwrite_time (s : State) (a : Nat) (l : List Byte) : (s.mwrite a l).time = s.time := rfl
@[simp] theorem State.mwrite_health (s : State) (a : Nat) (l : List Byte) : (s.mwrite a l).health = s.health := rfl
@[simp] theorem State.mwrite_net0 (s : State) (a : Nat) (l : List Byte) : (s.mwrite a l).net0 = s.net0 := rfl
@[simp] theorem State.mwrite_net1 (s : State) (a : Nat) (l : List Byte) : (s.mwrite a l).net1 = s.net1 := rfl
@[simp] theorem State.mwrite_boot (s : State) (a : Nat) (l : List Byte) : (s.mwrite a l).boot = s.boot := rfl
@[simp] theorem State.mwrite_pins (s : State) (a : Nat) (l : List Byte) : (s.mwrite a l).pins = s.pins := rfl
@[simp] theorem State.mwrite_tap (s : State) (a : Nat) (l : List Byte) : (s.mwrite a l).tap = s.tap := rfl
@[simp] theorem State.mwrite_casc (s : State) (a : Nat) (l : List Byte) : (s.mwrite a l).casc = s.casc := rfl
@[simp] theorem State.mwrite_outs (s : State) (a : Nat) (l : List Byte) : (s.mwrite a l).outs = s.outs := rfl

/-! ## State.mpoison -/

@[simp] theorem State.mpoison_pending (s : State) (a : Nat) : (s.mpoison a).pending = s.pending := rfl
@[simp] theorem State.mpoison_phase (s : State) (a : Nat) : (s.mpoison a).phase = s.phase := rfl
@[simp] theorem State.mpoison_faults (s : State) (a : Nat) : (s.mpoison a).faults = s.faults := rfl
@[simp] theorem State.mpoison_now (s : State) (a : Nat) : (s.mpoison a).now = s.now := rfl
@[simp] theorem State.mpoison_fresh (s : State) (a : Nat) : (s.mpoison a).fresh = s.fresh := rfl
@[simp] theorem State.mpoison_ctl (s : State) (a : Nat) : (s.mpoison a).ctl = s.ctl := rfl
@[simp] theorem State.mpoison_mem (s : State) (a : Nat) : (s.mpoison a).mem = s.mem := rfl
@[simp] theorem State.mpoison_poison (s : State) (a : Nat) : (s.mpoison a).poison = linsert s.poison (poisonKey a) := rfl
@[simp] theorem State.mpoison_lost (s : State) (a : Nat) : (s.mpoison a).lost = s.lost := rfl
@[simp] theorem State.mpoison_ue (s : State) (a : Nat) : (s.mpoison a).ue = s.ue := rfl
@[simp] theorem State.mpoison_wrote (s : State) (a : Nat) : (s.mpoison a).wrote = s.wrote := rfl
@[simp] theorem State.mpoison_was (s : State) (a : Nat) : (s.mpoison a).was = s.was := rfl
@[simp] theorem State.mpoison_banks (s : State) (a : Nat) : (s.mpoison a).banks = s.banks := rfl
@[simp] theorem State.mpoison_scrub (s : State) (a : Nat) : (s.mpoison a).scrub = s.scrub := rfl
@[simp] theorem State.mpoison_tiles (s : State) (a : Nat) : (s.mpoison a).tiles = s.tiles := rfl
@[simp] theorem State.mpoison_loans (s : State) (a : Nat) : (s.mpoison a).loans = s.loans := rfl
@[simp] theorem State.mpoison_stores (s : State) (a : Nat) : (s.mpoison a).stores = s.stores := rfl
@[simp] theorem State.mpoison_tmpls (s : State) (a : Nat) : (s.mpoison a).tmpls = s.tmpls := rfl
@[simp] theorem State.mpoison_saved (s : State) (a : Nat) : (s.mpoison a).saved = s.saved := rfl
@[simp] theorem State.mpoison_links (s : State) (a : Nat) : (s.mpoison a).links = s.links := rfl
@[simp] theorem State.mpoison_emitQ (s : State) (a : Nat) : (s.mpoison a).emitQ = s.emitQ := rfl
@[simp] theorem State.mpoison_outst (s : State) (a : Nat) : (s.mpoison a).outst = s.outst := rfl
@[simp] theorem State.mpoison_nextTag (s : State) (a : Nat) : (s.mpoison a).nextTag = s.nextTag := rfl
@[simp] theorem State.mpoison_waits (s : State) (a : Nat) : (s.mpoison a).waits = s.waits := rfl
@[simp] theorem State.mpoison_dsp (s : State) (a : Nat) : (s.mpoison a).dsp = s.dsp := rfl
@[simp] theorem State.mpoison_lap (s : State) (a : Nat) : (s.mpoison a).lap = s.lap := rfl
@[simp] theorem State.mpoison_obs (s : State) (a : Nat) : (s.mpoison a).obs = s.obs := rfl
@[simp] theorem State.mpoison_time (s : State) (a : Nat) : (s.mpoison a).time = s.time := rfl
@[simp] theorem State.mpoison_health (s : State) (a : Nat) : (s.mpoison a).health = s.health := rfl
@[simp] theorem State.mpoison_net0 (s : State) (a : Nat) : (s.mpoison a).net0 = s.net0 := rfl
@[simp] theorem State.mpoison_net1 (s : State) (a : Nat) : (s.mpoison a).net1 = s.net1 := rfl
@[simp] theorem State.mpoison_boot (s : State) (a : Nat) : (s.mpoison a).boot = s.boot := rfl
@[simp] theorem State.mpoison_pins (s : State) (a : Nat) : (s.mpoison a).pins = s.pins := rfl
@[simp] theorem State.mpoison_tap (s : State) (a : Nat) : (s.mpoison a).tap = s.tap := rfl
@[simp] theorem State.mpoison_casc (s : State) (a : Nat) : (s.mpoison a).casc = s.casc := rfl
@[simp] theorem State.mpoison_outs (s : State) (a : Nat) : (s.mpoison a).outs = s.outs := rfl

/-! ## State.setTile -/

@[simp] theorem State.setTile_pending (s : State) (t : Nat) (x : Tile) : (s.setTile t x).pending = s.pending := rfl
@[simp] theorem State.setTile_phase (s : State) (t : Nat) (x : Tile) : (s.setTile t x).phase = s.phase := rfl
@[simp] theorem State.setTile_faults (s : State) (t : Nat) (x : Tile) : (s.setTile t x).faults = s.faults := rfl
@[simp] theorem State.setTile_now (s : State) (t : Nat) (x : Tile) : (s.setTile t x).now = s.now := rfl
@[simp] theorem State.setTile_fresh (s : State) (t : Nat) (x : Tile) : (s.setTile t x).fresh = s.fresh := rfl
@[simp] theorem State.setTile_ctl (s : State) (t : Nat) (x : Tile) : (s.setTile t x).ctl = s.ctl := rfl
@[simp] theorem State.setTile_mem (s : State) (t : Nat) (x : Tile) : (s.setTile t x).mem = s.mem := rfl
@[simp] theorem State.setTile_poison (s : State) (t : Nat) (x : Tile) : (s.setTile t x).poison = s.poison := rfl
@[simp] theorem State.setTile_lost (s : State) (t : Nat) (x : Tile) : (s.setTile t x).lost = s.lost := rfl
@[simp] theorem State.setTile_ue (s : State) (t : Nat) (x : Tile) : (s.setTile t x).ue = s.ue := rfl
@[simp] theorem State.setTile_wrote (s : State) (t : Nat) (x : Tile) : (s.setTile t x).wrote = s.wrote := rfl
@[simp] theorem State.setTile_was (s : State) (t : Nat) (x : Tile) : (s.setTile t x).was = s.was := rfl
@[simp] theorem State.setTile_banks (s : State) (t : Nat) (x : Tile) : (s.setTile t x).banks = s.banks := rfl
@[simp] theorem State.setTile_scrub (s : State) (t : Nat) (x : Tile) : (s.setTile t x).scrub = s.scrub := rfl
@[simp] theorem State.setTile_tiles (s : State) (t : Nat) (x : Tile) : (s.setTile t x).tiles = tput s.tiles t x := rfl
@[simp] theorem State.setTile_loans (s : State) (t : Nat) (x : Tile) : (s.setTile t x).loans = s.loans := rfl
@[simp] theorem State.setTile_stores (s : State) (t : Nat) (x : Tile) : (s.setTile t x).stores = s.stores := rfl
@[simp] theorem State.setTile_tmpls (s : State) (t : Nat) (x : Tile) : (s.setTile t x).tmpls = s.tmpls := rfl
@[simp] theorem State.setTile_saved (s : State) (t : Nat) (x : Tile) : (s.setTile t x).saved = s.saved := rfl
@[simp] theorem State.setTile_links (s : State) (t : Nat) (x : Tile) : (s.setTile t x).links = s.links := rfl
@[simp] theorem State.setTile_emitQ (s : State) (t : Nat) (x : Tile) : (s.setTile t x).emitQ = s.emitQ := rfl
@[simp] theorem State.setTile_outst (s : State) (t : Nat) (x : Tile) : (s.setTile t x).outst = s.outst := rfl
@[simp] theorem State.setTile_nextTag (s : State) (t : Nat) (x : Tile) : (s.setTile t x).nextTag = s.nextTag := rfl
@[simp] theorem State.setTile_waits (s : State) (t : Nat) (x : Tile) : (s.setTile t x).waits = s.waits := rfl
@[simp] theorem State.setTile_dsp (s : State) (t : Nat) (x : Tile) : (s.setTile t x).dsp = s.dsp := rfl
@[simp] theorem State.setTile_lap (s : State) (t : Nat) (x : Tile) : (s.setTile t x).lap = s.lap := rfl
@[simp] theorem State.setTile_obs (s : State) (t : Nat) (x : Tile) : (s.setTile t x).obs = s.obs := rfl
@[simp] theorem State.setTile_time (s : State) (t : Nat) (x : Tile) : (s.setTile t x).time = s.time := rfl
@[simp] theorem State.setTile_health (s : State) (t : Nat) (x : Tile) : (s.setTile t x).health = s.health := rfl
@[simp] theorem State.setTile_net0 (s : State) (t : Nat) (x : Tile) : (s.setTile t x).net0 = s.net0 := rfl
@[simp] theorem State.setTile_net1 (s : State) (t : Nat) (x : Tile) : (s.setTile t x).net1 = s.net1 := rfl
@[simp] theorem State.setTile_boot (s : State) (t : Nat) (x : Tile) : (s.setTile t x).boot = s.boot := rfl
@[simp] theorem State.setTile_pins (s : State) (t : Nat) (x : Tile) : (s.setTile t x).pins = s.pins := rfl
@[simp] theorem State.setTile_tap (s : State) (t : Nat) (x : Tile) : (s.setTile t x).tap = s.tap := rfl
@[simp] theorem State.setTile_casc (s : State) (t : Nat) (x : Tile) : (s.setTile t x).casc = s.casc := rfl
@[simp] theorem State.setTile_outs (s : State) (t : Nat) (x : Tile) : (s.setTile t x).outs = s.outs := rfl

/-! ## State.setTc -/

@[simp] theorem State.setTc_pending (s : State) (t : Nat) (x : TCtx) : (s.setTc t x).pending = s.pending := rfl
@[simp] theorem State.setTc_phase (s : State) (t : Nat) (x : TCtx) : (s.setTc t x).phase = s.phase := rfl
@[simp] theorem State.setTc_faults (s : State) (t : Nat) (x : TCtx) : (s.setTc t x).faults = s.faults := rfl
@[simp] theorem State.setTc_now (s : State) (t : Nat) (x : TCtx) : (s.setTc t x).now = s.now := rfl
@[simp] theorem State.setTc_fresh (s : State) (t : Nat) (x : TCtx) : (s.setTc t x).fresh = s.fresh := rfl
@[simp] theorem State.setTc_ctl (s : State) (t : Nat) (x : TCtx) : (s.setTc t x).ctl = s.ctl := rfl
@[simp] theorem State.setTc_mem (s : State) (t : Nat) (x : TCtx) : (s.setTc t x).mem = s.mem := rfl
@[simp] theorem State.setTc_poison (s : State) (t : Nat) (x : TCtx) : (s.setTc t x).poison = s.poison := rfl
@[simp] theorem State.setTc_lost (s : State) (t : Nat) (x : TCtx) : (s.setTc t x).lost = s.lost := rfl
@[simp] theorem State.setTc_ue (s : State) (t : Nat) (x : TCtx) : (s.setTc t x).ue = s.ue := rfl
@[simp] theorem State.setTc_wrote (s : State) (t : Nat) (x : TCtx) : (s.setTc t x).wrote = s.wrote := rfl
@[simp] theorem State.setTc_was (s : State) (t : Nat) (x : TCtx) : (s.setTc t x).was = s.was := rfl
@[simp] theorem State.setTc_banks (s : State) (t : Nat) (x : TCtx) : (s.setTc t x).banks = s.banks := rfl
@[simp] theorem State.setTc_scrub (s : State) (t : Nat) (x : TCtx) : (s.setTc t x).scrub = s.scrub := rfl
@[simp] theorem State.setTc_tiles (s : State) (t : Nat) (x : TCtx) : (s.setTc t x).tiles = tput s.tiles t { s.tile t with tc := x } := rfl
@[simp] theorem State.setTc_loans (s : State) (t : Nat) (x : TCtx) : (s.setTc t x).loans = s.loans := rfl
@[simp] theorem State.setTc_stores (s : State) (t : Nat) (x : TCtx) : (s.setTc t x).stores = s.stores := rfl
@[simp] theorem State.setTc_tmpls (s : State) (t : Nat) (x : TCtx) : (s.setTc t x).tmpls = s.tmpls := rfl
@[simp] theorem State.setTc_saved (s : State) (t : Nat) (x : TCtx) : (s.setTc t x).saved = s.saved := rfl
@[simp] theorem State.setTc_links (s : State) (t : Nat) (x : TCtx) : (s.setTc t x).links = s.links := rfl
@[simp] theorem State.setTc_emitQ (s : State) (t : Nat) (x : TCtx) : (s.setTc t x).emitQ = s.emitQ := rfl
@[simp] theorem State.setTc_outst (s : State) (t : Nat) (x : TCtx) : (s.setTc t x).outst = s.outst := rfl
@[simp] theorem State.setTc_nextTag (s : State) (t : Nat) (x : TCtx) : (s.setTc t x).nextTag = s.nextTag := rfl
@[simp] theorem State.setTc_waits (s : State) (t : Nat) (x : TCtx) : (s.setTc t x).waits = s.waits := rfl
@[simp] theorem State.setTc_dsp (s : State) (t : Nat) (x : TCtx) : (s.setTc t x).dsp = s.dsp := rfl
@[simp] theorem State.setTc_lap (s : State) (t : Nat) (x : TCtx) : (s.setTc t x).lap = s.lap := rfl
@[simp] theorem State.setTc_obs (s : State) (t : Nat) (x : TCtx) : (s.setTc t x).obs = s.obs := rfl
@[simp] theorem State.setTc_time (s : State) (t : Nat) (x : TCtx) : (s.setTc t x).time = s.time := rfl
@[simp] theorem State.setTc_health (s : State) (t : Nat) (x : TCtx) : (s.setTc t x).health = s.health := rfl
@[simp] theorem State.setTc_net0 (s : State) (t : Nat) (x : TCtx) : (s.setTc t x).net0 = s.net0 := rfl
@[simp] theorem State.setTc_net1 (s : State) (t : Nat) (x : TCtx) : (s.setTc t x).net1 = s.net1 := rfl
@[simp] theorem State.setTc_boot (s : State) (t : Nat) (x : TCtx) : (s.setTc t x).boot = s.boot := rfl
@[simp] theorem State.setTc_pins (s : State) (t : Nat) (x : TCtx) : (s.setTc t x).pins = s.pins := rfl
@[simp] theorem State.setTc_tap (s : State) (t : Nat) (x : TCtx) : (s.setTc t x).tap = s.tap := rfl
@[simp] theorem State.setTc_casc (s : State) (t : Nat) (x : TCtx) : (s.setTc t x).casc = s.casc := rfl
@[simp] theorem State.setTc_outs (s : State) (t : Nat) (x : TCtx) : (s.setTc t x).outs = s.outs := rfl

/-! ## State.setLnk -/

@[simp] theorem State.setLnk_pending (s : State) (k : Nat) (l : Link) : (s.setLnk k l).pending = s.pending := rfl
@[simp] theorem State.setLnk_phase (s : State) (k : Nat) (l : Link) : (s.setLnk k l).phase = s.phase := rfl
@[simp] theorem State.setLnk_faults (s : State) (k : Nat) (l : Link) : (s.setLnk k l).faults = s.faults := rfl
@[simp] theorem State.setLnk_now (s : State) (k : Nat) (l : Link) : (s.setLnk k l).now = s.now := rfl
@[simp] theorem State.setLnk_fresh (s : State) (k : Nat) (l : Link) : (s.setLnk k l).fresh = s.fresh := rfl
@[simp] theorem State.setLnk_ctl (s : State) (k : Nat) (l : Link) : (s.setLnk k l).ctl = s.ctl := rfl
@[simp] theorem State.setLnk_mem (s : State) (k : Nat) (l : Link) : (s.setLnk k l).mem = s.mem := rfl
@[simp] theorem State.setLnk_poison (s : State) (k : Nat) (l : Link) : (s.setLnk k l).poison = s.poison := rfl
@[simp] theorem State.setLnk_lost (s : State) (k : Nat) (l : Link) : (s.setLnk k l).lost = s.lost := rfl
@[simp] theorem State.setLnk_ue (s : State) (k : Nat) (l : Link) : (s.setLnk k l).ue = s.ue := rfl
@[simp] theorem State.setLnk_wrote (s : State) (k : Nat) (l : Link) : (s.setLnk k l).wrote = s.wrote := rfl
@[simp] theorem State.setLnk_was (s : State) (k : Nat) (l : Link) : (s.setLnk k l).was = s.was := rfl
@[simp] theorem State.setLnk_banks (s : State) (k : Nat) (l : Link) : (s.setLnk k l).banks = s.banks := rfl
@[simp] theorem State.setLnk_scrub (s : State) (k : Nat) (l : Link) : (s.setLnk k l).scrub = s.scrub := rfl
@[simp] theorem State.setLnk_tiles (s : State) (k : Nat) (l : Link) : (s.setLnk k l).tiles = s.tiles := rfl
@[simp] theorem State.setLnk_loans (s : State) (k : Nat) (l : Link) : (s.setLnk k l).loans = s.loans := rfl
@[simp] theorem State.setLnk_stores (s : State) (k : Nat) (l : Link) : (s.setLnk k l).stores = s.stores := rfl
@[simp] theorem State.setLnk_tmpls (s : State) (k : Nat) (l : Link) : (s.setLnk k l).tmpls = s.tmpls := rfl
@[simp] theorem State.setLnk_saved (s : State) (k : Nat) (l : Link) : (s.setLnk k l).saved = s.saved := rfl
@[simp] theorem State.setLnk_links (s : State) (k : Nat) (l : Link) : (s.setLnk k l).links = tput s.links k l := rfl
@[simp] theorem State.setLnk_emitQ (s : State) (k : Nat) (l : Link) : (s.setLnk k l).emitQ = s.emitQ := rfl
@[simp] theorem State.setLnk_outst (s : State) (k : Nat) (l : Link) : (s.setLnk k l).outst = s.outst := rfl
@[simp] theorem State.setLnk_nextTag (s : State) (k : Nat) (l : Link) : (s.setLnk k l).nextTag = s.nextTag := rfl
@[simp] theorem State.setLnk_waits (s : State) (k : Nat) (l : Link) : (s.setLnk k l).waits = s.waits := rfl
@[simp] theorem State.setLnk_dsp (s : State) (k : Nat) (l : Link) : (s.setLnk k l).dsp = s.dsp := rfl
@[simp] theorem State.setLnk_lap (s : State) (k : Nat) (l : Link) : (s.setLnk k l).lap = s.lap := rfl
@[simp] theorem State.setLnk_obs (s : State) (k : Nat) (l : Link) : (s.setLnk k l).obs = s.obs := rfl
@[simp] theorem State.setLnk_time (s : State) (k : Nat) (l : Link) : (s.setLnk k l).time = s.time := rfl
@[simp] theorem State.setLnk_health (s : State) (k : Nat) (l : Link) : (s.setLnk k l).health = s.health := rfl
@[simp] theorem State.setLnk_net0 (s : State) (k : Nat) (l : Link) : (s.setLnk k l).net0 = s.net0 := rfl
@[simp] theorem State.setLnk_net1 (s : State) (k : Nat) (l : Link) : (s.setLnk k l).net1 = s.net1 := rfl
@[simp] theorem State.setLnk_boot (s : State) (k : Nat) (l : Link) : (s.setLnk k l).boot = s.boot := rfl
@[simp] theorem State.setLnk_pins (s : State) (k : Nat) (l : Link) : (s.setLnk k l).pins = s.pins := rfl
@[simp] theorem State.setLnk_tap (s : State) (k : Nat) (l : Link) : (s.setLnk k l).tap = s.tap := rfl
@[simp] theorem State.setLnk_casc (s : State) (k : Nat) (l : Link) : (s.setLnk k l).casc = s.casc := rfl
@[simp] theorem State.setLnk_outs (s : State) (k : Nat) (l : Link) : (s.setLnk k l).outs = s.outs := rfl

/-! ## State.out -/

@[simp] theorem State.out_pending (s : State) (m : OutMsg) : (s.out m).pending = s.pending := rfl
@[simp] theorem State.out_phase (s : State) (m : OutMsg) : (s.out m).phase = s.phase := rfl
@[simp] theorem State.out_faults (s : State) (m : OutMsg) : (s.out m).faults = s.faults := rfl
@[simp] theorem State.out_now (s : State) (m : OutMsg) : (s.out m).now = s.now := rfl
@[simp] theorem State.out_fresh (s : State) (m : OutMsg) : (s.out m).fresh = s.fresh := rfl
@[simp] theorem State.out_ctl (s : State) (m : OutMsg) : (s.out m).ctl = s.ctl := rfl
@[simp] theorem State.out_mem (s : State) (m : OutMsg) : (s.out m).mem = s.mem := rfl
@[simp] theorem State.out_poison (s : State) (m : OutMsg) : (s.out m).poison = s.poison := rfl
@[simp] theorem State.out_lost (s : State) (m : OutMsg) : (s.out m).lost = s.lost := rfl
@[simp] theorem State.out_ue (s : State) (m : OutMsg) : (s.out m).ue = s.ue := rfl
@[simp] theorem State.out_wrote (s : State) (m : OutMsg) : (s.out m).wrote = s.wrote := rfl
@[simp] theorem State.out_was (s : State) (m : OutMsg) : (s.out m).was = s.was := rfl
@[simp] theorem State.out_banks (s : State) (m : OutMsg) : (s.out m).banks = s.banks := rfl
@[simp] theorem State.out_scrub (s : State) (m : OutMsg) : (s.out m).scrub = s.scrub := rfl
@[simp] theorem State.out_tiles (s : State) (m : OutMsg) : (s.out m).tiles = s.tiles := rfl
@[simp] theorem State.out_loans (s : State) (m : OutMsg) : (s.out m).loans = s.loans := rfl
@[simp] theorem State.out_stores (s : State) (m : OutMsg) : (s.out m).stores = s.stores := rfl
@[simp] theorem State.out_tmpls (s : State) (m : OutMsg) : (s.out m).tmpls = s.tmpls := rfl
@[simp] theorem State.out_saved (s : State) (m : OutMsg) : (s.out m).saved = s.saved := rfl
@[simp] theorem State.out_links (s : State) (m : OutMsg) : (s.out m).links = s.links := rfl
@[simp] theorem State.out_emitQ (s : State) (m : OutMsg) : (s.out m).emitQ = s.emitQ := rfl
@[simp] theorem State.out_outst (s : State) (m : OutMsg) : (s.out m).outst = s.outst := rfl
@[simp] theorem State.out_nextTag (s : State) (m : OutMsg) : (s.out m).nextTag = s.nextTag := rfl
@[simp] theorem State.out_waits (s : State) (m : OutMsg) : (s.out m).waits = s.waits := rfl
@[simp] theorem State.out_dsp (s : State) (m : OutMsg) : (s.out m).dsp = s.dsp := rfl
@[simp] theorem State.out_lap (s : State) (m : OutMsg) : (s.out m).lap = s.lap := rfl
@[simp] theorem State.out_obs (s : State) (m : OutMsg) : (s.out m).obs = s.obs := rfl
@[simp] theorem State.out_time (s : State) (m : OutMsg) : (s.out m).time = s.time := rfl
@[simp] theorem State.out_health (s : State) (m : OutMsg) : (s.out m).health = s.health := rfl
@[simp] theorem State.out_net0 (s : State) (m : OutMsg) : (s.out m).net0 = s.net0 := rfl
@[simp] theorem State.out_net1 (s : State) (m : OutMsg) : (s.out m).net1 = s.net1 := rfl
@[simp] theorem State.out_boot (s : State) (m : OutMsg) : (s.out m).boot = s.boot := rfl
@[simp] theorem State.out_pins (s : State) (m : OutMsg) : (s.out m).pins = s.pins := rfl
@[simp] theorem State.out_tap (s : State) (m : OutMsg) : (s.out m).tap = s.tap := rfl
@[simp] theorem State.out_casc (s : State) (m : OutMsg) : (s.out m).casc = s.casc := rfl
@[simp] theorem State.out_outs (s : State) (m : OutMsg) : (s.out m).outs = s.outs ++ [m] := rfl

/-! ## State.hold -/

@[simp] theorem State.hold_pending (s : State) (h : Held) : (s.hold h).pending = s.pending := rfl
@[simp] theorem State.hold_phase (s : State) (h : Held) : (s.hold h).phase = s.phase := rfl
@[simp] theorem State.hold_faults (s : State) (h : Held) : (s.hold h).faults = s.faults := rfl
@[simp] theorem State.hold_now (s : State) (h : Held) : (s.hold h).now = s.now := rfl
@[simp] theorem State.hold_fresh (s : State) (h : Held) : (s.hold h).fresh = s.fresh := rfl
@[simp] theorem State.hold_ctl (s : State) (h : Held) : (s.hold h).ctl = s.ctl := rfl
@[simp] theorem State.hold_mem (s : State) (h : Held) : (s.hold h).mem = s.mem := rfl
@[simp] theorem State.hold_poison (s : State) (h : Held) : (s.hold h).poison = s.poison := rfl
@[simp] theorem State.hold_lost (s : State) (h : Held) : (s.hold h).lost = s.lost := rfl
@[simp] theorem State.hold_ue (s : State) (h : Held) : (s.hold h).ue = s.ue := rfl
@[simp] theorem State.hold_wrote (s : State) (h : Held) : (s.hold h).wrote = s.wrote := rfl
@[simp] theorem State.hold_was (s : State) (h : Held) : (s.hold h).was = s.was := rfl
@[simp] theorem State.hold_banks (s : State) (h : Held) : (s.hold h).banks = s.banks := rfl
@[simp] theorem State.hold_scrub (s : State) (h : Held) : (s.hold h).scrub = s.scrub := rfl
@[simp] theorem State.hold_tiles (s : State) (h : Held) : (s.hold h).tiles = s.tiles := rfl
@[simp] theorem State.hold_loans (s : State) (h : Held) : (s.hold h).loans = s.loans := rfl
@[simp] theorem State.hold_stores (s : State) (h : Held) : (s.hold h).stores = s.stores := rfl
@[simp] theorem State.hold_tmpls (s : State) (h : Held) : (s.hold h).tmpls = s.tmpls := rfl
@[simp] theorem State.hold_saved (s : State) (h : Held) : (s.hold h).saved = s.saved := rfl
@[simp] theorem State.hold_links (s : State) (h : Held) : (s.hold h).links = s.links := rfl
@[simp] theorem State.hold_emitQ (s : State) (h : Held) : (s.hold h).emitQ = s.emitQ := rfl
@[simp] theorem State.hold_outst (s : State) (h : Held) : (s.hold h).outst = s.outst := rfl
@[simp] theorem State.hold_nextTag (s : State) (h : Held) : (s.hold h).nextTag = s.nextTag := rfl
@[simp] theorem State.hold_waits (s : State) (h : Held) : (s.hold h).waits = s.waits := rfl
@[simp] theorem State.hold_dsp (s : State) (h : Held) : (s.hold h).dsp = { s.dsp with held := s.dsp.held ++ [h] } := rfl
@[simp] theorem State.hold_lap (s : State) (h : Held) : (s.hold h).lap = s.lap := rfl
@[simp] theorem State.hold_obs (s : State) (h : Held) : (s.hold h).obs = s.obs := rfl
@[simp] theorem State.hold_time (s : State) (h : Held) : (s.hold h).time = s.time := rfl
@[simp] theorem State.hold_health (s : State) (h : Held) : (s.hold h).health = s.health := rfl
@[simp] theorem State.hold_net0 (s : State) (h : Held) : (s.hold h).net0 = s.net0 := rfl
@[simp] theorem State.hold_net1 (s : State) (h : Held) : (s.hold h).net1 = s.net1 := rfl
@[simp] theorem State.hold_boot (s : State) (h : Held) : (s.hold h).boot = s.boot := rfl
@[simp] theorem State.hold_pins (s : State) (h : Held) : (s.hold h).pins = s.pins := rfl
@[simp] theorem State.hold_tap (s : State) (h : Held) : (s.hold h).tap = s.tap := rfl
@[simp] theorem State.hold_casc (s : State) (h : Held) : (s.hold h).casc = s.casc := rfl
@[simp] theorem State.hold_outs (s : State) (h : Held) : (s.hold h).outs = s.outs := rfl

/-! ## State.setTokens -/

@[simp] theorem State.setTokens_pending (s : State) (p kind : Nat) (v : Int) : (s.setTokens p kind v).pending = s.pending := rfl
@[simp] theorem State.setTokens_phase (s : State) (p kind : Nat) (v : Int) : (s.setTokens p kind v).phase = s.phase := rfl
@[simp] theorem State.setTokens_faults (s : State) (p kind : Nat) (v : Int) : (s.setTokens p kind v).faults = s.faults := rfl
@[simp] theorem State.setTokens_now (s : State) (p kind : Nat) (v : Int) : (s.setTokens p kind v).now = s.now := rfl
@[simp] theorem State.setTokens_fresh (s : State) (p kind : Nat) (v : Int) : (s.setTokens p kind v).fresh = s.fresh := rfl
@[simp] theorem State.setTokens_ctl (s : State) (p kind : Nat) (v : Int) : (s.setTokens p kind v).ctl = s.ctl := rfl
@[simp] theorem State.setTokens_mem (s : State) (p kind : Nat) (v : Int) : (s.setTokens p kind v).mem = s.mem := rfl
@[simp] theorem State.setTokens_poison (s : State) (p kind : Nat) (v : Int) : (s.setTokens p kind v).poison = s.poison := rfl
@[simp] theorem State.setTokens_lost (s : State) (p kind : Nat) (v : Int) : (s.setTokens p kind v).lost = s.lost := rfl
@[simp] theorem State.setTokens_ue (s : State) (p kind : Nat) (v : Int) : (s.setTokens p kind v).ue = s.ue := rfl
@[simp] theorem State.setTokens_wrote (s : State) (p kind : Nat) (v : Int) : (s.setTokens p kind v).wrote = s.wrote := rfl
@[simp] theorem State.setTokens_was (s : State) (p kind : Nat) (v : Int) : (s.setTokens p kind v).was = s.was := rfl
@[simp] theorem State.setTokens_banks (s : State) (p kind : Nat) (v : Int) : (s.setTokens p kind v).banks = s.banks := rfl
@[simp] theorem State.setTokens_scrub (s : State) (p kind : Nat) (v : Int) : (s.setTokens p kind v).scrub = s.scrub := rfl
@[simp] theorem State.setTokens_tiles (s : State) (p kind : Nat) (v : Int) : (s.setTokens p kind v).tiles = s.tiles := rfl
@[simp] theorem State.setTokens_loans (s : State) (p kind : Nat) (v : Int) : (s.setTokens p kind v).loans = s.loans := rfl
@[simp] theorem State.setTokens_stores (s : State) (p kind : Nat) (v : Int) : (s.setTokens p kind v).stores = s.stores := rfl
@[simp] theorem State.setTokens_tmpls (s : State) (p kind : Nat) (v : Int) : (s.setTokens p kind v).tmpls = s.tmpls := rfl
@[simp] theorem State.setTokens_saved (s : State) (p kind : Nat) (v : Int) : (s.setTokens p kind v).saved = s.saved := rfl
@[simp] theorem State.setTokens_links (s : State) (p kind : Nat) (v : Int) : (s.setTokens p kind v).links = s.links := rfl
@[simp] theorem State.setTokens_emitQ (s : State) (p kind : Nat) (v : Int) : (s.setTokens p kind v).emitQ = s.emitQ := rfl
@[simp] theorem State.setTokens_outst (s : State) (p kind : Nat) (v : Int) : (s.setTokens p kind v).outst = s.outst := rfl
@[simp] theorem State.setTokens_nextTag (s : State) (p kind : Nat) (v : Int) : (s.setTokens p kind v).nextTag = s.nextTag := rfl
@[simp] theorem State.setTokens_waits (s : State) (p kind : Nat) (v : Int) : (s.setTokens p kind v).waits = s.waits := rfl
@[simp] theorem State.setTokens_dsp (s : State) (p kind : Nat) (v : Int) : (s.setTokens p kind v).dsp = { s.dsp with tok := tput s.dsp.tok (2 * p + kind) v } := rfl
@[simp] theorem State.setTokens_lap (s : State) (p kind : Nat) (v : Int) : (s.setTokens p kind v).lap = s.lap := rfl
@[simp] theorem State.setTokens_obs (s : State) (p kind : Nat) (v : Int) : (s.setTokens p kind v).obs = s.obs := rfl
@[simp] theorem State.setTokens_time (s : State) (p kind : Nat) (v : Int) : (s.setTokens p kind v).time = s.time := rfl
@[simp] theorem State.setTokens_health (s : State) (p kind : Nat) (v : Int) : (s.setTokens p kind v).health = s.health := rfl
@[simp] theorem State.setTokens_net0 (s : State) (p kind : Nat) (v : Int) : (s.setTokens p kind v).net0 = s.net0 := rfl
@[simp] theorem State.setTokens_net1 (s : State) (p kind : Nat) (v : Int) : (s.setTokens p kind v).net1 = s.net1 := rfl
@[simp] theorem State.setTokens_boot (s : State) (p kind : Nat) (v : Int) : (s.setTokens p kind v).boot = s.boot := rfl
@[simp] theorem State.setTokens_pins (s : State) (p kind : Nat) (v : Int) : (s.setTokens p kind v).pins = s.pins := rfl
@[simp] theorem State.setTokens_tap (s : State) (p kind : Nat) (v : Int) : (s.setTokens p kind v).tap = s.tap := rfl
@[simp] theorem State.setTokens_casc (s : State) (p kind : Nat) (v : Int) : (s.setTokens p kind v).casc = s.casc := rfl
@[simp] theorem State.setTokens_outs (s : State) (p kind : Nat) (v : Int) : (s.setTokens p kind v).outs = s.outs := rfl

/-! ## State.setSub -/

@[simp] theorem State.setSub_pending (s : State) (i : Nat) (b : Sub) : (s.setSub i b).pending = s.pending := rfl
@[simp] theorem State.setSub_phase (s : State) (i : Nat) (b : Sub) : (s.setSub i b).phase = s.phase := rfl
@[simp] theorem State.setSub_faults (s : State) (i : Nat) (b : Sub) : (s.setSub i b).faults = s.faults := rfl
@[simp] theorem State.setSub_now (s : State) (i : Nat) (b : Sub) : (s.setSub i b).now = s.now := rfl
@[simp] theorem State.setSub_fresh (s : State) (i : Nat) (b : Sub) : (s.setSub i b).fresh = s.fresh := rfl
@[simp] theorem State.setSub_ctl (s : State) (i : Nat) (b : Sub) : (s.setSub i b).ctl = s.ctl := rfl
@[simp] theorem State.setSub_mem (s : State) (i : Nat) (b : Sub) : (s.setSub i b).mem = s.mem := rfl
@[simp] theorem State.setSub_poison (s : State) (i : Nat) (b : Sub) : (s.setSub i b).poison = s.poison := rfl
@[simp] theorem State.setSub_lost (s : State) (i : Nat) (b : Sub) : (s.setSub i b).lost = s.lost := rfl
@[simp] theorem State.setSub_ue (s : State) (i : Nat) (b : Sub) : (s.setSub i b).ue = s.ue := rfl
@[simp] theorem State.setSub_wrote (s : State) (i : Nat) (b : Sub) : (s.setSub i b).wrote = s.wrote := rfl
@[simp] theorem State.setSub_was (s : State) (i : Nat) (b : Sub) : (s.setSub i b).was = s.was := rfl
@[simp] theorem State.setSub_banks (s : State) (i : Nat) (b : Sub) : (s.setSub i b).banks = s.banks := rfl
@[simp] theorem State.setSub_scrub (s : State) (i : Nat) (b : Sub) : (s.setSub i b).scrub = s.scrub := rfl
@[simp] theorem State.setSub_tiles (s : State) (i : Nat) (b : Sub) : (s.setSub i b).tiles = s.tiles := rfl
@[simp] theorem State.setSub_loans (s : State) (i : Nat) (b : Sub) : (s.setSub i b).loans = s.loans := rfl
@[simp] theorem State.setSub_stores (s : State) (i : Nat) (b : Sub) : (s.setSub i b).stores = s.stores := rfl
@[simp] theorem State.setSub_tmpls (s : State) (i : Nat) (b : Sub) : (s.setSub i b).tmpls = s.tmpls := rfl
@[simp] theorem State.setSub_saved (s : State) (i : Nat) (b : Sub) : (s.setSub i b).saved = s.saved := rfl
@[simp] theorem State.setSub_links (s : State) (i : Nat) (b : Sub) : (s.setSub i b).links = s.links := rfl
@[simp] theorem State.setSub_emitQ (s : State) (i : Nat) (b : Sub) : (s.setSub i b).emitQ = s.emitQ := rfl
@[simp] theorem State.setSub_outst (s : State) (i : Nat) (b : Sub) : (s.setSub i b).outst = s.outst := rfl
@[simp] theorem State.setSub_nextTag (s : State) (i : Nat) (b : Sub) : (s.setSub i b).nextTag = s.nextTag := rfl
@[simp] theorem State.setSub_waits (s : State) (i : Nat) (b : Sub) : (s.setSub i b).waits = s.waits := rfl
@[simp] theorem State.setSub_dsp (s : State) (i : Nat) (b : Sub) : (s.setSub i b).dsp = s.dsp := rfl
@[simp] theorem State.setSub_lap (s : State) (i : Nat) (b : Sub) : (s.setSub i b).lap = s.lap := rfl
@[simp] theorem State.setSub_obs (s : State) (i : Nat) (b : Sub) : (s.setSub i b).obs = { s.obs with subs := lset s.obs.subs i b } := rfl
@[simp] theorem State.setSub_time (s : State) (i : Nat) (b : Sub) : (s.setSub i b).time = s.time := rfl
@[simp] theorem State.setSub_health (s : State) (i : Nat) (b : Sub) : (s.setSub i b).health = s.health := rfl
@[simp] theorem State.setSub_net0 (s : State) (i : Nat) (b : Sub) : (s.setSub i b).net0 = s.net0 := rfl
@[simp] theorem State.setSub_net1 (s : State) (i : Nat) (b : Sub) : (s.setSub i b).net1 = s.net1 := rfl
@[simp] theorem State.setSub_boot (s : State) (i : Nat) (b : Sub) : (s.setSub i b).boot = s.boot := rfl
@[simp] theorem State.setSub_pins (s : State) (i : Nat) (b : Sub) : (s.setSub i b).pins = s.pins := rfl
@[simp] theorem State.setSub_tap (s : State) (i : Nat) (b : Sub) : (s.setSub i b).tap = s.tap := rfl
@[simp] theorem State.setSub_casc (s : State) (i : Nat) (b : Sub) : (s.setSub i b).casc = s.casc := rfl
@[simp] theorem State.setSub_outs (s : State) (i : Nat) (b : Sub) : (s.setSub i b).outs = s.outs := rfl

/-! ## State.setHealth -/

@[simp] theorem State.setHealth_pending (s : State) (h : Health) : (s.setHealth h).pending = s.pending := rfl
@[simp] theorem State.setHealth_phase (s : State) (h : Health) : (s.setHealth h).phase = s.phase := rfl
@[simp] theorem State.setHealth_faults (s : State) (h : Health) : (s.setHealth h).faults = s.faults := rfl
@[simp] theorem State.setHealth_now (s : State) (h : Health) : (s.setHealth h).now = s.now := rfl
@[simp] theorem State.setHealth_fresh (s : State) (h : Health) : (s.setHealth h).fresh = s.fresh := rfl
@[simp] theorem State.setHealth_ctl (s : State) (h : Health) : (s.setHealth h).ctl = s.ctl := rfl
@[simp] theorem State.setHealth_mem (s : State) (h : Health) : (s.setHealth h).mem = s.mem := rfl
@[simp] theorem State.setHealth_poison (s : State) (h : Health) : (s.setHealth h).poison = s.poison := rfl
@[simp] theorem State.setHealth_lost (s : State) (h : Health) : (s.setHealth h).lost = s.lost := rfl
@[simp] theorem State.setHealth_ue (s : State) (h : Health) : (s.setHealth h).ue = s.ue := rfl
@[simp] theorem State.setHealth_wrote (s : State) (h : Health) : (s.setHealth h).wrote = s.wrote := rfl
@[simp] theorem State.setHealth_was (s : State) (h : Health) : (s.setHealth h).was = s.was := rfl
@[simp] theorem State.setHealth_banks (s : State) (h : Health) : (s.setHealth h).banks = s.banks := rfl
@[simp] theorem State.setHealth_scrub (s : State) (h : Health) : (s.setHealth h).scrub = s.scrub := rfl
@[simp] theorem State.setHealth_tiles (s : State) (h : Health) : (s.setHealth h).tiles = s.tiles := rfl
@[simp] theorem State.setHealth_loans (s : State) (h : Health) : (s.setHealth h).loans = s.loans := rfl
@[simp] theorem State.setHealth_stores (s : State) (h : Health) : (s.setHealth h).stores = s.stores := rfl
@[simp] theorem State.setHealth_tmpls (s : State) (h : Health) : (s.setHealth h).tmpls = s.tmpls := rfl
@[simp] theorem State.setHealth_saved (s : State) (h : Health) : (s.setHealth h).saved = s.saved := rfl
@[simp] theorem State.setHealth_links (s : State) (h : Health) : (s.setHealth h).links = s.links := rfl
@[simp] theorem State.setHealth_emitQ (s : State) (h : Health) : (s.setHealth h).emitQ = s.emitQ := rfl
@[simp] theorem State.setHealth_outst (s : State) (h : Health) : (s.setHealth h).outst = s.outst := rfl
@[simp] theorem State.setHealth_nextTag (s : State) (h : Health) : (s.setHealth h).nextTag = s.nextTag := rfl
@[simp] theorem State.setHealth_waits (s : State) (h : Health) : (s.setHealth h).waits = s.waits := rfl
@[simp] theorem State.setHealth_dsp (s : State) (h : Health) : (s.setHealth h).dsp = s.dsp := rfl
@[simp] theorem State.setHealth_lap (s : State) (h : Health) : (s.setHealth h).lap = s.lap := rfl
@[simp] theorem State.setHealth_obs (s : State) (h : Health) : (s.setHealth h).obs = s.obs := rfl
@[simp] theorem State.setHealth_time (s : State) (h : Health) : (s.setHealth h).time = s.time := rfl
@[simp] theorem State.setHealth_health (s : State) (h : Health) : (s.setHealth h).health = h := rfl
@[simp] theorem State.setHealth_net0 (s : State) (h : Health) : (s.setHealth h).net0 = s.net0 := rfl
@[simp] theorem State.setHealth_net1 (s : State) (h : Health) : (s.setHealth h).net1 = s.net1 := rfl
@[simp] theorem State.setHealth_boot (s : State) (h : Health) : (s.setHealth h).boot = s.boot := rfl
@[simp] theorem State.setHealth_pins (s : State) (h : Health) : (s.setHealth h).pins = s.pins := rfl
@[simp] theorem State.setHealth_tap (s : State) (h : Health) : (s.setHealth h).tap = s.tap := rfl
@[simp] theorem State.setHealth_casc (s : State) (h : Health) : (s.setHealth h).casc = s.casc := rfl
@[simp] theorem State.setHealth_outs (s : State) (h : Health) : (s.setHealth h).outs = s.outs := rfl

/-! ## State.modBoot -/

@[simp] theorem State.modBoot_pending (s : State) (f : Boot → Boot) : (s.modBoot f).pending = s.pending := rfl
@[simp] theorem State.modBoot_phase (s : State) (f : Boot → Boot) : (s.modBoot f).phase = s.phase := rfl
@[simp] theorem State.modBoot_faults (s : State) (f : Boot → Boot) : (s.modBoot f).faults = s.faults := rfl
@[simp] theorem State.modBoot_now (s : State) (f : Boot → Boot) : (s.modBoot f).now = s.now := rfl
@[simp] theorem State.modBoot_fresh (s : State) (f : Boot → Boot) : (s.modBoot f).fresh = s.fresh := rfl
@[simp] theorem State.modBoot_ctl (s : State) (f : Boot → Boot) : (s.modBoot f).ctl = s.ctl := rfl
@[simp] theorem State.modBoot_mem (s : State) (f : Boot → Boot) : (s.modBoot f).mem = s.mem := rfl
@[simp] theorem State.modBoot_poison (s : State) (f : Boot → Boot) : (s.modBoot f).poison = s.poison := rfl
@[simp] theorem State.modBoot_lost (s : State) (f : Boot → Boot) : (s.modBoot f).lost = s.lost := rfl
@[simp] theorem State.modBoot_ue (s : State) (f : Boot → Boot) : (s.modBoot f).ue = s.ue := rfl
@[simp] theorem State.modBoot_wrote (s : State) (f : Boot → Boot) : (s.modBoot f).wrote = s.wrote := rfl
@[simp] theorem State.modBoot_was (s : State) (f : Boot → Boot) : (s.modBoot f).was = s.was := rfl
@[simp] theorem State.modBoot_banks (s : State) (f : Boot → Boot) : (s.modBoot f).banks = s.banks := rfl
@[simp] theorem State.modBoot_scrub (s : State) (f : Boot → Boot) : (s.modBoot f).scrub = s.scrub := rfl
@[simp] theorem State.modBoot_tiles (s : State) (f : Boot → Boot) : (s.modBoot f).tiles = s.tiles := rfl
@[simp] theorem State.modBoot_loans (s : State) (f : Boot → Boot) : (s.modBoot f).loans = s.loans := rfl
@[simp] theorem State.modBoot_stores (s : State) (f : Boot → Boot) : (s.modBoot f).stores = s.stores := rfl
@[simp] theorem State.modBoot_tmpls (s : State) (f : Boot → Boot) : (s.modBoot f).tmpls = s.tmpls := rfl
@[simp] theorem State.modBoot_saved (s : State) (f : Boot → Boot) : (s.modBoot f).saved = s.saved := rfl
@[simp] theorem State.modBoot_links (s : State) (f : Boot → Boot) : (s.modBoot f).links = s.links := rfl
@[simp] theorem State.modBoot_emitQ (s : State) (f : Boot → Boot) : (s.modBoot f).emitQ = s.emitQ := rfl
@[simp] theorem State.modBoot_outst (s : State) (f : Boot → Boot) : (s.modBoot f).outst = s.outst := rfl
@[simp] theorem State.modBoot_nextTag (s : State) (f : Boot → Boot) : (s.modBoot f).nextTag = s.nextTag := rfl
@[simp] theorem State.modBoot_waits (s : State) (f : Boot → Boot) : (s.modBoot f).waits = s.waits := rfl
@[simp] theorem State.modBoot_dsp (s : State) (f : Boot → Boot) : (s.modBoot f).dsp = s.dsp := rfl
@[simp] theorem State.modBoot_lap (s : State) (f : Boot → Boot) : (s.modBoot f).lap = s.lap := rfl
@[simp] theorem State.modBoot_obs (s : State) (f : Boot → Boot) : (s.modBoot f).obs = s.obs := rfl
@[simp] theorem State.modBoot_time (s : State) (f : Boot → Boot) : (s.modBoot f).time = s.time := rfl
@[simp] theorem State.modBoot_health (s : State) (f : Boot → Boot) : (s.modBoot f).health = s.health := rfl
@[simp] theorem State.modBoot_net0 (s : State) (f : Boot → Boot) : (s.modBoot f).net0 = s.net0 := rfl
@[simp] theorem State.modBoot_net1 (s : State) (f : Boot → Boot) : (s.modBoot f).net1 = s.net1 := rfl
@[simp] theorem State.modBoot_boot (s : State) (f : Boot → Boot) : (s.modBoot f).boot = f s.boot := rfl
@[simp] theorem State.modBoot_pins (s : State) (f : Boot → Boot) : (s.modBoot f).pins = s.pins := rfl
@[simp] theorem State.modBoot_tap (s : State) (f : Boot → Boot) : (s.modBoot f).tap = s.tap := rfl
@[simp] theorem State.modBoot_casc (s : State) (f : Boot → Boot) : (s.modBoot f).casc = s.casc := rfl
@[simp] theorem State.modBoot_outs (s : State) (f : Boot → Boot) : (s.modBoot f).outs = s.outs := rfl

/-! ## State.modPins -/

@[simp] theorem State.modPins_pending (s : State) (f : Pins → Pins) : (s.modPins f).pending = s.pending := rfl
@[simp] theorem State.modPins_phase (s : State) (f : Pins → Pins) : (s.modPins f).phase = s.phase := rfl
@[simp] theorem State.modPins_faults (s : State) (f : Pins → Pins) : (s.modPins f).faults = s.faults := rfl
@[simp] theorem State.modPins_now (s : State) (f : Pins → Pins) : (s.modPins f).now = s.now := rfl
@[simp] theorem State.modPins_fresh (s : State) (f : Pins → Pins) : (s.modPins f).fresh = s.fresh := rfl
@[simp] theorem State.modPins_ctl (s : State) (f : Pins → Pins) : (s.modPins f).ctl = s.ctl := rfl
@[simp] theorem State.modPins_mem (s : State) (f : Pins → Pins) : (s.modPins f).mem = s.mem := rfl
@[simp] theorem State.modPins_poison (s : State) (f : Pins → Pins) : (s.modPins f).poison = s.poison := rfl
@[simp] theorem State.modPins_lost (s : State) (f : Pins → Pins) : (s.modPins f).lost = s.lost := rfl
@[simp] theorem State.modPins_ue (s : State) (f : Pins → Pins) : (s.modPins f).ue = s.ue := rfl
@[simp] theorem State.modPins_wrote (s : State) (f : Pins → Pins) : (s.modPins f).wrote = s.wrote := rfl
@[simp] theorem State.modPins_was (s : State) (f : Pins → Pins) : (s.modPins f).was = s.was := rfl
@[simp] theorem State.modPins_banks (s : State) (f : Pins → Pins) : (s.modPins f).banks = s.banks := rfl
@[simp] theorem State.modPins_scrub (s : State) (f : Pins → Pins) : (s.modPins f).scrub = s.scrub := rfl
@[simp] theorem State.modPins_tiles (s : State) (f : Pins → Pins) : (s.modPins f).tiles = s.tiles := rfl
@[simp] theorem State.modPins_loans (s : State) (f : Pins → Pins) : (s.modPins f).loans = s.loans := rfl
@[simp] theorem State.modPins_stores (s : State) (f : Pins → Pins) : (s.modPins f).stores = s.stores := rfl
@[simp] theorem State.modPins_tmpls (s : State) (f : Pins → Pins) : (s.modPins f).tmpls = s.tmpls := rfl
@[simp] theorem State.modPins_saved (s : State) (f : Pins → Pins) : (s.modPins f).saved = s.saved := rfl
@[simp] theorem State.modPins_links (s : State) (f : Pins → Pins) : (s.modPins f).links = s.links := rfl
@[simp] theorem State.modPins_emitQ (s : State) (f : Pins → Pins) : (s.modPins f).emitQ = s.emitQ := rfl
@[simp] theorem State.modPins_outst (s : State) (f : Pins → Pins) : (s.modPins f).outst = s.outst := rfl
@[simp] theorem State.modPins_nextTag (s : State) (f : Pins → Pins) : (s.modPins f).nextTag = s.nextTag := rfl
@[simp] theorem State.modPins_waits (s : State) (f : Pins → Pins) : (s.modPins f).waits = s.waits := rfl
@[simp] theorem State.modPins_dsp (s : State) (f : Pins → Pins) : (s.modPins f).dsp = s.dsp := rfl
@[simp] theorem State.modPins_lap (s : State) (f : Pins → Pins) : (s.modPins f).lap = s.lap := rfl
@[simp] theorem State.modPins_obs (s : State) (f : Pins → Pins) : (s.modPins f).obs = s.obs := rfl
@[simp] theorem State.modPins_time (s : State) (f : Pins → Pins) : (s.modPins f).time = s.time := rfl
@[simp] theorem State.modPins_health (s : State) (f : Pins → Pins) : (s.modPins f).health = s.health := rfl
@[simp] theorem State.modPins_net0 (s : State) (f : Pins → Pins) : (s.modPins f).net0 = s.net0 := rfl
@[simp] theorem State.modPins_net1 (s : State) (f : Pins → Pins) : (s.modPins f).net1 = s.net1 := rfl
@[simp] theorem State.modPins_boot (s : State) (f : Pins → Pins) : (s.modPins f).boot = s.boot := rfl
@[simp] theorem State.modPins_pins (s : State) (f : Pins → Pins) : (s.modPins f).pins = f s.pins := rfl
@[simp] theorem State.modPins_tap (s : State) (f : Pins → Pins) : (s.modPins f).tap = s.tap := rfl
@[simp] theorem State.modPins_casc (s : State) (f : Pins → Pins) : (s.modPins f).casc = s.casc := rfl
@[simp] theorem State.modPins_outs (s : State) (f : Pins → Pins) : (s.modPins f).outs = s.outs := rfl

/-! ## State.modTap -/

@[simp] theorem State.modTap_pending (s : State) (f : Tap → Tap) : (s.modTap f).pending = s.pending := rfl
@[simp] theorem State.modTap_phase (s : State) (f : Tap → Tap) : (s.modTap f).phase = s.phase := rfl
@[simp] theorem State.modTap_faults (s : State) (f : Tap → Tap) : (s.modTap f).faults = s.faults := rfl
@[simp] theorem State.modTap_now (s : State) (f : Tap → Tap) : (s.modTap f).now = s.now := rfl
@[simp] theorem State.modTap_fresh (s : State) (f : Tap → Tap) : (s.modTap f).fresh = s.fresh := rfl
@[simp] theorem State.modTap_ctl (s : State) (f : Tap → Tap) : (s.modTap f).ctl = s.ctl := rfl
@[simp] theorem State.modTap_mem (s : State) (f : Tap → Tap) : (s.modTap f).mem = s.mem := rfl
@[simp] theorem State.modTap_poison (s : State) (f : Tap → Tap) : (s.modTap f).poison = s.poison := rfl
@[simp] theorem State.modTap_lost (s : State) (f : Tap → Tap) : (s.modTap f).lost = s.lost := rfl
@[simp] theorem State.modTap_ue (s : State) (f : Tap → Tap) : (s.modTap f).ue = s.ue := rfl
@[simp] theorem State.modTap_wrote (s : State) (f : Tap → Tap) : (s.modTap f).wrote = s.wrote := rfl
@[simp] theorem State.modTap_was (s : State) (f : Tap → Tap) : (s.modTap f).was = s.was := rfl
@[simp] theorem State.modTap_banks (s : State) (f : Tap → Tap) : (s.modTap f).banks = s.banks := rfl
@[simp] theorem State.modTap_scrub (s : State) (f : Tap → Tap) : (s.modTap f).scrub = s.scrub := rfl
@[simp] theorem State.modTap_tiles (s : State) (f : Tap → Tap) : (s.modTap f).tiles = s.tiles := rfl
@[simp] theorem State.modTap_loans (s : State) (f : Tap → Tap) : (s.modTap f).loans = s.loans := rfl
@[simp] theorem State.modTap_stores (s : State) (f : Tap → Tap) : (s.modTap f).stores = s.stores := rfl
@[simp] theorem State.modTap_tmpls (s : State) (f : Tap → Tap) : (s.modTap f).tmpls = s.tmpls := rfl
@[simp] theorem State.modTap_saved (s : State) (f : Tap → Tap) : (s.modTap f).saved = s.saved := rfl
@[simp] theorem State.modTap_links (s : State) (f : Tap → Tap) : (s.modTap f).links = s.links := rfl
@[simp] theorem State.modTap_emitQ (s : State) (f : Tap → Tap) : (s.modTap f).emitQ = s.emitQ := rfl
@[simp] theorem State.modTap_outst (s : State) (f : Tap → Tap) : (s.modTap f).outst = s.outst := rfl
@[simp] theorem State.modTap_nextTag (s : State) (f : Tap → Tap) : (s.modTap f).nextTag = s.nextTag := rfl
@[simp] theorem State.modTap_waits (s : State) (f : Tap → Tap) : (s.modTap f).waits = s.waits := rfl
@[simp] theorem State.modTap_dsp (s : State) (f : Tap → Tap) : (s.modTap f).dsp = s.dsp := rfl
@[simp] theorem State.modTap_lap (s : State) (f : Tap → Tap) : (s.modTap f).lap = s.lap := rfl
@[simp] theorem State.modTap_obs (s : State) (f : Tap → Tap) : (s.modTap f).obs = s.obs := rfl
@[simp] theorem State.modTap_time (s : State) (f : Tap → Tap) : (s.modTap f).time = s.time := rfl
@[simp] theorem State.modTap_health (s : State) (f : Tap → Tap) : (s.modTap f).health = s.health := rfl
@[simp] theorem State.modTap_net0 (s : State) (f : Tap → Tap) : (s.modTap f).net0 = s.net0 := rfl
@[simp] theorem State.modTap_net1 (s : State) (f : Tap → Tap) : (s.modTap f).net1 = s.net1 := rfl
@[simp] theorem State.modTap_boot (s : State) (f : Tap → Tap) : (s.modTap f).boot = s.boot := rfl
@[simp] theorem State.modTap_pins (s : State) (f : Tap → Tap) : (s.modTap f).pins = s.pins := rfl
@[simp] theorem State.modTap_tap (s : State) (f : Tap → Tap) : (s.modTap f).tap = f s.tap := rfl
@[simp] theorem State.modTap_casc (s : State) (f : Tap → Tap) : (s.modTap f).casc = s.casc := rfl
@[simp] theorem State.modTap_outs (s : State) (f : Tap → Tap) : (s.modTap f).outs = s.outs := rfl

/-! ## Reading what was written -/

@[simp] theorem State.tile_setTile (s : State) (t : Nat) (x : Tile) : (s.setTile t x).tile t = x := tget_tput_self _ _ _ _
theorem State.tile_setTile_ne (s : State) {t u : Nat} (x : Tile) (h : u ≠ t) : (s.setTile t x).tile u = s.tile u :=
  tget_tput_ne _ _ _ h
@[simp] theorem State.tc_setTc (s : State) (t : Nat) (x : TCtx) : (s.setTc t x).tc t = x := by
  simp only [State.setTc, State.tc, State.tile_setTile]
theorem State.tc_setTc_ne (s : State) {t u : Nat} (x : TCtx) (h : u ≠ t) : (s.setTc t x).tc u = s.tc u := by
  simp only [State.setTc, State.tc, State.tile_setTile_ne _ _ h]
@[simp] theorem State.setTile_setTile (s : State) (t : Nat) (x y : Tile) :
    (s.setTile t x).setTile t y = s.setTile t y := by simp only [State.setTile, tput_tput]
@[simp] theorem State.setTc_setTc (s : State) (t : Nat) (x y : TCtx) :
    (s.setTc t x).setTc t y = s.setTc t y := by
  simp only [State.setTc, State.tile_setTile, State.setTile_setTile]
@[simp] theorem State.setLnk_setLnk (s : State) (k : Nat) (l m : Link) :
    (s.setLnk k l).setLnk k m = s.setLnk k m := by simp only [State.setLnk, tput_tput]
@[simp] theorem State.lnk_setLnk (s : State) (k : Nat) (l : Link) : (s.setLnk k l).lnk k = l := tget_tput_self _ _ _ _
theorem State.lnk_setLnk_ne (s : State) {k j : Nat} (l : Link) (h : j ≠ k) : (s.setLnk k l).lnk j = s.lnk j :=
  tget_tput_ne _ _ _ h
@[simp] theorem State.rget_setTile (s : State) (t : Nat) (x : Tile) (a : Nat) : (s.setTile t x).rget a = s.rget a := rfl
@[simp] theorem State.rget_setTc (s : State) (t : Nat) (x : TCtx) (a : Nat) : (s.setTc t x).rget a = s.rget a := rfl
@[simp] theorem State.rget_setLnk (s : State) (k : Nat) (l : Link) (a : Nat) : (s.setLnk k l).rget a = s.rget a := rfl
@[simp] theorem State.rget_out (s : State) (m : OutMsg) (a : Nat) : (s.out m).rget a = s.rget a := rfl
@[simp] theorem State.tile_rset (s : State) (a : Nat) (v : Word) (t : Nat) : (s.rset a v).tile t = s.tile t := rfl
@[simp] theorem State.tc_rset (s : State) (a : Nat) (v : Word) (t : Nat) : (s.rset a v).tc t = s.tc t := rfl
@[simp] theorem State.mget_rset (s : State) (a : Nat) (v : Word) (b : Nat) : (s.rset a v).mget b = s.mget b := rfl
@[simp] theorem State.mget_setTile (s : State) (t : Nat) (x : Tile) (b : Nat) : (s.setTile t x).mget b = s.mget b := rfl

end Sys2Proof.Machine
end

