-- ==== Sys2Proof/Laws/Lane.lean ====
section
/-!
SUPPORT. What an instruction of the Scalar Lane can do: it retires with its writes and flags (R102, R114).
-/

namespace Sys2Proof.Machine

theorem Recorded.refl (s : State) : Recorded s s := ⟨rfl, fun _ _ => rfl, fun _ => ⟨rfl, rfl, rfl, rfl⟩⟩

theorem Observed.recorded {s t : State} (h : Observed s t) : Recorded s t :=
  ⟨h.rest, h.regs, fun n => ⟨(h.quiet n).1, (h.quiet n).2.1, (h.quiet n).2.2.1, (h.quiet n).2.2.2.2⟩⟩

theorem Recorded.streamsOff {s t : State} (h : Recorded s t) : t.streamsOff = s.streamsOff := by
  unfold State.streamsOff
  simp only [streamOn_congr (h.regs _ obsReg_enable)]

theorem Recorded.trans {a b c : State} (h : Recorded a b) (k : Recorded b c) : Recorded a c where
  rest := by rw [k.rest, h.rest]
  regs x hx := (k.regs x hx).trans (h.regs x hx)
  quiet n := by
    have p := h.quiet n
    have q := k.quiet (h.streamsOff.trans n)
    exact ⟨q.1.trans p.1, q.2.1.trans p.2.1, q.2.2.1.trans p.2.2.1, q.2.2.2.trans p.2.2.2⟩

theorem recorded_obs {a b : State} (o : Obs) (h : Recorded a b) : Recorded a { b with obs := o } where
  rest := by rw [h.rest]
  regs := h.regs
  quiet n := h.quiet n

theorem cmdStart_recorded {a s : State} (t u c seq : Nat) (i : CmdIds) (h : Recorded a s) :
    Recorded a (s.cmdStart t u c seq i) := recorded_obs _ h

theorem cmdRecord_recorded {a s : State} (t u : Nat) (k : UnitCmd) (b : Bool) (h : Recorded a s) :
    Recorded a (s.cmdRecord t u k b) := by
  unfold State.cmdRecord
  split
  · exact h.trans (streamRec_observed _ _ _ _).recorded
  · exact h

theorem cmdEnd_recorded {a s : State} (t u seq : Nat) (h : Recorded a s) : Recorded a (s.cmdEnd t u seq) := by
  unfold State.cmdEnd
  split
  · exact h
  · exact cmdRecord_recorded _ _ _ _ (recorded_obs _ h)

theorem endRun_recorded (s : State) (t : Nat) : Recorded s (s.endRun t) := by
  unfold State.endRun
  split
  · exact cmdEnd_recorded _ _ _ (.refl s)
  · exact .refl s

theorem laneIds_recorded (s : State) (t : Nat) : Recorded s (s.laneIds t) := by
  unfold State.laneIds
  extract_lets u
  split
  · exact endRun_recorded s t
  · exact cmdStart_recorded _ _ _ _ _ (endRun_recorded s t)

/-- What issue leaves on its tile. -/
theorem takeStamp_tc (s : State) (t : Nat) : (s.takeStamp t).tc t = s.issuing t := by
  unfold State.takeStamp State.issuing
  dsimp only
  cases (s.tc t).curHeat with
  | none => simp
  | some h =>
    by_cases hd : h.stampDue = true
    · simp only [hd, if_pos, State.modTc, State.tc_setTc, TCtx.modHeatNum, Option.any_some, Bool.and_true,
        beq_iff_eq, @eq_comm _ h.num]
    · simp [hd]

theorem takeStamp_setTc (s : State) (t : Nat) (x : TCtx) : (s.takeStamp t).setTc t x = s.setTc t x := by
  unfold State.takeStamp
  split
  · split
    · exact State.setTc_setTc _ _ _ _
    · rfl
  · rfl

theorem takeStamp_ctxOn (s : State) (t : Nat) : (s.takeStamp t).ctxOn t = s.ctxOn t := by
  unfold State.takeStamp
  split
  · split
    · simp [State.ctxOn, State.modTc, State.setTc]
    · rfl
  · rfl

theorem takeStamp_trapEn (s : State) (t : Nat) : (s.takeStamp t).trapEn t = s.trapEn t := by
  have hs : (s.takeStamp t).serves (s.ctxOn t) = s.serves (s.ctxOn t) := by
    unfold State.takeStamp
    split
    · split <;> rfl
    · rfl
  simp only [State.trapEn, takeStamp_ctxOn, hs, takeStamp_tc]
  rfl

/-- A change of the tiles commutes with records. -/
theorem Recorded.setTc {s u : State} (t : Nat) (f : TCtx → TCtx) (h : Recorded s u) :
    Recorded (s.setTc t (f (s.tc t))) (u.setTc t (f (u.tc t))) where
  rest := by rw [h.rest]; rfl
  regs := h.regs
  quiet n := h.quiet n

theorem Recorded.tc {s u : State} (h : Recorded s u) (t : Nat) : u.tc t = s.tc t := by rw [h.rest]; rfl

theorem Recorded.ctxOn {s u : State} (h : Recorded s u) (t : Nat) : u.ctxOn t = s.ctxOn t := by rw [h.rest]; rfl

/-- No register of the Dispatcher is one that records change. -/
theorem obsReg_dsp {a : Nat} (h : 0x00060000 ≤ a) (k : a < 0x00080000) : obsReg a = false := by
  have h1 : decide (0x000C0000 ≤ a) = false := decide_eq_false (by omega)
  have h2 : decide (mshA 0x3008 ≤ a) = false := decide_eq_false (by unfold mshA; omega)
  have h3 : [netA 0 0x24, netA 0 0x28, netA 1 0x24, netA 1 0x28].contains a = false := by
    have : ∀ b, b < 0x00060000 → (a == b) = false := fun b hb => by simp; omega
    simp only [List.contains_cons, List.contains_nil, Bool.or_false]
    rw [this _ (by decide), this _ (by decide), this _ (by decide), this _ (by decide)]
    rfl
  simp only [obsReg, h1, h2, h3, Bool.false_and, Bool.or_false]

theorem Recorded.serves {s u : State} (h : Recorded s u) {c : Nat} (hc : c < 64) : u.serves c = s.serves c := by
  have hp : u.ctxPart c = s.ctxPart c := rfld_congr (h.regs _ (obsReg_dsp (by unfold ctxA; omega) (by unfold ctxA; omega))) 16 4
  have hq : s.ctxPart c < 16 := fget_lt _ 16 4
  have hs : u.partState (s.ctxPart c) = s.partState (s.ctxPart c) :=
    rfld_congr (h.regs _ (obsReg_dsp (by unfold partA; omega) (by unfold partA; omega))) 30 2
  have hf : u.phase = s.phase := by rw [h.rest]
  simp only [State.serves, hp, hs, hf]

theorem ctxOn_lt (s : State) (t : Nat) : s.ctxOn t < 64 := Nat.mod_lt _ (by decide)

theorem Recorded.trapEn {s u : State} (h : Recorded s u) (t : Nat) : u.trapEn t = s.trapEn t := by
  simp only [State.trapEn, h.ctxOn, h.serves (ctxOn_lt s t), h.tc]

/-- A ready lane runs the instruction at its program address. -/
theorem laneDo_ready {s : State} {t : Nat} (h : s.laneReady t) (f : State → State) :
    s.laneDo t f = f ((s.takeStamp t).laneIds t) := by
  have hd : s.drainV t = s := by
    unfold State.drainV
    rw [h.2]
  simp [State.laneDo, State.issueDo, h.1, hd]

/-- An instruction whose flags are not trapped retires: this is everything `State.lane` does on a ready
lane. -/
theorem lane_retires {s : State} {t : Nat} (h : s.laneReady t) (f : TCtx → LaneOut)
    (hf : flUnion (f (s.issuing t)).raised &&& s.trapEn t = 0) :
    LaneRetires s (s.lane t f) t (f (s.issuing t)).writes (flUnion (f (s.issuing t)).raised)
      ((s.tc t).pc + 8) := by
  have hr := laneIds_recorded (s.takeStamp t) t
  unfold State.lane
  rw [laneDo_ready h]
  unfold State.retire
  simp only [hr.trapEn, hr.tc, takeStamp_tc, takeStamp_trapEn]
  rw [if_pos hf]
  have := hr.setTc t (fun c =>
    { (f (s.issuing t)).writes.foldl TCtx.wr c with
      sflag := c.sflag ||| flUnion (f (s.issuing t)).raised, pc := (s.tc t).pc + 8 })
  rw [hr.tc, takeStamp_tc, takeStamp_setTc] at this
  exact this

/-- One G register written and no flag raised. -/
theorem lane_writesG {s : State} {t : Nat} (h : s.laneReady t) (f : TCtx → LaneOut) (rd : RegNo) (v : DWord)
    (hf : f (s.issuing t) = outG rd.val v flNone) : LaneWritesG s (s.lane t f) t rd v := by
  have := lane_retires h f (by rw [hf]; simp [outG, flUnion, flNone])
  rw [hf] at this
  exact this

end Sys2Proof.Machine
end

