-- ==== Sys2Proof/Laws/Ops.lean ====
section
/-!
SUPPORT. What the shared operations of boot, recovery and the links can do: each is said once, for the
statements that rest on it.
-/

namespace Sys2Proof.Machine

/-! ## Boot -/

/-- Entering a step writes SB_STAT.STEP and its event's record. -/
theorem bootStep_observed (s : State) (n : Nat) : Observed (s.rfldSet 0x04 28 4 n) (s.bootStep n) :=
  event_observed _ _ _ _ _ (by decide) (Observed.refl _)

/-- A boot failure does what R428 says. -/
theorem bootFail_fails (s : State) (code detail : Nat) : FailsBoot s (s.bootFail code detail) code detail :=
  bootStep_observed _ _

theorem bootStep_boot (s : State) (n : Nat) : (s.bootStep n).boot = s.boot := by
  rw [(bootStep_observed s n).rest]; rfl

theorem bootFail_phase (s : State) (code detail : Nat) : (s.bootFail code detail).phase = .failed := by
  rw [(bootFail_fails s code detail).rest]; rfl

theorem bootFail_tap (s : State) (code detail : Nat) : (s.bootFail code detail).tap = s.tap := by
  rw [(bootFail_fails s code detail).rest]; rfl

/-! ## Registers whose field is set with an event -/

/-- A link's state field is written, with its event's record. -/
theorem setLinkState_observed (s : State) {k : Nat} (st : Nat) (h : k < 4) :
    Observed (s.rfldSet (linkA k 0x04) 28 4 st) (s.setLinkState k st) :=
  event_observed _ _ _ _ _ (by omega) (Observed.refl _)

/-- No register of a link is one that records change. -/
theorem linkReg {k off : Nat} (hk : k < 4) (ho : off < 0x100) : obsReg (linkA k off) = false := by
  have lo : 0x00041000 ≤ linkA k off := by unfold linkA; omega
  have hi : linkA k off < 0x00042000 := by unfold linkA; omega
  have h1 : decide (0x000C0000 ≤ linkA k off) = false := decide_eq_false (by omega)
  have h2 : decide (mshA 0x3008 ≤ linkA k off) = false := decide_eq_false (by unfold mshA; omega)
  have h3 : [netA 0 0x24, netA 0 0x28, netA 1 0x24, netA 1 0x28].contains (linkA k off) = false := by
    have : ∀ b, b < 0x00041000 → (linkA k off == b) = false := fun b hb => by simp; omega
    simp only [List.contains_cons, List.contains_nil, Bool.or_false]
    rw [this _ (by decide), this _ (by decide), this _ (by decide), this _ (by decide)]
    rfl
  simp only [obsReg, h1, h2, h3, Bool.false_and, Bool.or_false]

theorem linkState_setLinkState (s : State) {k : Nat} (st : Nat) (h : k < 4) (hs : st < 16) :
    (s.setLinkState k st).linkState k = st := by
  unfold State.linkState
  rw [rfld_congr ((setLinkState_observed s st h).regs _ (linkReg h (by decide))),
    rfld_rfldSet_self _ _ _ _ _ (by decide)]
  exact Nat.mod_eq_of_lt hs

/-! ## Verdicts -/

/-- The verdict word that Marshal shows is the one given last. -/
theorem rget_verdict (s : State) (domain cls index cause detail : Nat) :
    (s.verdict domain cls index cause detail).rget (mshA 0x08)
      = BitVec.ofNat 32 (verdictCode domain cls index cause detail) := by
  unfold State.verdict
  extract_lets code i n a w s1 s2 s3
  rw [(event_observed 58 0x14 {} code n.toNat (by decide) (Observed.refl s3)).regs _ (by decide)]
  simp only [s3]
  rw [rget_rfldSet_ne _ _ _ _ (by decide), rget_rset_ne _ _ (by decide)]
  simp only [s2, rget_rset_self, w, code]

/-! ## Relay Links -/

/-- Nothing leaves a link that is not ACTIVE. -/
theorem pump_idle (s : State) (k n : Nat) (h : s.linkState k ≠ 7) : s.pump k n = s := by
  cases n with
  | zero => rfl
  | succ n => simp only [State.pump, if_pos h]

/-- A link with no packet waiting sends none. -/
theorem pump_empty (s : State) (k n : Nat) (h : (s.lnk k).wait = []) : s.pump k n = s := by
  cases n with
  | zero => rfl
  | succ n =>
    have p : (s.lnk k).pick = none := by simp [Link.pick, h]
    simp only [State.pump, p]
    split <;> rfl

/-- With no packet waiting on any link, nothing is sent. -/
theorem pumpAll_calm (s : State) (k : Nat) (hk : k < 4) (h : s.linksCalm) : s.pumpAll k = s := by
  unfold State.pumpAll State.each
  have : ∀ l : List Nat, (∀ j ∈ l, j < 4) →
      l.foldl (fun s j => s.pump j (2 * (s.lnk j).wait.length)) s = s := by
    intro l hl
    induction l with
    | nil => rfl
    | cons j l ih =>
      rw [List.foldl_cons, pump_empty s j _ (h j (hl j (List.mem_cons_self ..)))]
      exact ih (fun i hi => hl i (List.mem_cons_of_mem _ hi))
  refine this _ (fun j hj => ?_)
  rcases List.mem_cons.1 hj with rfl | hj
  · exact hk
  · exact List.mem_range.1 (List.mem_filter.1 hj).1

/-! ## A tile at rest -/

/-- A tile that does not work, and of which no heat record is due, stays as it is. -/
theorem kick_idle (s : State) (t : Nat) (h : s.working t = false)
    (hr : (s.tc t).heats.filter s.recordDue = []) : s.kick t = s := by
  simp [State.kick, State.kickN, State.recordHeats, State.each, h, hr]

/-- With its stream off, a record other than a dump's is not produced. -/
theorem streamRec_off (s : State) (k : Fin 4) (l pl : List Byte) (h : s.streamOn k.val = false) (hk : k ≠ 3) :
    s.streamRec k l pl = s := by
  simp [State.streamRec, h, hk]

end Sys2Proof.Machine
end

