-- ==== Sys2Proof/Tests/Slice0.lean ====
section
/-!
SUPPORT. Tests of the model on small states, the smoke tests of WellFormed, and for the statements of
Certificates/Slice0/Obligations.lean states and operands that meet their hypotheses.  Expected results are
worked out by hand from the rules named.
-/

namespace Sys2Proof.Tests

open Sys2Proof Sys2Proof.Machine

-- one theorem at a time: the kernel evaluates each, and many at once need a stack each
set_option Elab.async false

/-! ## Helpers -/

/-- A command answers a next state with a property. -/
def after (c : Instr) (s : State) (p : State → Bool) : Bool :=
  match exec c s with
  | .next t => p t
  | _ => false

/-- A heat of context 0 on tile 0. -/
def heat1 : Heat :=
  { ctx := 0, num := 1, lc := true, entry := 0, dead := false, stamp := 0, tiles := [0], rank := 0, snap := []
    host := [], hostBad := [], hended := false, layer := 0, oper := 0, solve := none, worst := 0, nfb := 0
    cutFac := false, cutOut := false, late := false, pendFac := false, pendOut := false, tflags := 0
    commits := [], aborted := false }

/-- A problem of it, in Assemble. -/
def slot1 : Slot :=
  { heat := 1, prob := 0, tmpl := 0, stage := .assemble, waiting := false, pflag := 0, entered := 0, arrs := []
    bank := none, due := false, own := false, bankHeat := 0, staleFac := false, iter := 0, prev := [], resP := 0
    resD := 0, resOk := false, chk := 0, cert := 0, certPrimal := false, warm := 0, drop := 0, mark := 0 }

/-- A SOLVE of two problems, none taken yet. -/
def solve1 : SolveRun :=
  { tmpl := 0, count := 2, xlist := 0, layer := 0, oper := 0, seq := 0, flush := false, next := 0, done := 0
    left := [0, 0, 0, 0, 0, 0], bank := 0 }

/-- The heat on tile 0, its sequencer running, with the lane's context given. -/
def onTile0 (c : TCtx) : State :=
  { phase := .service, ctl := [(partA 0 0x1C, 0x40000000)]
    tiles := [(0, { power := .run, seq := .running, ctx := some 0
                    tc := { c with heats := if c.heats = [] then [heat1] else c.heats } })] }

/-- That tile with G registers, F registers. -/
def gRegs (l : List (Nat × DWord)) : State := onTile0 { g := l }
def fRegs (l : List (Nat × QWord)) : State := onTile0 { f := l }

/-- The start-up sequence at step n. -/
def bootAt (n : Nat) : State := { phase := .boot, ctl := [(0x04, BitVec.ofNat 32 (n * 2 ^ 28))] }

/-- SB_LOCK set. -/
def locked (l : Tab Word) : State := { phase := .service, ctl := (0x0C, 0x80000000) :: l }

/-! ## Well-formedness: an ill-formed term for each check -/

/-- A peer, and the headers of its frames and packets. -/
def peer1 : Peer := { udp := false, mac := 0x020000000001, ip := 0, udpPort := 0, vlan := none }
def tfp1 : TfpHdr := { port := 0, peer := peer1, session := 1, seq := 1, tag := 0 }
def pkt1 : PktHdr :=
  { src := 1, dst := 0, vc := 1, part := 0, bib := 0, ctx := 0, ttl := 1, tag := 1, addr := 0 }
def hdr1 : CmdHdr := { wait := 0, layer := 0, oper := 0 }
def mac1 : MacOps :=
  { ta := 0, tw := 1, tc := 0xFFFF, tout := 2, tout2 := 0xFFFF, mflags := 0, rmslot := 0, hrec := 0, smode := 0
    qexp := 0 }
def conv1 : ConvOps := { ts := 0, td := 1, rmslot := 0, smode := 0, qexpSrc := 0, qexpDst := 0, hrec := 0 }

theorem test_wf_bytes :
    (Instr.anchorReadComplete []).wf = false ∧ (Instr.scriptFetchComplete [0]).wf = false
    ∧ (Instr.frameCheck 0 0 1 [] 0).wf = false ∧ (Instr.announce 0 [] []).wf = false := by decide

theorem test_wf_loadLength (l : List Byte) (h : 2 ^ 28 < l.length) : (Instr.loadComplete l).wf = false := by
  simp only [Instr.wf, decide_eq_false_iff_not]; omega

theorem test_wf_addresses :
    (Instr.registerWrite 0 0x1E 0).wf = false ∧ (Instr.rcRegisterRead 0 0x41).wf = false
    ∧ (Instr.splitLoRegisterRead 0 0x43).wf = false ∧ (Instr.registerWrite 0 0x1C 0).wf = true := by decide

theorem test_wf_stage :
    (Instr.copy 0 hdr1 0 0 6).wf = false ∧ (Instr.copy 0 hdr1 0 0 0).wf = false
    ∧ (Instr.copy 0 hdr1 0 0 16777220).wf = false ∧ (Instr.solve 0 hdr1 0 0 0).wf = false
    ∧ (Instr.solve 0 hdr1 0 65 0).wf = false ∧ (Instr.mac 0 hdr1 { mac1 with mflags := 8 }).wf = false
    ∧ (Instr.mac 0 hdr1 { mac1 with smode := 3 }).wf = false
    ∧ (Instr.mac 0 hdr1 { mac1 with mflags := 4 }).wf = false
    ∧ (Instr.mac 0 hdr1 { mac1 with ta := 0xFFFF }).wf = false
    ∧ (Instr.conv 0 hdr1 { conv1 with td := 0xFFFF }).wf = false
    ∧ (Instr.conv 0 hdr1 { conv1 with smode := 0x80 }).wf = false
    ∧ (Instr.mac 0 hdr1 mac1).wf = true ∧ (Instr.conv 0 hdr1 conv1).wf = true := by decide

theorem test_wf_tfp :
    (Instr.cread tfp1 0 0).wf = false ∧ (Instr.cread tfp1 0 257).wf = false ∧ (Instr.cwrite tfp1 0 []).wf = false
    ∧ (Instr.dread tfp1 0 0).wf = false ∧ (Instr.dread tfp1 0 1025).wf = false ∧ (Instr.dwrite tfp1 0 []).wf = false
    ∧ (Instr.abort tfp1 64 0).wf = false ∧ (Instr.tsub tfp1 4 true).wf = false
    ∧ (Instr.reinit tfp1 16 0).wf = false := by decide

theorem test_wf_echo (l : List Byte) (h : 1440 < l.length) : (Instr.echo tfp1 l).wf = false := by
  simp only [Instr.wf, decide_eq_false_iff_not]; omega

theorem test_wf_packets :
    (Instr.rdReq 0 pkt1 0).wf = false ∧ (Instr.rdRsp 0 pkt1 [] false).wf = false
    ∧ (Instr.wrReq 0 pkt1 [] false).wf = false ∧ (Instr.errRsp 0 pkt1 6).wf = false
    ∧ (Instr.packetForward 0 pkt1 ⟨0x06, 0⟩ [] false).wf = false ∧ (Instr.rdReq 0 pkt1 256).wf = true := by decide

theorem test_wf_graph :
    (Instr.graphSnapshot [⟨⟨1, 32, 0⟩, [], []⟩]).wf = false ∧ (Instr.graphSnapshot [⟨⟨2, 0, 4⟩, [], []⟩]).wf = false
    ∧ (Instr.graphSnapshot [⟨⟨5, 47, 0⟩, [⟨12, 0, 0⟩], []⟩]).wf = false
    ∧ (Instr.stallWatchdogExpiry ⟨9, 0, 3⟩ 0 []).wf = false
    ∧ (Instr.stallWatchdogExpiry ⟨7, 63, 0⟩ 0 [⟨⟨4, 4, 0⟩, [], []⟩]).wf = false
    ∧ (Instr.stallWatchdogExpiry ⟨6, 32767, 0⟩ 0 []).wf = true := by decide

/-- The table gives its rows no bits, so no word spells a command. -/
theorem test_no_word_spells (nbits w : Nat) : decodeTableWord nbits w = none := rfl

/-- A word put in front of the queue therefore changes nothing. -/
theorem test_fetch_word (nbits w : Nat) : State.reset.withFetchWord nbits w = State.reset := rfl

/-! ## The whole machine -/

theorem witness_stepRunsFrontCommand :
    ({ pending := [.vddIo18Low, .vddIo33Low] } : State).pending = .vddIo18Low :: [.vddIo33Low]
    ∧ State.reset.pending = [] := by decide

theorem witness_stepKeeps : Memory.wf [(1, 1), (2, 5)] = true ∧ Memory.wf [(2, 5), (1, 1)] = false
    ∧ Memory.wf [(1, 0)] = false ∧ Tap.wf {} = true ∧ Tap.wf { instr := 0x07 } = false
    ∧ step State.reset = .next State.reset.cycle := ⟨by decide, by decide, by decide, by decide, by decide, rfl⟩

/-- R493: TEST_EN high is the only stop. -/
theorem test_testEn : exec (.pwrgoodRise 1 false true) State.reset = .refused .manufacturingTest := rfl

/-! ## Pins, resets and start-up -/

theorem witness_powerPinsAndResets :
    State.reset.phase = .off ∧ (bootAt 1).phase ≠ .off
    ∧ (let s : State := { bootAt 2 with time := { running := true } }
       s.phase ≠ .off ∧ s.pins.pwrReq = false ∧ s.time.running = true)
    ∧ (bootAt 1).time.running = false ∧ ({ phase := .reset } : State).phase = .reset
    ∧ ({ pins := { pwrReq := true } } : State).pins.pwrReq = true
    ∧ (bootAt 1).boot.power = true
    ∧ (let s : State := { bootAt 2 with boot := { power := false } }
       s.phase = .boot ∧ s.boot.power = false ∧ s.boot.start = s.now)
    ∧ (∀ p < 2, ({ health := { ordered := [(false, 1), (true, p)] } } : State).health.ordered = [(false, 1)] ++ (true, p) :: []
      ∧ ({ health := { ordered := [(false, p), (true, 1)] } } : State).health.ordered = [] ++ (false, p) :: [(true, 1)])
    ∧ State.reset.health.ordered = [] := by decide

/-- R493: the straps of ROLE reach RLY_CFG. -/
theorem test_pwrgoodRise : after (.pwrgoodRise 2 true false) State.reset (fun t =>
    t.role == 2 && t.bootStepNo == 1 && t.phase == .boot) = true := by decide

/-- An anchor of MAGIC and zeros with its CRC-32. -/
def zeros1 : List Byte := List.replicate 146 0
def body1 : List Byte := leBytes 4 0x4E414B54 ++ (List.replicate 28 zeros1).flatten
def anchor1 : List Byte := body1 ++ leBytes 4 0xE88BC2F2

theorem crc_zeros :
    zeros1.foldl crc32Byte 0x9E1DC8E4 = 0xBB42B50F
    ∧ zeros1.foldl crc32Byte 0xBB42B50F = 0x0FF27713
    ∧ zeros1.foldl crc32Byte 0x0FF27713 = 0x21FE85BE
    ∧ zeros1.foldl crc32Byte 0x21FE85BE = 0x655C8D35
    ∧ zeros1.foldl crc32Byte 0x655C8D35 = 0x98636D54
    ∧ zeros1.foldl crc32Byte 0x98636D54 = 0x7C980C89
    ∧ zeros1.foldl crc32Byte 0x7C980C89 = 0x11C8FB3B
    ∧ zeros1.foldl crc32Byte 0x11C8FB3B = 0x3E7C14C7
    ∧ zeros1.foldl crc32Byte 0x3E7C14C7 = 0x8F8F787C
    ∧ zeros1.foldl crc32Byte 0x8F8F787C = 0xBA118A94
    ∧ zeros1.foldl crc32Byte 0xBA118A94 = 0xF7877245
    ∧ zeros1.foldl crc32Byte 0xF7877245 = 0x6C6711EA
    ∧ zeros1.foldl crc32Byte 0x6C6711EA = 0xAD67072B
    ∧ zeros1.foldl crc32Byte 0xAD67072B = 0xC7C85466
    ∧ zeros1.foldl crc32Byte 0xC7C85466 = 0x374A26FE
    ∧ zeros1.foldl crc32Byte 0x374A26FE = 0x8DC377E9
    ∧ zeros1.foldl crc32Byte 0x8DC377E9 = 0x831081FC
    ∧ zeros1.foldl crc32Byte 0x831081FC = 0xD1BA3FC7
    ∧ zeros1.foldl crc32Byte 0xD1BA3FC7 = 0x155192A2
    ∧ zeros1.foldl crc32Byte 0x155192A2 = 0x7322A9E4
    ∧ zeros1.foldl crc32Byte 0x7322A9E4 = 0x7226874A
    ∧ zeros1.foldl crc32Byte 0x7226874A = 0xD113FFFF
    ∧ zeros1.foldl crc32Byte 0xD113FFFF = 0x94FFF855
    ∧ zeros1.foldl crc32Byte 0x94FFF855 = 0x66F489FF
    ∧ zeros1.foldl crc32Byte 0x66F489FF = 0x8F83D109
    ∧ zeros1.foldl crc32Byte 0x8F83D109 = 0x1E5DA1FC
    ∧ zeros1.foldl crc32Byte 0x1E5DA1FC = 0x13213099
    ∧ zeros1.foldl crc32Byte 0x13213099 = 0x17743D0D := by
  decide +kernel

/-- R407: its MAGIC and its CRC-32 pass. -/
theorem test_anchor : anchorOk anchor1 = true := by
  have n : body1.length = 4092 := by
    rw [body1, List.length_append, List.length_flatten, List.map_replicate, zeros1, List.length_replicate]; decide
  have c : crc32 body1 = 0xE88BC2F2 := by
    have h : (leBytes 4 0x4E414B54).foldl crc32Byte 0xFFFFFFFF = 0x9E1DC8E4 := by decide +kernel
    rw [crc32, body1, List.foldl_append, h, List.foldl_flatten]
    simp only [List.replicate_succ, List.replicate_zero, List.foldl_cons, List.foldl_nil, crc_zeros]; decide
  have m : anchor1.take 4 = leBytes 4 0x4E414B54 := by
    rw [anchor1, body1, List.append_assoc]; exact List.take_left' (by decide)
  have t : anchor1.take 4092 = body1 := by rw [anchor1, ← n]; exact List.take_left' rfl
  have e : anchor1.drop 4092 = leBytes 4 0xE88BC2F2 := by rw [anchor1, ← n]; exact List.drop_left' rfl
  have l : anchor1.length = 4096 := by rw [anchor1, List.length_append, n]; decide
  rw [anchorOk, l, m, t, e, c]; decide

theorem witness_startUpSteps :
    (bootAt 1).time.running = false ∧ ({ bootAt 2 with time := { running := true } } : State).time.running = true
    ∧ ({ bootAt 0 with phase := .reset } : State).phase = .reset ∧ ({ bootAt 0 with phase := .reset } : State).bootStepNo ≠ 1
    ∧ (bootAt 1).bootStepNo = 1 ∧ (bootAt 1).phase = .boot ∧ (bootAt 2).bootStepNo = 2 ∧ (bootAt 2).boot.held = false
    ∧ (bootAt 3).bootStepNo = 3 ∧ (bootAt 4).bootStepNo = 4 ∧ (bootAt 5).bootStepNo = 5 ∧ anchorOk [] = false
    ∧ ({ bootAt 1 with boot := { qualified := true } } : State).boot.qualified = true
    ∧ (bootAt 2).boot.power = true ∧ ({ bootAt 9 with boot := { mem := 1 } } : State).boot.mem = 1
    ∧ ({ bootAt 9 with boot := { wait := .poll } } : State).boot.wait = .poll
    ∧ ({ bootAt 9 with boot := { script := List.replicate 16 0 } } : State).atEntry 0 = true
    ∧ (bootAt 11).bootStepNo = 11 ∧ (bootAt 6).flashBusy = true ∧ (bootAt 6).bootStepNo ≠ 4
    ∧ ({ bootAt 2 with boot := { power := false } } : State).boot.power = false := by decide

/-- R401: FLASH set-up ends step 5. -/
theorem test_flashSetup : after .flashSetupComplete (bootAt 5) (fun t => t.bootStepNo == 6 && t.boot.octal) = true := by
  decide

/-! ## Scalar Lane -/

theorem witness_lane : (gRegs [(1, 5), (2, 7)]).laneReady 0 ∧ 0x18 &&& (gRegs []).trapEn 0 = 0 := by
  unfold State.laneReady; decide

/-- R111: a 32-bit sum wraps and is sign-extended. -/
theorem test_add : after (.add 0 3 1 2 0) (gRegs [(1, 0x7FFFFFFF), (2, 1)]) (fun t =>
    (t.tc 0).gr 3 == 0xFFFFFFFF80000000 && (t.tc 0).pc == 8 && (t.tc 0).sflag == 0) = true := by decide

/-- R111: a 32-bit sum clamps with SATURATED and INEXACT. -/
theorem test_adds : after (.adds 0 3 1 2 0) (gRegs [(1, 0x7FFFFFFF), (2, 1)]) (fun t =>
    (t.tc 0).gr 3 == 0x7FFFFFFF && (t.tc 0).sflag == 0x18) = true := by decide

/-- R111: NEGS of the least number clamps; NEG of it is itself. -/
theorem test_negs : after (.negs 0 3 1 1) (gRegs [(1, 0x8000000000000000)]) (fun t =>
    (t.tc 0).gr 3 == 0x7FFFFFFFFFFFFFFF) = true
    ∧ after (.neg 0 3 1 1) (gRegs [(1, 0x8000000000000000)]) (fun t =>
      (t.tc 0).gr 3 == 0x8000000000000000) = true := by decide

/-- R111: source and destination may be one register. -/
theorem test_sub_self : after (.sub 0 1 1 1 1) (gRegs [(1, 9)]) (fun t => (t.tc 0).gr 1 == 0) = true := by decide

/-- R111: MULX writes the high half in its sign mode: (-1) * (-1) signed is 1, unsigned 2^64 - 2^33 + 1. -/
theorem test_mulx :
    after (.mulx 0 3 1 1 0) (gRegs [(1, 0xFFFFFFFF)]) (fun t => (t.tc 0).gr 3 == 0) = true
    ∧ after (.mulx 0 3 1 1 4) (gRegs [(1, 0xFFFFFFFF)]) (fun t => (t.tc 0).gr 3 == 0xFFFFFFFFFFFFFFFE) = true
    ∧ after (.mulx 0 3 1 1 8) (gRegs [(1, 0xFFFFFFFF)]) (fun t => (t.tc 0).gr 3 == 0xFFFFFFFFFFFFFFFF) = true := by
  decide

/-- R111: a shift takes its amount modulo W. -/
theorem test_shra : after (.shra 0 3 1 2 2 36) (gRegs [(1, 0x80000000)]) (fun t =>
    (t.tc 0).gr 3 == 0xFFFFFFFFF8000000) = true := by decide

/-- R111: CMPLT signed and unsigned. -/
theorem test_cmplt : after (.cmplt 0 3 1 2 1) (gRegs [(1, 0xFFFFFFFFFFFFFFFF), (2, 0)]) (fun t =>
    (t.tc 0).gr 3 == 1) = true
    ∧ after (.cmplt 0 3 1 2 5) (gRegs [(1, 0xFFFFFFFFFFFFFFFF), (2, 0)]) (fun t => (t.tc 0).gr 3 == 0) = true := by
  decide

/-- R192: MOVHI shifts its sign-extended immediate by 16; CLZ counts. -/
theorem test_movhi : after (.movhi 0 3 0x8000) (gRegs []) (fun t => (t.tc 0).gr 3 == 0xFFFFFFFF80000000) = true
    ∧ after (.clz 0 3 1 1) (gRegs [(1, 1)]) (fun t => (t.tc 0).gr 3 == 63) = true := by decide

/-- R111: the quotient of a zero divisor saturates with DIVZ; the signed overflow is its dividend. -/
theorem test_quo : after (.quo 0 3 1 2 0) (gRegs [(1, 0xFFFFFFFFFFFFFFF9)]) (fun t =>
    (t.tc 0).vpipe == some ⟨⟨[.g 3 0xFFFFFFFF80000000], [0x80]⟩, 3, 0⟩) = true
    ∧ after (.quo 0 3 1 2 0) (gRegs [(1, 0x80000000), (2, 0xFFFFFFFF)]) (fun t =>
      (t.tc 0).vpipe == some ⟨⟨[.g 3 0xFFFFFFFF80000000], [0x100]⟩, 3, 0⟩) = true := by decide

/-- R111: −7 rem 2 = −1. -/
theorem test_rmd : after (.rmd 0 3 1 2 1) (gRegs [(1, 0xFFFFFFFFFFFFFFF9), (2, 2)]) (fun t =>
    (t.tc 0).vpipe.map (fun v => v.out) == some ⟨[.g 3 0xFFFFFFFFFFFFFFFF], [0]⟩) = true := by decide

/-- A divide in flight on tile 0. -/
def vRun1 : VRun := ⟨⟨[.g 3 1], [0x80]⟩, 3, 0⟩

theorem witness_laneFlagsAndTrapReturn :
    (let s := onTile0 { vpipe := some vRun1 }
     (s.tc 0).vpipe = some vRun1 ∧ (s.tc 0).atRest ∧ s.unitRuns 0 7 = true ∧ 0x80 &&& s.trapEn 0 = 0)
    ∧ ({ onTile0 { vpipe := some vRun1 } with faults := [⟨0, 1, 0, 1, 0⟩] } : State).unitRuns 0 7 = false
    ∧ (let s := onTile0 { inTrap := true }
       s.laneReady 0 ∧ (s.tc 0).inTrap = true ∧ (s.tc 0).curHeat = some heat1
         ∧ ∀ k ∈ heat1.tiles, k ≠ 0 → (s.tc k).inTrap = false)
    ∧ (let h := { heat1 with tiles := [0, 1] }
       let s : State := { onTile0 { inTrap := true, heats := [h] } with
                  tiles := (onTile0 { inTrap := true, heats := [h] }).tiles ++ [(1, { tc := { inTrap := true } })] }
       s.laneReady 0 ∧ (s.tc 0).inTrap = true ∧ (s.tc 0).curHeat = some h
         ∧ ∃ k ∈ h.tiles, k ≠ 0 ∧ (s.tc k).inTrap = true)
    ∧ (onTile0 {}).laneReady 0 ∧ (onTile0 {}).ctxState ((onTile0 {}).ctxOn 0) ≠ 3 := by
  unfold State.laneReady TCtx.atRest; decide

/-- R110: the quotient is delivered with its flag. -/
theorem test_vPipeResult : after (.vPipeResult 0) (onTile0 { vpipe := some vRun1 }) (fun t =>
    (t.tc 0).gr 3 == 1 && (t.tc 0).sflag == 0x80 && (t.tc 0).vpipe.isNone) = true := by decide

/-- R115: FLUSHED cannot be enabled. -/
theorem test_trapen : after (.trapen 0 1) (gRegs [(1, 0x1FF)]) (fun t => (t.tc 0).strapEn == 0x19F) = true := by decide

/-- A clamping ADDS with SATURATED enabled and a handler. -/
def trapping (c : TCtx) : State := onTile0 { c with g := [(1, 0x7FFFFFFF), (2, 1)], strapEn := 0x008 }

theorem witness_trapsAndBranches :
    (let s := trapping { strapVec := 0x40 }
     let v := (((s.tc 0).gr 1).setWidth 32).toInt + (((s.tc 0).gr 2).setWidth 32).toInt
     s.laneReady 0 ∧ (s.tc 0).curHeat = some heat1 ∧ 2 ^ 31 ≤ v ∧ 0x18 &&& s.trapEn 0 ≠ 0
       ∧ (s.tc 0).inTrap = false ∧ 4 ≤ (s.tc 0).strapVec.toNat)
    ∧ (trapping { strapVec := 3 }).laneReady 0 ∧ ((trapping { strapVec := 3 }).tc 0).strapVec.toNat < 4
    ∧ (trapping { inTrap := true }).laneReady 0 ∧ ((trapping { inTrap := true }).tc 0).inTrap = true
    ∧ 0x18 &&& (trapping { inTrap := true }).trapEn 0 ≠ 0 := by
  unfold State.laneReady; decide

/-- R116: a trap writes no destination and records one lane, the enabled and the raised flags. -/
theorem test_trap : after (.adds 0 3 1 2 0) (trapping { strapVec := 0x40 }) (fun t =>
    (t.tc 0).gr 3 == 0 && (t.tc 0).pc == 0x40 && (t.tc 0).inTrap && (t.tc 0).strapCause == 0x10080018) = true := by
  decide

/-- R194: a branch counts from its own address, in units of 8 bytes. -/
theorem test_bltz : after (.bltz 0 1 0xFFFF) (onTile0 { g := [(1, 0x8000000000000000)], pc := 16 }) (fun t =>
    (t.tc 0).pc == 8) = true
    ∧ after (.bgez 0 1 0xFFFF) (onTile0 { g := [(1, 0x8000000000000000)], pc := 16 }) (fun t =>
      (t.tc 0).pc == 24) = true := by decide

/-! ## Floating point, loads and stores -/

theorem witness_fp : (fRegs [(1, 0x3F800000), (2, 0x40000000)]).laneReady 0 ∧ (0 : Byte).toNat % 4 ≠ 3
    ∧ (let s := fRegs [(1, 0x3F800000), (2, 0x40000000)]
       fpFlags (fpLanes (s.tc 0) 0 (fun m r => m.add (s.flushOn 0) (r 1) (r 2))) &&& s.trapEn 0 = 0
       ∧ s.flushOn 0 = false)
    ∧ (fFP32.decode 0x3F800000).isFinite = true := by
  unfold State.laneReady; decide

/-- 1 + 2 = 3; 1 + 2^-24 rounds to even, with INEXACT (R103). -/
theorem test_fadd : after (.fadd 0 3 1 2 0) (fRegs [(1, 0x3F800000), (2, 0x40000000)]) (fun t =>
    (t.tc 0).fr 3 == 0x40400000 && (t.tc 0).sflag == 0) = true
    ∧ after (.fadd 0 3 1 2 0) (fRegs [(1, 0x3F800000), (2, 0x33800000)]) (fun t =>
      (t.tc 0).fr 3 == 0x3F800000 && (t.tc 0).sflag == 0x08) = true := by decide

/-- 1.5 * 1.5 = 2.25 in FP64; FMA of 1 * 1 - 1 is +0 (R103). -/
theorem test_fmul : after (.fmul 0 3 1 1 2) (fRegs [(1, 0x3FF8000000000000)]) (fun t =>
    (t.tc 0).fr 3 == 0x4002000000000000) = true
    ∧ after (.fma 0 3 1 1 2 0) (fRegs [(1, 0x3F800000), (2, 0xBF800000)]) (fun t => (t.tc 0).fr 3 == 0) = true := by
  decide

/-- R68: outside SERVICE one NaN operand is ignored; in SERVICE the result is the canonical NaN (R67). -/
theorem test_fmin : after (.fmin 0 3 1 2 0) { fRegs [(1, 0x7FC00000), (2, 0x40000000)] with phase := .boot } (fun t =>
    (t.tc 0).fr 3 == 0x40000000) = true
    ∧ after (.fmin 0 3 1 2 0) { fRegs [(1, 0x7FC00000), (2, 0x40000000)] with ctl := [(partA 0 0x1C, 0x40000000)] }
      (fun t => (t.tc 0).fr 3 == 0x7FC00000) = true := by decide

/-- R106: −0 = +0; FLT of a NaN is 0 with INVALID. -/
theorem test_feq : after (.feq 0 3 1 2 0) (fRegs [(1, 0x80000000)]) (fun t => (t.tc 0).gr 3 == 1) = true
    ∧ after (.flt 0 3 1 2 0) (fRegs [(1, 0x7FC00000)]) (fun t =>
      (t.tc 0).gr 3 == 0 && (t.tc 0).sflag == 1) = true := by decide

/-- R104: FNEG of 1 and FCOPYSIGN. -/
theorem test_fneg : after (.fneg 0 3 1 0) (fRegs [(1, 0x3F800000)]) (fun t => (t.tc 0).fr 3 == 0xBF800000) = true
    ∧ after (.fcopysign 0 3 1 2 0) (fRegs [(1, 0xBF800000), (2, 0x40000000)]) (fun t =>
      (t.tc 0).fr 3 == 0x3F800000) = true := by decide

theorem witness_fpDivisionAndRoot : (fRegs [(1, 0xBF800000)]).laneReady 0 ∧ (0 : Byte).toNat % 4 = 0
    ∧ (2 : Byte).toNat % 4 = 2 ∧ (1 : Byte).toNat % 4 = 1 := by
  unfold State.laneReady; decide

/-- R105: −1 / +0 is −∞ with DIVZ after 4 cycles. -/
theorem test_fdiv : after (.fdiv 0 3 1 2 0) (fRegs [(1, 0xBF800000)]) (fun t =>
    (t.tc 0).vpipe == some ⟨⟨[.f 3 0xFF800000], [0x80]⟩, 4, 0⟩) = true := by decide

/-- R105, R109: √4 = 2 in FP32 after 4 + 23 + 3 cycles. -/
theorem test_fsqrt : after (.fsqrt 0 3 1 0) (fRegs [(1, 0x40800000)]) (fun t =>
    (t.tc 0).vpipe.map (fun v => (v.out.writes, v.cycles)) == some ([.f 3 0x40000000], 30)) = true := by decide +kernel

/-- R107: FP32 −2 to an integer register; infinity to the limit with INVALID and INEXACT; 3 to FP64. -/
theorem test_cvt : after (.cvt 0 3 1 false 1 0xF 0) (fRegs [(1, 0xC0000000)]) (fun t =>
    (t.tc 0).gr 3 == 0xFFFFFFFFFFFFFFFE && (t.tc 0).sflag == 0) = true
    ∧ after (.cvt 0 3 1 false 1 0xF 0) (fRegs [(1, 0x7F800000)]) (fun t =>
      (t.tc 0).gr 3 == 0x7FFFFFFF && (t.tc 0).sflag == 0x11) = true
    ∧ after (.cvt 0 3 1 false 0xF 0 0) (gRegs [(1, 3)]) (fun t => (t.tc 0).fr 3 == 0x4008000000000000) = true := by
  decide

theorem witness_conversions :
    (let s := fRegs [(1, 0xC0000000)]
     s.laneReady 0 ∧ s.flushOn 0 = false ∧ (fFP32.decode 0xC0000000).isFinite = true
       ∧ (fFP32.decode 0xC0000000).units 2200 = -2 * 2 ^ 2200 ∧ s.trapEn 0 = 0)
    ∧ fFP32.nanBits 0x7FC00000 = true ∧ 0x7F800000 % 2 ^ 31 = fFP32.infCode := by
  unfold State.laneReady; decide +kernel

/-- Context 0 with the first 64 KiB of tile 0's scratchpad as its share, tile 0 in its mask. -/
def shared (c : TCtx) : State :=
  { onTile0 c with
    ctl := [(partA 0 0x1C, 0x40000000), (ctxA 0 0x00, 0x80000000), (ctxA 0 0x04, 1), (ctxA 0 0x08, 0x00100000)]
    mem := [(spadBase 0 + 9, 0x80)] }

theorem witness_loadsAndStores :
    (let s := shared { g := [(1, 0x100), (2, 0x1FF)] }
     let a := s.spadOff (s.ctxOn 0) 0x100
     s.laneReady 0 ∧ 0x100 % 4 = 0 ∧ s.spadAdmits 0 (s.ctxOn 0) a 4 = true ∧ s.poisoned (spadBase 0 + a) 4 = false
       ∧ s.streamsOff = true ∧ s.ctxState (s.ctxOn 0) ≠ 3
       ∧ ¬ ((s.ctxSpad (s.ctxOn 0)).1 ≤ a ∧ s.protects 0 (s.ctxOn 0) (a - (s.ctxSpad (s.ctxOn 0)).1) 4 = true))
    ∧ ¬ (0x1FF % 4 = 0)
    ∧ (let s := { shared { g := [(1, 0x40)] } with mem := [(spadBase 0 + 5, 1), (spadBase 0 + 9, 0x80)] }
       let a := s.spadOff (s.ctxOn 0) 0x40
       s.spadAdmits 0 (s.ctxOn 0) a 4 = true ∧ (s.ctxSpad (s.ctxOn 0)).1 ≤ a
         ∧ s.protects 0 (s.ctxOn 0) (a - (s.ctxSpad (s.ctxOn 0)).1) 4 = true) := by
  unfold State.laneReady; decide

/-- R192: ST writes a word of the share that LD reads sign-extended; a misaligned LD is a fault ADDR. -/
theorem test_st : after (.st 0 2 1 2 0x10) (shared { g := [(1, 0x100), (2, 0x80000001)] }) (fun t =>
    t.mval (spadBase 0 + 0x110) 4 == 0x80000001 && t.mget (spadBase 0 + 0x114) == 0) = true := by decide
theorem test_ld : after (.ld 0 2 1 0x12 0) { shared { g := [(1, 0x100)] } with mem := [(spadBase 0 + 9, 0x80), (spadBase 0 + 0x103, 0x80)] }
    (fun t => (t.tc 0).gr 2 == 0xFFFFFFFF80000000) = true
    ∧ after (.ld 0 2 1 2 1) (shared { g := [(1, 0x100)] }) (fun t =>
      t.hasFault 0 && t.rfld (ctxA 0 0x3C) 24 8 == 1) = true := by decide

/-! ## Tile programs -/

/-- A heat whose program has ended, and one with the SOLVE of two problems. -/
def ended1 : Heat := { heat1 with hended := true }
def solving1 (r : SolveRun) : Heat := { heat1 with solve := some r }

/-- Tile 0 in partition 0 with a baton at CFG and COUNT, and waits. -/
def batoned (cfg count : Word) (w : List BWait) : State :=
  { onTile0 {} with
    ctl := [(partA 0 0x1C, 0x40000000), (batonA 5 0, count), (batonA 5 4, cfg)]
    waits := w }

/-- 512 waits on another baton. -/
def waits512 : List BWait := List.replicate 512 ⟨6, 1, .remote 0 2 0 0 0 1, 0, 0⟩

theorem witness_sequencerEntries : (onTile0 {}).laneReady 0 ∧ ((onTile0 {}).tc 0).atRest
    ∧ ((onTile0 {}).tc 0).curHeat = some heat1 ∧ ((onTile0 {}).tc 0).heat? heat1.num = some heat1
    ∧ (∀ k ∈ heat1.tiles, ((onTile0 {}).tc k).atRest) := by
  unfold State.laneReady TCtx.atRest; decide

theorem witness_batonCommands :
    (batoned 0x80000001 0 []).laneReady 0 ∧ ((batoned 0x80000001 0 []).tc 0).curHeat = some heat1
    ∧ (batoned 0x80000001 0 []).batonProxy 5 = false ∧ (batoned 0x80000001 0 []).batonEvt 5 = false
    ∧ (batoned 0x80000001 0 []).batonSem 5 = false ∧ (batoned 0xC0000001 3 []).batonSem 5 = true
    ∧ (batoned 0xC0000001 3 []).rget (batonA 5 0) = 3 ∧ (batoned 0x80000001 0 []).batonEn 5 = true
    ∧ (batoned 0x80000001 0 []).batonMask 5 = 1 ∧ (batoned 0x80000002 0 []).batonMask 5 = 2
    ∧ (batoned 0x80000001 0 []).ctxPart 0 = 0 ∧ (batoned 0x80000001 0 []).ctxOn 0 = 0
    ∧ (batoned 0x80000001 0 []).ctxState 0 ≠ 3 ∧ ((batoned 0x80000001 0 []).tc 0).waitOk 0 0 = true
    ∧ 2 ^ 31 ≤ ((0 : Word) - 1).toNat ∧ ((3 : Word) - 3).toNat < 2 ^ 31 := by
  unfold State.laneReady; decide

theorem witness_batonPosts :
    (batoned 0x80000001 0 []).dumpsOff ∧ ((batoned 0x80000001 0 []).tc 0).atRest
    ∧ 512 ≤ (batoned 0x80000001 0 waits512).waitCount ∧ ∀ w ∈ waits512, w.baton ≠ 5 := by
  unfold TCtx.atRest State.dumpsOff; decide +kernel

/-- R306: a satisfied COUNT wait lets issue go on; R307: a SEM wait takes its ARG. -/
theorem test_bwait : after (.bwait 0 hdr1 5 3) (batoned 0x80000001 3 []) (fun t =>
    (t.tc 0).pc == 32 && (t.tc 0).hold == .none && t.waits == []) = true
    ∧ after (.bwait 0 hdr1 5 2) (batoned 0xC0000001 3 []) (fun t => t.rget (batonA 5 0) == 1) = true := by
  decide

/-- Descriptors 0 to 2 of one FP32 element each, the third at 0x4000, and a template of one tile at 0. -/
def tensored (c : TCtx) : State :=
  { shared c with
    mem := [(spadBase 0 + 0x04, 1), (spadBase 0 + 0x0B, 1), (spadBase 0 + 0x0C, 1), (spadBase 0 + 0x0E, 1),
      (spadBase 0 + 0x24, 1), (spadBase 0 + 0x2C, 1), (spadBase 0 + 0x2E, 1), (spadBase 0 + 0x41, 0x40),
      (spadBase 0 + 0x44, 1), (spadBase 0 + 0x4C, 1), (spadBase 0 + 0x4E, 1)] }

theorem witness_stageCommandsStart :
    (let s := tensored {}
     let o : ConvOps := { conv1 with td := 2 }
     s.laneReady 0 ∧ (s.tc 0).curHeat = some heat1 ∧ (s.tc 0).atRest ∧ (s.tc 0).waitOk (s.tc 0).nextSeq 0 = true
       ∧ s.dumpsOff ∧ (s.tile 0).stops = [] ∧ (s.tc 0).copy = none ∧ s.copyFault 0 0 (spadBase 0) 16 false = 0
       ∧ s.copyFault 0 0 (spadBase 0 + 0x1000) 16 true = 0 ∧ (s.place (spadBase 0)).row < 4
       ∧ (s.tc 0).tensor = none ∧ (s.tc 0).tfAccepts heat1.num = true ∧ (s.tc 0).heat? heat1.num = some heat1
       ∧ (∀ k ∈ heat1.tiles, k = 0)
       ∧ macAgrees mac1 (s.tdesc 0 0 0) (s.tdesc 0 0 1) none (s.tdesc 0 0 2) none = true
       ∧ convAgrees o (s.tdesc 0 0 0) (s.tdesc 0 0 2) = true
       ∧ (∀ op ∈ [StageOp.mac mac1, .conv o, .xtload 0 false 0], s.tensorFault 0 0 op = 0
         ∧ s.poisonIn (s.tensorReads 0 0 op) = false))
    ∧ (let s := tensored {}
       heat1.solve = none ∧ heat1.aborted = false ∧ (s.tmpl 0 0 0).gang = heat1.tiles.length ∧ 0 ∈ heat1.tiles
         ∧ s.portFaults 0 0 (s.tmplBytes (s.shareA 0 0 0) (s.tmpl 0 0 0)) false = 0
         ∧ s.poisonIn (s.tmplBytes (s.shareA 0 0 0) (s.tmpl 0 0 0)) = false)
    ∧ (let s := onTile0 { heats := [solving1 solve1] }
       s.laneReady 0 ∧ (s.tc 0).curHeat = some (solving1 solve1) ∧ (solving1 solve1).solve.isSome = true
         ∧ (s.tc 0).qa.length < 4 ∧ s.ctxState (s.ctxOn 0) ≠ 3) := by
  unfold State.laneReady TCtx.atRest State.dumpsOff; decide +kernel

theorem witness_stageCommandsQueue :
    (let s := onTile0 { work := [(0, 6)], nextSeq := 1 }
     s.laneReady 0 ∧ (s.tc 0).curHeat = some heat1 ∧ (s.tc 0).atRest ∧ (s.tc 0).waitOk 1 0x40 = false
       ∧ (s.tmpl 0 0 0).gang ≠ heat1.tiles.length ∧ s.ctxState (s.ctxOn 0) ≠ 3
       ∧ macAgrees mac1 (s.tdesc 0 0 0) (s.tdesc 0 0 1) none (s.tdesc 0 0 2) none = false)
    ∧ (let s := { onTile0 { work := [(0, 6)], nextSeq := 1 } with mem := [(spadBase 0 + 0x0B, 1)] }
       (s.tmpl 0 0 0).gang = heat1.tiles.length)
    ∧ (let s := { onTile0 {} with mem := [(spadBase 0 + 12, 1), (spadBase 0 + 14, 1)] }
       convAgrees conv1 (s.tdesc 0 0 0) (s.tdesc 0 0 0) = true
         ∧ convAgrees conv1 (s.tdesc 0 0 0) (s.tdesc 0 0 40) = false)
    ∧ (onTile0 { qc := List.replicate 4 ⟨0, 0, 0, 0, 1, false, .copy 0 0 4⟩ }).laneReady 0 := by
  unfold State.laneReady TCtx.atRest; decide +kernel

/-- A COPY of 600 bytes in service on tile 0, and a Tensor command that writes one byte. -/
def copy1 : CopyRun :=
  { cmd := ⟨0, 0, 0, 0, 1, false, .copy 0 0 600⟩, src := 0, dst := spadBase 0, left := 600, remote := false
    outst := 0, err := 0, held := false }
def tensor1 : TensorRun := { cmd := ⟨0, 0, 0, 0, 1, false, .mac mac1⟩, bytes := [(0x100, 7)] }

theorem witness_commandsCommit :
    (let s := onTile0 { copy := some copy1, tensor := some tensor1, work := [(0, 6)] }
     s.streamsOff = true ∧ s.dumpsOff ∧ s.poison = [] ∧ (s.tc 0).atRest ∧ (s.tc 0).copy = some copy1
       ∧ s.unitRuns 0 6 = true ∧ s.unitRuns 0 1 = true ∧ (s.tc 0).tensor = some tensor1 ∧ tensor1.hrec = 0
       ∧ (∀ k ∈ s.heatTiles 0 tensor1.cmd.heat, k = 0) ∧ tensor1.bytes.Pairwise (fun p q => p.1 ≠ q.1)) := by
  unfold TCtx.atRest State.dumpsOff; decide +kernel

/-- A heat that solves, with its first problem in a stage. -/
def inStage (st : StageName) : State :=
  onTile0 { heats := [solving1 { solve1 with next := 1 }]
            slots := [(0, some { slot1 with stage := st, due := decide (st = .factor) })] }

theorem witness_problemsFlow :
    (let s := onTile0 { heats := [solving1 solve1] }
     (s.tc 0).heat? 1 = some (solving1 solve1) ∧ (∀ g ∈ (s.tc 0).heats, g.tiles = [0]) ∧ heat1.ctx = s.ctxOn 0
       ∧ s.poison = [] ∧ heat1.hostBad = [] ∧ (s.tc 0).qa = [] ∧ (s.tc 0).qb = []
       ∧ (s.tc 0).entering = some (solving1 solve1, solve1) ∧ s.rankReady 1 0 0 = true ∧ (s.tc 0).freeSlot = some 0
       ∧ s.portFaults 0 0 (s.asmBytes 0 0 (s.shareA 0 0 0) (solving1 solve1) (s.tmpl 0 0 0) 0) false = 0)
    ∧ (let s := inStage .emit
       (s.tc 0).committing.isSome = true ∧ s.rankEmits 1 0 0 = true
         ∧ ((s.tc 0).slots.map Prod.fst).Nodup ∧ (∀ p ∈ (s.tc 0).live4, p.1 = 0) ∧ (s.tc 0).slotOf 1 0 = some (0, { slot1 with stage := .emit }))
    ∧ ((inStage .factor).factoring 0 0).isSome = true ∧ (inStage .factor).unitRuns 0 2 = true
    ∧ (let s := { inStage .iterate with mem := [(spadBase 0 + 3, 0x10), (spadBase 0 + 8, 9)] }
       (s.iterating 0 0).isSome = true ∧ s.unitRuns 0 4 = true) := by decide +kernel

theorem witness_stageDone :
    (let s := inStage .tensor
     s.dumpsOff ∧ s.rankDone 0 1 0 .tensor 0 = true) := by
  unfold State.dumpsOff; decide +kernel

theorem witness_heatsEndAndSetPointsArrive :
    (let s := onTile0 { heats := [ended1] }
     (s.tile 0).ctx = some ended1.ctx ∧ (s.tile 0).power = .run ∧ s.heatDone 0 ended1 = true ∧ (s.tc 0).atRest ∧ (s.tc 0).heats = [ended1] ∧ s.dsp.be = []
       ∧ s.dsp.heldTrig = [] ∧ (onTile0 {}).heatDone 0 heat1 = false)
    ∧ (let s : State := { emitQ := [⟨1023, 7, 0⟩], ctl := [(loopA 1023 0x18, 0x80000000)] }
       s.loopEn 1023 = true ∧ s.ctxBE 0 = false ∧ s.rfld (loopA 1023 0x18) 0 4 = s.ctxPart 0
         ∧ (s.loop 1023).hostAt ≠ some s.now
         ∧ (({ s with lap := { loops := [(1023, { hostAt := some 0 })] } } : State).loop 1023).hostAt = some 0)
    ∧ ({} : State).loopEn 1023 = false := by
  unfold TCtx.atRest; decide +kernel

/-- The problem of a heat with a deadline alone on tile 0. -/
def dueIn (sl : Slot) : State :=
  onTile0 { heats := [{ solving1 { solve1 with next := 1 } with dead := true }], slots := [(0, some sl)] }

/-- The context is on no other tile. -/
theorem witness_onOneTile (sl : Slot) : ∀ k, k ≠ 0 → ((dueIn sl).tile k).ctx ≠ some 0 := by
  intro k hk
  simp [dueIn, onTile0, State.tile, tget, Ne.symm hk]

theorem witness_cutPoints :
    (onTile0 {}).hasDeadline 0 1 = false
    ∧ (let s := dueIn { slot1 with stage := .factor, due := true }
       (s.tile 0).ctx = some 0 ∧ s.working 0 = true ∧ (s.tile 0).preq = none ∧ s.obs.dumps = []
         ∧ (s.tc 0).qa = [] ∧ (s.tc 0).qb = [] ∧ (s.tc 0).qc = [] ∧ (s.tc 0).qt = [] ∧ s.unitRuns 0 3 = true
         ∧ s.unitRuns 0 5 = true ∧ (s.store (s.storeA 0 0 0)).committed = none ∧ (s.tmpl 0 0 0).fpol = 0
         ∧ s.hasDeadline 0 1 = true)
    ∧ (let s := { dueIn { slot1 with stage := .factor, due := true } with
                  stores := [(spadBase 0, { committed := some 1, tag := 0 })] }
       (s.store (s.storeA 0 0 0)).committed = some 1 ∧ (s.store (s.storeA 0 0 0)).tag = (s.tmpl 0 0 0).stag)
    ∧ (let s := dueIn { slot1 with stage := .iterate, iter := 1 }
       1 ≠ (s.tmpl 0 0 0).k) ∧ (dueIn { slot1 with stage := .solve }).working 0 = true := by decide +kernel

/-- R172: with no factorization committed, C_fac makes the problem miss. -/
theorem test_cutPointFac : after (.cutPointFac 0 1) (dueIn { slot1 with stage := .factor, due := true }) (fun t =>
    ((t.tc 0).slotAt 0).map (fun y => (y.mark, y.stage)) == some (6, .emit)) = true := by decide +kernel

/-- Tile 0 with a request of pre-emption under way, or saving, or restoring. -/
def preempting (x : Tile) (m : List Host.Cell) : State :=
  { phase := .service, ctl := [(partA 0 0x1C, 0x40000000)], mem := m, tiles := [(0, { x with power := .run })] }

theorem witness_preemption :
    (let s := preempting { ctx := some 0, seq := .running, preDue := some 65536
                           tc := { heats := [heat1], copy := some copy1 } } []
     s.gangOn 0 = [0] ∧ s.obs.dumps = [] ∧ (s.tile 0).preDue.isSome = true ∧ (s.tile 0).preq = none
       ∧ ((List.range 8).filter (fun k => !(s.tc 0).unitBusy k)).length = 7)
    ∧ (let s := preempting { ctx := some 0, seq := .running, preq := some 0
                             tc := { heats := [heat1], copy := some copy1, vpipe := some vRun1 } } []
       s.gangOn 0 = [0] ∧ s.atPoint 0 6 = true ∧ s.atPoint 0 7 = true ∧ (s.tile 0).stops = [] ∧ s.poison = []
         ∧ (s.tc 0).copy = some copy1 ∧ copy1.remote = false ∧ copy1.held = false)
    ∧ (let s := preempting { ctx := some 0, seq := .running, preDue := some 65536, tc := { heats := [{ heat1 with hended := true }] } } []
       s.gangOn 0 = [0] ∧ ((List.range 8).filter (fun k => !(s.tc 0).unitBusy k)).length = 8)
    ∧ (let s := preempting { ctx := some 0, seq := .running, preq := some 0
                             stops := (List.range 7).map (fun k => (k, 0, false)) } []
       s.atPoint 0 7 = true ∧ s.gangOn 0 = [0]
         ∧ ∀ k < 8, ((s.tile 0).stops ++ [(7, s.now, false)]).any (fun p => p.1 == k) = true)
    ∧ (let s := preempting { ctx := some 0, seq := .saving } []
       s.gangOn 0 = [0] ∧ (s.tile 0).inReset = false ∧ (s.tile 0).seq = .saving)
    ∧ (let s := { preempting { seq := .restoring, incoming := some 0 } [(spadBase 0, 1)] with
                  saved := [(savedKey 0 0, { heats := [heat1] })] }
       s.gangOn 0 = [0] ∧ (s.tile 0).inReset = false ∧ (s.tile 0).preq = none ∧ s.poison = []
         ∧ s.mval (s.saveA 0 0) 1 = 1 ∧ s.dsp.be = [] ∧ tfind s.saved (savedKey 0 0) = some { heats := [heat1] })
    ∧ tfind (preempting { seq := .restoring, incoming := some 0 } []).saved (savedKey 0 0) = none := by decide +kernel

/-- R110: a stop abandons the V instruction in flight, which executes again. -/
theorem test_unitStop : after (.unitStop 0 7) (preempting
      { ctx := some 0, seq := .running, preq := some 0, tc := { heats := [heat1], pc := 8, vpipe := some vRun1 } } [])
    (fun t => (t.tc 0).vpipe.isNone && (t.tc 0).pc == vRun1.pc) = true := by decide

/-! ## Start-up, continued -/

/-- Registers with values. -/
def regs (l : List (Nat × Word)) : Tab Word := l.foldl (fun t p => tput t p.1 p.2) []

/-- The Starting Block at entry 0 of a script of 16-byte entries. -/
def scripted (script : List Byte) (b : Boot) : State :=
  { phase := .boot, ctl := [(0x04, 0x90000000)], boot := { b with script := script } }

/-- An entry of zeros but for its first bytes: opcode, FLAGS, ARG, ADDR, VALUE, MASK. -/
def entry (op : Byte) (rest : List Byte) : List Byte := op :: (rest ++ List.replicate (15 - rest.length) 0)

/-- SHAKE256 of no bytes. -/
def hash0 : List Byte :=
  [0x46, 0xB9, 0xDD, 0x2B, 0x0B, 0xA8, 0x8D, 0x13, 0x23, 0x3B, 0x3F, 0xEB, 0x74, 0x3E, 0xEB, 0x24,
    0x3F, 0xCD, 0x52, 0xEA, 0x62, 0xB8, 0x1B, 0x82, 0xB5, 0x0C, 0x27, 0x64, 0x6E, 0xD5, 0x76, 0x2F]

/-- A firmware header of one section of the type given, empty, for a tile's share. -/
def head1 (type : Byte) : List Byte :=
  [0x54, 0x4B, 0x49, 0x4D, 0x40, 0x96] ++ List.replicate 10 0 ++ [1] ++ List.replicate 239 0
    ++ ([type] ++ List.replicate 20 0 ++ [0x10] ++ List.replicate 10 0 ++ hash0)

/-- R414: the hash of an empty script is right. -/
theorem test_scriptHash : ({ bootAt 7 with boot := { head := head1 1 } } : State).scriptOk 0 [] = true := by
  decide +kernel

/-- The passing slot carries a signature under a root that the manual does not give: no state of it is shown. -/
theorem witness_slotChecks :
    (bootAt 6).phase = .boot ∧ (bootAt 6).bootStepNo = 6 ∧ ofLeBytes (([] : List Byte).take 4) ≠ 0x4D494B54
    ∧ headerBad { bootAt 6 with boot := { head := head1 1 } } = none
    ∧ ({ bootAt 6 with ctl := (0x1C, 1) :: (bootAt 6).ctl } : State).rget 0x1C = 1
    ∧ ({ bootAt 6 with boot := { head := head1 1 } } : State).headFld 0x08 4 = 0
    ∧ (bootAt 6).slotCheck [] [] = some (0x03, 0x00) ∧ (bootAt 6).rbit 0x04 27 = false
    ∧ (bootAt 6).anchorFld 0x0C 4 ≠ 0xFFFFFFFF
    ∧ ({ bootAt 6 with boot := { anchor := List.replicate 16 255 } } : State).anchorFld 0x0C 4 = 0xFFFFFFFF
    ∧ (let s : State := { bootAt 7 with boot := { head := [1] } }
       s.boot.head ≠ [] ∧ s.scriptOk (s.headFld 0x12 2) [] = false)
    ∧ (let s : State := { scripted (entry 0 []) {} with phase := .bist }
       (s.headFld 7 1).testBit 0 = false ∧ 0 < s.entryCount ∧ s.entryOk 0 = true)
    ∧ (({ boot := { head := List.replicate 8 1 } } : State).headFld 7 1).testBit 0 = true := by decide +kernel

theorem witness_scriptEntries :
    (let s := scripted (entry 1 [0, 0, 0, 0x10, 0x00, 6, 0, 5] ++ entry 0 []) {}
     s.atEntry 1 = true ∧ s.entryFld 0 4 4 = dspA 0x10 ∧ (regSpec (dspA 0x10)).isSome = true
       ∧ s.regBlocked (dspA 0x10) = false ∧ s.entryNo + 1 < s.entryCount ∧ s.entryOk (s.entryNo + 1) = true
       ∧ codeRefused (dspA 0x10) 5 = false)
    ∧ (let s := scripted (entry 2 [0, 0, 0, 0x10, 0x00, 6, 0, 5] ++ entry 0 []) {}
       s.atEntry 2 = true ∧ s.entryFld 0 4 4 = dspA 0x10 ∧ s.entryFld 0 1 1 = 0 ∧ s.ue = []
         ∧ s.readReg 3 (dspA 0x10) = (s, s.rget (dspA 0x10), 0) ∧ s.entryNo + 1 < s.entryCount
         ∧ s.entryOk (s.entryNo + 1) = true ∧ codeRefused (dspA 0x10) 5 = false)
    ∧ (let s := scripted (entry 3 [0, 0, 0, 0x10, 0x00, 6, 0] ++ entry 0 []) {}
       s.atEntry 3 = true ∧ s.readReg 3 (dspA 0x10) = (s, 0, 0))
    ∧ ({ scripted [] { wait := .poll } with phase := .boot } : State).boot.wait = .poll
    ∧ (let s := scripted (entry 1 [0, 0, 0, 0x02]) {}
       s.atEntry 1 = true ∧ regSpec (s.entryFld 0 4 4) = none)
    ∧ (let s := scripted (entry 4 [1, 0, 0, 1]) {}
       s.atEntry 4 = true ∧ s.entryFld 0 4 4 = 1 ∧ s.boot.mem = 0)
    ∧ (let s := scripted (entry 4 [0, 0, 0, 2, 0, 0, 0, 15] ++ entry 0 []) {}
       s.atEntry 4 = true ∧ s.entryFld 0 4 4 = 2 ∧ s.entryFld 0 1 1 = 0 ∧ s.entryNo + 1 < s.entryCount
         ∧ s.entryOk (s.entryNo + 1) = true) := by decide +kernel

/-- One section of TYPE 2 and LEN 0 for a tile. -/
def dataSection : List Byte :=
  List.replicate 16 0 ++ [1] ++ List.replicate 239 0 ++ [2] ++ List.replicate 63 0

theorem witness_loadsVerifyAndLock :
    (scripted [] { mem := 1 }).boot.wait ≠ .memory ∧ (scripted [] { mem := 2 }).phase ≠ .failed
    ∧ (let s := scripted (entry 5 []) { head := dataSection }
       s.atEntry 5 = true ∧ 0 < s.nsect ∧ s.secFld 0 0 1 = 2 ∧ s.secFld 0 1 1 = 0 ∧ s.secFld 0 2 1 < 16
         ∧ s.loadDestOk (s.secFld 0 0x10 8 % 2 ^ 48) (s.secFld 0 4 4) = true)
    ∧ (scripted (entry 5 [0, 1]) { head := dataSection }).nsect ≤ 1
    ∧ (let s := scripted (entry 5 [] ++ entry 0 []) { head := dataSection, wait := .load 0, mem := 3 }
       s.secFld 0 4 4 = 0 ∧ s.secFld 0 8 4 ≤ s.headFld 0x0C 4 ∧ shake256 [] ≠ s.secHash 0)
    ∧ (let s := scripted (entry 5 [] ++ entry 0 []) { head := head1 2, wait := .load 0, mem := 3 }
       s.boot.wait = .load 0 ∧ s.secFld 0 1 1 = 0 ∧ s.secFld 0 4 4 = 0 ∧ s.secFld 0 8 4 ≤ s.headFld 0x0C 4
         ∧ shake256 [] = s.secHash 0 ∧ s.entryNo + 1 < s.entryCount ∧ s.entryOk (s.entryNo + 1) = true)
    ∧ ({ scripted [] {} with ctl := [(memA 0x00, 0x20000000)] } : State).rbit (memA 0x00) 29 = true
    ∧ (scripted [] {}).rbit (memA 0x00) 29 = false
    ∧ (let s := scripted (entry 6 [] ++ entry 0 []) {}
       s.verifyAll = none ∧ s.entryNo + 1 < s.entryCount ∧ s.entryOk (s.entryNo + 1) = true)
    ∧ (scripted (entry 6 [] ++ entry 0 []) {}).atEntry 6 = true
    ∧ (scripted (entry 7 []) {}).atEntry 7 = true ∧ (scripted (entry 7 []) {}).rbit 0x04 25 = false
    ∧ (let s : State := { scripted (entry 7 [] ++ entry 0 []) {} with ctl := [(0x04, 0x92000000)] }
       s.atEntry 7 = true ∧ s.rbit 0x04 25 = true ∧ s.entryNo + 1 < s.entryCount ∧ s.entryNo < 65535
         ∧ ∀ j < 16, s.entryFld (s.entryNo + 1) j 1 = 0) := by decide +kernel

/-- R421: LOCK without VERIFY is a boot failure. -/
theorem test_lock : after .lock (scripted (entry 7 []) {}) (fun t =>
    t.phase == .failed && t.rfld 0x08 24 8 == 0x18) = true := by decide +kernel

/-! ## Control space -/

/-- SERVICE, with every right of port 0, and further registers. -/
def hosted (l : List (Nat × Word)) : State :=
  { phase := .service
    ctl := regs ((0x0C, 0x80000000) :: (netA 0 0x04, 0xC000FFFF) :: (partA 0 0x1C, 0x40000000) :: l) }

/-- What `State.accepts` asks of a write. -/
def accepted (s : State) (src a : Nat) (v : Word) : Bool :=
  s.sbLock && s.mayWrite src a v && !s.regBlocked a
    && (match regSpec a with | some r => (s.rget a ^^^ v) &&& r.bl == 0 | none => false)

theorem accepts_of {s : State} {src a : Nat} {v : Word} (h : accepted s src a v = true) : s.accepts src a v := by
  unfold accepted at h
  split at h
  · rename_i r e
    simp only [Bool.and_eq_true, Bool.not_eq_true', beq_iff_eq] at h
    exact ⟨h.1.1.1, h.1.1.2, h.1.2, r, e, h.2⟩
  · simp at h

theorem witness_controlSpaceWrites :
    regSpec 0x02 = none ∧ State.reset.sbLock = false ∧ (locked []).mayWrite 0 (dspA 0x10) 0 = false
    ∧ accepted (hosted []) 0 (dspA 0x10) 5 = true ∧ accepted (hosted []) 0 (splA 0x00) 0x80000000 = true
    ∧ accepted (hosted []) 0 (mshA 0x3000) 0x2001 = true
    ∧ accepted (hosted [(batonA 32767 4, 0x80000001)]) 0 (batonA 32767 12) 1 = true
    ∧ (hosted [(batonA 32767 4, 0x80000001)]).batonEn 32767 = true
    ∧ (hosted [(batonA 32767 4, 0xC0000001)]).batonSem 32767 = true
    ∧ ((hosted []).rget (ctxA 0 0x00) ^^^ 0x80000000) &&& ((regSpec (ctxA 0 0x00)).getD ⟨0, 0, 0, 0, 0, 0⟩).bl ≠ 0
    ∧ (hosted []).mayWrite 0 (ctxA 0 0x00) 0x80000000 = true
    ∧ (hosted []).rbit (netA 0 0x04) 31 = true ∧ (locked []).rbit (netA 0 0x04) 31 = false
    ∧ (locked []).rbit 0x24 30 = false
    ∧ (let s : State := { hosted [] with ue := [(memA 0x24, (0, 0x80000000, 64))] }
       tfind s.ue (memA 0x24) = some (s.now, 0x80000000, 64) ∧ accepted s 0 (memA 0x24) 0x80000000 = true
         ∧ ((regSpec (memA 0x24)).map (fun r => (r.w1c &&& 0x80000000).getLsbD 31)) = some true) := by decide +kernel

theorem witness_controlSpaceReads :
    (hosted []).sbLock = true ∧ (hosted []).rbit 0x24 31 = false ∧ (hosted []).regBlocked (lapA 0x00) = false
    ∧ (hosted []).regBlocked (cntA 31 8) = false ∧ (hosted []).regBlocked (tileA 31 0x4024) = false
    ∧ (regSpec (tileA 31 0x4024)).isSome = true ∧ (regSpec (dspA 0x10)).isSome = true ∧ regSpec 0x02 = none := by
  decide +kernel

/-! ## The Lap Engine, Sample Ports and PWM channels -/

/-- Loop n enabled in partition 0. -/
def looped (n : Nat) (l : List (Nat × Word)) : State := hosted ((loopA n 0x18, 0x80000000) :: l)

theorem witness_loopWrites :
    (∀ off ∈ [0x00, 0x20, 0x40, 0x04, 0x14, 0x44, 0x48, 0x4C, 0x64],
      accepted (looped 1023 []) 0 (loopA 1023 off) 0x100 = true)
    ∧ (looped 1023 []).loopEn 1023 = true ∧ (looped 1023 []).isServo 1023 = false
    ∧ (looped 1023 []).loopMode 1023 = 0 ∧ (looped 1023 []).cfgWriteOk 1023 0x04 0x00001000 = true
    ∧ (looped 1023 [(loopA 1023 0x60, 0x80000000)]).loopMode 1023 = 2
    ∧ (hosted []).loopEn 1023 = false ∧ (looped 1023 []).clkState = 0
    ∧ ((0x44 : Word).slt 0x48 = true) ∧ ((0x48 : Word).slt 0x48 = false) := by decide +kernel

/-- Loop 3 of Class S in MANUAL or AUTO, while SERVICE runs, at cycle 40. -/
def lapping (mode : Word) (x : LoopSt) (l : List (Nat × Word)) : State :=
  { looped 3 ((loopA 3 0x00, mode) :: (loopA 3 0x04, 0x1010) :: (loopA 3 0x44, 0) :: (loopA 3 0x48, 100) :: l) with
    now := 40, lap := { zero := some 0, loops := [(3, x)] } }

/-- An update in flight. -/
def flight1 : LapRun :=
  { auto := true, e0 := 5, u := 6, out := 7, flags := 1, inj := false, g := 0, genWas := none, probes := [] }

theorem witness_loopLaps :
    (let s := lapping 1 { out := some 9 } []
     s.loopEn 3 = true ∧ s.lap.zero.isSome = true ∧ s.coreHold = false ∧ s.modeReq 3 = 1 ∧ s.isServo 3 = false
       ∧ (∀ g < 8, s.genOn 3 g = false) ∧ (s.loop 3).flight = none
       ∧ tfind s.lap.issued (s.rfld (loopA 3 0x04) 6 1) = none)
    ∧ (let s := { lapping 1 {} [] with lap := { zero := some 0, issued := [(0, 40, 2)] } }
       tfind s.lap.issued (s.rfld (loopA 3 0x04) 6 1) = some (s.now, 2))
    ∧ (lapping 0 {} []).modeReq 3 = 0
    ∧ (let s := { lapping 2 {} [(loopA 3 0x60, 0x80000000), (sptA 0 0x00, 0x80000000), (sptA 0 0x08, 0x80000000)] with
                  lap := { zero := some 0, spts := [(0, { frames := [⟨30, 1, 0, [7]⟩], lostPrev := false })] } }
       s.modeReq 3 = 2 ∧ s.loopMode 3 = 2 ∧ s.rbit (loopA 3 0x60) 28 = false ∧ s.rfld (loopA 3 0x04) 12 4 ≠ 0
         ∧ s.rbit (loopA 3 0x10) 15 = false ∧ s.targetAt 3 = (s.loop 3).force ∧ (s.loop 3).pset = none
         ∧ s.seenLost 0 = false ∧ s.seenFrame 0 = some ⟨30, 1, 0, [7]⟩ ∧ (s.loop 3).eseq = none
         ∧ (s.rget (loopA 3 0x44)).sle (s.rget (loopA 3 0x48)) = true)
    ∧ ((lapping 2 { flight := some flight1 } []).loop 3).flight = some flight1 := by decide +kernel

/-- R232: MANUAL gives MAN within the limits; a commit hands the output on. -/
theorem test_loopBoundary : after (.loopBoundary 3) (lapping 1 { out := some 9 } [(loopA 3 0x54, 200)]) (fun t =>
    t.rget (loopA 3 0x7C) == 9 && ((t.loop 3).flight.map LapRun.out) == some 100) = true := by decide +kernel
theorem test_loopUpdateCommit : after (.loopUpdateCommit 3) (lapping 2 { flight := some flight1 } []) (fun t =>
    t.rget (loopA 3 0x80) == 5 && t.rget (loopA 3 0x8C) == 6 && (t.loop 3).out == some 7) = true := by decide +kernel

theorem witness_generatorsAndProbes :
    accepted (hosted []) 0 (genA 7 0x00) 0x80000000 = true ∧ accepted (hosted []) 0 (prbA 7 0x00) 0x80000000 = true
    ∧ accepted (hosted []) 0 (prbA 7 0x04) 1 = true
    ∧ (hosted [(genA 0 0x1C, 0x80000000)]).rbit (genA 0 0x1C) 31 = true
    ∧ (hosted [(prbA 7 0x00, 0xC0000000)]).rbit (prbA 7 0x00) 30 = true := by decide +kernel

/-- Receive of port 15 enabled, LANES 0, NCH 1, DISC 1, with a frame in progress. -/
def receiving (stat : Word) (m : Option Nat) : State :=
  { hosted [(sptA 15 0x00, 0x81100000), (sptA 15 0x04, 0x00640000), (sptA 15 0x08, stat)] with
    lap := { zero := some 0, spts := [(15, { mark := m })] } }

theorem witness_samplePorts :
    (receiving 0x20000000 (some 5)).rxEn 15 = true ∧ ((receiving 0x20000000 (some 5)).spt 15).mark = some 5
    ∧ (receiving 0x20000000 none).rbit (sptA 15 0x08) 29 = true ∧ (receiving 0x80000000 none).rxState 15 = 2
    ∧ (receiving 0x80000000 none).rfld (sptA 15 0x04) 16 16 ≠ 0 ∧ (receiving 0 none).rxState 15 = 0
    ∧ (let w := sptWidth ((receiving 0 none).rfld (sptA 15 0x00) 28 2)
       crc16 (sptBody 1 1 w [3, 4]) = (BitVec.ofNat 16 (crc16 (sptBody 1 1 w [3, 4]))).toNat)
    ∧ 1 = (receiving 0 none).rfld (sptA 15 0x00) 24 4
    ∧ accepted (hosted []) 0 (sptA 15 0x00) 0x80100000 = true ∧ accepted (receiving 0 none) 0 (sptA 15 0x00) 0x01100000 = true
    ∧ accepted (hosted []) 0 (sptA 15 0x24) 0x00020000 = true
    ∧ (hosted [(sptA 15 0x24, 0xC0020000)]).rbit (sptA 15 0x24) 30 = true := by decide +kernel

/-- Channel 63 driven by loop 3, whose output is half of full scale. -/
def carried (stat : Word) : State :=
  { looped 3 [(loopA 3 0x08, 1000), (loopA 3 0x14, 0x13F), (loopA 3 0x60, stat), (loopA 3 0x7C, 0x40000000),
      (pwmA 63 0x08, 0), (pwmA 63 0x0C, 0x7FFFFFFF)] with
    lap := { zero := some 0, pwms := [(63, { ball := .safe })] } }

theorem witness_pwmAndTrips :
    (let s := carried 0
     s.lap.zero.isSome = true ∧ s.pwmLoop 63 = some 3 ∧ (63 % 2 = 0 → s.pwmComp 64 = false)
       ∧ s.rbit (loopA 3 0x60) 25 = false ∧ (s.pwm 63).ball ≠ .resetSafe ∧ s.tripHolds 63 = false
       ∧ (s.rget (pwmA 63 0x08)).sle (s.rget (pwmA 63 0x0C)) = true
       ∧ 10 ≤ ((0x40000000 * 8000 + 2 ^ 30) / 2 ^ 31 : Int).toNat ∧ (8000 : Nat) < 2 ^ 27)
    ∧ (carried 0x02000000).rbit (loopA 3 0x60) 25 = true
    ∧ (hosted [(tripA 0x00, 0x800)]).rbit (tripA 0x00) (8 + 3) = true ∧ (hosted []).rbit (tripA 0x00) 8 = false
    ∧ accepted (hosted []) 0 (tripA 0x04) 15 = true
    ∧ (∀ o ∈ [0x00, 0x08, 0x0C], accepted (hosted []) 0 (pwmA 63 o) 0x40008000 = true)
    ∧ (let s := { hosted [] with lap := { pwms := [(63, { ball := .driven, trip := some 4 })] } }
       (s.pwm 63).trip = some 4 ∧ (s.pwm 63).ball = .driven ∧ s.phase ≠ .off ∧ s.pending = []
         ∧ ∀ j < 2, (s.port j).modify = none) := by decide +kernel

/-- R265: half of full scale is half the period, in units of 100 ps. -/
theorem test_carrierBoundary : after (.carrierBoundary 63) (carried 0) (fun t =>
    (t.pwm 63).t8 == 8000 && (t.pwm 63).fall - (t.pwm 63).rise == 4000 && (t.pwm 63).ball == .driven) = true := by
  decide +kernel

/-! ## Device HOLD and the Dispatcher -/

theorem witness_deviceHold :
    accepted (hosted []) 0 clkHoldA 0x81000000 = true ∧ accepted (hosted []) 0 clkHoldA 0x40000000 = true
    ∧ (hosted []).clkState = 0 ∧ (hosted []).role = 0 ∧ (hosted []).linkUp 0 = false
    ∧ (hosted [(netA 0 0x18, 0x80000000)]).linkUp 0 = true
    ∧ (hosted [(clkStatA, 0x40000000)]).clkState = 1 ∧ (hosted [(clkStatA, 0x80000000)]).clkState = 2
    ∧ accepted (hosted [(clkStatA, 0xC0000080)]) 0 clkHoldA 0x81000000 = true
    ∧ (let s : State := { hosted [(clkStatA, 0xC0000000)] with dsp := { holdOn := true, nextBound := some 8 } }
       s.clkState = 3 ∧ s.rbit clkStatA 7 = false ∧ s.health.parts = [])
    ∧ (hosted [(clkStatA, 0xC0000080)]).clkState = 3 ∧ (hosted [(clkStatA, 0xC0000080)]).rbit clkStatA 7 = true
    ∧ (hosted []).outst = [] ∧ (hosted []).streamsOff = true ∧ (looped 3 []).loopMode 3 = 0
    ∧ (List.range 32).all (fun t => ((hosted []).tc t).heats.isEmpty) = true
    ∧ ({ hosted [(dspA 0x08, 655000)] with dsp := { nextBound := some 0 } } : State).rfld (dspA 0x08) 0 20 = 655000 := by
  decide +kernel

/-- R29: with no port to wake it and no loop closed, a request is refused with cause 4. -/
theorem test_holdReq : after (.holdReq 0 0x80000000) (hosted []) (fun t =>
    t.rbit clkStatA 29 && t.rfld clkStatA 24 4 == 4 && t.clkState == 0) = true := by decide +kernel

/-- Major cycles of 8 ns × 1000 in force from 65536 entries, at cycle `ns`. -/
def cycling (split : Nat) (l : List (Nat × Word)) (d : Dsp) : State :=
  { hosted ((dspA 0x04, 4) :: (dspA 0x08, 1000) :: l) with
    time := { split := split * 2 ^ 32, running := true }, dsp := { d with nextBound := some 8000, bound := some 0 } }

/-- A table entry of context 0 for tile 0. -/
def entry1 : LookEntry :=
  { idx := 7, ctx := 0, evt := false, release := false, pfl := 0, lead := 0, g := 1, firstFree := false
    cluster := 0, tmask := 1, dur := 0, pc := 64, base := 0, slot := 0, state := .pending, tiles := []
    pastS := none, heat := 0, wake := 0 }

/-- The lookahead before a table entry of context 0 for tile 0 with word 0 given. -/
def reading (w : Word) : State :=
  cycling 0 [(ctxA 0 0x00, 0x80000000), (ctxA 0 0x04, 1), (ctxA 0 0x08, 0x00100000), (tableA 0 0, w), (tableA 0 2, 1)]
    { rdTime := 8000 }

theorem witness_majorCycles :
    (let s := cycling 8000 [] {}
     s.ns = 8000 ∧ s.sbLock = true ∧ s.clkState = 0 ∧ s.role = 0 ∧ s.armed = false ∧ s.dsp.align = none
       ∧ 0 < s.rfld (dspA 0x08) 0 20 ∧ (s.dsp.bounds + 1) % max 1 (s.rfld (dspA 0x30) 0 16) = 0
       ∧ (cycling 8000 [(dspA 0x30, 2)] {}).rfld (dspA 0x30) 0 16 = 2)
    ∧ (cycling 7999 [] {}).ns < 8000
    ∧ (let s := cycling 8000 [(dspA 0x14, 1), (dspA 0x18, 500), (dspA 0x1C, 0x80000000)] { armTime := some 1 }
       s.armed = true ∧ s.switchTime = some 8000 ∧ s.ns < 8000 + 8 * s.rfld (dspA 0x18) 0 20)
    ∧ accepted (cycling 0 [] {}) 0 (dspA 0x1C) 0x80000000 = true
    ∧ accepted (cycling 0 [] {}) 0 (tableA 65535 3) 7 = true
    ∧ (∃ e ∈ ({ cycling 0 [] {} with dsp := { look := [entry1], rdPlace := 64 } } : State).dsp.look, e.evt = false
       ∧ e.state ≠ .running ∧ e.place + 64 ≤ 64)
    ∧ (let s := reading 0x80000000
       s.phase = .service ∧ s.dsp.nextBound.isSome = true ∧ s.dsp.holdOn = false ∧ s.dsp.look = [] ∧ s.dsp.rdNext = false
         ∧ s.dsp.rdFrom = none ∧ s.dsp.rdPos < s.rfld (dspA 0x04) 0 17 ∧ (s.tabEntry 0).v = true
         ∧ (s.tabEntry 0).evt = false ∧ s.entryBad (s.tabEntry 0) = false ∧ s.dsp.rdPrev = none
         ∧ (s.tabEntry 0).start < s.rfld (dspA 0x08) 0 20
         ∧ s.ns + 8 * (s.tabEntry 0).lead < s.dsp.rdTime + 8 * (s.tabEntry 0).start)
    ∧ ((reading 0xC0000000).tabEntry 0).evt = true ∧ (reading 0).entryBad ((reading 0).tabEntry 0) = true
    ∧ ({ cycling 8000 [] {} with phase := .boot } : State).phase = .boot := by decide +kernel

/-- Context 0 enabled and READY in SERVICE, with tile 0 in the given state and the entry in the lookahead. -/
def awaiting (x : Tile) (e : LookEntry) : State :=
  { hosted [(ctxA 0 0x00, 0x80000000), (ctxA 0 0x04, 1), (ctxA 0 0x08, 0x00100000), (ctxA 0 0x24, 0x40000000)] with
    tiles := [(0, x)], dsp := { look := [e] } }

theorem witness_entriesRun :
    (let s := awaiting { power := .idle } entry1
     s.pendingEntry 7 = some entry1 ∧ s.dsp.holdOn = false ∧ s.notReady 0 = none ∧ s.loans = []
       ∧ s.chooseTiles entry1 = [0])
    ∧ (hosted []).notReady 0 = some 0 ∧ ({} : State).pendingEntry 7 = none
    ∧ (let e := { entry1 with state := .waking, tiles := [0] }
       (awaiting { power := .run, ctx := some 0, seq := .running } e).tilesReady e = true
         ∧ (awaiting { power := .idle } e).tilesReady e = false)
    ∧ (let e := { entry1 with state := .waking, firstFree := true, g := 2 }
       (awaiting {} e).chooseTiles e = [])
    ∧ (let e := { entry1 with state := .waking, firstFree := true }
       let s := awaiting { power := .idle } e
       s.dsp.look.find? (fun x => x.idx == 7 && x.state == .waking && x.tiles.isEmpty) = some e ∧ s.chooseTiles e = [0])
    ∧ (let e := { entry1 with state := .ready, tiles := [0] }
       let s := awaiting { power := .run, ctx := some 0, seq := .running } e
       s.dsp.look.find? (fun x => x.idx == 7 && x.pastS.isNone && x.state != .running && (x.release || x.state != .pending))
         = some e ∧ s.tilesReady e = true ∧ s.notReady e.ctx = none ∧ e.release = false ∧ (∀ u ∈ e.tiles, u < 32))
    ∧ (let e := { entry1 with release := true }
       let s := awaiting {} e
       s.dsp.look.find? (fun x => x.idx == 7 && x.pastS.isNone && x.state != .running && (x.release || x.state != .pending))
         = some e ∧ s.ctxEn e.ctx = true ∧ s.notReady e.ctx = none ∧ (tget [] s.dsp.beq e.ctx).length < 16) := by
  decide +kernel

/-- R23, R288: the slot time begins the heat at the entry's program address. -/
theorem test_slotTime : (let e := { entry1 with state := .ready, tiles := [0] }
    after (.slotTime 7) (awaiting { power := .run, ctx := some 0, seq := .running } e) (fun t =>
      (t.tc 0).pc == 64 && (t.tc 0).heats.map Heat.num == [1] && t.dsp.look.map LookEntry.heat == [1])) = true := by
  decide +kernel

/-- A prefetch of 4 bytes between tiles' scratchpads, its only descriptor. -/
def job1 : PfJob :=
  { ctx := 0, entry := 7, addr := 0, count := 1, post := false, baton := 0, tiles := [0], pos := 0, started := true
    remote := false, src := spadBase 1, dst := spadBase 0, left := 4, outst := 0 }

theorem witness_eventsSleepPrefetch :
    (let s := { hosted [] with dsp := { trig := [7], heldTrig := [7], look := [{ entry1 with evt := true }] } }
     s.phase = .service ∧ s.dsp.holdOn = false ∧ s.dsp.trig = [7] ∧ 7 ∈ s.dsp.heldTrig)
    ∧ (let s : State := { hosted [(ctxA 0 0x00, 0x80000000), (ctxA 0 0x04, 1), (ctxA 0 0x24, 0x40000000)
          , (tableA 7 0, 0xC0000000), (tableA 7 2, 1)] with dsp := { trig := [7] } }
       s.phase = .service ∧ s.dsp.look = [] ∧ s.entryBad (s.tabEntry 7) = false ∧ (s.tabEntry 7).evt = true
         ∧ s.ctxBE (s.tabEntry 7).ctx = false ∧ s.notReady (s.tabEntry 7).ctx = none ∧ s.loans = []
         ∧ (s.tabEntry 7).pfl = 0)
    ∧ (let s := awaiting { power := .idle } { entry1 with state := .waking, tiles := [0] }
       s.wants 0 = some 0 ∧ s.dsp.pf = [] ∧ s.dsp.be = [])
    ∧ (let s := { hosted [(dspA 0x2C, 1)] with tiles := (List.range 8).map (fun i => (24 + i, { power := .idle })) }
       s.rfld (dspA 0x2C) 0 16 ≠ 0 ∧ (∀ i < 8, (s.tile (24 + i)).power = .idle) ∧ s.beQueued 3 = false
         ∧ (∀ i < 8, s.recoveryHolds (24 + i) = false) ∧ s.loans = [] ∧ s.dsp.look = [])
    ∧ (let s := { awaiting { power := .run, ctx := some 0, seq := .running } entry1 with dsp := { pf := [job1] } }
       s.pfTileRuns job1.dst = true ∧ s.poisoned job1.src 4 = false
         ∧ s.dsp.pf.find? (fun j => j.ctx == 0 && j.started
           && (if j.remote then j.left == 0 && j.outst == 0 else s.pfTileRuns j.dst)) = some job1) := by decide +kernel

/-- A BE heat of context 0 on tile 0. -/
def be1 : BeRun :=
  { ctx := 0, g := 1, len := 64, want := 0, loan := 0, pc := 0, heat := 1, tiles := [0], ran := 64, saved := false
    needLoan := false, lines := [] }

/-- Context 0 best effort, with SLICE 1. -/
def effort (d : Dsp) : State :=
  { hosted [(ctxA 0 0x00, 0xC0000001), (ctxA 0 0x04, 1), (ctxA 0 0x08, 0x00100000), (ctxA 0 0x24, 0x40000000)] with
    tiles := [(0, { power := .run })], dsp := d }

theorem witness_bestEffort :
    accepted (effort {}) 0 (ctxA 0 0x2C) 7 = true ∧ (effort {}).ctxBE 0 = true ∧ (effort {}).ctxEn 0 = true
    ∧ (effort {}).notReady 0 = none ∧ (hosted []).ctxBE 0 = false
    ∧ (effort { beq := [(0, [7])] }).bePick = some (0, 7, [], [0])
    ∧ (effort { be := [{ be1 with saved := true }] }).beResumable = some { be1 with saved := true }
    ∧ (effort { be := [be1] }).tileBe 0 = some be1 ∧ (effort { be := [be1] }).ctxSlice 0 ≠ 0
    ∧ (effort { be := [be1, { be1 with ctx := 1, saved := true }] }).beWaits be1 = true
    ∧ (effort { held := [.copy 0 0 0 64] }).paceAdmits 0 0 false = true
    ∧ ({ hosted [(paceReg 0 0, 0x10001)] with dsp := { tok := [(0, -1)] } } : State).paceAdmits 0 0 false = false := by decide +kernel

/-- A loan of tile 0's first 8 KiB with one line written. -/
def loan1 : Loan := { ctx := 0, tile := 0, base := 0, len := 8192, part := 0, dirty := [1] }

theorem witness_loansComeBack :
    (let s := { effort {} with loans := [loan1] }
     s.lentOn 0 = some loan1 ∧ (s.tile 0).reclaim = false ∧ s.poison = [] ∧ s.streamsOff = true
       ∧ loan1.dirty.Nodup ∧ (∀ k ∈ loan1.dirty, loan1.base ≤ 4096 * k ∧ k < 256))
    ∧ ({} : State).lentOn 0 = none
    ∧ (let s := { effort { be := [{ be1 with lines := [32] }] } with tiles := [(0, { power := .run, copyBack := true })] }
       s.tileBe 0 = some { be1 with lines := [32] } ∧ (s.tile 0).copyBack = true) := by decide +kernel

/-! ## Faults and teardown -/

theorem witness_faultsTearDown :
    (let s := { awaiting {} entry1 with faults := [⟨0, 1, 0, 1, 0⟩] }
     s.ctxState 0 = 2 ∧ s.faults.find? (fun f => f.ctx == 0) = some ⟨0, 1, 0, 1, 0⟩ ∧ s.streamsOff = true
       ∧ (∀ t < 32, bitAt (s.ctxTiles 0) t = true → (s.ctxSpad 0).1 + s.cblk t 0 0x08 4 < 0x100000)
       ∧ s.health.parts = [])
    ∧ (let s := { awaiting {} entry1 with faults := [⟨0, 1, 0, 1, 0⟩, ⟨0, 7, 0, 1, 0⟩] }
       ((s.faults.filter (fun f => f.ctx == 0)).find? (fun f => decide (7 ≤ f.cause))).or
         (s.faults.filter (fun f => f.ctx == 0)).head? = some ⟨0, 7, 0, 1, 0⟩)
    ∧ (let s := awaiting {} entry1
       (∀ t < 32, (s.tc t).copy = none) ∧ s.dsp.pf = [])
    ∧ (hosted []).ctxState 0 = 0 ∧ ({} : State).faults = [] := by decide +kernel

/-- An ABORT of heat 1 of context 0 in execution on port 0. -/
def aborting (h : Heat) (c : TCtx) : State :=
  { hosted [] with
    net0 := { queue := [(tfp1, .abort 0 1)], busy := true }
    tiles := [(0, { power := .run, seq := .saving, ctx := some 0, tc := { c with heats := [h] } })] }

theorem witness_recoveryEnds :
    (let s : State := { hosted [] with dsp := { teardowns := [⟨0, true, 3⟩] }, outst := [⟨1, 0, 0, 0, 3, .copyWr⟩] }
     s.dsp.teardowns.find? (fun t => t.ctx == 0 && t.hurdle) = some ⟨0, true, 3⟩ ∧ s.health.parts = [])
    ∧ (let s := hosted [(ctxA 0 0x00, 0xA0000000), (ctxA 0 0x24, 0x80000000)]
       s.ctxState 0 = 4 ∧ s.ctxRestart 0 = true ∧ s.partState (s.ctxPart 0) = 1 ∧ s.outst = [])
    ∧ (let s := aborting (solving1 { solve1 with count := 1 }) {}
       s.waitingCmd 0 = some (tfp1, .abort 0 1) ∧ s.heatPlace 0 1 = some (0, false) ∧ s.working 0 = false
         ∧ (s.tc 0).slots = [] ∧ (s.tc 0).qa = [] ∧ (s.tc 0).tensorFinal 1 = false ∧ s.streamsOff = true)
    ∧ (let h := solving1 { solve1 with count := 1 }
       let s := { aborting h {} with
                  ctl := (awaiting {} entry1).ctl, mem := [(spadBase 0 + 5, 0x10), (spadBase 0 + 0x0B, 1)] }
       s.heatPlace 0 1 = some (0, false) ∧ (s.tc 0).heats = [h] ∧ h.tiles = [0] ∧ h.commits = []
         ∧ s.portFault 0 0 (s.recordA 0 0 (s.slotEnv 0 0 (blankSlot 1 0 0 8)) 0 0) 32 true = 0)
    ∧ (let s : State := hosted [(ctxA 0 0x24, 0x80000000)]
       s.poisoned s.shadow.1 32768 = false
         ∧ ({ s with poison := [s.shadow.1 / 64 * 64] } : State).poisoned s.shadow.1 32768 = true)
    ∧ (aborting heat1 {}).heatPlace 0 2 = none
    ∧ (let w : QCmd := ⟨0, 0, 0, 0, 1, false, .solve 0 3 0⟩
       (aborting heat1 { qa := [w] }).heatPlace 0 1 = some (0, false)
         ∧ ((aborting heat1 { qa := [w] }).tc 0).qa.find? (fun y => y.heat == 1) = some w) := by decide +kernel

/-! ## Time and the Ethernet links -/

/-- Port 0 on and up, with PTP and both encapsulations. -/
def netted (l : List (Nat × Word)) (x : NetPort) : State :=
  { hosted ((netA 0 0x00, 0x80E00000) :: (netA 0 0x18, 0x80000000) :: l) with net0 := x }

theorem witness_timeIsSteered :
    (netted [] {}).netOn 0 = true ∧ (netted [] {}).linkUp 0 = true ∧ (netted [] {}).rbit (netA 0 0x00) 21 = true
    ∧ (netted [] {}).ptpRole 0 ≠ 2 ∧ (netted [] {}).ptpRole 1 ≠ 1 ∧ ({} : State).time.running = false
    ∧ (netted [(netA 0 0x18, 0x84000000)] {}).ptpRole 0 = 2
    ∧ (netted [(netA 0 0x18, 0x80800000)] {}).linkUp 0 = true
    ∧ (let s := netted [(netA 0 0x18, 0x84000000)] { sync := some ⟨5, 100, 0⟩ }
       (s.port 0).sync = some ⟨5, 100, 0⟩ ∧ s.cycleTime ≤ 0 + s.syncInterval 0)
    ∧ (let s := netted [(netA 0 0x18, 0x84000000), (netA 1 0x00, 0x80E00000), (netA 1 0x18, 0x82000000)] {}
       s.ptpRole 0 = 2 ∧ s.ptpRole 1 = 1 ∧ s.ptpOn 1 = true ∧ s.streamsOff = true)
    ∧ (let s := netted [] { pdReq := some (5, 100), lost := 9 }
       (s.port 0).pdReq.isSome = true ∧ 9 ≤ (s.port 0).lost)
    ∧ (hosted [(splA 0x04, 0x40000000)]).timeState = 1 ∧ (hosted []).role ≠ 2
    ∧ [128, 248, 0xFE, 0x4E5D, 128, 1, 0, 2 * 65536].length = 8
    ∧ (looped 3 [(loopA 3 0x10, 0x100)]).servoLoop = some 3 := by decide +kernel

theorem witness_peerDelayAndEthernet :
    (let s := netted [] { pdReq := some (5, 100), pdResp := some (7, 300) }
     (s.port 0).pdReq.map Prod.fst = some 5 ∧ (s.port 0).pdResp = some (7, 300))
    ∧ (let s := hosted [(netA 1 0x00, 0x80000000)]
       s.netOn 1 = true ∧ s.linkUp 1 = false ∧ (s.port 1).waiting = false ∧ (s.port 1).fails < 4
         ∧ s.rfld (netA 1 0x00) 27 2 = 0)
    ∧ (hosted [(netA 1 0x00, 0x87000000)]).rbit (netA 1 0x00) 26 = true
    ∧ (netted [(netA 0 0x10, 0xC0A80001)] {}).portIp 0 = 0xC0A80001 := by decide +kernel

/-- R367: the round trip of 100 to 300, less 7 to 107, is 100 ns in units of 2^-4 ns over 2. -/
theorem test_pdelayRespFollowUp : after (.pdelayRespFollowUp 0 5 (107 * 2 ^ 32) 0 true)
    (netted [] { pdReq := some (5, 100 * 2 ^ 32), pdResp := some (7 * 2 ^ 32, 300 * 2 ^ 32) }) (fun t =>
    t.rget (netA 0 0x34) == 50 * 16) = true := by decide +kernel

/-! ## Host requests -/

theorem witness_hostFrames :
    (let s := netted [] {}
     s.netOn 0 = true ∧ s.tfpAccepts tfp1 = true ∧ s.streamsOff = true ∧ (s.port 0).queue = []
       ∧ (s.port 0).busy = false)
    ∧ (netted [(netA 0 0x00, 0x80200000)] {}).rbit (netA 0 0x00) 21 = true
    ∧ (netted [] { busy := true, queue := [(tfp1, .health)] }).tfpAccepts tfp1 = true
    ∧ (let s := netted [(netA 0 0x18, 0x80000001), (netA 0 0x38, 1)] { store := [(1, [7, 1])] }
       s.tfpFresh tfp1 = false ∧ ¬ s.tfpNewer tfp1 ∧ s.tfpNewer { tfp1 with seq := 2 } ∧ (s.rget (netA 0 0x38)).toNat = 1
         ∧ (s.port 0).store.find? (fun e => e.1 == tfp1.seq.toNat) = some (1, [7, 1]))
    ∧ (TfpOp.cread 2 0).malformed = true ∧ TfpOp.health.malformed = false
    ∧ tfpOf (.cread tfp1 2 1) = some (tfp1, .cread 2 1) := by unfold State.tfpNewer; decide +kernel

theorem witness_hostRequests :
    (let s := netted [] {}
     s.netOn 0 = true ∧ s.linkUp 0 = true ∧ s.tfpAccepts tfp1 = true ∧ s.tfpFresh tfp1 = true ∧ s.sbLock = true
       ∧ (s.tfpOpened tfp1 .health).readHung 0x04 1 = false ∧ (s.hostAccess 0 0 64 true).1 ≠ 0
       ∧ s.permPart 0 15 = true ∧ s.partEn 0 = false ∧ s.partState 0 = 1 ∧ s.health.dead = [] ∧ s.permDev 0 = true
       ∧ s.pins.pwrReq = false ∧ s.heatBegun 0 1 = false ∧ s.ctxPart 63 = 0)
    ∧ (let s := hosted [(partA 0 0x00, 0x80000000)]
       s.partEn 0 = true ∧ s.health.parts = [] ∧ s.streamsOff = true ∧ s.waits = []
         ∧ (∀ t < 32, (s.tile t).ctx = none) ∧ s.health.ordered = [] ∧ s.ue = [])
    ∧ ({} : State).sbLock = false
    ∧ (hosted [(ctxA 0 0x28, 1)]).heatBegun 0 1 = true := by decide +kernel

/-- A CMODIFY whose read is done: its write follows in the next cycle. -/
theorem witness_modifyInFlight :
    (let s := netted [] { queue := [(tfp1, .cmodify (splA 0x00) 0x80000000 0x80000000)], busy := true, modify := some 0 }
     s.waitingCmd 0 = some (tfp1, .cmodify (splA 0x00) 0x80000000 0x80000000) ∧ (s.port 0).modify = some 0
       ∧ s.pending = [] ∧ s.phase ≠ .off ∧ (s.port 1).modify = none ∧ s.streamsOff = true
       ∧ accepted s 0 (splA 0x00) 0x80000000 = true ∧ splA 0x00 < 0x00060000) := by decide +kernel

/-- A subscription of port 0 with one sample record held. -/
def sub1 : Sub :=
  { port := 0, stream := 1, peer := peer1, session := 1, seq := 0, recs := [List.replicate 16 0], due := false, dropped := 0 }

theorem witness_streamsDrain :
    (let s : State := { netted [] {} with obs := { subs := [sub1], portTok := [10 ^ 9, 0] } }
     s.obs.subs.findIdx? (fun b => b.port == 0 && b.stream == 1 && b.peer == peer1) = some 0
       ∧ sub1.recs ≠ [] ∧ wireLen (s.telemFrame sub1) * 10000 ≤ lget 0 s.obs.portTok 0)
    ∧ (let s : State := { hosted [(obufA 1 0, 1), (obufA 1 4, 1), (obufA 1 8, 0xFFF8)] with
                          obs := { buf := [(1, List.replicate 16 7)] } }
       s.obs.subs = [] ∧ 0 ≤ s.obs.memTok ∧ (s.rget (obufA 1 8)).toNat < s.rfld (obufA 1 4) 0 16 * 65536) := by
  decide +kernel

/-! ## Marshal -/

/-- Two snapshots of a link node that waits on itself. -/
def loopSnap1 : GSnap := ⟨⟨9, 0, 1⟩, [⟨9, 0, 1⟩], [3]⟩

theorem witness_hangsAreBroken :
    (let s : State := { hosted [(mshA 0x00, 0x80000001)] with health := { last := [loopSnap1], before := [loopSnap1] } }
     s.rbit (mshA 0x00) 31 = true ∧ s.rfld (mshA 0x00) 0 16 ≠ 0 ∧ s.hungNodes = []
       ∧ (hungSets s.health.before s.health.last).map (fun l => l.map GSnap.node) = [[⟨9, 0, 1⟩]])
    ∧ (let s : State := { hosted [(linkA 0 0x04, 0x70000000)] with health := { delayed := [((4, 0), [])] } }
       s.resetting (4, 0) = false ∧ s.waitingCmd 0 = none ∧ s.watched ⟨9, 0, 1⟩ = true)
    ∧ (let s := { hosted [(mshA 0x00, 1), (linkA 0 0x04, 0x70000000)] with net0 := { queue := [(tfp1, .cread (ringA 0 0) 1)], busy := true } }
       s.waitingCmd 0 = some (tfp1, .cread (ringA 0 0) 1)) := by decide +kernel

theorem witness_resetsEnd :
    ({ hosted [] with health := { units := [(2, 3)] } } : State).health.units.find?
      (fun u => (u.1 == 1 && u.2 == 31) || (u.1 == 2 && u.2 == 31 / 8)) = some (2, 3)
    ∧ (let s : State := { hosted [(partA 15 0x1C, 0xC0000000)] with health := { parts := [⟨15, true, false, []⟩] } }
       s.partState 15 = 3 ∧ s.partQuiet 15 = true ∧ s.waitingCmd 0 = none ∧ s.waitingCmd 1 = none)
    ∧ (hosted [(partA 15 0x1C, 0x80000000)]).partState 15 = 2 := by decide +kernel

/-! ## The Relay Links -/

/-- Link k in a state of LINK_k_STAT. -/
def linked (k st : Nat) (x : Link) (l : List (Nat × Word)) : State :=
  { hosted ((linkA k 0x04, BitVec.ofNat 32 (st * 2 ^ 28)) :: l) with links := [(k, x)] }

/-- A link fresh in ACTIVE. -/
def link1 : Link := { credits := [32, 1024, 1024] }

theorem witness_linksTrainAndReplay :
    [0, 1, 4, 5, 6, 7, 8].all (fun st => (linked 3 st {} []).linkState 3 == st) = true
    ∧ (linked 3 7 link1 []).linksCalm ∧ 2 ≤ lget 0 ((linked 3 7 link1 []).lnk 3).credits 0
    ∧ lget 0 (addCredits link1.owed [2, 0, 0]) 0 < 16 ∧ ((linked 3 6 {} []).lnk 3).wait = []
    ∧ (linked 3 0 {} [(linkA 3 0x00, 0x80000000), (linkA 3 0x04, 0x00020000)]).rbit (linkA 3 0x00) 31 = true
    ∧ ((linked 3 7 { replays := 16 } []).lnk 3).replays = 16
    ∧ (∀ body : List Byte, ([0] : List Byte) ≠ body ++ leBytes 4 (crc32 body)) := by
  refine ⟨by decide +kernel, by unfold State.linksCalm; decide +kernel, by decide +kernel, by decide +kernel,
    by decide +kernel, by decide +kernel, by decide +kernel, fun body h => ?_⟩
  have := congrArg List.length h
  simp [leBytes] at this

theorem witness_cascadeTime :
    (linked 0 7 link1 []).ctlRoom 0
    ∧ (let s := { linked 0 7 link1 [(rlyA 0x00, 0x80000002), (routeA 14, 0x80000100)] with time := { split := 100 } }
       s.linkState 0 = 7 ∧ s.role = 2 ∧ s.upstream = some 0 ∧ s.downstream = [] ∧ s.linksCalm ∧ s.streamsOff = true
         ∧ (s.received 0 0 6).ctlRoom 0 ∧ s.sbLock = true ∧ s.dsp.nextBound = none
         ∧ ({ s with dsp := { nextBound := some 8 } } : State).dsp.nextBound = some 8)
    ∧ ((linked 0 7 { link1 with timeSent := some 5 } []).lnk 0).timeSent = some 5
    ∧ (hosted []).role = 0 ∧ (hosted [(rlyA 0x00, 0x40000000)]).role = 1
    ∧ (linked 0 7 link1 [(rlyA 0x00, 0x40000000)]).downstream = [0] := by
  unfold State.ctlRoom State.linksCalm; decide +kernel

theorem witness_packetsArrive :
    (let s := linked 0 7 link1 []
     s.linkState 0 = 7 ∧ s.devnum = pkt1.dst.val ∧ s.window (mkPkt 0x01 pkt1 64 [] false) 64 false = none
       ∧ s.batonPermits 0 0 = false ∧ s.outst = [])
    ∧ (let s := { linked 0 7 link1 [] with outst := [⟨1, 0, 0, 0, 0, .copyWr⟩] }
       s.outst.find? (fun o => o.tag == pkt1.tag.toNat && o.ctx == pkt1.ctx.val) = some ⟨1, 0, 0, 0, 0, .copyWr⟩
         ∧ pkt1.bib.toNat = s.ctxBib pkt1.ctx.val)
    ∧ (let s := linked 0 7 link1 [(batonA 0 4, 0x80000001)]
       s.batonPermits 0 0 = true ∧ s.batonProxy 0 = false ∧ s.waitCount < 512)
    ∧ ((linked 0 7 link1 []).route ((linked 0 7 link1 []).dist 2) = none ∧ (2 : Nat) ≠ (linked 0 7 link1 []).devnum) := by
  decide +kernel

/-! ## LPDDR5, observation and the test access port -/

theorem witness_memoryRuns :
    (let s : State := { hosted [(memA 0x10, 1), (memA 0x100, 0), (memA 0x104, 0), (memA 0x13C, 0)] with boot := { mem := 3 } }
     0 < s.usable ∧ s.chState (lpChannel 0) = 0 ∧ s.chState 0 = 0 ∧ s.rfld (memA 0x10) 0 16 ≠ 0 ∧ s.chState 15 = 0
       ∧ 0 < s.scrubLines ∧ (scrubAddr 15 0).isSome = true ∧ s.poisoned 0 64 = false)
    ∧ ({} : State).clkState = 0
    ∧ (hosted [(memA 0x13C, 0x40000000)]).chState 15 = 1
    ∧ (let s : State := { hosted [(memA 0x10, 1)] with boot := { mem := 3 } }
       s.streamsOff = true ∧ s.phase = .service ∧ s.clkState = 0 ∧ s.fullNow 64 = false) := by decide +kernel

/-- A match waiting on tile 31, and its copied record. -/
def dump1 (r : Option (List Byte)) : DumpReq :=
  { point := 0, tile := 31, ctx := 0, unit := 1, step := 0, seq := 0, prob := 0, layer := 0, oper := 0, heat := 1
    stamp := 0, immediate := false, record := r }

theorem witness_samplesAndDumps :
    (let s : State := { hosted [(mshA 0x3000, 0x20004000)] with
                        lap := { zero := some 0 }, obs := { subs := [sub1] }, tiles := [(0, { power := .run })] }
     s.rfld (mshA 0x3000) 14 5 ≠ 0 ∧ s.streamOn 1 = true ∧ s.rfld (obufA 1 4) 0 16 = 0)
    ∧ (let s : State := { hosted [] with obs := { dumps := [dump1 none] } }
       s.working 31 = false ∧ (s.tile 31).preq = none ∧ (s.tc 31).heats = [] ∧ s.streamsOff = true ∧ s.tileHung 31 = false
         ∧ s.dumpUnits (dump1 none) = [] ∧ (s.dumpRecord (dump1 none)).length = 64
         ∧ s.obs.dumps.find? (fun x => x.tile == 31 && x.record.isNone) = some (dump1 none)
         ∧ s.obs.dumps.find? (fun x => x.tile == 31 && x.record.isSome == false && !(false && x.immediate))
           = some (dump1 none))
    ∧ (hosted [(mshA 0x3008, 0x40000)]).rfld (mshA 0x3008) 0 19 = 0x40000
    ∧ accepted (hosted []) 0 (mshA 0x300C) 0x80000000 = true
    ∧ ({ hosted [] with obs := { dumps := [dump1 (some [])] } } : State).obs.dumps.find?
        (fun x => x.tile == 31 && x.record.isSome == true && !(false && x.immediate)) = some (dump1 (some [])) := by
  decide +kernel

theorem witness_testAccessPort :
    (locked []).sbLock = true ∧ (locked []).rbit 0x24 31 = false ∧ (locked [(0x24, 0xE0000000)]).rbit 0x24 31 = true
    ∧ (locked []).extestOk = false ∧ (locked [(0x24, 0xE0000000)]).extestOk = true
    ∧ ({ phase := .failed } : State).extestOk = true ∧ (bootAt 3).extestOk = true
    ∧ accepted (locked [(0x24, 0xE0000000)]) 2 (splA 0x00) 0x80000000 = true
    ∧ (locked [(0x24, 0xE0000000)]).readHung (splA 0x00) 1 = false ∧ regSpec 0x02 = none
    ∧ ({ pins := { hiz := false } } : State).pins.hiz = false := by decide +kernel

/-- R496: EXTEST before the checks of a locked device is refused with status 3 and leaves BYPASS; CTRL_ACCESS reads. -/
theorem test_extest : after (.extest none) (locked []) (fun t => t.tap.instr == 0xFF && t.tap.status == 3) = true
    ∧ after (.ctrlAccess 1 0x00 0 false) (bootAt 3) (fun t =>
      t.tap.instr == 0x20 && t.tap.word == 0x96403100 && t.tap.status == 0) = true := by decide +kernel

end Sys2Proof.Tests
end

section
/-!
The state after reset.
-/

namespace Sys2Proof.Machine

/-- Settles O6: the reset state lists no register and no byte, so each reads as its unlisted value. -/
theorem resetState : Obligations.ResetState :=
  ⟨fun _ => rfl, fun _ => rfl, reset_mem_wf, rfl, rfl, rfl, by decide, by decide, by decide⟩

end Sys2Proof.Machine
end

section
/-!
Every command keeps what `Kept` names (the queue behind it, the canonical form of data space, a legal test access
port, the messages sent): one lemma per command from the `_kept` lemmas of the operations it is made of.
-/

namespace Sys2Proof.Machine

/-- A state that a command answers keeps what every command keeps. -/
def OutKept (s : State) (o : Out) : Prop := ∀ t, o = .next t → Kept s t

theorem outKept_of {s t : State} (h : Kept s s → Kept s t) : OutKept s (.next t) := by
  intro u e
  cases e
  exact h (kept_refl s)

theorem kept_mk {a b : State} {f1 f2 f3 f4 f5 f7 g1 g2 g3 g4 g5 f8 f9 f10 f11 f12 f13 f14 f15 f16 f17 f18 f19 f20 f21
    f22 f23 f24 f25 f26 f27 f29} (h : Kept a b) :
    Kept a (State.mk b.pending f1 f2 f3 f4 f5 b.mem f7 g1 g2 g3 g4 g5 f8 f9 f10 f11 f12 f13 f14 f15 f16 f17 f18 f19
      f20 f21 f22 f23 f24 f25 f26 f27 b.tap f29 b.outs) := kept_mk_iff.2 h

section
open State

theorem execRstNAssert_kept (s : State) : OutKept s (execRstNAssert s) :=
  outKept_of fun h => kept_ite (modPins_kept _ _ h) (deviceReset_kept _ _ (modPins_kept _ _ h))

theorem execTimePllLocked_kept (s : State) : OutKept s (execTimePllLocked s) := by
  refine outKept_of fun h => ?_
  refine kept_ite ?_ h
  extract_lets _ s1 s2
  have hs1 : Kept s s1 := kept_mk h
  have hs2 : Kept s s2 := freshTime_kept _ (modPins_kept _ _ hs1)
  exact kept_ite (bootStep_kept _ _ hs2) hs2

theorem execClocksLocked_kept (s : State) : OutKept s (execClocksLocked s) :=
  outKept_of fun h => kept_ite (bootStep_kept _ _ (tilesDo_kept _ _ _ (fun _ _ k => modTile_kept _ _ _ k) h)) h

theorem execAnchorReadComplete_kept (bytes : List Byte) (s : State) : OutKept s (execAnchorReadComplete bytes s) :=
  outKept_of fun h => kept_ite (kept_ite (flashSetup_kept _ (bootStep_kept _ _ (rset_kept _ _ _ (modBoot_kept _
    _ h)))) (bootFail_kept _ _ _ h)) h

theorem execFlashStrobeLost_kept (dev : Fin 2) (s : State) : OutKept s (execFlashStrobeLost dev s) :=
  outKept_of fun h => kept_ite (bootFail_kept _ _ _ h) (kept_ite (bootFail_kept _ _ _ h) h)

theorem execSignatureReadComplete_kept (head cert sig : List Byte) (s : State) :
    OutKept s (execSignatureReadComplete head cert sig s) := by
  refine outKept_of fun h => ?_
  refine kept_ite ?_ h
  extract_lets s1 s2 keyed
  have hs1 : Kept s s1 := modBoot_kept _ _ h
  have hs2 : Kept s s2 := flashRead_kept _ _ (flashRead_kept _ _ hs1)
  have hkeyed : Kept s keyed := rset_kept _ _ _ hs2
  split
  · exact slotFail_kept _ _ _ (kept_ite hkeyed hs2)
  · exact flashRead_kept _ _ (kept_ite (bootStep_kept _ _ hkeyed) hkeyed)

theorem execScriptFetchComplete_kept (bytes : List Byte) (s : State) :
    OutKept s (execScriptFetchComplete bytes s) :=
  outKept_of fun h => kept_ite (kept_ite (bootStep_kept _ _ (kept_mk (rset_kept _ _ _ (modBoot_kept _ _ h))))
    (slotFail_kept _ _ _ h)) h

theorem execBistComplete_kept (cls : Fin 6) (idx : Byte) (s : State) : OutKept s (execBistComplete cls idx s) :=
  outKept_of fun h => kept_ite (kept_ite (bootFail_kept _ _ _ h) (enterEntry_kept _ _ (bootStep_kept _ _
    (kept_mk h)))) h

theorem execWriteMask_kept (s : State) : OutKept s (execWriteMask s) := by
  refine outKept_of fun h => ?_
  refine kept_ite ?_ h
  extract_lets r
  have hr : Kept s r.1 := readReg_kept _ _ _ h
  exact kept_ite (entryFail_kept _ _ hr) (scriptPut_kept _ _ _ _ hr)

theorem execTrain_kept (s : State) : OutKept s (execTrain s) := by
  refine outKept_of fun h => ?_
  refine kept_ite ?_ h
  refine kept_ite ?_ ?_
  · extract_lets +onlyGivenNames s1
    have hs1 : Kept s s1 := kept_ite (modBoot_kept _ _ h) h
    exact kept_ite (modBoot_kept _ _ hs1) (nextEntry_kept _ hs1)
  · extract_lets m s1
    have hs1 : Kept s s1 := trainLinks_kept _ _ h
    exact kept_ite (bootLinks_kept _ (modBoot_kept _ _ hs1)) (nextEntry_kept _ hs1)

theorem execLpddr5TrainingComplete_kept (step : Fin 8) (mask : BitVec 16) (s : State) :
    OutKept s (execLpddr5TrainingComplete step mask s) := by
  refine outKept_of fun h => ?_
  refine kept_ite ?_ h
  refine kept_ite h ?_
  refine kept_ite (kept_ite (bootFail_kept _ _ _ (memTrained_kept _ _ h)) (memTrained_kept _ _ h)) ?_
  extract_lets s1 s2
  have hs1 : Kept s s1 := memTrained_kept _ _ h
  have hs2 : Kept s s2 := modBoot_kept _ _ hs1
  exact kept_ite (nextEntry_kept _ hs2) hs2

theorem execLpddr5ZeroFillComplete_kept (s : State) : OutKept s (execLpddr5ZeroFillComplete s) :=
  outKept_of fun h => kept_ite (rbitSet_kept _ _ _ _ (modBoot_kept _ _ (zeroFill_kept _ h))) h

theorem execLoad_kept (s : State) : OutKept s (execLoad s) := by
  refine outKept_of fun h => ?_
  refine kept_ite ?_ h
  extract_lets +onlyGivenNames s1
  have hs1 : Kept s s1 := setVerified_kept _ _ h
  exact kept_ite (entryFail_kept _ _ hs1) (kept_ite (bootFail_kept _ _ _ hs1) (flashRead_kept _ _ (modBoot_kept
    _ _ hs1)))

theorem execLoadComplete_kept (data : List Byte) (s : State) : OutKept s (execLoadComplete data s) := by
  refine outKept_of fun h => ?_
  split
  · extract_lets +onlyGivenNames fl dest l inMem
    refine kept_ite h ?_
    extract_lets q good s1
    have hq : Kept s q.1 := kept_ite_fst (scriptWords_kept _ _ _ h) (mwrite_kept _ _ _ h)
    refine kept_ite (entryFail_kept _ _ hq) ?_
    have hs1 : Kept s s1 := kept_ite (shadowPut_kept _ _ _ hq) hq
    exact kept_ite (nextEntry_kept _ hs1) (bootFail_kept _ _ _ hs1)
  · exact h

theorem execVerify_kept (s : State) : OutKept s (execVerify s) := by
  refine outKept_of fun h => ?_
  refine kept_ite ?_ h
  split
  · exact bootFail_kept _ _ _ h
  · exact nextEntry_kept _ (setVerified_kept _ _ h)

theorem execLock_kept (s : State) : OutKept s (execLock s) := by
  refine outKept_of fun h => ?_
  refine kept_ite ?_ h
  refine kept_ite (entryFail_kept _ _ h) ?_
  extract_lets s1 s2
  have hs1 : Kept s s1 := bootStep_kept _ _ h
  have hs2 : Kept s s2 := kept_each _ _ (fun _ _ k => rfldSet_kept _ _ _ _ _ (loadContext_kept _ _ _ k)) hs1
  exact nextEntry_kept _ (bootStep_kept _ _ (lockFixed_kept _ (rbitSet_kept _ _ _ _ hs2)))

theorem execRcRegisterRead_kept (src : Fin 3) (a : Word) (s : State) : OutKept s (execRcRegisterRead src a s) := by
  refine outKept_of fun h => ?_
  split
  · exact kept_ite h (regRead_kept _ _ _ h)
  · exact h

theorem execHoldExitReloadComplete_kept (s : State) : OutKept s (execHoldExitReloadComplete s) := by
  refine outKept_of fun h => ?_
  refine kept_ite ?_ h
  extract_lets len
  split
  · exact kept_mk h
  · exact kept_mk (rwrap_kept _ _ _ _ _ h)

theorem execMajorCycleBoundary_kept (s : State) : OutKept s (execMajorCycleBoundary s) := by
  refine outKept_of fun h => ?_
  split
  · exact h
  · exact kept_ite h (actBoundary_kept _ _ _ _ _ h)

theorem execLookaheadRead_kept (s : State) : OutKept s (execLookaheadRead s) := by
  refine outKept_of fun h => ?_
  refine kept_ite h ?_
  extract_lets +onlyGivenNames late
  refine kept_ite (kept_mk (rdWrap_kept _ h)) ?_
  refine kept_ite (skipEntry_kept _ _ _ _ (kept_mk (rdWrap_kept _ h))) ?_
  extract_lets slot l _ s1 _ s2
  have hs1 : Kept s s1 := kept_mk (rdWrap_kept _ h)
  have hs2 : Kept s s2 := kept_mk hs1
  exact kept_ite (wakeEntry_kept _ _ hs2) hs2

theorem execWakeTime_kept (entry : Fin 65536) (s : State) : OutKept s (execWakeTime entry s) := by
  refine outKept_of fun h => ?_
  split
  · exact kept_ite (kept_mk h) (wakeEntry_kept _ _ h)
  · exact h

theorem execTileChoice_kept (entry : Fin 65536) (s : State) : OutKept s (execTileChoice entry s) := by
  refine outKept_of fun h => ?_
  split
  · exact kept_ite h (wakeTiles_kept _ _ (kept_mk h))
  · exact h

theorem execWakeComplete_kept (entry : Fin 65536) (s : State) : OutKept s (execWakeComplete entry s) := by
  refine outKept_of fun h => ?_
  split
  · exact kept_ite (wakeDone_kept _ _ h) h
  · exact h

theorem execSlotTime_kept (entry : Fin 65536) (s : State) : OutKept s (execSlotTime entry s) := by
  refine outKept_of fun h => ?_
  split
  · exact h
  · refine kept_ite (settleAll_kept _ _ (kept_mk h)) ?_
    refine kept_ite (beqPush_kept _ _ _ _ (kept_mk h)) ?_
    split
    · exact settleAll_kept _ _ (skipEntry_kept _ _ _ _ (kept_mk h))
    · exact kept_ite (startEntry_kept _ _ _ h) (modLook_kept _ _ _ h)

theorem execPrefetchTransferComplete_kept (c : Fin 64) (s : State) :
    OutKept s (execPrefetchTransferComplete c s) := by
  refine outKept_of fun h => ?_
  split
  · exact h
  · refine kept_ite (pfNext_kept _ _ h) ?_
    extract_lets bad own cls s1
    have hs1 : Kept s s1 := pfNext_kept _ _ (moveBytes_kept _ _ _ _ h)
    exact kept_ite (faultDsp_kept _ _ _ _ hs1) hs1

theorem execCutPointFac_kept (c : Fin 64) (heat : Word) (s : State) : OutKept s (execCutPointFac c heat s) := by
  refine outKept_of fun h => ?_
  refine kept_ite ?_ h
  extract_lets on s1
  have hs1 : Kept s s1 := modHeatAny_kept _ _ _ _ h
  exact kickAll_kept _ _ (tilesDo_kept _ _ _ (fun _ _ k => modTc_kept _ _ _ (cutFacTile_kept _ _ _ _ k)) hs1)

theorem execCutPointOut_kept (c : Fin 64) (heat : Word) (s : State) : OutKept s (execCutPointOut c heat s) := by
  refine outKept_of fun h => ?_
  refine kept_ite ?_ h
  extract_lets on s1
  have hs1 : Kept s s1 := modHeatAny_kept _ _ _ _ h
  exact kickAll_kept _ _ (tilesDo_kept _ _ _ (fun _ _ k => modTc_kept _ _ _ (cutOutTile_kept _ _ _ _ k)) hs1)

theorem execBePlacement_kept (s : State) : OutKept s (execBePlacement s) := by
  refine outKept_of fun h => ?_
  refine kept_ite h ?_
  split
  · exact beResume_kept _ _ h
  · split
    · exact bePlace_kept _ _ _ _ _ h
    · exact h

theorem execSliceExpiry_kept (t : TileNo) (s : State) : OutKept s (execSliceExpiry t s) := by
  refine outKept_of fun h => ?_
  split
  · exact h
  · exact kept_ite (kept_mk (requestPreempt_kept _ _ _ h)) h

theorem execReclaimWritebackComplete_kept (t : TileNo) (s : State) :
    OutKept s (execReclaimWritebackComplete t s) := by
  refine outKept_of fun h => ?_
  split
  · exact h
  · extract_lets +onlyGivenNames here
    refine kept_ite ?_ h
    extract_lets s1 s2 s3 gang s4
    have hs1 : Kept s s1 := moveLines_kept _ _ _ _ _ _ h
    have hs2 : Kept s s2 := kept_mk hs1
    have hs3 : Kept s s3 := modBe_kept _ _ _ hs2
    have hs4 : Kept s s4 := unbegunLoan_kept _ _ _ hs3
    exact beginBe_kept _ (settleAll_kept _ _ (modTile_kept _ _ _ hs4))

theorem execEventTrigger_kept (s : State) : OutKept s (execEventTrigger s) := by
  refine outKept_of fun h => ?_
  split
  · exact h
  · extract_lets _ s1
    have hs1 : Kept s s1 := kept_mk h
    exact kept_ite hs1 (kept_ite (kept_ite (rcount_kept _ _ _ _ _ hs1) (kept_mk hs1)) (startEvent_kept _ _ hs1))

theorem execClusterNapEntry_kept (k : Fin 4) (s : State) : OutKept s (execClusterNapEntry k s) :=
  outKept_of fun h => kept_ite (tilesDo_kept _ _ _ (fun _ _ k => modTile_kept _ _ _ k) h) h

theorem execContextFault_kept (c : Fin 64) (s : State) : OutKept s (execContextFault c s) := by
  refine outKept_of fun h => ?_
  split
  · exact h
  · extract_lets s1 s2
    have hs1 : Kept s s1 := kept_mk h
    have hs2 : Kept s s2 := kept_ite (teardown_kept _ _ hs1) hs1
    exact kept_ite (partReset_kept _ _ _ _ (verdict_kept _ _ _ _ _ _ hs2)) hs2

theorem execTeardownComplete_kept (c : Fin 64) (s : State) : OutKept s (execTeardownComplete c s) := by
  refine outKept_of fun h => ?_
  split
  · exact h
  · exact kept_ite h (rfldSet_kept _ _ _ _ _ (kept_mk h))

theorem execTeardownTimeout_kept (c : Fin 64) (s : State) : OutKept s (execTeardownTimeout c s) := by
  refine outKept_of fun h => ?_
  split
  · exact h
  · extract_lets p s1 _ s2
    have hs1 : Kept s s1 := faultDsp_kept _ _ _ _ h
    have hs2 : Kept s s2 := rfldSet_kept _ _ _ _ _ (kept_mk hs1)
    exact partReset_kept _ _ _ _ (verdict_kept _ _ _ _ _ _ hs2)

theorem execHurdleDrainLimit_kept (c : Fin 64) (s : State) : OutKept s (execHurdleDrainLimit c s) := by
  refine outKept_of fun h => ?_
  split
  · exact h
  · exact rcount_kept _ _ _ _ _ (kept_mk h)

theorem execContextReloadComplete_kept (c : Fin 64) (s : State) : OutKept s (execContextReloadComplete c s) := by
  refine outKept_of fun h => ?_
  refine kept_ite ?_ h
  extract_lets r
  have hr : Kept s r.1 := reloadPart_kept _ _ h
  split
  · exact partReset_kept _ _ _ _ (reloadFailed_kept _ _ _ hr)
  · exact kept_mk (rfldSet_kept _ _ _ _ _ (loadContext_kept _ _ _ hr))

theorem execBwait_kept (t : TileNo) (hdr : CmdHdr) (baton : Fin 32768) (arg : Word) (s : State) :
    OutKept s (execBwait t hdr baton arg s) :=
  outKept_of fun h => seqEntry_kept _ _ _ _ (fun _ k => batonWait_kept _ _ _ _ _ k) h

theorem execHend_kept (t : TileNo) (hdr : CmdHdr) (s : State) : OutKept s (execHend t hdr s) :=
  outKept_of fun h => seqEntry_kept _ _ _ _ (fun _ k => (kickGang_kept _ _ _ (modTc_kept _ _ _ (cmdEnd_kept _ _
    _ _ k)))) h

theorem execFence_kept (t : TileNo) (hdr : CmdHdr) (s : State) : OutKept s (execFence t hdr s) :=
  outKept_of fun h => seqEntry_kept _ _ _ _ (fun _ k => kick_kept _ _ (modTc_kept _ _ _ k)) h

theorem execCopyComplete_kept (t : TileNo) (s : State) : OutKept s (execCopyComplete t s) := by
  refine outKept_of fun h => ?_
  split
  · exact h
  · exact kept_ite (kept_ite (kept_ite (copyEnd_kept _ _ _ _ _ h) h) (copyEnd_kept _ _ _ _ _ (copyMove_kept _ _
      _ _ _ h))) h

theorem execMac_kept (t : TileNo) (hdr : CmdHdr) (o : MacOps) (s : State) : OutKept s (execMac t hdr o s) :=
  outKept_of fun h => kept_ite (enqueue_kept _ _ _ _ _ _ h) (issueFault_kept _ _ _ _ _ h)

theorem execConv_kept (t : TileNo) (hdr : CmdHdr) (o : ConvOps) (s : State) : OutKept s (execConv t hdr o s) :=
  outKept_of fun h => kept_ite (enqueue_kept _ _ _ _ _ _ h) (issueFault_kept _ _ _ _ _ h)

theorem execTensorCommandCommit_kept (t : TileNo) (s : State) : OutKept s (execTensorCommandCommit t s) := by
  refine outKept_of fun h => ?_
  split
  · exact h
  · refine kept_ite ?_ h
    extract_lets s1 s2 s3 s4
    have hs1 : Kept s s1 := kept_foldl _ _ (fun _ _ k => loanDirty_kept _ _ _ _ _ k) h
    have hs2 : Kept s s2 := mwriteAll_kept _ _ hs1
    have hs3 : Kept s s3 := by
      unfold s3
      split
      · exact kept_ite hs2 (mwrite_kept _ _ _ hs2)
      · exact hs2
    have hs4 : Kept s s4 := modTc_kept _ _ _ hs3
    exact unitDone_kept _ _ _ _ _ hs4

theorem execProblemEnterAssemble_kept (t : TileNo) (s : State) : OutKept s (execProblemEnterAssemble t s) := by
  refine outKept_of fun h => ?_
  split
  · exact kept_ite (tilesDo_kept _ _ _ (fun _ _ k => enterRank_kept _ _ _ _ _ k) h) h
  · exact h

theorem execStageHandoff_kept (t : TileNo) (slot : Fin 4) (s : State) : OutKept s (execStageHandoff t slot s) := by
  refine outKept_of fun h => ?_
  split
  · exact h
  · extract_lets +onlyGivenNames ts
    refine kept_ite ?_ h
    split
    · extract_lets g
      have hg : Kept s g.1 := gateAll_kept _ _ _ _ _ _ _ _ h
      refine kept_ite ?_ hg
      refine kickAll_kept _ _ ?_
      refine tilesDo_kept _ _ _ ?_ hg
      intro _ _ k
      split
      · exact finishStage_kept _ _ _ _ k
      · exact k
    · exact h

theorem execFactorCommit_kept (t : TileNo) (s : State) : OutKept s (execFactorCommit t s) := by
  refine outKept_of fun h => ?_
  split
  · exact h
  · extract_lets +onlyGivenNames ts
    refine kept_ite ?_ h
    refine kickAll_kept _ _ ?_
    refine tilesDo_kept _ _ _ ?_ h
    intro _ _ k
    split
    · exact commitFactor_kept _ _ _ _ k
    · exact k

theorem execIterationComplete_kept (t : TileNo) (s : State) : OutKept s (execIterationComplete t s) := by
  refine outKept_of fun h => ?_
  split
  · exact h
  · extract_lets +onlyGivenNames ts
    refine kept_ite ?_ h
    refine tilesDo_kept _ _ _ ?_ h
    intro _ _ k
    split
    · exact iterateRank_kept _ _ _ _ k
    · exact k

theorem execEmitCommit_kept (t : TileNo) (s : State) : OutKept s (execEmitCommit t s) := by
  refine outKept_of fun h => ?_
  split
  · exact h
  · extract_lets +onlyGivenNames i
    refine kept_ite ?_ h
    extract_lets g
    have hg : Kept s g.1 := gateAll_kept _ _ _ _ _ _ _ _ h
    exact kept_ite (kickAll_kept _ _ (commitProblem_kept _ _ _ _ _ _ hg)) hg

theorem execHeatComplete_kept (t : TileNo) (s : State) : OutKept s (execHeatComplete t s) := by
  refine outKept_of fun h => ?_
  split
  · exact endHeat_kept _ _ h
  · exact h

theorem execEmitSetpointArrival_kept (s : State) : OutKept s (execEmitSetpointArrival s) := by
  refine outKept_of fun h => ?_
  split
  · exact h
  · extract_lets s1 ok
    have hs1 : Kept s s1 := kept_mk h
    exact kept_ite (event_kept _ _ _ _ _ _ (loopFlags_kept _ _ _ hs1)) (kept_ite (loopFlags_kept _ _ _ hs1)
      (modLoop_kept _ _ _ (setTarget_kept _ _ _ hs1)))

theorem execAbortReachesTile_kept (p : Fin 2) (s : State) : OutKept s (execAbortReachesTile p s) := by
  refine outKept_of fun h => ?_
  split
  · exact endWaiting_kept _ _ _ _ (doAbort_kept _ _ _ h)
  · exact h

theorem execPreemptionRequest_kept (t : TileNo) (s : State) : OutKept s (execPreemptionRequest t s) := by
  refine outKept_of fun h => ?_
  refine kept_ite ?_ h
  extract_lets +onlyGivenNames s1
  have hs1 : Kept s s1 := by
    refine tilesDo_kept _ _ _ ?_ h
    intro _ _ k
    extract_lets s2
    have hs2 : Kept s s2 := modTile_kept _ _ _ k
    exact kept_ite hs2 (kept_each _ _ (fun _ _ k1 => stopUnit_kept _ _ _ _ k1) (modTc_kept _ _ _ hs2))
  exact trySave_kept _ _ hs1

theorem execUnitStop_kept (t : TileNo) (unit : Fin 8) (s : State) : OutKept s (execUnitStop t unit s) :=
  outKept_of fun h => kept_ite (trySave_kept _ _ (stopUnit_kept _ _ _ _ (stopWork_kept _ _ _ h))) h

theorem execSaveComplete_kept (t : TileNo) (s : State) : OutKept s (execSaveComplete t s) := by
  refine outKept_of fun h => ?_
  split
  · exact kept_ite (settle_kept _ _ (beSaved_kept _ _ _ (saveTile_kept _ _ _ h))) h
  · exact h

theorem execRestoreComplete_kept (t : TileNo) (s : State) : OutKept s (execRestoreComplete t s) := by
  refine outKept_of fun h => ?_
  split
  · extract_lets +onlyGivenNames ts
    refine kept_ite ?_ h
    extract_lets +onlyGivenNames s1
    have hs1 : Kept s s1 := tilesDo_kept _ _ _ (fun _ _ k => restoreTile_kept _ _ _ k) h
    exact kept_ite (beginSave_kept _ _ _ hs1) (beginBe_kept _ (settleAll_kept _ _ (kickAll_kept _ _
      (tilesDo_kept _ _ _ (fun _ _ k => resumeCopy_kept _ _ k) hs1))))
  · exact h

theorem execLoopUpdateCommit_kept (n : Fin 1024) (s : State) : OutKept s (execLoopUpdateCommit n s) := by
  refine outKept_of fun h => ?_
  split
  · exact h
  · refine lapEnd_kept _ _ _ _ _ (modLoop_kept _ _ _ (loopFlags_kept _ _ _ (kept_ite ?_ (rset_kept _ _ _ h))))
    refine modLoop_kept _ _ _ (rset_kept _ _ _ (kept_each _ _ (fun _ _ k => rset_kept _ _ _ k)
      (rset_kept _ _ _ (kept_each _ _ (fun _ _ k => rset_kept _ _ _ k) ?_))))
    exact kept_each _ _ (fun _ _ k => rset_kept _ _ _ k) (rset_kept _ _ _ h)

theorem execFrameCheck_kept (p : Fin 16) (seq : BitVec 12) (nch : Fin 16) (samples : List Word)
    (crc : BitVec 16) (s : State) :
    OutKept s (execFrameCheck p seq nch samples crc s) := by
  refine outKept_of fun h => ?_
  split
  · exact h
  · refine kept_ite h ?_
    extract_lets _ s1 d
    have hs1 : Kept s s1 := setSpt_kept _ _ _ h
    exact kept_ite (rxDiscard_kept _ _ hs1) (kept_ite (rxAccept_kept _ _ _ _ _ hs1) (rcount_kept _ _ _ _ _ hs1))

theorem execRxClockLoss_kept (p : Fin 16) (s : State) : OutKept s (execRxClockLoss p s) :=
  outKept_of fun h => kept_ite (kept_ite h (rbitSet_kept _ _ _ _ h)) (kept_ite (rxLost_kept _ _ (rxPartial_kept
    _ _ (kept_ite h (rbitSet_kept _ _ _ _ h)))) (rxLost_kept _ _ (kept_ite h (rbitSet_kept _ _ _ _ h))))

theorem execTxBoundary_kept (p : Fin 16) (s : State) : OutKept s (execTxBoundary p s) :=
  outKept_of fun h => kept_ite (setSpt_kept _ _ _ (ballOut_kept _ _ (rfldSet_kept _ _ _ _ _ h))) h

theorem execCarrierBoundary_kept (c : Fin 64) (s : State) : OutKept s (execCarrierBoundary c s) :=
  outKept_of fun h => kept_ite h (kept_ite (carrierComp_kept _ _ (carrier_kept _ _ h)) (carrier_kept _ _ h))

theorem execTripAssert_kept (k : Fin 4) (s : State) : OutKept s (execTripAssert k s) := by
  refine outKept_of fun h => ?_
  refine kept_ite ?_ h
  extract_lets s1 s2
  have hs1 : Kept s s1 := rbitSet_kept _ _ _ _ (rbitSet_kept _ _ _ _ h)
  have hs2 : Kept s s2 := kept_each _ _ (fun _ _ k => kept_ite (setPwm_kept _ _ _ (rbitSet_kept _ _ _ _ k))
    (rbitSet_kept _ _ _ _ k)) hs1
  exact event_kept _ _ _ _ _ _ hs2

theorem execSync_kept (p : Fin 2) (oneStep : Bool) (seq : BitVec 16) (t2 origin : Nat) (corr rate : Int) (s : State) :
    OutKept s (execSync p oneStep seq t2 origin corr rate s) :=
  outKept_of fun h => ptpRx_kept _ _ _ (fun _ k => (kept_ite k (kept_ite (syncDone_kept _ _ _ _ _ _ k)
    (modPort_kept _ _ _ k)))) h

theorem execFollowUp_kept (p : Fin 2) (seq : BitVec 16) (origin : Nat) (corr rate : Int) (s : State) :
    OutKept s (execFollowUp p seq origin corr rate s) := by
  refine outKept_of fun h => ?_
  refine ptpRx_kept _ _ _ ?_ h
  intro _ k
  split
  · exact k
  · exact kept_ite k (kept_ite (syncDone_kept _ _ _ _ _ _ (modPort_kept _ _ _ k)) (modPort_kept _ _ _ k))

theorem execPdelayReq_kept (p : Fin 2) (seq : BitVec 16) (t2 : Nat) (source : Nat) (s : State) :
    OutKept s (execPdelayReq p seq t2 source s) :=
  outKept_of fun h => ptpRx_kept _ _ _ (fun _ k => ptpSend_kept _ _ _ _ _ _ _ (ptpSend_kept _ _ _ _ _ _ _ k)) h

theorem execPdelayResp_kept (p : Fin 2) (seq : BitVec 16) (t2 t4 : Nat) (s : State) :
    OutKept s (execPdelayResp p seq t2 t4 s) := by
  refine outKept_of fun h => ?_
  refine ptpRx_kept _ _ _ ?_ h
  intro _ k
  split
  · exact kept_ite (modPort_kept _ _ _ k) k
  · exact k

theorem execPdelayRespFollowUp_kept (p : Fin 2) (seq : BitVec 16) (t3 : Nat) (ratio : Int) (capable : Bool)
    (s : State) :
    OutKept s (execPdelayRespFollowUp p seq t3 ratio capable s) := by
  refine outKept_of fun h => ?_
  refine ptpRx_kept _ _ _ ?_ h
  intro _ k
  split
  · exact kept_ite k (bmca_kept _ (rbitSet_kept _ _ _ _ (modPort_kept _ _ _ (rset_kept _ _ _ k))))
  · exact k

theorem execAnnounce_kept (p : Fin 2) (vec : List Nat) (path : List Nat) (s : State) :
    OutKept s (execAnnounce p vec path s) :=
  outKept_of fun h => ptpRx_kept _ _ _ (fun _ k => (kept_ite k (bmca_kept _ (kept_ite k (modPort_kept _ _ _
    k))))) h

theorem execPtpMessageInterval_kept (p : Fin 2) (kind : Fin 3) (s : State) :
    OutKept s (execPtpMessageInterval p kind s) := by
  refine outKept_of fun h => ?_
  refine kept_ite h ?_
  split
  · exact kept_ite (modPort_kept _ _ _ (ptpSend_kept _ _ _ _ _ _ _ (ptpSend_kept _ _ _ _ _ _ _ h))) h
  · exact kept_ite (modPort_kept _ _ _ (ptpSend_kept _ _ _ _ _ _ _ h)) h
  · exact modPort_kept _ _ _ (ptpSend_kept _ _ _ _ _ _ _ (pdelayLost_kept _ _ h))

theorem execEthernetLinkUp_kept (p : Fin 2) (rate : Fin 3) (master : Bool) (s : State) :
    OutKept s (execEthernetLinkUp p rate master s) := by
  refine outKept_of fun h => ?_
  refine kept_ite ?_ h
  extract_lets a s1 s2
  have hs1 : Kept s s1 := rbitSet_kept _ _ _ _ (rfldSet_kept _ _ _ _ _ (rbitSet_kept _ _ _ _ h))
  have hs2 : Kept s s2 := modPort_kept _ _ _ hs1
  exact bmca_kept _ (event_kept _ _ _ _ _ _ hs2)

theorem execEthernetLinkLoss_kept (p : Fin 2) (s : State) : OutKept s (execEthernetLinkLoss p s) :=
  outKept_of fun h => kept_ite (linkDown_kept _ _ (event_kept _ _ _ _ _ _ (rcount_kept _ _ _ _ _ h))) h

theorem execArpRequest_kept (p : Fin 2) (target : Word) (mac : BitVec 48) (ip : Word) (s : State) :
    OutKept s (execArpRequest p target mac ip s) :=
  outKept_of fun h => kept_ite h (kept_ite (sendFrame_kept _ _ _ (rxFrame_kept _ _ h)) (discard_kept _ _
    (rxFrame_kept _ _ h)))

theorem execTelemetryFlush_kept (port : Fin 2) (stream : Fin 4) (peer : Peer) (s : State) :
    OutKept s (execTelemetryFlush port stream peer s) := by
  refine outKept_of fun h => ?_
  split
  · exact h
  · split
    · exact kept_ite h (telemSend_kept _ _ (setSub_kept _ _ _ h))
    · exact h

theorem execPowerCycleRequest_kept (s : State) : OutKept s (execPowerCycleRequest s) := by
  refine outKept_of fun h => ?_
  split
  · exact powerCycle_kept _ (unorder_kept _ _ (kept_ite (verdict_kept _ _ _ _ _ _ h) h))
  · exact h

theorem execRelayTrainingStepComplete_kept (k : Fin 4) (ok : Bool) (part cascade : Word) (dev : Fin 16)
    (role : Fin 4) (s : State) :
    OutKept s (execRelayTrainingStepComplete k ok part cascade dev role s) := by
  refine outKept_of fun h => ?_
  refine kept_ite (kept_ite (setLinkState_kept _ _ _ h) (trainFail_kept _ _ _ h)) ?_
  refine kept_ite ?_ h
  extract_lets c s1
  have hs1 : Kept s s1 := rfldSet_kept _ _ _ _ _ h
  exact kept_ite (setLinkState_kept _ _ _ hs1) (trainFail_kept _ _ _ hs1)

theorem execRelayTrainingStepTimeout_kept (k : Fin 4) (s : State) : OutKept s (execRelayTrainingStepTimeout k s) :=
  outKept_of fun h => kept_ite (trainFail_kept _ _ _ h) (kept_ite (trainFail_kept _ _ _ (kept_mk h)) h)

theorem execRelayLinkActive_kept (k : Fin 4) (s : State) : OutKept s (execRelayLinkActive k s) := by
  refine outKept_of fun h => ?_
  refine kept_ite ?_ h
  extract_lets l s1 s2
  have hs1 : Kept s s1 := setLnk_kept _ _ _ h
  have hs2 : Kept s s2 := setLinkState_kept _ _ _ (rfldSet_kept _ _ _ _ _ hs1)
  exact bootLinks_kept _ (pumpAll_kept _ _ hs2)

theorem execRelayLinkLost_kept (k : Fin 4) (lock : Bool) (s : State) : OutKept s (execRelayLinkLost k lock s) := by
  refine outKept_of fun h => ?_
  refine kept_ite ?_ h
  extract_lets s1 d _ s2
  have hs1 : Kept s s1 := linkReset_kept _ _ (verdict_kept _ _ _ _ _ _ h)
  have hs2 : Kept s s2 := setHealth_kept _ _ hs1
  exact endHungReads_kept _ (kept_ite (rbitSet_kept _ _ _ _ hs2) hs2)

theorem execRdReq_kept (k : Fin 4) (h : PktHdr) (len : Fin 257) (s : State) : OutKept s (execRdReq k h len s) :=
  outKept_of fun h => arrive_kept _ _ _ _ (fun _ k => (remoteAccess_kept _ _ _ _ _ (fun _ k1 => (rsp_kept _ _ _
    _ _ _ (readPoison_kept _ _ _ k1))) k)) h

theorem execRdRsp_kept (k : Fin 4) (h : PktHdr) (data : List Byte) (poison : Bool) (s : State) :
    OutKept s (execRdRsp k h data poison s) :=
  outKept_of fun h => arrive_kept _ _ _ _ (fun _ k => (reply_kept _ _ _ _ (fun _ _ k1 => (readReply_kept _ _ _
    _ k1)) k)) h

theorem execWrReq_kept (k : Fin 4) (h : PktHdr) (data : List Byte) (poison : Bool) (s : State) :
    OutKept s (execWrReq k h data poison s) :=
  outKept_of fun h => arrive_kept _ _ _ _ (fun _ k => (remoteAccess_kept _ _ _ _ _ (fun _ k1 => (rsp_kept _ _ _
    _ _ _ (writeMarked_kept _ _ _ _ k1))) k)) h

theorem execWrAck_kept (k : Fin 4) (h : PktHdr) (s : State) : OutKept s (execWrAck k h s) :=
  outKept_of fun h => arrive_kept _ _ _ _ (fun _ k => (reply_kept _ _ _ _ (fun _ _ k1 => (doneReply_kept _ _
    k1)) k)) h

theorem execErrRsp_kept (k : Fin 4) (h : PktHdr) (code : Byte) (s : State) : OutKept s (execErrRsp k h code s) :=
  outKept_of fun h => arrive_kept _ _ _ _ (fun _ k => (kept_ite (reply_kept _ _ _ _ (fun _ _ k1 =>
    (failRequest_kept _ _ _ k1)) k) (kept_ite (rcount_kept _ _ _ _ _ k) (kept_ite (faultDsp_kept _ _ _ _ k)
    k)))) h

theorem execBpostPacket_kept (k : Fin 4) (h : PktHdr) (s : State) : OutKept s (execBpostPacket k h s) :=
  outKept_of fun h => arrive_kept _ _ _ _ (fun _ k => kept_ite (postLocal_kept _ _ _ k) (errRsp_kept _ _ _ k)) h

theorem execBwaitPacket_kept (k : Fin 4) (h : PktHdr) (s : State) : OutKept s (execBwaitPacket k h s) :=
  outKept_of fun h => arrive_kept _ _ _ _ (fun _ k => kept_ite (enterWait_kept _ _ k) (errRsp_kept _ _ _ k)) h

theorem execBwaitRsp_kept (k : Fin 4) (h : PktHdr) (s : State) : OutKept s (execBwaitRsp k h s) :=
  outKept_of fun h => arrive_kept _ _ _ _ (fun _ k => (reply_kept _ _ _ _ (fun _ _ k1 => (doneReply_kept _ _
    k1)) k)) h

theorem execTime_kept (k : Fin 4) (echo : Bool) (rx sent residence delay turn : Nat) (state : Fin 3)
    (steps : BitVec 16) (fabBase : Int) (s : State) :
    OutKept s (execTime k echo rx sent residence delay turn state steps fabBase s) :=
  outKept_of fun h => arrive_kept _ _ _ _ (fun _ k => (kept_ite (kept_ite (rset_kept _ _ _ (setLnk_kept _ _ _
    k)) k) (kept_ite (sendCtl_kept _ _ _ k) (memberOffset_kept _ _ _ _ _ (kept_mk (rset_kept _ _ _
    (sendCtl_kept _ _ _ k))))))) h

theorem execTimeSendInterval_kept (s : State) : OutKept s (execTimeSendInterval s) :=
  outKept_of fun h => kept_ite h (kept_each _ _ (fun _ _ k => sendCtl_kept _ _ _ k) h)

theorem execAlign_kept (k : Fin 4) (bound : Nat) (len : BitVec 20) (phase : BitVec 30) (idx : Word)
    (switch hold : Option Word) (s : State) :
    OutKept s (execAlign k bound len phase idx switch hold s) := by
  refine outKept_of fun h => ?_
  refine arrive_kept _ _ _ _ ?_ h
  intro _ k
  refine kept_ite k ?_
  extract_lets +onlyGivenNames s1
  have hs1 : Kept s s1 := kept_each _ _ (fun _ _ k1 => sendCtl_kept _ _ _ k1) k
  refine kept_ite hs1 ?_
  extract_lets s2 s3
  have hs2 : Kept s s2 := by
    unfold s2
    split
    · exact alignFirst_kept _ _ _ _ _ hs1
    · exact alignCheck_kept _ _ _ _ _ _ hs1
  have hs3 : Kept s s3 := by
    unfold s3
    split
    · exact orderSwitch_kept _ _ hs2
    · exact hs2
  split
  · exact hs3
  · exact kept_ite hs3 (kept_ite (holdRefused_kept _ _ hs3) (kept_mk (holdAccept_kept _ _ hs3)))

theorem execLinkNak_kept (k : Fin 4) (bytes : Option (List Byte)) (s : State) :
    OutKept s (execLinkNak k bytes s) := by
  refine outKept_of fun h => ?_
  refine kept_ite h ?_
  split
  · extract_lets +onlyGivenNames s1
    have hs1 : Kept s s1 := rcount_kept _ _ _ _ _ (setLnk_kept _ _ _ h)
    exact linkTaken_kept _ _ (kept_each _ _ (fun _ _ k => out_kept _ _ k) hs1)
  · exact kept_ite h (sendLink_kept _ _ _ _ _ (rcount_kept _ _ _ _ _ h))

theorem execPatrolScrub_kept (k : Fin 16) (outcome : ScrubFind) (s : State) :
    OutKept s (execPatrolScrub k outcome s) := by
  refine outKept_of fun h => ?_
  refine kept_ite h ?_
  extract_lets _ s1
  have hs1 : Kept s s1 := kept_mk (onBus_kept _ _ h)
  refine kept_ite hs1 ?_
  split
  · exact kept_ite (eccUE_kept _ _ (mpoison_kept _ _ hs1)) (kept_ite (eccCE_kept _ _ hs1) hs1)
  · exact kept_ite (rcount_kept _ _ _ _ _ hs1) (kept_ite (rcount_kept _ _ _ _ _ hs1) hs1)

theorem execMr4Read_kept (k : Fin 16) (rate : Fin 32) (s : State) : OutKept s (execMr4Read k rate s) := by
  refine outKept_of fun h => ?_
  refine kept_ite h ?_
  extract_lets old s1 s2
  have hs1 : Kept s s1 := rfldSet_kept _ _ _ _ _ h
  have hs2 : Kept s s2 := rbitSet_kept _ _ _ _ hs1
  exact kept_ite hs2 (event_kept _ _ _ _ _ _ hs2)

theorem execLpddr5ReadReply_kept (addr : BitVec 48) (outcome : ReadBack) (s : State) :
    OutKept s (execLpddr5ReadReply addr outcome s) := by
  refine outKept_of fun h => ?_
  refine kept_ite h ?_
  extract_lets +onlyGivenNames s1
  have hs1 : Kept s s1 := onBus_kept _ _ h
  split
  · exact hs1
  · exact eccCE_kept _ _ hs1
  · exact lineLost_kept _ _ _ hs1
  · exact rcount_kept _ _ _ _ _ hs1
  · exact rcount_kept _ _ _ _ _ hs1
  · exact lineLost_kept _ _ _ (rcount_kept _ _ _ _ _ hs1)

theorem execGraphSearchEnd_kept (s : State) : OutKept s (execGraphSearchEnd s) :=
  outKept_of fun h => kept_ite (orderResets_kept _ _ (setHealth_kept _ _ (kept_each _ _ (fun _ _ k =>
    (declareHang_kept _ _ k)) h))) h

theorem execStallWatchdogExpiry_kept (node : GNode) (c : Fin 64) (env : List GSnap) (s : State) :
    OutKept s (execStallWatchdogExpiry node c env s) := by
  refine outKept_of fun h => ?_
  split
  · exact h
  · refine kept_ite h ?_
    extract_lets s1 k
    have hs1 : Kept s s1 := rbitSet_kept _ _ _ _ h
    exact kept_ite (orderResets_kept _ _ (verdict_kept _ _ _ _ _ _ hs1)) (kept_ite (faultDsp_kept _ _ _ _
      hs1) (kept_ite (faultDsp_kept _ _ _ _ hs1) (faultTile_kept _ _ _ _ _ _ hs1)))

theorem execRholdExpiry_kept (s : State) : OutKept s (execRholdExpiry s) := by
  refine outKept_of fun h => ?_
  split
  · exact h
  · extract_lets _ s1 s2
    have hs1 : Kept s s1 := setHealth_kept _ _ h
    have hs2 : Kept s s2 := kept_ite (rbitSet_kept _ _ _ _ hs1) hs1
    exact endHungReads_kept _ (doReset_kept _ _ hs2)

theorem execTileResetComplete_kept (t : TileNo) (s : State) : OutKept s (execTileResetComplete t s) := by
  refine outKept_of fun h => ?_
  split
  · exact h
  · extract_lets ts _ s1 s2
    have hs1 : Kept s s1 := setHealth_kept _ _ h
    have hs2 : Kept s s2 := tilesDo_kept _ _ _ (fun _ _ k => resetTile_kept _ _ k) hs1
    exact beginBe_kept _ (settleAll_kept _ _ (kept_ite (resetPorts_kept _ _ hs2) hs2))

theorem execPartitionResetComplete_kept (p : Fin 16) (s : State) : OutKept s (execPartitionResetComplete p s) := by
  refine outKept_of fun h => ?_
  split
  · exact h
  · refine kept_ite h ?_
    extract_lets cs up ts s1 _ s2
    have hs1 : Kept s s1 := setTokens_kept _ _ _ _ (setTokens_kept _ _ _ _ h)
    have hs2 : Kept s s2 := (kept_ite (settleAll_kept _ _ (rfldSet_kept _ _ _ _ _ hs1)) (partDown_kept _ _
      (setHealth_kept _ _ hs1)))
    refine kept_each _ _ ?_ hs2
    intro _ _ k
    split
    · exact kept_ite (retryPort_kept _ _ k) k
    · exact k

theorem execPartitionReloadComplete_kept (p : Fin 16) (s : State) : OutKept s (execPartitionReloadComplete p s) := by
  refine outKept_of fun h => ?_
  split
  · exact h
  · extract_lets +onlyGivenNames cs
    refine kept_ite h ?_
    extract_lets q _ s1
    have hq : Kept s q.1 := reloadPart_kept _ _ h
    have hs1 : Kept s s1 := setHealth_kept _ _ hq
    split
    · exact partDown_kept _ _ (reloadFailed_kept _ _ _ hs1)
    · exact kept_mk (clearBatons_kept _ _ (kept_each _ _ (fun _ _ k => (rfldSet_kept _ _ _ _ _
        (loadContext_kept _ _ _ k))) hs1))

theorem execObservationReadTimeout_kept (p : Fin 2) (s : State) : OutKept s (execObservationReadTimeout p s) := by
  refine outKept_of fun h => ?_
  split
  · exact endWaiting_kept _ _ _ _ (dumpTimeout_kept _ _ _ h)
  · exact h

theorem execPcSample_kept (s : State) : OutKept s (execPcSample s) :=
  outKept_of fun h => kept_ite h (kept_each _ _ (fun _ _ k => streamRec_kept _ _ _ _ k) h)

theorem execDumpMatch_kept (t : TileNo) (s : State) : OutKept s (execDumpMatch t s) := by
  refine outKept_of fun h => ?_
  refine kept_ite h ?_
  split
  · exact dumpStop_kept _ _ (kick_kept _ _ (stageDump_kept _ _ h))
  · exact h

theorem execDumpComplete_kept (t : TileNo) (s : State) : OutKept s (execDumpComplete t s) := by
  refine outKept_of fun h => ?_
  split
  · exact h
  · exact dumpStop_kept _ _ (kick_kept _ _ (streamRec_kept _ _ _ _ (kept_mk (eventTile_kept _ _ _ _ _ _ h))))

theorem execRstNRelease_kept (s : State) : OutKept s (execRstNRelease s) := by
  refine outKept_of fun h => ?_
  extract_lets +onlyGivenNames s1
  have hs1 : Kept s s1 := modBoot_kept _ _ (modPins_kept _ _ h)
  exact kept_ite (kept_mk hs1) hs1

theorem execDevresetDelayExpiry_kept (s : State) : OutKept s (execDevresetDelayExpiry s) := by
  refine outKept_of fun h => ?_
  split
  · extract_lets +onlyGivenNames s1
    have hs1 : Kept s s1 := verdict_kept _ _ _ _ _ _ (unorder_kept _ _ h)
    exact kept_ite hs1 (deviceReset_kept _ _ hs1)
  · exact h

theorem execTileWakeComplete_kept (t : TileNo) (s : State) : OutKept s (execTileWakeComplete t s) :=
  outKept_of fun h => kept_ite h (kept_ite (beginBe_kept _ (pfKick_kept _ (settle_kept _ _ (tileRuns_kept _ _
    (chargeWake_kept _ _ _ h))))) h)

theorem execHoldExitWakeComplete_kept (s : State) : OutKept s (execHoldExitWakeComplete s) := by
  refine outKept_of fun h => ?_
  refine kept_ite ?_ h
  extract_lets s1 s2 s3 s4 ps s5 s6
  have hs1 : Kept s s1 := rfldSet_kept _ _ _ _ _ h
  have hs2 : Kept s s2 := kept_each _ _ (fun _ _ k => rfldSet_kept _ _ _ _ _ k) hs1
  have hs3 : Kept s s3 := unusedHold_kept _ (tilesDo_kept _ _ _ (fun _ _ k => setTile_kept _ _ _ k) hs2)
  have hs4 : Kept s s4 := kept_each _ _ (fun _ _ k => setLinkState_kept _ _ _ k) hs3
  have hs5 : Kept s s5 := kept_each _ _ (fun _ _ k => rfldSet_kept _ _ _ _ _ k) hs4
  have hs6 : Kept s s6 := kept_each _ _ (fun _ _ k => rfldSet_kept _ _ _ _ _ k) hs5
  exact setHealth_kept _ _ hs6

theorem execLoanCopyBackComplete_kept (t : TileNo) (s : State) : OutKept s (execLoanCopyBackComplete t s) := by
  refine outKept_of fun h => ?_
  split
  · exact h
  · exact kept_ite (settle_kept _ _ (modTile_kept _ _ _ (moveLines_kept _ _ _ _ _ _ h))) h

theorem execEthernetTrainingFailed_kept (p : Fin 2) (s : State) : OutKept s (execEthernetTrainingFailed p s) :=
  outKept_of fun h => kept_ite (kept_ite (rbitSet_kept _ _ _ _ (modPort_kept _ _ _ h)) (modPort_kept _ _ _ h)) h

theorem execTfpMalformedFrame_kept (h : TfpHdr) (op : Byte) (s : State) :
    OutKept s (execTfpMalformedFrame h op s) :=
  outKept_of fun h => kept_ite h (kept_ite (discard_kept _ _ (rxFrame_kept _ _ h)) (respond_kept _ _ _
    (rxFrame_kept _ _ h)))

theorem execObsPacerRelease_kept (s : State) : OutKept s (execObsPacerRelease s) :=
  outKept_of fun h => kept_each _ _ (fun _ _ k => telemAll_kept _ _ k) (obsDrain_kept _ _ h)

theorem execMemPowerDownEntry_kept (s : State) : OutKept s (execMemPowerDownEntry s) :=
  outKept_of fun h => kept_ite (kept_each _ _ (fun _ _ k => rfldSet_kept _ _ _ _ _ k) h) h

theorem execFlashSetupComplete_kept (s : State) : OutKept s (execFlashSetupComplete s) :=
  outKept_of fun h => kept_ite (flashRead_kept _ _ (bootStep_kept _ _ (modBoot_kept _ _ h))) h

theorem execPwrgoodRise_kept (role : Fin 4) (dual test : Bool) (s : State) :
    OutKept s (execPwrgoodRise role dual test s) := by
  unfold execPwrgoodRise
  split
  · exact outKept_of fun h => h
  · split
    · exact fun _ e => nomatch e
    · exact outKept_of fun h => powerOn_kept _ _ _ (modPins_kept _ _ h)

theorem execHoldEntryComplete_kept (s : State) : OutKept s (execHoldEntryComplete s) := by
  refine outKept_of fun h => kept_ite ?_ h
  have h1 := kept_each linkOff (List.range 4) (fun _ _ k => linkOff_kept _ _ k) h
  have h2 := tilesDo_kept _ (List.range 32) (fun t s => s.setTile t { power := .hold })
    (fun _ _ k => setTile_kept _ _ _ k) h1
  refine holdReached_kept _ (rfldSet_kept _ _ _ _ _ (rfldSet_kept _ _ _ _ _ ?_))
  exact kept_of_eq (kept_filter (fun e => decide (e.1 < 0x100000000000)) h2) rfl rfl rfl rfl

theorem execPacerRelease_kept (p : Fin 16) (rly : Bool) (s : State) : OutKept s (execPacerRelease p rly s) := by
  refine outKept_of fun h => ?_
  split
  · exact h
  · refine kept_ite h ?_
    extract_lets d _ s1
    have h1 : Kept s s1 := kept_mk h
    split
    · exact resumeCopy_kept _ _ (modCtx_kept _ _ _ _ (paceTake_kept _ _ _ _ (chargeMem_kept _ _ _ h1)))
    · exact issuePkt_kept _ _ _ _ h1
    · split
      · exact kept_ite (endWaiting_kept _ _ _ _ h1)
          (endWaiting_kept _ _ _ _ (hostData_kept _ _ (paceTake_kept _ _ _ _ h1)))
      · exact h1

theorem execMulx_kept (t : TileNo) (rd rs1 rs2 : RegNo) (aux : Byte) (s : State) :
    OutKept s (execMulx t rd rs1 rs2 aux s) := by
  unfold execMulx
  extract_lets mode
  split
  · exact outKept_of fun h => h
  · exact outKept_of fun h => int2_kept _ _ _ _ _ _ _ h

theorem execSret_kept (t : TileNo) (s : State) : OutKept s (execSret t s) := by
  refine outKept_of fun h => laneDo_kept _ _ _ (fun u k => ?_) h
  split
  · extract_lets s1 gang
    have h1 : Kept s s1 := modTc_kept _ _ _ k
    exact kept_ite (modTc_kept _ _ _ h1) (modTc_kept _ _ _ (stopPartners_kept _ _ _ h1))
  · exact eventTile_kept _ _ _ _ _ _ (faultTile_kept _ _ _ _ _ _ k)

theorem execFdiv_kept (t : TileNo) (rd rs1 rs2 : RegNo) (aux : Byte) (s : State) :
    OutKept s (execFdiv t rd rs1 rs2 aux s) := by
  unfold execFdiv
  split
  · exact outKept_of fun h => h
  · exact outKept_of fun h => laneV_kept _ _ _ h

theorem execFsqrt_kept (t : TileNo) (rd rs1 : RegNo) (aux : Byte) (s : State) :
    OutKept s (execFsqrt t rd rs1 aux s) := by
  unfold execFsqrt
  split
  · exact outKept_of fun h => h
  · exact outKept_of fun h => laneV_kept _ _ _ h

theorem execCvt_kept (t : TileNo) (rd rs1 : RegNo) (wide : Bool) (src dst : Fin 16) (e : Byte) (s : State) :
    OutKept s (execCvt t rd rs1 wide src dst e s) := by
  unfold execCvt
  extract_lets bad
  split
  · exact outKept_of fun h => h
  · exact outKept_of fun h => lane_kept _ _ _ h

theorem execLd_kept (t : TileNo) (rd rs1 : RegNo) (aux : Byte) (imm : BitVec 16) (s : State) :
    OutKept s (execLd t rd rs1 aux imm s) := by
  unfold execLd
  split
  · exact outKept_of fun h => h
  · refine outKept_of fun h => laneDo_kept _ _ _ (fun u k => ?_) h
    exact kept_ite (laneFault_kept _ _ _ k) (kept_ite (laneFault_kept _ _ _ (readPoison_kept _ _ _ k))
      (retire_kept _ _ _ _ _ (kept_mk k)))

theorem execSt_kept (t : TileNo) (rd rs1 : RegNo) (aux : Byte) (imm : BitVec 16) (s : State) :
    OutKept s (execSt t rd rs1 aux imm s) := by
  unfold execSt
  split
  · exact outKept_of fun h => h
  · refine outKept_of fun h => laneDo_kept _ _ _ (fun u k => ?_) h
    exact kept_ite (laneFault_kept _ _ _ k)
      (retire_kept _ _ _ _ _ (mwriteVal_kept _ _ _ _ (loanDirty_kept _ _ _ _ _ k)))

theorem execSolve_kept (t : TileNo) (hdr : CmdHdr) (tmpl : Word) (count : Byte) (xlist : Word) (s : State) :
    OutKept s (execSolve t hdr tmpl count xlist s) :=
  outKept_of fun h => kept_ite (issueFault_kept _ _ _ _ _ h) (enqueue_kept _ _ _ _ _ _ h)

theorem jtagStatus_le (st : Nat) : jtagStatus st ≤ 5 := by
  unfold jtagStatus
  split <;> omega

theorem jtagRead_status_le (s : State) (a : Nat) : (s.jtagRead a).2.2 ≤ 5 := by
  unfold State.jtagRead
  split
  · exact (by decide : 3 ≤ 5)
  · split
    · exact Nat.zero_le _
    · exact jtagStatus_le _

/-- The outcome of an access is shifted in before the next Capture-DR: its status is a code of R360. -/
theorem tap_wf_shift {x : Tap} (w : Word) {st : Nat} (hs : st ≤ 5) (h : Tap.wf x = true) :
    Tap.wf { x with word := w, status := st, oldWord := x.word, oldStatus := x.status } = true := by
  simp only [Tap.wf, Bool.and_eq_true, decide_eq_true_eq] at h ⊢
  exact ⟨⟨h.1.1, hs⟩, h.1.2⟩

theorem execCtrlAccess_kept (op : Fin 4) (addr data : Word) (early : Bool) (s : State) :
    OutKept s (execCtrlAccess op addr data early s) := by
  refine outKept_of fun h => ?_
  have h1 := ballOut_kept _ (.tdo (if early then s.tap.oldWord.toNat * 16 + s.tap.oldStatus
    else s.tap.word.toNat * 16 + s.tap.status)) (tapSelect_kept _ 0x20 rfl h)
  split
  · exact modTap_kept _ _ (fun _ => tap_wf_shift _ (jtagRead_status_le _ _)) (jtagRead_kept _ _ h1)
  · exact modTap_kept _ _ (fun _ => tap_wf_shift _ (jtagStatus_le _)) (writeReg_kept _ _ _ _ h1)
  · exact modTap_kept _ _ (fun x hx => by
      simp only [Tap.wf, Bool.and_eq_true, decide_eq_true_eq] at hx ⊢
      exact ⟨⟨hx.1.1, hx.1.2⟩, hx.1.2⟩) h1

theorem execTapReset_kept (s : State) : OutKept s (execTapReset s) :=
  outKept_of fun h => modTap_kept _ _ (fun x hx => by
    simp only [Tap.wf, Bool.and_eq_true, decide_eq_true_eq] at hx ⊢
    exact ⟨⟨rfl, hx.1.2⟩, hx.2⟩) h

theorem execSamplePreload_kept (balls load : BitVec 2048) (s : State) :
    OutKept s (execSamplePreload balls load s) :=
  outKept_of fun h => modTap_kept _ _ (fun _ hx => hx) (ballOut_kept _ _ (tapSelect_kept _ 0x01 rfl h))

/-- Every command keeps the queue behind it, the canonical form of data space, a legal test access port and the
messages already sent. -/
theorem exec_kept (c : Instr) (s : State) : OutKept s (exec c s) := by
  cases c with
  | powerGoodFall | railUndervoltage => exact outKept_of fun h => powerOff_kept _ h
  | refclkStop => exact outKept_of fun h => kept_ite h (powerOn_kept _ _ _ (powerOff_kept _ h))
  | refclkQualified => exact outKept_of fun h => kept_ite (modBoot_kept _ _ h) h
  | timePllLockTimeout | fclkPllLockTimeout | lpddr5PllLockTimeout =>
    exact outKept_of fun h => kept_ite (bootFail_kept _ _ _ h) h
  | resetPllLockTimeout => exact outKept_of fun h => kept_ite (setHealth_kept _ _ (verdict_kept _ _ _ _ _ _ h)) h
  | flashResetDone => exact outKept_of fun h => kept_ite (ballOut_kept _ _ (bootStep_kept _ _ h)) h
  | endScript | pollTimeout => exact outKept_of fun h => kept_ite (entryFail_kept _ _ h) h
  | write => exact outKept_of fun h => kept_ite (scriptPut_kept _ _ _ _ h) h
  | poll | pollSatisfied => exact outKept_of fun h => kept_ite (pollRead_kept _ h) h
  | registerWrite | holdReq | holdExit | arm | scheduleTableWrite | beq | post | ctrl | coefficientWrite |
    loopConfigWrite | limitWrite | target | generatorEnWrite | probeArm | probeTrig | sptRxcfgWrite |
    sptTxcfgWrite | tripLatchClear | pwmCfgWrite | acceptStepWrite | mshDumpNow | obsCounterClear =>
    exact outKept_of fun h => hostWrite_kept _ _ _ _ h
  | splNsRead | cmdIdRead => exact outKept_of fun h => regRead_kept _ _ _ h
  | splitLoRegisterRead => exact outKept_of fun h => kept_ite (regRead_kept _ _ _ h) h
  | deadlineTime => exact outKept_of fun h => kept_ite (modHeatAny_kept _ _ _ _ h) h
  | loanReclaim => exact outKept_of fun h => startReclaim_kept _ _ _ h
  | bpost | copy | xtload => exact outKept_of fun h => enqueue_kept _ _ _ _ _ _ h
  | nop | mov | movi | movhi | flagrd | fmv | mvgf | mvfg => exact outKept_of fun h => lane_kept _ _ _ h
  | add | sub | adds | subs | cmpeq | cmplt | mul => exact outKept_of fun h => int2_kept _ _ _ _ _ _ _ h
  | neg | negs | clz | addim => exact outKept_of fun h => int1_kept _ _ _ _ _ _ h
  | and | or | xor => exact outKept_of fun h => bit2_kept _ _ _ _ _ _ h
  | shl | shr | shra => exact outKept_of fun h => shift_kept _ _ _ _ _ _ _ _ h
  | quo | rmd => exact outKept_of fun h => intDiv_kept _ _ _ _ _ _ _ h
  | vPipeResult => exact outKept_of fun h => kept_ite (drainV_kept _ _ h) h
  | flagclr | trapen => exact outKept_of fun h => laneDo_kept _ _ _ (fun _ k => (modTc_kept _ _ _ k)) h
  | fadd | fsub | fmul | fmin | fmax | fcopysign => exact outKept_of fun h => fp2_kept _ _ _ _ _ _ _ h
  | fma | fnma => exact outKept_of fun h => fp3_kept _ _ _ _ _ _ _ _ h
  | feq | flt | fle => exact outKept_of fun h => fpCmp_kept _ _ _ _ _ _ _ h
  | fneg | fabs => exact outKept_of fun h => fp1_kept _ _ _ _ _ _ h
  | jmp | beqz | bnez | bltz | bgez => exact outKept_of fun h => jump_kept _ _ _ _ h
  | setmode => exact outKept_of fun h => seqEntry_kept _ _ _ _ (fun _ k => (modTc_kept _ _ _ k)) h
  | loopBoundary => exact outKept_of fun h => kept_ite (boundary_kept _ _ h) h
  | markRecognised => exact outKept_of fun h => kept_ite (setSpt_kept _ _ _ h) h
  | partToExpiry => exact outKept_of fun h => kept_ite (rxLost_kept _ _ (rxPartial_kept _ _ h)) h
  | idleToExpiry => exact outKept_of fun h => kept_ite (rxLost_kept _ _ h) h
  | forgetExpiry => exact outKept_of fun h => kept_ite (rbitSet_kept _ _ _ _ h) h
  | splitTimerTick => exact outKept_of fun h => kept_ite (kept_mk h) h
  | announceReceiptTimeout => exact outKept_of fun h => bmca_kept _ (modPort_kept _ _ _ h)
  | syncReceiptTimeout => exact outKept_of fun h => kept_ite (setTime_kept _ _ h) h
  | ethernetTrainRetry => exact outKept_of fun h => modPort_kept _ _ _ h
  | frameDiscard => exact outKept_of fun h => kept_ite (discard_kept _ _ (rxFrame_kept _ _ h)) h
  | cread | cwrite | cmodify | dread | dwrite | abort | echo | tsub | health | reinit | devreset | pwrcycle =>
    exact outKept_of fun h => tfpArrive_kept _ _ _ h
  | relayRetryTimer | relayLinkNapEntry => exact outKept_of fun h => kept_ite (setLinkState_kept _ _ _ h) h
  | packetForward => exact outKept_of fun h => kept_ite h (arrive_kept _ _ _ _ (fun _ k => k) h)
  | graphSnapshot => exact outKept_of fun h => kept_ite (setHealth_kept _ _ h) (setHealth_kept _ _ h)
  | tripInputRelease | rxClockReturn => exact outKept_of fun h => kept_ite h (rbitSet_kept _ _ _ _ h)
  | linkPacket => exact outKept_of fun h => kept_ite h (linkTaken_kept _ _ (setLnk_kept _ _ _ h))
  | perBankRefresh => exact outKept_of fun h => kept_mk h
  | relayLinkNapExit => exact outKept_of fun h => kept_ite (pumpAll_kept _ _ (setLinkState_kept _ _ _ h)) h
  | memPowerDownExit => exact outKept_of fun h => kept_each _ _ (fun _ _ k => (rfldSet_kept _ _ _ _ _ k)) h
  | vddIo18Low | vddIo33Low => exact outKept_of fun h => modPins_kept _ _ h
  | rstNAssert => exact execRstNAssert_kept _
  | timePllLocked => exact execTimePllLocked_kept _
  | clocksLocked => exact execClocksLocked_kept _
  | anchorReadComplete => exact execAnchorReadComplete_kept _ _
  | flashStrobeLost => exact execFlashStrobeLost_kept _ _
  | signatureReadComplete => exact execSignatureReadComplete_kept _ _ _ _
  | scriptFetchComplete => exact execScriptFetchComplete_kept _ _
  | bistComplete => exact execBistComplete_kept _ _ _
  | writeMask => exact execWriteMask_kept _
  | train => exact execTrain_kept _
  | lpddr5TrainingComplete => exact execLpddr5TrainingComplete_kept _ _ _
  | lpddr5ZeroFillComplete => exact execLpddr5ZeroFillComplete_kept _
  | load => exact execLoad_kept _
  | loadComplete => exact execLoadComplete_kept _ _
  | verify => exact execVerify_kept _
  | lock => exact execLock_kept _
  | rcRegisterRead => exact execRcRegisterRead_kept _ _ _
  | holdExitReloadComplete => exact execHoldExitReloadComplete_kept _
  | majorCycleBoundary => exact execMajorCycleBoundary_kept _
  | lookaheadRead => exact execLookaheadRead_kept _
  | wakeTime => exact execWakeTime_kept _ _
  | tileChoice => exact execTileChoice_kept _ _
  | wakeComplete => exact execWakeComplete_kept _ _
  | slotTime => exact execSlotTime_kept _ _
  | prefetchTransferComplete => exact execPrefetchTransferComplete_kept _ _
  | cutPointFac => exact execCutPointFac_kept _ _ _
  | cutPointOut => exact execCutPointOut_kept _ _ _
  | bePlacement => exact execBePlacement_kept _
  | sliceExpiry => exact execSliceExpiry_kept _ _
  | reclaimWritebackComplete => exact execReclaimWritebackComplete_kept _ _
  | eventTrigger => exact execEventTrigger_kept _
  | clusterNapEntry => exact execClusterNapEntry_kept _ _
  | contextFault => exact execContextFault_kept _ _
  | teardownComplete => exact execTeardownComplete_kept _ _
  | teardownTimeout => exact execTeardownTimeout_kept _ _
  | hurdleDrainLimit => exact execHurdleDrainLimit_kept _ _
  | contextReloadComplete => exact execContextReloadComplete_kept _ _
  | bwait => exact execBwait_kept _ _ _ _ _
  | hend => exact execHend_kept _ _ _
  | fence => exact execFence_kept _ _ _
  | copyComplete => exact execCopyComplete_kept _ _
  | mac => exact execMac_kept _ _ _ _
  | conv => exact execConv_kept _ _ _ _
  | tensorCommandCommit => exact execTensorCommandCommit_kept _ _
  | problemEnterAssemble => exact execProblemEnterAssemble_kept _ _
  | stageHandoff => exact execStageHandoff_kept _ _ _
  | factorCommit => exact execFactorCommit_kept _ _
  | iterationComplete => exact execIterationComplete_kept _ _
  | emitCommit => exact execEmitCommit_kept _ _
  | heatComplete => exact execHeatComplete_kept _ _
  | emitSetpointArrival => exact execEmitSetpointArrival_kept _
  | abortReachesTile => exact execAbortReachesTile_kept _ _
  | preemptionRequest => exact execPreemptionRequest_kept _ _
  | unitStop => exact execUnitStop_kept _ _ _
  | saveComplete => exact execSaveComplete_kept _ _
  | restoreComplete => exact execRestoreComplete_kept _ _
  | loopUpdateCommit => exact execLoopUpdateCommit_kept _ _
  | frameCheck => exact execFrameCheck_kept _ _ _ _ _ _
  | rxClockLoss => exact execRxClockLoss_kept _ _
  | txBoundary => exact execTxBoundary_kept _ _
  | carrierBoundary => exact execCarrierBoundary_kept _ _
  | tripAssert => exact execTripAssert_kept _ _
  | sync => exact execSync_kept _ _ _ _ _ _ _ _
  | followUp => exact execFollowUp_kept _ _ _ _ _ _
  | pdelayReq => exact execPdelayReq_kept _ _ _ _ _
  | pdelayResp => exact execPdelayResp_kept _ _ _ _ _
  | pdelayRespFollowUp => exact execPdelayRespFollowUp_kept _ _ _ _ _ _
  | announce => exact execAnnounce_kept _ _ _ _
  | ptpMessageInterval => exact execPtpMessageInterval_kept _ _ _
  | ethernetLinkUp => exact execEthernetLinkUp_kept _ _ _ _
  | ethernetLinkLoss => exact execEthernetLinkLoss_kept _ _
  | arpRequest => exact execArpRequest_kept _ _ _ _ _
  | telemetryFlush => exact execTelemetryFlush_kept _ _ _ _
  | powerCycleRequest => exact execPowerCycleRequest_kept _
  | relayTrainingStepComplete => exact execRelayTrainingStepComplete_kept _ _ _ _ _ _ _
  | relayTrainingStepTimeout => exact execRelayTrainingStepTimeout_kept _ _
  | relayLinkActive => exact execRelayLinkActive_kept _ _
  | relayLinkLost => exact execRelayLinkLost_kept _ _ _
  | rdReq => exact execRdReq_kept _ _ _ _
  | rdRsp => exact execRdRsp_kept _ _ _ _ _
  | wrReq => exact execWrReq_kept _ _ _ _ _
  | wrAck => exact execWrAck_kept _ _ _
  | errRsp => exact execErrRsp_kept _ _ _ _
  | bpostPacket => exact execBpostPacket_kept _ _ _
  | bwaitPacket => exact execBwaitPacket_kept _ _ _
  | bwaitRsp => exact execBwaitRsp_kept _ _ _
  | time => exact execTime_kept _ _ _ _ _ _ _ _ _ _ _
  | timeSendInterval => exact execTimeSendInterval_kept _
  | align => exact execAlign_kept _ _ _ _ _ _ _ _
  | linkNak => exact execLinkNak_kept _ _ _
  | patrolScrub => exact execPatrolScrub_kept _ _ _
  | mr4Read => exact execMr4Read_kept _ _ _
  | lpddr5ReadReply => exact execLpddr5ReadReply_kept _ _ _
  | graphSearchEnd => exact execGraphSearchEnd_kept _
  | stallWatchdogExpiry => exact execStallWatchdogExpiry_kept _ _ _ _
  | rholdExpiry => exact execRholdExpiry_kept _
  | tileResetComplete => exact execTileResetComplete_kept _ _
  | partitionResetComplete => exact execPartitionResetComplete_kept _ _
  | partitionReloadComplete => exact execPartitionReloadComplete_kept _ _
  | observationReadTimeout => exact execObservationReadTimeout_kept _ _
  | pcSample => exact execPcSample_kept _
  | dumpMatch => exact execDumpMatch_kept _ _
  | dumpComplete => exact execDumpComplete_kept _ _
  | rstNRelease => exact execRstNRelease_kept _
  | devresetDelayExpiry => exact execDevresetDelayExpiry_kept _
  | tileWakeComplete => exact execTileWakeComplete_kept _ _
  | holdExitWakeComplete => exact execHoldExitWakeComplete_kept _
  | loanCopyBackComplete => exact execLoanCopyBackComplete_kept _ _
  | ethernetTrainingFailed => exact execEthernetTrainingFailed_kept _ _
  | tfpMalformedFrame => exact execTfpMalformedFrame_kept _ _ _
  | obsPacerRelease => exact execObsPacerRelease_kept _
  | memPowerDownEntry => exact execMemPowerDownEntry_kept _
  | flashSetupComplete => exact execFlashSetupComplete_kept _
  | pwrgoodRise => exact execPwrgoodRise_kept _ _ _ _
  | holdEntryComplete => exact execHoldEntryComplete_kept _
  | pacerRelease => exact execPacerRelease_kept _ _ _
  | mulx => exact execMulx_kept _ _ _ _ _ _
  | sret => exact execSret_kept _ _
  | fdiv => exact execFdiv_kept _ _ _ _ _ _
  | fsqrt => exact execFsqrt_kept _ _ _ _ _
  | cvt => exact execCvt_kept _ _ _ _ _ _ _ _
  | ld => exact execLd_kept _ _ _ _ _ _
  | st => exact execSt_kept _ _ _ _ _ _
  | solve => exact execSolve_kept _ _ _ _ _ _
  | ctrlAccess => exact execCtrlAccess_kept _ _ _ _ _
  | tapReset => exact execTapReset_kept _
  | samplePreload => exact execSamplePreload_kept _ _ _
  | extest | extestPulse | extestTrain => exact outKept_of fun h => drive_kept _ _ _ rfl h
  | highz | clamp | bypass => exact outKept_of fun h => tapSelect_kept _ _ rfl h

/-- A step takes the front command away, and its state keeps the rest. -/
theorem step_kept {s t : State} (h : step s = .next t) : Kept { s with pending := s.pending.tail } t := by
  unfold step at h
  split at h
  · next hp =>
    cases h
    refine cycle_kept _ (kept_of_eq (kept_refl _) ?_ rfl rfl rfl)
    simp [hp]
  · next c rest hp => simpa [hp] using exec_kept c _ t h

/-- Settles O5: every command keeps the queue behind it and the messages sent (`exec_kept`), and an idle cycle too. -/
theorem stepTakesOneCommand : Obligations.StepTakesOneCommand := by
  intro s t h
  have k := step_kept h
  exact ⟨k.pending, k.outs⟩

end
end Sys2Proof.Machine
end

section
/-! # Reads of control space (O34)

A latch of a split read is a word kept beside the registers: a path that reads sees its own latches alone, and nothing
else of the state reads them. -/
namespace Sys2Proof.Machine

/-- `s` with other words latched for split reads. -/
def State.withLatch (s : State) (l : Tab Word) : State := { s with obs := { s.obs with latch := l } }

/-! ## Reads of data space -/

theorem mread_of_mem {s t : State} (h : t.mem = s.mem) (a n : Nat) : t.mread a n = s.mread a n := by
  induction n generalizing a with
  | zero => rfl
  | succ n ih => simp only [State.mread, mget_of_mem h, ih]

theorem mval_of_mem {s t : State} (h : t.mem = s.mem) (a n : Nat) : t.mval a n = s.mval a n := by
  unfold State.mval
  rw [mread_of_mem h]

theorem termsAt_of_mem {s t : State} (h : t.mem = s.mem) (n a : Nat) : t.termsAt n a = s.termsAt n a := by
  induction n generalizing a with
  | zero => rfl
  | succ n ih => simp only [State.termsAt, mval_of_mem h, ih]

theorem tmplAt_of_mem {s t : State} (h : t.mem = s.mem) (a lim : Nat) : t.tmplAt a lim = s.tmplAt a lim := by
  have ha : t.adescAt = s.adescAt := by funext o; simp only [State.adescAt, mval_of_mem h]
  have hp : t.pdescAt = s.pdescAt := by funext o; simp only [State.pdescAt, mval_of_mem h]
  have hq : t.prodAt = s.prodAt := by funext o; simp only [State.prodAt, mval_of_mem h]
  simp only [State.tmplAt, mval_of_mem h, termsAt_of_mem h, ha, hp, hq]

section
variable (s : State) (l : Tab Word) {q : Nat} (h : ∀ b, (s.withLatch l).latchGet b q = s.latchGet b q)

theorem mem_withLatch : (s.withLatch l).mem = s.mem := rfl
theorem rget_withLatch (a : Nat) : (s.withLatch l).rget a = s.rget a := rfl
theorem clkView_withLatch (a : Nat) : (s.withLatch l).clkView a = s.clkView a := rfl
theorem dspView_withLatch (a : Nat) : (s.withLatch l).dspView a = s.dspView a := rfl

theorem tmpl_withLatch (t c o : Nat) : (s.withLatch l).tmpl t c o = s.tmpl t c o :=
  tmplAt_of_mem (mem_withLatch s l) _ _

theorem storeA_withLatch (t c o : Nat) : (s.withLatch l).storeA t c o = s.storeA t c o := by
  unfold State.storeA
  simp only [mval_of_mem (mem_withLatch s l)]
  rfl

theorem servedTmpl_withLatch (t : Nat) : (s.withLatch l).servedTmpl t = s.servedTmpl t := by
  unfold State.servedTmpl
  simp only [tmpl_withLatch]
  rfl

theorem factoring_withLatch (t c : Nat) : (s.withLatch l).factoring t c = s.factoring t c := by
  unfold State.factoring
  simp only [storeA_withLatch]
  rfl

theorem solverView_withLatch (t o : Nat) : (s.withLatch l).solverView t o = s.solverView t o := by
  unfold State.solverView
  simp only [tmpl_withLatch, storeA_withLatch, servedTmpl_withLatch, factoring_withLatch]
  rfl

theorem seqView_withLatch (t o : Nat) : (s.withLatch l).seqView t o = s.seqView t o := by
  have ht : (s.withLatch l).tile t = s.tile t := rfl
  have hc : (s.withLatch l).ctxOn t = s.ctxOn t := rfl
  have hn : (s.withLatch l).npe t = s.npe t := rfl
  unfold State.seqView
  simp only [ht, hc, hn, rget_withLatch]

theorem tensorView_withLatch (t o : Nat) : (s.withLatch l).tensorView t o = s.tensorView t o := rfl
theorem laneView_withLatch (t o : Nat) : (s.withLatch l).laneView t o = s.laneView t o := rfl
theorem pwmLoop_withLatch (c : Nat) : (s.withLatch l).pwmLoop c = s.pwmLoop c := rfl
theorem batonProxy_withLatch (b : Nat) : (s.withLatch l).batonProxy b = s.batonProxy b := rfl
theorem atStart_withLatch : (s.withLatch l).atStart = s.atStart.withLatch l := rfl

include h
theorem splView_withLatch (o : Nat) : (s.withLatch l).splView q o = s.splView q o := by
  unfold State.splView
  simp only [h]
  rfl

theorem rlyView_withLatch (a : Nat) : (s.withLatch l).rlyView q a = s.rlyView q a := by
  unfold State.rlyView
  rw [h]
  rfl
theorem lapView_withLatch (a : Nat) : (s.withLatch l).lapView q a = s.lapView q a := by
  unfold State.lapView
  rw [h]
  rfl
theorem cntView_withLatch (b o : Nat) (x y : Bool) : (s.withLatch l).cntView q b o x y = s.cntView q b o x y := by
  unfold State.cntView
  rw [h]
  rfl

theorem mshView_withLatch (a : Nat) : (s.withLatch l).mshView q a = s.mshView q a := by
  unfold State.mshView
  simp only [atStart_withLatch, cntView_withLatch s.atStart l h, rget_withLatch]

theorem tileView_withLatch (a : Nat) : (s.withLatch l).tileView q a = s.tileView q a := by
  unfold State.tileView
  rw [atStart_withLatch]
  dsimp only
  split_ifs
  · exact seqView_withLatch _ _ _ _
  · exact tensorView_withLatch _ _ _ _
  · exact laneView_withLatch _ _ _ _
  · exact solverView_withLatch _ _ _ _
  · exact solverView_withLatch _ _ _ _
  · rfl
  · exact cntView_withLatch s.atStart l h _ _ _ _

/-- What a path reads changes with its own latches alone. -/
theorem regView_withLatch (a : Nat) : (s.withLatch l).regView q a = s.regView q a := by
  unfold State.regView
  rw [batonProxy_withLatch, clkView_withLatch, splView_withLatch s l h, rlyView_withLatch s l h, dspView_withLatch,
    mshView_withLatch s l h, lapView_withLatch s l h, pwmLoop_withLatch, tileView_withLatch s l h]
  simp only [rget_withLatch]

end

@[simp] theorem latchGet_latchSet_self (s : State) (a p v : Nat) :
    (s.latchSet a p v).latchGet a p = BitVec.ofNat 32 v :=
  tget_tput_self _ _ _ _

/-- A latch is kept per register and access path. -/
theorem latchGet_latchSet_ne (s : State) {a b p q : Nat} (v : Nat) (hp : p < 4) (hq : q < 4) (h : b ≠ a ∨ q ≠ p) :
    (s.latchSet a p v).latchGet b q = s.latchGet b q :=
  tget_tput_ne _ _ _ (by omega)

theorem regView_latchSet_ne (s : State) {p q : Nat} (a v b : Nat) (hp : p < 4) (hq : q < 4) (h : q ≠ p) :
    (s.latchSet a p v).regView q b = s.regView q b :=
  regView_withLatch s _ (fun _ => latchGet_latchSet_ne s v hp hq (.inr h)) b

/-- A counter block's registers clear no bit when they are read (R456). -/
theorem specCnt_rc {o : Nat} {r : RegSpec} (h : specCnt o = some r) : r.rc = 0 := by
  unfold specCnt at h
  split at h
  · cases h; rfl
  · split at h <;> cases h; rfl

theorem regSpec_tile {a : Nat} (h : 0x01000000 ≤ a ∧ a < 0x01200000) (h4 : a % 4 = 0) :
    regSpec a = specTile (a % 0x10000) := by
  simp (disch := omega) only [regSpec, if_pos, if_neg]

theorem regSpec_cnt {a : Nat} (h : (mshA 0x1000 ≤ a ∧ a < mshA 0x2600)
    ∨ (0x01000000 ≤ a ∧ a < 0x01200000 ∧ 0x6000 ≤ a % 0x10000)) {r : RegSpec} (hr : regSpec a = some r) :
    r.rc = 0 := by
  have h4 : a % 4 = 0 := by
    by_contra hne
    simp [regSpec, hne] at hr
  unfold mshA at h
  rcases h with ⟨lo, hi⟩ | ⟨lo, hi, ho⟩
  · simp (disch := omega) only [regSpec, specMsh, if_pos, if_neg] at hr
    exact specCnt_rc hr
  · rw [regSpec_tile ⟨lo, hi⟩ h4] at hr
    simp (disch := omega) only [specTile, if_neg] at hr
    split at hr
    · exact specCnt_rc hr
    · cases hr

theorem readLatch_of_rc (s : State) (src : Nat) {a : Nat} {r : RegSpec} (hr : regSpec a = some r) (h : r.rc ≠ 0) :
    s.readLatch src a = s := by
  have ne : ∀ b, regSpec b = some regRO → a ≠ b := by
    rintro b hb rfl
    rw [hb] at hr
    cases hr
    exact h rfl
  unfold State.readLatch
  rw [if_neg (ne _ rfl), if_neg (ne _ rfl), if_neg (ne _ rfl), if_neg (fun hc => h (regSpec_cnt hc hr))]

/-! ## The largest stall count of a command (R458) -/

/-- What the search for the largest count has found: a reason of the list with that count, unless it is 0. -/
theorem foldl_top (why : Nat → Nat) (l : List Nat) (a : Nat × Nat) :
    let b := l.foldl (fun a r => if a.2 < why r then (r, why r) else a) a
    b.2 = (l.map why).foldl max a.2 ∧ (b = a ∨ b.1 ∈ l ∧ why b.1 = b.2) := by
  induction l generalizing a with
  | nil => exact ⟨rfl, .inl rfl⟩
  | cons r l ih =>
    simp only [List.foldl_cons, List.map_cons]
    by_cases h : a.2 < why r
    · rw [if_pos h, Nat.max_eq_right (Nat.le_of_lt h)]
      obtain ⟨h1, h2⟩ := ih (r, why r)
      refine ⟨h1, .inr ?_⟩
      rcases h2 with h2 | ⟨hm, he⟩
      · rw [h2]
        exact ⟨List.mem_cons_self, rfl⟩
      · exact ⟨List.mem_cons_of_mem _ hm, he⟩
    · rw [if_neg h, Nat.max_eq_left (Nat.le_of_not_lt h)]
      obtain ⟨h1, h2⟩ := ih a
      exact ⟨h1, h2.imp_right fun ⟨hm, he⟩ => ⟨List.mem_cons_of_mem _ hm, he⟩⟩

theorem top_spec (k : UnitCmd) :
    k.top.2 = (reasonCodes.map (tget 0 k.why)).foldl max 0
      ∧ (k.top.2 ≠ 0 → k.top.1 ∈ reasonCodes ∧ tget 0 k.why k.top.1 = k.top.2) := by
  obtain ⟨h1, h2⟩ := foldl_top (tget 0 k.why) reasonCodes (0, 0)
  exact ⟨h1, fun hn => h2.resolve_left fun e => hn (congrArg Prod.snd e)⟩

/-! ## Reads of control space -/

/-- JTAG after SB_LOCK without SB_DBG.JRD (R427). -/
def State.readClosed (s : State) (p : Nat) : Prop := p = 2 ∧ s.sbLock = true ∧ s.rbit 0x24 31 = false

theorem regRead_closed {s : State} {src : Fin 3} (h : s.readClosed src.val) (a : Nat) :
    s.regRead src a = s := if_pos h

theorem regRead_open {s : State} {src : Fin 3} (h : ¬ s.readClosed src.val) (a : Nat) :
    s.regRead src a = (s.readReg src.val a).1 := if_neg h

theorem readReg_of_ro {s : State} {p a : Nat} {r : RegSpec} (hr : regSpec a = some r) (h0 : r.rc = 0)
    (hb : s.regBlocked a = false) : (s.readReg p a).1 = s.readLatch p a := by
  simp [State.readReg, hr, hb, h0]

theorem readReg_of_rc {s : State} {p a : Nat} {r : RegSpec} (hr : regSpec a = some r) (h0 : r.rc ≠ 0)
    (hb : s.regBlocked a = false) : (s.readReg p a).1 = s.readClear a r.rc := by
  simp only [State.readReg, hr, hb, readLatch_of_rc s p hr h0, if_neg h0]
  rfl

/-- SPL_NS latches the seconds and the fraction of its tick (R364). -/
theorem readLatch_splNs (s : State) (p : Nat) :
    s.readLatch p (splA 0x08) = ((s.latchSet (splA 0x0C) p (s.time.split / 2 ^ 32 / 1000000000)).latchSet (splA 0x10) p
      (s.time.split / 2 ^ 32 / 1000000000 / 2 ^ 32 % 65536)).latchSet (splA 0x14) p s.time.split := rfl

/-- The counter blocks of a tile's units are read-only registers, and answer together. -/
theorem regSpec_unitCnt {t u o : Nat} (ht : t < 32) (hu : u < 9) (ho : o < 0x28) (h4 : o % 4 = 0) :
    regSpec (cntA t u + o) = some regRO := by
  unfold cntA tileA
  rw [regSpec_tile (by omega) (by omega)]
  have e : (0x01000000 + t * 0x10000 + (0x6000 + 0x100 * u) + o) % 0x10000 = 0x6000 + 0x100 * u + o := by omega
  have e2 : (0x6000 + 0x100 * u + o) % 0x100 = o := by omega
  rw [e]
  simp (disch := omega) only [specTile, specCnt, if_neg, if_pos, e2]

theorem regBlocked_unitCnt (s : State) {t u o : Nat} (hu : u < 9) (ho : o < 0x28) :
    s.regBlocked (cntA t u + o) = s.regBlocked (cntA t u) := by
  have e : (cntA t u + o - 0x01000000) / 0x10000 = (cntA t u - 0x01000000) / 0x10000 := by unfold cntA tileA; omega
  have lo : 0x01000000 ≤ cntA t u := by unfold cntA tileA; omega
  have hi : cntA t u + o < 0x01200000 ↔ cntA t u < 0x01200000 := by unfold cntA tileA; omega
  have n : ∀ b, b < 0x01000000 → ¬ cntA t u < b ∧ ¬ cntA t u + o < b := by omega
  unfold State.regBlocked mshA
  simp (disch := omega) only [if_neg, e, hi, lo, true_and, show 0x01000000 ≤ cntA t u + o by omega]

theorem readLatch_unitCnt (s : State) (p : Nat) {t u o : Nat} (ht : t < 32) (hu : u < 9) (ho : o < 0x100) :
    s.readLatch p (cntA t u + o) = s.cntLatch p (cntA t u) o := by
  have e1 : (cntA t u + o) / 0x100 * 0x100 = cntA t u := by unfold cntA tileA; omega
  have e2 : (cntA t u + o) % 0x100 = o := by unfold cntA tileA; omega
  have hc : 0x01000000 ≤ cntA t u + o ∧ cntA t u + o < 0x01200000 ∧ 0x6000 ≤ (cntA t u + o) % 0x10000 := by
    unfold cntA tileA; omega
  unfold State.readLatch splA rlyA lapA
  rw [if_neg (by omega), if_neg (by omega), if_neg (by omega), if_pos (.inr hc), e1, e2]

theorem cmdAt_cntA (s : State) {t u : Nat} (hu : u < 9) : s.cmdAt (cntA t u) = s.cmd t u := by
  have e : cntA t u = 0x01000000 + t * 0x10000 + (0x6000 + 0x100 * u) := rfl
  unfold State.cmdAt
  generalize cntA t u = b at e
  rw [show (b - 0x01000000) / 0x10000 = t by omega, show (b % 0x10000 - 0x6000) / 0x100 = u by omega]

/-- A read that clears: bits of a register, or a count that stands in its tile (R16, R185). -/
theorem readClear_reg {s : State} {a : Nat} (rc : Word) (h : a < 0x01000000 ∨ a % 0x10000 = 0x5000) :
    s.readClear a rc = s.rset a (s.rget a &&& ~~~rc) := if_neg (by omega)

theorem readClear_warmDrop (s : State) {t : Nat} (ht : t < 32) (rc : Word) :
    s.readClear (tileA t 0x4024) rc = s.setTile t { s.tile t with warmDrop := 0 } := by
  have h1 : tileA t 0x4024 % 0x10000 = 0x4024 := by unfold tileA; omega
  have h2 : (tileA t 0x4024 - 0x01000000) / 0x10000 = t := by unfold tileA; omega
  unfold State.readClear
  rw [if_pos (by rw [h1]; unfold tileA; omega), h1, h2]
  rfl

theorem regSpec_warmDrop {t : Nat} (ht : t < 32) : regSpec (tileA t 0x4024) = some (regRC 0xFFFFFFFF) := by
  have h1 : tileA t 0x4024 % 0x10000 = 0x4024 := by unfold tileA; omega
  rw [regSpec_tile (by unfold tileA; omega) (by unfold tileA; omega), h1]
  rfl

theorem execSplNsRead_latches {s : State} {src : Fin 3} (h : ¬ s.readClosed src.val) :
    ∃ u, execSplNsRead src s = .next u ∧ u = { s with obs := { s.obs with latch := u.obs.latch } }
      ∧ u.regView src.val (splA 0x08) = BitVec.ofNat 32 (s.time.split / 2 ^ 32 % 1000000000)
      ∧ u.regView src.val (splA 0x0C) = BitVec.ofNat 32 (s.time.split / 2 ^ 32 / 1000000000)
      ∧ u.regView src.val (splA 0x10) = BitVec.ofNat 32 (s.time.split / 2 ^ 32 / 1000000000 / 2 ^ 32 % 65536)
      ∧ u.regView src.val (splA 0x14) = BitVec.ofNat 32 s.time.split
      ∧ ∀ q < 4, q ≠ src.val → ∀ b, u.regView q b = s.regView q b := by
  have hp : src.val < 4 := by omega
  have e : s.regRead src (splA 0x08) = s.readLatch src.val (splA 0x08) := by
    rw [regRead_open h, readReg_of_ro (r := regRO) rfl rfl rfl]
  refine ⟨_, congrArg Host.Outcome.next (e.trans (readLatch_splNs s src.val)), rfl, rfl, ?_, ?_, ?_,
    fun q hq hne b => ?_⟩
  · show State.latchGet _ (splA 0x0C) _ = _
    rw [latchGet_latchSet_ne _ _ hp hp (.inl (by decide)), latchGet_latchSet_ne _ _ hp hp (.inl (by decide)),
      latchGet_latchSet_self]
  · show State.latchGet _ (splA 0x10) _ = _
    rw [latchGet_latchSet_ne _ _ hp hp (.inl (by decide)), latchGet_latchSet_self]
  · exact latchGet_latchSet_self _ _ _ _
  · rw [regView_latchSet_ne _ _ _ _ hp hq hne, regView_latchSet_ne _ _ _ _ hp hq hne,
      regView_latchSet_ne _ _ _ _ hp hq hne]

theorem execSplitLoRead_lap {s : State} {src : Fin 3} (h : ¬ s.readClosed src.val)
    (hb : s.regBlocked (lapA 0x00) = false) :
    execSplitLoRegisterRead src (BitVec.ofNat 32 (lapA 0x00)) s
      = .next (s.latchSet (lapA 0x04) src.val (s.lapBase / 2 ^ 32)) := by
  have e : s.regRead src (lapA 0x00) = s.latchSet (lapA 0x04) src.val (s.lapBase / 2 ^ 32) := by
    rw [regRead_open h, readReg_of_ro (r := regRO) rfl rfl hb]
    rfl
  exact congrArg Host.Outcome.next e

theorem execSplitLoRead_unit {s : State} {src : Fin 3} (h : ¬ s.readClosed src.val) (t : TileNo) (unit : Fin 9)
    (hb : s.regBlocked (cntA t.val unit.val) = false) :
    execSplitLoRegisterRead src (BitVec.ofNat 32 (cntA t.val unit.val)) s
      = .next (s.latchSet (cntA t.val unit.val + 4) src.val (tget 0 s.was.cnt (cntA t.val unit.val) / 2 ^ 32)) := by
  have hr := regSpec_unitCnt t.isLt unit.isLt (o := 0) (by decide) (by decide)
  rw [Nat.add_zero] at hr
  have e : s.regRead src (cntA t.val unit.val)
      = s.latchSet (cntA t.val unit.val + 4) src.val (tget 0 s.was.cnt (cntA t.val unit.val) / 2 ^ 32) := by
    rw [regRead_open h, readReg_of_ro hr rfl hb]
    exact readLatch_unitCnt s src.val t.isLt unit.isLt (o := 0) (by decide)
  have ea : (BitVec.ofNat 32 (cntA t.val unit.val)).toNat = cntA t.val unit.val := by
    rw [BitVec.toNat_ofNat]
    unfold cntA tileA
    omega
  have hs : splitLo (cntA t.val unit.val) = true := by
    have lo : 0x01000000 ≤ cntA t.val unit.val ∧ cntA t.val unit.val < 0x01200000
        ∧ 0x6000 ≤ cntA t.val unit.val % 0x10000 ∧ cntA t.val unit.val % 0x100 = 0 := by unfold cntA tileA; omega
    simp [splitLo, hr, lo]
  unfold execSplitLoRegisterRead
  rw [ea, if_pos hs, e]

theorem execCmdIdRead_latches {s : State} {src : Fin 3} (h : ¬ s.readClosed src.val) (t : TileNo) (unit : Fin 9)
    (hb : s.regBlocked (cntA t.val unit.val) = false) :
    ∃ u, execCmdIdRead src t unit s = .next u ∧ u = { s with obs := { s.obs with latch := u.obs.latch } }
      ∧ (let k := ((tget [] s.was.cmds (16 * t.val + unit.val)).head?).getD {}
         u.latchGet (cntA t.val unit.val + 0x1C) src.val = BitVec.ofNat 32 k.busy
         ∧ u.latchGet (cntA t.val unit.val + 0x20) src.val = BitVec.ofNat 32 k.stall
         ∧ ∃ r n, u.latchGet (cntA t.val unit.val + 0x24) src.val = BitVec.ofNat 32 (r * 2 ^ 27 + n)
           ∧ n = (reasonCodes.map (tget 0 k.why)).foldl max 0
           ∧ (n ≠ 0 → r ∈ reasonCodes ∧ tget 0 k.why r = n)) := by
  have hp : src.val < 4 := by omega
  have hr := regSpec_unitCnt t.isLt unit.isLt (o := 0x18) (by decide) (by decide)
  have e : s.regRead src (cntA t.val unit.val + 0x18) = s.cntLatch src.val (cntA t.val unit.val) 0x18 := by
    rw [regRead_open h, readReg_of_ro hr rfl ((regBlocked_unitCnt s unit.isLt (by decide)).trans hb)]
    exact readLatch_unitCnt s src.val t.isLt unit.isLt (by decide)
  have hk : s.atStart.cmdAt (cntA t.val unit.val) = ((tget [] s.was.cmds (16 * t.val + unit.val)).head?).getD {} := by
    rw [cmdAt_cntA _ unit.isLt]
    simp only [State.cmd, State.cmds, headCmd, State.atStart]
  have el : s.cntLatch src.val (cntA t.val unit.val) 0x18
      = let k := ((tget [] s.was.cmds (16 * t.val + unit.val)).head?).getD {}
        ((s.latchSet (cntA t.val unit.val + 0x1C) src.val k.busy).latchSet (cntA t.val unit.val + 0x20) src.val
          k.stall).latchSet (cntA t.val unit.val + 0x24) src.val (k.top.1 * 2 ^ 27 + k.top.2) := by
    unfold State.cntLatch
    rw [if_neg (by decide), if_pos rfl, if_pos (by unfold cntA tileA; omega), hk]
  refine ⟨_, congrArg Host.Outcome.next (e.trans el), rfl, ?_, ?_, _, _, latchGet_latchSet_self _ _ _ _,
    (top_spec _).1, (top_spec _).2⟩
  · rw [latchGet_latchSet_ne _ _ hp hp (.inl (by omega)), latchGet_latchSet_ne _ _ hp hp (.inl (by omega)),
      latchGet_latchSet_self]
  · rw [latchGet_latchSet_ne _ _ hp hp (.inl (by omega)), latchGet_latchSet_self]

theorem execRcRead_of_spec {s : State} {a : Word} {r : RegSpec} (src : Fin 3) (hr : regSpec a.toNat = some r) :
    execRcRegisterRead src a s = .next (if r.rc = 0 then s else s.regRead src a.toNat) := by
  simp only [execRcRegisterRead, hr]

theorem execRcRead_clears {s : State} {src : Fin 3} (h : ¬ s.readClosed src.val) {a : Word} {r : RegSpec}
    (hr : regSpec a.toNat = some r) (h0 : r.rc ≠ 0) (hb : s.regBlocked a.toNat = false) :
    execRcRegisterRead src a s = .next (s.readClear a.toNat r.rc) := by
  rw [execRcRead_of_spec src hr, if_neg h0, regRead_open h, readReg_of_rc hr h0 hb]

theorem execRcRead_none (s : State) (src : Fin 3) {a : Word} (hr : regSpec a.toNat = none) :
    execRcRegisterRead src a s = .next s := by simp only [execRcRegisterRead, hr]

/-- With JTAG closed a read changes nothing (R427). -/
theorem execRead_closed {s : State} {src : Fin 3} (h : s.readClosed src.val) (a : Word) (t : TileNo) (unit : Fin 9)
    (c : Instr) (hc : c = .splNsRead src ∨ c = .rcRegisterRead src a ∨ c = .splitLoRegisterRead src a
      ∨ c = .cmdIdRead src t unit) : exec c s = .next s := by
  rcases hc with rfl | rfl | rfl | rfl
  · exact congrArg _ (regRead_closed h _)
  · show execRcRegisterRead src a s = _
    cases hr : regSpec a.toNat with
    | none => exact execRcRead_none s src hr
    | some r => rw [execRcRead_of_spec src hr, regRead_closed h, ite_self]
  · show execSplitLoRegisterRead src a s = _
    rw [execSplitLoRegisterRead, regRead_closed h, ite_self]
  · exact congrArg _ (regRead_closed h _)

/-- Settles O34: each read is its latch (`readLatch`) and its clear (`readClear`), and a latch shows on its own path
alone. -/
theorem controlSpaceReads : Obligations.ControlSpaceReads := by
  intro s src a t unit
  refine ⟨fun h => execRead_closed h a t unit, fun h => ⟨execSplNsRead_latches h, execSplitLoRead_lap h, fun hb =>
    ⟨execSplitLoRead_unit h t unit hb, execCmdIdRead_latches h t unit hb⟩,
    fun r hr hb => ⟨fun h0 => ?_, fun h0 hc => ?_, fun ha => ?_⟩, execRcRead_none s src⟩⟩
  · exact (execRcRead_of_spec src hr).trans (by rw [if_pos h0])
  · exact (execRcRead_clears h hr h0 hb).trans (by rw [readClear_reg _ hc])
  · have h0 : r.rc ≠ 0 := by
      rw [ha, regSpec_warmDrop t.isLt] at hr
      cases hr
      decide
    exact (execRcRead_clears h hr h0 hb).trans (by rw [ha, readClear_warmDrop s t.isLt])

end Sys2Proof.Machine
end

section
/-!
# Event entries, sleep and prefetch (O43)

What settling a tile can do is said once (`settle_cases`): it changes tiles, saved contexts and the commands on the
units, so the Dispatcher's own state passes through every wake.
-/

namespace Sys2Proof.Machine

/-! ## What leaves the Dispatcher alone -/

@[simp] theorem rsetWords_dsp (s : State) (a : Nat) (l : List Word) : (s.rsetWords a l).dsp = s.dsp := by
  induction l generalizing s a with
  | nil => rfl
  | cons w l ih => exact ih _ _

@[simp] theorem streamRec_dsp (s : State) (k : Fin 4) (l pl : List Byte) : (s.streamRec k l pl).dsp = s.dsp := by
  rw [(streamRec_streamed k l pl (Streamed.refl s)).rest]

@[simp] theorem event_dsp (s : State) (q code : Nat) (w : EvOf) (d0 d1 : Nat) :
    (s.event q code w d0 d1).dsp = s.dsp := by
  simp [State.event]

@[simp] theorem eventTile_dsp (s : State) (t code d0 d1 : Nat) (ids : Option CmdIds) :
    (s.eventTile t code d0 d1 ids).dsp = s.dsp := event_dsp _ _ _ _ _ _

@[simp] theorem residentCheck_dsp (s : State) (t c : Nat) (h : Heat) : (s.residentCheck t c h).dsp = s.dsp := rfl

@[simp] theorem cmdStart_dsp (s : State) (t u c seq : Nat) (i : CmdIds) : (s.cmdStart t u c seq i).dsp = s.dsp := rfl

@[simp] theorem modTc_dsp (s : State) (t : Nat) (f : TCtx → TCtx) : (s.modTc t f).dsp = s.dsp := rfl

/-- What every step of a fold keeps, the fold keeps. -/
theorem foldl_keeps {α β : Type} (g : State → β) {f : State → α → State} (hf : ∀ s x, g (f s x) = g s) (l : List α)
    (s : State) : g (l.foldl f s) = g s := by
  induction l generalizing s with
  | nil => rfl
  | cons x l ih => exact (ih _).trans (hf s x)

theorem beginHeat_dsp (s : State) (c : Nat) (ts : List Nat) (pc entry : Nat) (lc dead : Bool) (ns : Nat) :
    (s.beginHeat c ts pc entry lc dead ns).dsp = s.dsp :=
  (foldl_keeps State.dsp
    (fun _ _ => by simp only [eventTile_dsp, residentCheck_dsp, cmdStart_dsp, modTc_dsp]) _ _).trans
    (State.rset_dsp _ _ _)

/-! ## Tiles that settle -/

/-- `u` is `s` with other tiles, saved contexts and commands on the units. -/
def TilesMoved (s u : State) : Prop :=
  ∃ ts sv cs, u = { s with tiles := ts, saved := sv, obs := { s.obs with cmds := cs } }

theorem TilesMoved.refl (s : State) : TilesMoved s s := ⟨_, _, _, rfl⟩

theorem TilesMoved.trans {a b c : State} (h : TilesMoved a b) (k : TilesMoved b c) : TilesMoved a c := by
  obtain ⟨_, _, _, rfl⟩ := h
  obtain ⟨_, _, _, rfl⟩ := k
  exact ⟨_, _, _, rfl⟩

theorem TilesMoved.dsp {s u : State} (h : TilesMoved s u) : u.dsp = s.dsp := by
  obtain ⟨_, _, _, rfl⟩ := h
  rfl

theorem TilesMoved.now {s u : State} (h : TilesMoved s u) : u.now = s.now := by
  obtain ⟨_, _, _, rfl⟩ := h
  rfl

theorem TilesMoved.setTile (s : State) (t : Nat) (x : Tile) : TilesMoved s (s.setTile t x) := ⟨_, _, _, rfl⟩

theorem TilesMoved.tilesDo {f : Nat → State → State} (hf : ∀ u s, TilesMoved s (f u s)) (s : State) (ts : List Nat) :
    TilesMoved s (s.tilesDo ts f) := by
  induction ts generalizing s with
  | nil => exact .refl s
  | cons u ts ih => exact (hf u s).trans (ih _)

theorem unpark_moves (s : State) (t c : Nat) :
    ∃ sv cs, s.unpark t c = { s with saved := sv, obs := { s.obs with cmds := cs } } := by
  unfold State.unpark State.each
  split
  · next x _ =>
    suffices h : ∀ (l : List (Nat × List UnitCmd)) (s : State), ∃ cs,
        l.foldl (fun s p => s.setCmds t p.1 p.2) s = { s with obs := { s.obs with cmds := cs } } by
      obtain ⟨cs, e⟩ := h (x.cmds.filter (fun p => !p.2.isEmpty)) s
      rw [e]
      exact ⟨_, cs, rfl⟩
    intro l
    induction l with
    | nil => exact fun s => ⟨s.obs.cmds, rfl⟩
    | cons p l ih =>
      intro s
      obtain ⟨cs, e⟩ := ih (s.setCmds t p.1 p.2)
      exact ⟨cs, e⟩
  · exact ⟨s.saved, s.obs.cmds, rfl⟩

theorem unpark_tiles (s : State) (t c : Nat) : (s.unpark t c).tiles = s.tiles := by
  obtain ⟨_, _, e⟩ := unpark_moves s t c
  rw [e]

theorem TilesMoved.unpark (s : State) (t c : Nat) : TilesMoved s (s.unpark t c) :=
  ⟨_, unpark_moves s t c⟩

theorem TilesMoved.requestPreempt (s : State) (t entry : Nat) : TilesMoved s (s.requestPreempt t entry) :=
  .tilesDo (fun _ _ => .setTile _ _ _) _ _

theorem TilesMoved.tileRuns (s : State) (t : Nat) : TilesMoved s (s.tileRuns t) := by
  unfold State.tileRuns
  refine .trans ?_ (.setTile _ _ _)
  split
  · exact .tilesDo (fun _ _ => .setTile _ _ _) _ _
  · exact .refl s

/-- What settling a tile can do (R205, R208, R290, R293). -/
theorem settle_cases (s : State) (t : Nat) :
    s.settle t = s
    ∨ (s.wants t = none ∧ s.settle t = s.setTile t { s.tile t with power := .idle })
    ∨ (s.wants t = none ∧ s.settle t = s.tileRuns t)
    ∨ (∃ e, s.settle t = s.requestPreempt t e)
    ∨ (∃ c, s.settle t = (s.unpark t c).setTile t { s.tile t with seq := .restoring, incoming := some c })
    ∨ s.settle t = s.setTile t { s.tile t with
        seq := .saving, saveNs := s.nsField, stops := [], tc := { s.tc t with preIds := none } } := by
  unfold State.settle
  extract_lets x
  split
  · exact .inl rfl
  · cases s.wants t with
    | none =>
      dsimp only
      split_ifs
      · exact .inr (.inl ⟨rfl, rfl⟩)
      · exact .inr (.inl ⟨rfl, rfl⟩)
      · exact .inr (.inr (.inl ⟨rfl, rfl⟩))
      · exact .inl rfl
    | some c =>
      dsimp only
      split
      · exact .inl rfl
      · cases x.ctx with
        | none =>
          dsimp only
          split
          · split
            · split
              · exact .inr (.inr (.inr (.inl ⟨_, rfl⟩)))
              · exact .inl rfl
            · exact .inl rfl
          · exact .inr (.inr (.inr (.inr (.inl ⟨_, rfl⟩))))
        | some d =>
          dsimp only
          split
          · exact .inl rfl
          · split
            · exact .inr (.inr (.inr (.inr (.inr rfl))))
            · split
              · split
                · exact .inr (.inr (.inr (.inl ⟨_, rfl⟩)))
                · exact .inl rfl
              · exact .inl rfl

theorem TilesMoved.settle (s : State) (t : Nat) : TilesMoved s (s.settle t) := by
  obtain h | ⟨_, h⟩ | ⟨_, h⟩ | ⟨_, h⟩ | ⟨_, h⟩ | h := settle_cases s t <;> rw [h]
  · exact .refl s
  · exact .setTile _ _ _
  · exact .tileRuns _ _
  · exact .requestPreempt _ _ _
  · exact (TilesMoved.unpark s t _).trans (.setTile _ _ _)
  · exact .setTile _ _ _

theorem TilesMoved.settleAll (s : State) (ts : List Nat) : TilesMoved s (s.settleAll ts) :=
  .tilesDo (fun u s => .settle s u) s ts

/-! ### The work on the tiles stays -/

/-- Every tile keeps its power state and the context state it holds, but for the IDs that a save keeps. -/
def SameWork (s u : State) : Prop :=
  ∀ j, (u.tile j).power = (s.tile j).power ∧ u.tc j = { s.tc j with preIds := (u.tc j).preIds }

theorem SameWork.of_tiles {s u : State} (h : u.tiles = s.tiles) : SameWork s u := by
  intro j
  have e : u.tile j = s.tile j := by unfold State.tile; rw [h]
  simp only [State.tc, e, and_self]

theorem SameWork.trans {a b c : State} (h : SameWork a b) (k : SameWork b c) : SameWork a c := fun j =>
  ⟨(k j).1.trans (h j).1, by rw [(k j).2, (h j).2]⟩

theorem SameWork.setTile (s : State) (t : Nat) {x : Tile} (hp : x.power = (s.tile t).power)
    (hc : x.tc = { s.tc t with preIds := x.tc.preIds }) : SameWork s (s.setTile t x) := by
  intro j
  by_cases h : j = t
  · subst h
    simp only [State.tc, State.tile_setTile]
    exact ⟨hp, hc⟩
  · simp only [State.tc, State.tile_setTile_ne s x h, and_self]

theorem SameWork.requestPreempt (s : State) (t entry : Nat) : SameWork s (s.requestPreempt t entry) := by
  unfold State.requestPreempt State.tilesDo
  generalize s.gangOn t = ts
  induction ts generalizing s with
  | nil => exact .of_tiles rfl
  | cons u ts ih =>
    refine SameWork.trans (.setTile s u ?_ ?_) (ih _)
    · dsimp only
      split <;> rfl
    · dsimp only
      split <;> rfl

/-- A tile that a context wants is not gated. -/
theorem SameWork.settle {s : State} {t : Nat} (h : s.wants t ≠ none) : SameWork s (s.settle t) := by
  obtain k | ⟨k, _⟩ | ⟨k, _⟩ | ⟨_, k⟩ | ⟨_, k⟩ | k := settle_cases s t
  · exact .of_tiles (by rw [k])
  · exact absurd k h
  · exact absurd k h
  · rw [k]
    exact .requestPreempt _ _ _
  · rw [k]
    have e : ∀ c, (s.unpark t c).tile t = s.tile t := fun c => by unfold State.tile; rw [unpark_tiles]
    refine SameWork.trans (.of_tiles (unpark_tiles s t _)) (.setTile _ _ ?_ ?_)
    · rw [e]
    · simp only [State.tc, e]
  · rw [k]
    exact .setTile _ _ rfl rfl

/-! ## Wakes (R18, R290) -/

theorem tile_tilesDo_modTile (f : Tile → Tile) (s : State) {ts : List Nat} (hn : ts.Nodup) (j : Nat) :
    (s.tilesDo ts (fun u s => s.modTile u f)).tile j = if j ∈ ts then f (s.tile j) else s.tile j := by
  unfold State.tilesDo
  induction ts generalizing s with
  | nil => rfl
  | cons u ts ih =>
    obtain ⟨hu, hn⟩ := List.nodup_cons.1 hn
    rw [List.foldl_cons, ih _ hn]
    unfold State.modTile
    by_cases h : j = u
    · subst h
      rw [if_neg hu, if_pos List.mem_cons_self, State.tile_setTile]
    · rw [State.tile_setTile_ne _ _ h]
      simp only [List.mem_cons, h, false_or]

/-- The tiles of cluster `k`, in order. -/
def clusterTiles (k : Nat) : List Nat := (List.range 8).map (fun i => 8 * k + i)

theorem nodup_clusterTiles (k : Nat) : (clusterTiles k).Nodup :=
  List.nodup_range.map fun _ _ h => Nat.add_left_cancel h

theorem mem_clusterTiles {k j : Nat} : j ∈ clusterTiles k ↔ j / 8 = k := by
  unfold clusterTiles
  rw [List.mem_map]
  constructor
  · rintro ⟨i, hi, rfl⟩
    have := List.mem_range.1 hi
    omega
  · exact fun h => ⟨j % 8, List.mem_range.2 (by omega), by omega⟩

theorem tileRuns_tile (s : State) (t j : Nat) : (s.tileRuns t).tile j =
    if j = t then { s.tile t with power := .run, seq := if (s.tile t).ctx.isSome then .running else (s.tile t).seq }
    else if (s.tile t).power = .nap ∧ j / 8 = t / 8 ∧ (s.tile j).power = .nap then { s.tile j with power := .idle }
    else s.tile j := by
  have hl : (List.range 8).map (fun i => t / 8 * 8 + i) = clusterTiles (t / 8) := by
    simp only [clusterTiles, Nat.mul_comm]
  unfold State.tileRuns
  rw [hl, State.modTile]
  by_cases hp : (s.tile t).power = .nap
  · by_cases h : j = t
    · subst h
      rw [if_pos hp, State.tile_setTile, tile_tilesDo_modTile _ _ (nodup_clusterTiles _),
        if_pos (mem_clusterTiles.2 rfl), if_pos hp, if_pos rfl]
    · rw [if_pos hp, State.tile_setTile_ne _ _ h, tile_tilesDo_modTile _ _ (nodup_clusterTiles _), if_neg h]
      simp only [mem_clusterTiles, hp, true_and, ite_and]
  · rw [if_neg hp]
    by_cases h : j = t
    · subst h
      rw [State.tile_setTile, if_pos rfl]
    · rw [State.tile_setTile_ne _ _ h, if_neg h, if_neg (fun c => hp c.1)]

theorem tileEntry_congr {s u : State} (h : u.dsp.look = s.dsp.look) (t : Nat) : u.tileEntry t = s.tileEntry t := by
  unfold State.tileEntry
  rw [h]

theorem wants_congr {s u : State} (h : u.dsp.look = s.dsp.look) (hb : u.dsp.be = s.dsp.be) (t : Nat) :
    u.wants t = s.wants t := by
  unfold State.wants State.tileBe
  rw [tileEntry_congr h, hb]

/-- `s` with other accounting counters. -/
def State.withAcct (s : State) (a : Tab Acct) : State := { s with dsp := { s.dsp with acct := a } }

theorem acct_eq (s : State) (c : Nat) (f : Acct → Acct) :
    ∃ a, s.acct c f = s.withAcct a := by
  unfold State.acct
  split
  · exact ⟨_, rfl⟩
  · exact ⟨s.dsp.acct, rfl⟩

theorem chargeWake_eq (s : State) (t pj : Nat) :
    ∃ a, s.chargeWake t pj = s.withAcct a := by
  unfold State.chargeWake
  cases s.wants t with
  | some c => exact acct_eq s _ _
  | none => exact ⟨s.dsp.acct, rfl⟩

theorem pfKick_none {s : State} (h : s.dsp.pf = []) : s.pfKick = s := by
  unfold State.pfKick
  rw [h]
  rfl

theorem beginBe_none {s : State} (h : s.dsp.be = []) : s.beginBe = s := by
  unfold State.beginBe
  rw [h]
  rfl

theorem tileRuns_power (s : State) (t j : Nat) : ((s.tileRuns t).tile j).power =
    if j = t then .run
    else if (s.tile t).power = .nap ∧ j / 8 = t / 8 ∧ (s.tile j).power = .nap then .idle else (s.tile j).power := by
  rw [tileRuns_tile]
  split_ifs <;> rfl

theorem tileRuns_tc (s : State) (t j : Nat) : (s.tileRuns t).tc j = s.tc j := by
  unfold State.tc
  rw [tileRuns_tile]
  by_cases h : j = t
  · rw [if_pos h, h]
  · rw [if_neg h]
    split <;> rfl

/-- A tile that waits for its wake reaches RUN (R18, R290). -/
theorem execTileWakeComplete_wakes {s : State} {t : TileNo} (hw : s.wants t.val ≠ none)
    (hp : (s.tile t.val).power = .idle ∨ (s.tile t.val).power = .nap) (hpf : s.dsp.pf = []) (hbe : s.dsp.be = []) :
    ∃ u, execTileWakeComplete t s = .next u ∧ (u.tile t.val).power = .run
      ∧ (∀ j < 32, j ≠ t.val → (u.tile j).power =
          if (s.tile t.val).power = .nap ∧ j / 8 = t.val / 8 ∧ (s.tile j).power = .nap then .idle
          else (s.tile j).power)
      ∧ (∀ j < 32, u.tc j = { s.tc j with preIds := (u.tc j).preIds })
      ∧ u = { s with tiles := u.tiles, saved := u.saved, obs := { s.obs with cmds := u.obs.cmds }
                     dsp := { s.dsp with acct := u.dsp.acct } } := by
  obtain ⟨a, ha⟩ := chargeWake_eq s t.val (if (s.tile t.val).power = .nap then 800000 else 2000)
  have m := (TilesMoved.tileRuns (s.withAcct a) t.val).trans (.settle _ t.val)
  have hw' : ((s.withAcct a).tileRuns t.val).wants t.val ≠ none := by
    have hd : ((s.withAcct a).tileRuns t.val).dsp = (s.withAcct a).dsp := (TilesMoved.tileRuns _ _).dsp
    rwa [wants_congr (s := s) ((congrArg Dsp.look hd).trans rfl) ((congrArg Dsp.be hd).trans rfl)]
  have w := SameWork.settle hw'
  have e : execTileWakeComplete t s = .next (((s.withAcct a).tileRuns t.val).settle t.val) := by
    have hd := m.dsp
    unfold execTileWakeComplete
    dsimp only
    rw [if_neg (by simpa using hw), if_pos hp, ha]
    exact congrArg Host.Outcome.next ((congrArg State.beginBe (pfKick_none ((congrArg Dsp.pf hd).trans hpf))).trans
      (beginBe_none ((congrArg Dsp.be hd).trans hbe)))
  refine ⟨_, e, ?_, fun j _ hj => ?_, fun j _ => ?_, ?_⟩
  · rw [(w _).1, tileRuns_power, if_pos rfl]
  · rw [(w _).1, tileRuns_power, if_neg hj]
    rfl
  · have k := (w j).2
    rwa [tileRuns_tc] at k
  · obtain ⟨_, _, _, e⟩ := m
    rw [e]
    rfl

/-- A tile that nobody wants, or that is not asleep, does not wake. -/
theorem execTileWakeComplete_none {s : State} {t : TileNo}
    (h : s.wants t.val = none ∨ ((s.tile t.val).power ≠ .idle ∧ (s.tile t.val).power ≠ .nap)) :
    execTileWakeComplete t s = .next s := by
  unfold execTileWakeComplete
  dsimp only
  rcases h with h | ⟨hi, hn⟩
  · rw [if_pos (by rw [h]; rfl)]
  · rw [if_neg (not_or.2 ⟨hi, hn⟩), ite_self]

/-! ## Sleep (R293) -/

theorem tilesDo_setTiles {f : Tile → Tile} (s : State) (ts : List Nat) :
    s.tilesDo ts (fun u s => s.modTile u f) = { s with tiles := (s.tilesDo ts (fun u s => s.modTile u f)).tiles } := by
  unfold State.tilesDo
  induction ts generalizing s with
  | nil => rfl
  | cons u ts ih => exact ih _

/-- A cluster whose tiles are all idle with nothing to come enters NAP, and no other does (R293). -/
theorem execClusterNapEntry_iff (s : State) (k : Fin 4) :
    let ts := (List.range 8).map (fun i => 8 * k.val + i)
    let min' := s.rfld (dspA 0x2C) 0 16
    let still := s.phase = .service ∧ min' ≠ 0 ∧ (∀ j ∈ ts, (s.tile j).power = .idle)
      ∧ (∀ j ∈ ts, s.recoveryHolds j = false) ∧ s.beQueued k.val = false ∧ (∀ l ∈ s.loans, l.tile ∉ ts)
      ∧ ∀ e ∈ s.dsp.look, s.entryUses k.val e = true →
        e.state = .pending ∧ s.ns + 8 * e.lead + 1000 * min' ≤ e.slot
    (¬ still → execClusterNapEntry k s = .next s)
    ∧ (still → execClusterNapEntry k s = .next (s.tilesDo ts (fun u s => s.modTile u (fun x =>
        { x with power := .nap })))) := by
  intro ts min' still
  have h : still ↔ s.phase = .service ∧ min' ≠ 0 ∧ ts.all (fun t => (s.tile t).power == .idle) = true
      ∧ ts.all (fun t => !s.recoveryHolds t) = true
      ∧ s.beQueued k.val = false ∧ s.loans.any (fun l => ts.contains l.tile) = false
      ∧ s.dsp.look.any (fun e => s.entryUses k.val e
        && (e.reserves || decide (e.slot < s.ns + 8 * e.lead + 1000 * min'))) = false := by
    simp only [still, List.all_eq_true, List.any_eq_false, beq_iff_eq, Bool.not_eq_true', List.contains_iff_mem,
      LookEntry.reserves, Bool.and_eq_true, Bool.or_eq_true, bne_iff_ne, decide_eq_true_eq, not_and, not_or, not_not,
      not_lt]
  unfold execClusterNapEntry
  exact ⟨fun n => congrArg Host.Outcome.next (if_neg (h.not.1 n)),
    fun y => congrArg Host.Outcome.next (if_pos (h.1 y))⟩

/-! ## Prefetch transfers (R291) -/

/-- The last descriptor of a list that posts nothing: the list leaves. -/
theorem pfNext_last (s : State) {j : PfJob} (h : j.count ≤ j.pos + 1) (hp : j.post = false) :
    s.pfNext j = s.dropPf j := by
  unfold State.pfNext
  rw [if_neg (by omega), hp]
  rfl

theorem poisonedUnits_eq_nil {s : State} {a n : Nat} (h : s.poisoned a n = false) : s.poisonedUnits a n = [] := by
  unfold State.poisoned at h
  unfold State.poisonedUnits
  rw [List.filter_eq_nil_iff]
  intro k hk
  rw [List.any_eq_false] at h
  exact h k hk

/-- A move from bytes without poison is the write of the bytes read. -/
theorem moveBytes_clean {s : State} {src n : Nat} (dst : Nat) (h : s.poisoned src n = false) :
    s.moveBytes src dst n = s.mwrite dst (s.mread src n) := by
  unfold State.moveBytes State.readPoison
  rw [poisonedUnits_eq_nil h]
  rfl

theorem execPrefetch_none {s : State} {c : Fin 64}
    (h : s.dsp.pf.find? (fun j => j.ctx == c.val && s.pfReady j) = none) :
    execPrefetchTransferComplete c s = .next s := by
  unfold execPrefetchTransferComplete
  rw [h]

theorem execPrefetch_remote {s : State} {c : Fin 64} {j : PfJob}
    (h : s.dsp.pf.find? (fun j => j.ctx == c.val && s.pfReady j) = some j) (hr : j.remote = true)
    (hc : j.count ≤ j.pos + 1) (hp : j.post = false) : execPrefetchTransferComplete c s = .next (s.dropPf j) := by
  unfold execPrefetchTransferComplete
  rw [h]
  dsimp only
  rw [if_pos hr, pfNext_last s hc hp]

theorem execPrefetch_local {s : State} {c : Fin 64} {j : PfJob}
    (h : s.dsp.pf.find? (fun j => j.ctx == c.val && s.pfReady j) = some j) (hr : j.remote = false)
    (hb : s.poisoned j.src j.left = false) (hc : j.count ≤ j.pos + 1) (hp : j.post = false) :
    execPrefetchTransferComplete c s = .next ((s.mwrite j.dst (s.mread j.src j.left)).dropPf j) := by
  unfold execPrefetchTransferComplete
  rw [h]
  dsimp only
  rw [if_neg (by rw [hr]; decide), hb, if_neg (by decide), moveBytes_clean j.dst hb, pfNext_last _ hc hp]

/-! ## Event entries (R292) -/

theorem tilesDo_none {f : Nat → State → State} {s : State} (h : ∀ u, f u s = s) (ts : List Nat) :
    s.tilesDo ts f = s := by
  unfold State.tilesDo
  induction ts with
  | nil => rfl
  | cons u ts ih => rw [List.foldl_cons, h, ih]

/-- With no loans and no prefetch list the wake of an entry settles its tiles. -/
theorem wakeTiles_plain {s : State} {e : LookEntry} (hl : s.loans = []) (hp : e.pfl = 0) :
    s.wakeTiles e = s.settleAll e.tiles := by
  have h : ∀ u, s.lentOn u = none := fun u => by
    unfold State.lentOn
    rw [hl]
    rfl
  unfold State.wakeTiles
  dsimp only
  rw [tilesDo_none (fun u => by rw [h]), State.pfBegin, if_pos hp]

/-- An entry as its wake leaves it. -/
def State.woken (s : State) (e : LookEntry) : LookEntry :=
  { e with state := .waking, tiles := s.chooseTiles e, wake := s.dsp.wakes }

/-- The wake of an entry of a ready context changes its place of the lookahead, and settles its tiles (R288-R290). -/
theorem wakeEntry_plain {s : State} {e : LookEntry} (hr : s.notReady e.ctx = none) (hl : s.loans = [])
    (hp : e.pfl = 0) : TilesMoved { s with dsp := { s.dsp with
      look := s.dsp.look.map (fun x => if x == e then s.woken e else x), wakes := s.dsp.wakes + 1 } }
      (s.wakeEntry e) := by
  unfold State.wakeEntry
  rw [hr]
  dsimp only
  split
  · exact .refl _
  · rw [wakeTiles_plain (by exact hl) (by exact hp)]
    exact .settleAll _ _

/-- An entry late by no cycle begins: its place of the lookahead alone changes in the Dispatcher. -/
theorem startEntry_dsp (s : State) (e : LookEntry) : ∃ n, (s.startEntry e 0).dsp = { s.dsp with
    look := s.dsp.look.map (fun x => if x == e then { x with state := .running, heat := n } else x) } := by
  unfold State.startEntry
  dsimp only
  rw [if_pos rfl]
  refine ⟨((s.beginHeat e.ctx e.tiles e.pc e.idx true (e.dur != 0) e.slot).rget (ctxA e.ctx 0x28)).toNat, ?_⟩
  unfold State.modLook
  dsimp only
  rw [beginHeat_dsp]

/-- The lookahead entry that a trigger of event entry `i` makes: its W and S are the trigger cycle (R292). -/
def State.eventEntry (s : State) (i : Nat) : LookEntry :=
  let e := s.tabEntry i
  { idx := i, ctx := e.ctx, evt := true, release := false, pfl := e.pfl, lead := 0, g := e.g
    firstFree := e.firstFree, cluster := e.cluster, tmask := e.tmask, dur := e.dur, pc := e.pc
    base := s.ns, slot := s.ns, state := .pending, tiles := [], pastS := some s.now, heat := 0
    wake := 0 }

/-- What a trigger makes of a good event entry that is not busy: it wakes, or has begun (R292). -/
theorem startEvent_started {s : State} {i : Nat} (hb : s.entryBad (s.tabEntry i) = false)
    (he : (s.tabEntry i).evt = true) (hc : s.ctxBE (s.tabEntry i).ctx = false)
    (hr : s.notReady (s.tabEntry i).ctx = none) (hl : s.loans = []) (hp : (s.tabEntry i).pfl = 0)
    (hfree : ∀ x ∈ s.dsp.look, ¬ (x.idx = i ∧ x.evt = true)) :
    (s.startEvent i).dsp.trig = s.dsp.trig ∧ ∃ l ∈ (s.startEvent i).dsp.look,
      ∃ st ts n, l = { s.eventEntry i with state := st, tiles := ts, heat := n, wake := s.dsp.wakes }
        ∧ (st = .waking ∨ st = .running) := by
  let s1 : State := { s with dsp := { s.dsp with look := s.dsp.look ++ [s.eventEntry i] } }
  let w := s1.woken (s.eventEntry i)
  let s2 := s1.wakeEntry (s.eventEntry i)
  have m : TilesMoved _ s2 := wakeEntry_plain (s := s1) (e := s.eventEntry i) hr hl hp
  have hlook : ∀ x, x ∈ s2.dsp.look ↔ x = w ∨ x ∈ s.dsp.look := by
    have hne : ∀ x ∈ s.dsp.look, (x == s.eventEntry i) = false := fun x hx =>
      beq_eq_false_iff_ne.2 fun h => hfree x hx (by rw [h]; exact ⟨rfl, rfl⟩)
    intro x
    rw [m.dsp]
    simp only [s1, List.map_append, List.map_cons, List.map_nil, beq_self_eq_true, if_true, List.mem_append,
      List.mem_singleton]
    rw [List.map_congr_left (g := id) (fun y hy => by rw [hne y hy]; rfl), List.map_id, or_comm]
  have hfind : s2.dsp.look.find? (fun x => x.idx == i && x.evt && x.state == .waking) = some w := by
    cases hf : s2.dsp.look.find? (fun x => x.idx == i && x.evt && x.state == .waking) with
    | none =>
      have := List.find?_eq_none.1 hf w ((hlook w).2 (.inl rfl))
      exact absurd (by simp [w, State.woken, State.eventEntry]) this
    | some x =>
      rcases (hlook x).1 (List.mem_of_find?_eq_some hf) with h | h
      · rw [h]
      · have hx := List.find?_some hf
        simp only [Bool.and_eq_true, beq_iff_eq] at hx
        exact absurd hx.1 (hfree x h)
  have hs : s.startEvent i = if s2.tilesReady w then s2.wakeDone w else s2 := by
    unfold State.startEvent
    dsimp only
    rw [if_neg (by simp [hb, he]), if_neg (by simp [hc])]
    change (match s2.dsp.look.find? (fun x => x.idx == i && x.evt && x.state == .waking) with
      | some x => if s2.tilesReady x then s2.wakeDone x else s2
      | none => s2) = _
    rw [hfind]
  have ht : s2.dsp.trig = s.dsp.trig := by rw [m.dsp]
  rw [hs]
  split
  · have hd : s2.wakeDone w = s2.startEntry w 0 := by
      show s2.startEntry w (s2.now - s.now) = _
      rw [m.now, Nat.sub_self]
    obtain ⟨n, hn⟩ := startEntry_dsp s2 w
    rw [hd, hn]
    exact ⟨ht, _, List.mem_map_of_mem ((hlook w).2 (.inl rfl)), .running, w.tiles, n, by rw [beq_self_eq_true]; rfl,
      .inr rfl⟩
  · exact ⟨ht, w, (hlook w).2 (.inl rfl), .waking, w.tiles, 0, rfl, .inl rfl⟩

/-- The oldest trigger leaves the list. -/
def State.popTrig (s : State) (rest : List Nat) : State := { s with dsp := { s.dsp with trig := rest } }

theorem execEventTrigger_cons {s : State} {i : Nat} {rest : List Nat} (h : s.dsp.trig = i :: rest) :
    execEventTrigger s = .next (if s.dsp.holdOn || s.phase != .service then s.popTrig rest
      else if s.dsp.look.any (fun e => e.idx == i && e.evt) then
        if s.dsp.heldTrig.contains i then (s.popTrig rest).rcount (dspA 0x44) 0 32 1
        else { s with dsp := { s.dsp with trig := rest, heldTrig := linsert s.dsp.heldTrig i } }
      else (s.popTrig rest).startEvent i) := by
  unfold execEventTrigger
  rw [h]
  rfl

/-- Settles O43: one lemma for each outcome of a trigger, a wake, a NAP entry and a transfer. -/
theorem eventsSleepPrefetch : Obligations.EventsSleepPrefetch := by
  intro s t k c
  refine ⟨fun h => ?_, fun i rest h => ?_, ?_, ?_, ?_⟩
  · show execEventTrigger s = _
    unfold execEventTrigger
    rw [h]
  · intro rests open' busy e
    have hbusy : s.dsp.look.any (fun e => e.idx == i && e.evt) = true ↔ busy := by
      simp only [busy, List.any_eq_true, Bool.and_eq_true, beq_iff_eq]
    have hopen : (s.dsp.holdOn || s.phase != .service) = true ↔ ¬ open' := by
      simp only [open', Bool.or_eq_true, bne_iff_ne, ne_eq, not_and_or, Bool.not_eq_false]
    have hx : exec .eventTrigger s = _ := execEventTrigger_cons h
    refine ⟨fun ho => ?_, fun ho hb hh => ?_, fun ho hb hh => ?_, fun ho hb hbad hevt hbe hr hl hp => ?_⟩
    · rw [hx, if_pos (hopen.2 ho)]
      rfl
    · rw [hx, if_neg (hopen.not.2 (not_not.2 ho)), if_pos (hbusy.2 hb), if_pos (List.contains_iff_mem.2 hh)]
      rfl
    · rw [hx, if_neg (hopen.not.2 (not_not.2 ho)), if_pos (hbusy.2 hb), if_neg (List.contains_iff_mem.not.2 hh)]
    · rw [hx, if_neg (hopen.not.2 (not_not.2 ho)), if_neg (hbusy.not.2 hb)]
      obtain ⟨h1, l, hm, st, ts, n, rfl, hst⟩ := startEvent_started (s := s.popTrig rest) hbad hevt hbe hr hl hp
        (fun x hx hc => hb ⟨x, hx, hc⟩)
      exact ⟨_, rfl, h1, _, hm, rfl, rfl, rfl, rfl, rfl, rfl, rfl, hst⟩
  · exact ⟨execTileWakeComplete_none, execTileWakeComplete_wakes⟩
  · obtain ⟨hno, hyes⟩ := execClusterNapEntry_iff s k
    refine ⟨hno, fun h => ⟨_, hyes h, tilesDo_setTiles s _, fun j => ?_⟩⟩
    exact tile_tilesDo_modTile _ s (nodup_clusterTiles k.val) j
  · have e : (fun j : PfJob => j.ctx == c.val && s.pfReady j) = fun j => j.ctx == c.val && j.started
        && (if j.remote then j.left == 0 && j.outst == 0 else s.pfTileRuns j.dst) := by
      funext j
      exact (Bool.and_assoc _ _ _).symm
    intro ready
    refine ⟨fun h => execPrefetch_none (by rw [e]; exact h), fun j hj => ?_⟩
    rw [show ready = _ from e.symm] at hj
    exact ⟨execPrefetch_remote hj, execPrefetch_local hj⟩

end Sys2Proof.Machine
end

section
/-!
# Writes of control space (O33)

Who may write, what the plain registers take, and what a violation, CLR and a post do: a lemma for each, in terms of
`hostWrite`, which every command that writes one register is.
-/

namespace Sys2Proof.Machine

/-! ## Fields, bits and counters of a register -/

theorem rbit_rfldSet_ne (s : State) (a lo n v i : Nat) (h : i < lo ∨ lo + n ≤ i) :
    (s.rfldSet a lo n v).rbit a i = s.rbit a i := by
  unfold State.rbit State.rfldSet
  rw [rget_rset_self, fbit_fset_ne _ _ _ _ _ h]

theorem rfld_rbitSet_ne (s : State) (a i lo n : Nat) (b : Bool) (h : lo + n ≤ i ∨ i < lo) :
    (s.rbitSet a i b).rfld a lo n = s.rfld a lo n := by
  unfold State.rfld State.rbitSet
  rw [rget_rset_self, fget_fsetBit_ne _ _ _ _ _ h]

/-- A counter field saturates (R456). -/
theorem rfld_rcount_self (s : State) (a lo n k : Nat) (h : lo + n ≤ 32) :
    (s.rcount a lo n k).rfld a lo n = min (s.rfld a lo n + k) (2 ^ n - 1) := by
  have := Nat.two_pow_pos n
  rw [State.rcount, rfld_rfldSet_self _ _ _ _ _ h, satAdd, Nat.mod_eq_of_lt (by omega)]

theorem rfld_whole (s : State) (a : Nat) : s.rfld a 0 32 = (s.rget a).toNat := by
  unfold State.rfld fget bitsOf
  rw [Nat.shiftRight_zero, Nat.mod_eq_of_lt (s.rget a).isLt]

theorem rget_rcount_self (s : State) (a k : Nat) :
    ((s.rcount a 0 32 k).rget a).toNat = min ((s.rget a).toNat + k) 0xFFFFFFFF := by
  rw [← rfld_whole, rfld_rcount_self _ _ _ _ _ (by decide), rfld_whole]
  rfl

/-! ## What a write does to one register (R16) -/

theorem plainWrite_eq_rset {s : State} {a : Nat} {r : RegSpec} {v : Word}
    (h : s.noErrNow a ∨ fbit (v &&& r.w1c) 31 = false) :
    s.plainWrite a r v = s.rset a (plainWord r.rw r.w1c (s.rget a) v) := by
  unfold State.plainWrite
  dsimp only
  rw [show mergeRW r.rw (s.rget a) v &&& ~~~(v &&& r.w1c) = plainWord r.rw r.w1c (s.rget a) v from rfl]
  split
  · next hb =>
    have hn := h.resolve_right (by rw [hb]; decide)
    unfold State.eccCleared
    split
    · next e he => exact if_neg (hn e he)
    · rfl
  · rfl

/-- A write that clears VALID of a capture register in the cycle of an error leaves it set (R343). -/
theorem plainWrite_err {s : State} {a : Nat} {r : RegSpec} {v : Word} {e : Nat × Word × Word}
    (he : tfind s.ue a = some e) (hn : e.1 = s.now) (hb : fbit (v &&& r.w1c) 31 = true) :
    s.plainWrite a r v = (s.rset a (plainWord r.rw r.w1c (s.rget a) v)).eccShow a e.2 := by
  unfold State.plainWrite
  dsimp only
  rw [if_pos hb, State.eccCleared]
  show (match tfind s.ue a with | some e => if e.1 = s.now then _ else _ | none => _) = _
  rw [he]
  exact if_pos hn

theorem fieldWrite_plain (s : State) (boot : Bool) {a : Nat} (r : RegSpec) (v : Word) (h : plainReg a) :
    s.fieldWrite boot a r v = (s.plainWrite a r v, true) := by
  have hd : dspA 0 = 0x00060000 := rfl
  have hc : ctxA 0 0 = 0x00064000 := rfl
  have hm : mshA 0x3000 = 0x00083000 := rfl
  unfold State.fieldWrite
  rcases h with ⟨hlt, hne, _⟩ | ⟨hlo, hhi, hne, hq⟩
  · rw [if_neg hne, if_neg (by omega), if_neg (by omega), if_neg (by omega), if_neg (by omega), if_neg (by omega),
      if_neg (by omega)]
  · have hk : clkHoldA < 0x00060000 := by decide
    rw [if_neg (by omega), if_pos (by omega)]
    unfold State.dspWrite
    rw [if_neg hne, if_neg hq]

/-! ## Who may write (R10, R17, R356, R427) -/

/-- The state of a write that its source may make. -/
theorem hostWrite_of_mayWrite {s : State} {src : Fin 3} {a : Nat} {v : Word} {r : RegSpec} (hr : regSpec a = some r)
    (hl : s.sbLock = true) (hm : s.mayWrite src.val a v = true) (hb : s.regBlocked a = false) :
    s.hostWrite src a v
      = ((if s.violates a r v then s.violation src.val a else s).fieldWrite false a r v).1 := by
  unfold State.hostWrite State.writeReg
  simp only [hr]
  rw [if_neg (by rw [hl]; decide), if_neg (by rw [hm]; decide), if_neg (by rw [hb]; decide)]

theorem hostWrite_of_accepts {s : State} {src : Fin 3} {a : Nat} {v : Word} {r : RegSpec} (h : s.accepts src.val a v)
    (hr : regSpec a = some r) : s.hostWrite src a v = (s.fieldWrite false a r v).1 := by
  obtain ⟨hl, hm, hb, r', hr', hv⟩ := h
  obtain rfl : r' = r := Option.some.inj (hr'.symm.trans hr)
  rw [hostWrite_of_mayWrite hr hl hm hb, if_neg]
  unfold State.violates
  rw [hv]
  decide

theorem hostWrite_refused {s : State} {src : Fin 3} {a : Nat} {v : Word}
    (h : regSpec a = none ∨ s.sbLock = false ∨ s.mayWrite src.val a v = false ∨ s.regBlocked a = true) :
    s.hostWrite src a v = s := by
  unfold State.hostWrite State.writeReg
  cases hr : regSpec a with
  | none => rfl
  | some r =>
    dsimp only
    split
    · rfl
    · next h1 =>
      split
      · rfl
      · next h2 =>
        split
        · rfl
        · next h3 => simp [hr, h1, h2, h3] at h

theorem mayWrite_loop (s : State) (src : Nat) {n off : Nat} (hn : n < 1024) (ho : off < 256) (v : Word) :
    s.mayWrite src (loopA n off) v = (!(src == 2) && s.rbit (netA src 0x04) (s.rfld (loopA n 0x18) 0 4)) := by
  have e : (loopA n off - 0x100000) / 0x100 = n := by unfold loopA; omega
  unfold State.mayWrite State.writeRight
  dsimp only
  rw [if_pos (by unfold loopA; omega), e]
  rfl

theorem mayWrite_dev (s : State) (src : Nat) {a : Nat} (h : a < 0x00060000) (v : Word) :
    s.mayWrite src a v = if src == 2 then s.sbLock && s.rbit 0x24 30 else s.rbit (netA src 0x04) 31 := by
  have hd : dspA 0 = 0x00060000 := rfl
  have hc : ctxA 0 0 = 0x00064000 := rfl
  have hp : partA 0 0 = 0x00061000 := rfl
  have hg : genA 0 0 = 0x00141000 := rfl
  have hb : prbA 0 0 = 0x00142000 := rfl
  unfold State.mayWrite State.writeRight
  dsimp only
  rw [if_neg (by omega), if_neg (by omega), if_neg (by omega), if_neg (by omega), if_neg (by omega), if_neg (by omega),
    if_neg (by omega), if_neg (by omega)]
  rfl

/-! ## A lock violation (R17) -/

/-- `t` is `s` with other registers. -/
def CtlMoved (s t : State) : Prop := ∃ c, t = { s with ctl := c }

theorem CtlMoved.refl (s : State) : CtlMoved s s := ⟨s.ctl, rfl⟩

theorem CtlMoved.rset {s t : State} (h : CtlMoved s t) (a : Nat) (v : Word) : CtlMoved s (t.rset a v) := by
  obtain ⟨_, rfl⟩ := h
  exact ⟨_, rfl⟩

theorem CtlMoved.eq {s t : State} (h : CtlMoved s t) : t = { s with ctl := t.ctl } := by
  obtain ⟨_, rfl⟩ := h
  rfl

theorem violation_moved (s : State) (src a : Nat) : CtlMoved s (s.violation src a) :=
  ((((CtlMoved.refl s).rset _ _).rset _ _).rset _ _).rset _ _

theorem rget_violation_ne (s : State) (src a : Nat) {b : Nat} (h1 : b ≠ 0x10) (h2 : b ≠ 0x14) :
    (s.violation src a).rget b = s.rget b := by
  unfold State.violation
  rw [rget_rset_ne _ _ h2, rget_rcount_ne _ _ _ _ h1, rget_rfldSet_ne _ _ _ _ h1, rget_rbitSet_ne _ _ _ h1]

/-- A register with BL fields is not one of the violation's own. -/
theorem ne_viol_of_bl {a : Nat} {r : RegSpec} (hr : regSpec a = some r) (h : r.bl ≠ 0) : a ≠ 0x10 ∧ a ≠ 0x14 := by
  constructor
  · rintro rfl
    cases hr
    exact h rfl
  · rintro rfl
    cases hr
    exact h rfl

/-- The record of a violation (R17, R431). -/
theorem violation_record (s : State) {src : Nat} (hs : src < 4) (a : Nat) :
    (s.violation src a).rbit 0x10 31 = true ∧ (s.violation src a).rfld 0x10 28 2 = src
      ∧ (s.violation src a).rfld 0x10 0 16 = min (s.rfld 0x10 0 16 + 1) 65535
      ∧ (s.violation src a).rget 0x14 = BitVec.ofNat 32 a := by
  have e : ∀ x : State, (x.rset 0x14 (BitVec.ofNat 32 a)).rget 0x10 = x.rget 0x10 := fun x =>
    rget_rset_ne _ _ (by decide)
  rw [State.violation]
  refine ⟨(rbit_congr (e _) _).trans ?_, (rfld_congr (e _) _ _).trans ?_, (rfld_congr (e _) _ _).trans ?_,
    rget_rset_self _ _ _⟩
  · rw [State.rcount, rbit_rfldSet_ne _ _ _ _ _ _ (by decide), rbit_rfldSet_ne _ _ _ _ _ _ (by decide),
      rbit_rbitSet_self _ _ _ _ (by decide)]
  · rw [State.rcount, rfld_rfldSet_ne _ _ _ _ _ _ _ (by decide), rfld_rfldSet_self _ _ _ _ _ (by decide)]
    omega
  · rw [rfld_rcount_self _ _ _ _ _ (by decide), rfld_rfldSet_ne _ _ _ _ _ _ _ (by decide),
      rfld_rbitSet_ne _ _ _ _ _ _ (by decide)]
    rfl

/-- A write that would change a BL field is recorded and changes the other fields only (R17). -/
theorem hostWrite_violates {s : State} {src : Fin 3} {a : Nat} {v : Word} {r : RegSpec} (hp : plainReg a)
    (hn : s.noErrNow a) (hr : regSpec a = some r) (hl : s.sbLock = true) (hm : s.mayWrite src.val a v = true)
    (hb : s.regBlocked a = false) (hv : (s.rget a ^^^ v) &&& r.bl ≠ 0) :
    s.hostWrite src a v
      = (s.violation src.val a).rset a (plainWord r.rw r.w1c ((s.violation src.val a).rget a) v) := by
  have h : s.violates a r v = true := bne_iff_ne.2 hv
  rw [hostWrite_of_mayWrite hr hl hm hb, if_pos h, fieldWrite_plain _ _ _ _ hp]
  have hn' : (s.violation src.val a).noErrNow a := by
    obtain ⟨_, e⟩ := violation_moved s src.val a
    rw [e]
    exact hn
  exact plainWrite_eq_rset (.inl hn')

/-- A violation and the write of the other fields (R17, R431): what the registers read. -/
theorem violation_write_view (s : State) {src a : Nat} (hs : src < 4) {r : RegSpec} (hr : regSpec a = some r)
    (hbl : r.bl ≠ 0) (v : Word) :
    let x := s.violation src a
    let t := x.rset a (plainWord r.rw r.w1c (x.rget a) v)
    t = { s with ctl := t.ctl } ∧ t.rbit 0x10 31 = true ∧ t.rfld 0x10 28 2 = src
      ∧ t.rfld 0x10 0 16 = min (s.rfld 0x10 0 16 + 1) 65535 ∧ t.rget 0x14 = BitVec.ofNat 32 a
      ∧ t.rget a = plainWord r.rw r.w1c (s.rget a) v
      ∧ ∀ b, b ≠ a → b ≠ 0x10 → b ≠ 0x14 → t.rget b = s.rget b := by
  intro x t
  obtain ⟨n1, n2⟩ := ne_viol_of_bl hr hbl
  obtain ⟨h1, h2, h3, h4⟩ := violation_record s hs a
  have e : ∀ b, b ≠ a → t.rget b = x.rget b := fun b hb => rget_rset_ne _ _ hb
  refine ⟨((violation_moved _ _ _).rset _ _).eq, ?_, ?_, ?_, ?_, ?_, fun b hb h10 h14 => ?_⟩
  · rw [rbit_congr (e _ n1.symm), h1]
  · rw [rfld_congr (e _ n1.symm), h2]
  · rw [rfld_congr (e _ n1.symm), h3]
  · rw [e _ n2.symm, h4]
  · rw [rget_rset_self, rget_violation_ne _ _ _ n1 n2]
  · rw [e _ hb, rget_violation_ne _ _ _ h10 h14]

/-! ## MSH_OBS_CTRL.CLR (R456) -/

/-- A register of a counter block. -/
def isCounter (a : Nat) : Bool := (decide (mshA 0x1000 ≤ a) && decide (a < mshA 0x2600))
  || (decide (0x01000000 ≤ a) && decide (a < 0x01200000) && decide (0x6000 ≤ a % 0x10000))

theorem tget_filter {α : Type} (d : α) (t : Tab α) (f : Nat → Bool) (a : Nat) :
    tget d (t.filter (fun e => f e.1)) a = if f a then tget d t a else d := by
  induction t with
  | nil => exact (ite_self d).symm
  | cons p t ih =>
    obtain ⟨k, w⟩ := p
    by_cases hk : f k = true
    · rw [List.filter_cons_of_pos (by exact hk), tget_cons, tget_cons, ih]
      by_cases ha : k = a
      · rw [if_pos ha, if_pos ha, ← ha, if_pos hk]
      · rw [if_neg ha, if_neg ha]
    · rw [List.filter_cons_of_neg (by exact hk), ih, tget_cons]
      by_cases ha : k = a
      · rw [← ha, if_neg hk, if_neg hk]
      · rw [if_neg ha]

theorem tget_mapSnd {α β : Type} (d : α) (e : β) (f : α → β) (hf : f d = e) (t : Tab α) (a : Nat) :
    tget e (t.map (fun p => (p.1, f p.2))) a = f (tget d t a) := by
  induction t with
  | nil => exact hf.symm
  | cons p t ih =>
    obtain ⟨k, w⟩ := p
    rw [List.map_cons, tget_cons, tget_cons, ih]
    split <;> rfl

theorem rget_clearCounters (s : State) (a : Nat) :
    s.clearCounters.rget a = if isCounter a then regReset a else s.rget a := by
  show tget (regReset a) (s.ctl.filter (fun e => !isCounter e.1)) a = _
  rw [tget_filter _ _ (fun a => !isCounter a)]
  unfold State.rget
  cases isCounter a <;> rfl

/-- A command in progress whose counts have cleared. -/
def UnitCmd.cleared (x : UnitCmd) : UnitCmd := { x with busy := 0, stall := 0, why := [] }

theorem cmds_clearCounters (s : State) (k u : Nat) : s.clearCounters.cmds k u
    = ((s.cmds k u).filter UnitCmd.active).map UnitCmd.cleared :=
  tget_mapSnd [] [] (fun l => (l.filter UnitCmd.active).map UnitCmd.cleared) rfl s.obs.cmds (16 * k + u)

theorem specCnt_reset {o : Nat} {r : RegSpec} (h : specCnt o = some r) : r.reset = 0 := by
  unfold specCnt at h
  split at h
  · cases h; rfl
  · split at h <;> cases h; rfl

/-- The counter registers of a tile's units reset to 0. -/
theorem regReset_unitCnt {k u b : Nat} (hk : k < 32) (hu : u < 9) (hb : b < 0x100) :
    isCounter (cntA k u + b) = true ∧ regReset (cntA k u + b) = 0 := by
  have e : cntA k u = 0x01000000 + k * 0x10000 + (0x6000 + 0x100 * u) := rfl
  generalize cntA k u = c at e
  constructor
  · have h : 0x01000000 ≤ c + b ∧ c + b < 0x01200000 ∧ 0x6000 ≤ (c + b) % 0x10000 := by omega
    simp [isCounter, h]
  · unfold regReset
    by_cases h4 : (c + b) % 4 = 0
    · rw [regSpec_tile (by omega) h4, show (c + b) % 0x10000 = 0x6000 + 0x100 * u + b by omega]
      clear e h4
      simp (disch := omega) only [specTile, if_neg, if_pos]
      split
      · next r hr => exact specCnt_reset hr
      · rfl
    · simp [regSpec, h4]

theorem plainWord_zero (m old v : Word) : plainWord m 0 old v = mergeRW m old v := by
  unfold plainWord mergeRW
  rw [show ~~~(v &&& (0 : Word)) = BitVec.allOnes 32 by simp, BitVec.and_allOnes]

/-- CLR is no field of the word kept. -/
theorem mergeRW_clr (old v : Word) : mergeRW 0xFFFFC0FF old (v ||| 0x2000) = mergeRW 0xFFFFC0FF old v := by
  unfold mergeRW
  rw [BitVec.and_or_distrib_right, show (0x2000 : Word) &&& 0xFFFFC0FF = 0#32 from rfl, BitVec.or_zero]

theorem fieldWrite_obsCtrl (s : State) (r : RegSpec) (v : Word) :
    s.fieldWrite false (mshA 0x3000) r v = s.obsCtrlWrite r v := by
  unfold State.fieldWrite State.mshWrite
  rw [if_neg (by decide), if_neg (by decide), if_pos (by decide), if_pos rfl]

theorem codeRefused_obsCtrl {w : Word} (h1 : fget w 0 8 ≠ 0)
    (h2 : fget w 14 5 = 0 ∨ 10 ≤ fget w 14 5 ∧ fget w 14 5 ≤ 20) :
    codeRefused (mshA 0x3000) w = false := by
  have e : codeRefused (mshA 0x3000) w
      = (fget w 0 8 == 0 || (fget w 14 5 != 0 && (decide (fget w 14 5 < 10) || decide (20 < fget w 14 5)))) := by
    unfold codeRefused
    simp (decide := true) only [if_neg, if_pos]
  rw [e]
  simp only [Bool.or_eq_false_iff, Bool.and_eq_false_iff, beq_eq_false_iff_ne, bne_eq_false_iff_eq,
    decide_eq_false_iff_not]
  omega

/-- MSH_OBS_CTRL's access codes (R476). -/
def obsCtrlSpec : RegSpec := ⟨0xFFFFC0FF, 0, 0x00002000, 0, 0, 0x64⟩

theorem obsCtrlWrite_clr {s : State} {v w : Word} (hw : w = mergeRW 0xFFFFC0FF (s.rget (mshA 0x3000)) v)
    (hv : fbit v 13 = true) (hc : codeRefused (mshA 0x3000) w = false) :
    s.obsCtrlWrite obsCtrlSpec v = ((s.rset (mshA 0x3000) w).clearCounters, true) := by
  have hp : s.plainWrite (mshA 0x3000) obsCtrlSpec v = s.rset (mshA 0x3000) w := by
    rw [hw, ← plainWord_zero]
    exact plainWrite_eq_rset (.inr (by simp [fbit, obsCtrlSpec]))
  unfold State.obsCtrlWrite
  rw [hp, if_neg]
  · dsimp only
    rw [if_pos hv]
  rw [show obsCtrlSpec.rw = 0xFFFFC0FF from rfl, ← hw, hc]
  exact Bool.false_ne_true

/-- CLR (R456, R476): the fields are written and every counter clears. -/
theorem hostWrite_clr {s : State} {src : Fin 3} {v w : Word} (h : s.accepts src.val (mshA 0x3000) (v ||| 0x2000))
    (hw : w = plainWord 0xFFFFC0FF 0 (s.rget (mshA 0x3000)) v) (h1 : fget w 0 8 ≠ 0)
    (h2 : fget w 14 5 = 0 ∨ 10 ≤ fget w 14 5 ∧ fget w 14 5 ≤ 20) :
    s.hostWrite src (mshA 0x3000) (v ||| 0x2000) = (s.rset (mshA 0x3000) w).clearCounters := by
  have hr : regSpec (mshA 0x3000) = some obsCtrlSpec := rfl
  rw [plainWord_zero, ← mergeRW_clr] at hw
  have hv : fbit (v ||| 0x2000) 13 = true := by
    rw [fbit, BitVec.getLsbD_or, show (0x2000 : Word).getLsbD 13 = true from rfl, Bool.or_true]
  rw [hostWrite_of_accepts h hr, fieldWrite_obsCtrl, obsCtrlWrite_clr hw hv (codeRefused_obsCtrl h1 h2)]

/-! ## Posts (R306, R307, R311) -/

theorem countSat_iff (x y : Word) : countSat x.toNat y.toNat = true ↔ (x - y).toNat < 2 ^ 31 := by
  have := x.isLt
  have := y.isLt
  rw [countSat, decide_eq_true_eq, BitVec.toNat_sub]
  omega

theorem batonReg_ne {b c : Nat} {o p : Nat} (ho : o < 16) (hp : p < 16) (h : o ≠ p) : batonA b o ≠ batonA c p := by
  unfold batonA
  omega

/-- A write of COUNT leaves the baton's configuration. -/
theorem batonSem_rset_count (s : State) (b : Nat) (v : Word) : (s.rset (batonA b 0) v).batonSem b = s.batonSem b :=
  rbit_congr (rget_rset_ne _ _ (batonReg_ne (by decide) (by decide) (by decide))) _

theorem serveCount_none {s : State} {b : Nat} (h : ∀ w ∈ s.waits, w.baton ≠ b) : s.serveCount b = s := by
  have hs : ∀ w ∈ s.waits, (w.baton == b && countSat (s.batonCount b) w.arg) = false := fun w hw => by
    rw [beq_eq_false_iff_ne.2 (h w hw), Bool.false_and]
  have e1 := List.filter_eq_self.2 (fun w hw => (congrArg not (hs w hw) : _ = true))
  have e2 := List.filter_eq_nil_iff.2 (fun w hw => Bool.eq_false_iff.1 (hs w hw))
  unfold State.serveCount
  dsimp only
  rw [e1, e2]
  rfl

theorem releaseWait_tile (s : State) {w : BWait} {k : Nat} (hk : w.src = .tile k) :
    s.releaseWait w = s.setTc k { s.tc k with hold := .none } := by
  unfold State.releaseWait
  rw [hk]
  rfl

theorem serveCount_one {s : State} {b k : Nat} {w : BWait} (hw : s.waits = [w]) (hb : w.baton = b)
    (hk : w.src = .tile k) (hs : countSat (s.batonCount b) w.arg = true) :
    s.serveCount b = ({ s with waits := [] } : State).setTc k { s.tc k with hold := .none } := by
  unfold State.serveCount
  simp only [hw, hb, hs, beq_self_eq_true, Bool.and_self, List.filter_cons, List.filter_nil, if_true, Bool.not_true]
  exact releaseWait_tile _ hk

theorem serveSem_none {s : State} {b : Nat} (h : ∀ w ∈ s.waits, w.baton ≠ b) (n : Nat) : s.serveSem b n = s := by
  cases n with
  | zero => rfl
  | succ n =>
    unfold State.serveSem
    rw [List.find?_eq_none.2 (fun w hw => by rw [beq_iff_eq]; exact h w hw)]

theorem serveSem_one {s : State} {b k n : Nat} {w : BWait} (hw : s.waits = [w]) (hb : w.baton = b)
    (hk : w.src = .tile k) (ha : w.arg ≤ s.batonCount b) :
    s.serveSem b (n + 1) = ({ s.rset (batonA b 0) (BitVec.ofNat 32 (s.batonCount b - w.arg)) with waits := [] }
      : State).setTc k { s.tc k with hold := .none } := by
  have hf : s.waits.find? (fun w => w.baton == b) = some w := by
    rw [hw, List.find?_cons_of_pos (by exact beq_iff_eq.2 hb)]
  have he : s.waits.erase w = [] := by rw [hw, List.erase_cons_head]
  unfold State.serveSem
  simp only [hf]
  rw [if_pos ha, State.rset_waits, he, releaseWait_tile _ hk]
  exact serveSem_none (fun _ h => by cases h) n

/-- A post of `arg` counted, its waiters not yet served (R306, R307). -/
def State.counted (s : State) (b arg : Nat) : State :=
  let sum := s.batonCount b + arg
  if s.batonSem b then
    if 2 ^ 32 ≤ sum then (s.rset (batonA b 0) 0xFFFFFFFF).rbitSet (batonA b 4) 16 true
    else s.rset (batonA b 0) (BitVec.ofNat 32 sum)
  else s.rset (batonA b 0) (BitVec.ofNat 32 sum)

/-- A post on a local baton that fires no event. -/
theorem postLocal_quiet {s : State} {b : Nat} (he : s.batonEvt b = false) (arg : Nat) :
    s.postLocal b arg = (s.counted b arg).serveBaton b := by
  unfold State.postLocal
  dsimp only
  rw [he]
  exact if_neg Bool.false_ne_true

theorem counted_count {s : State} {b : Nat} (hs : s.batonSem b = false) (v : Word) :
    s.counted b v.toNat = s.rset (batonA b 0) (s.rget (batonA b 0) + v) := by
  unfold State.counted
  rw [hs, if_neg Bool.false_ne_true]
  rfl

theorem counted_sem {s : State} {b : Nat} (hs : s.batonSem b = true) {arg : Nat} (h : s.batonCount b + arg < 2 ^ 32) :
    s.counted b arg = s.rset (batonA b 0) (BitVec.ofNat 32 (s.batonCount b + arg)) := by
  unfold State.counted
  rw [hs, if_pos rfl]
  exact if_neg (Nat.not_le.2 h)

theorem counted_full {s : State} {b : Nat} (hs : s.batonSem b = true) {arg : Nat} (h : 2 ^ 32 ≤ s.batonCount b + arg) :
    s.counted b arg = (s.rset (batonA b 0) 0xFFFFFFFF).rbitSet (batonA b 4) 16 true := by
  unfold State.counted
  rw [hs, if_pos rfl]
  exact if_pos h

theorem counted_batonSem (s : State) (b arg : Nat) : (s.counted b arg).batonSem b = s.batonSem b := by
  unfold State.counted
  dsimp only
  split_ifs
  · exact (rbit_rbitSet_ne _ _ _ _ _ (by decide)).trans (batonSem_rset_count s b _)
  · exact batonSem_rset_count s b _
  · exact batonSem_rset_count s b _

theorem counted_waits (s : State) (b arg : Nat) : (s.counted b arg).waits = s.waits := by
  unfold State.counted
  dsimp only
  split_ifs <;> rfl

theorem counted_tc (s : State) (b arg t : Nat) : (s.counted b arg).tc t = s.tc t := by
  unfold State.counted
  dsimp only
  split_ifs <;> rfl

/-- With no waiter on the baton a post only counts. -/
theorem serveBaton_none {s : State} {b : Nat} (h : ∀ w ∈ s.waits, w.baton ≠ b) : s.serveBaton b = s := by
  unfold State.serveBaton
  rw [serveSem_none h, serveCount_none h, ite_self]

/-- A write of a POST word (R311). -/
theorem hostWrite_post {s : State} {src : Fin 3} {b : Nat} (hb : b < 32768) {v : Word}
    (h : s.accepts src.val (batonA b 12) v) :
    s.hostWrite src (batonA b 12) v = if s.batonEn b then s.postHost b v.toNat else s := by
  have e : batonA b 12 = 0x03000000 + 16 * b + 12 := rfl
  obtain ⟨r, hr⟩ : ∃ r, regSpec (batonA b 12) = some r := by
    obtain ⟨_, _, _, r, hr, _⟩ := h
    exact ⟨r, hr⟩
  rw [hostWrite_of_accepts h hr]
  generalize batonA b 12 = a at e
  have eb : (a - 0x03000000) / 16 = b := by omega
  have hk : clkHoldA < 0x03000000 := by decide
  have hd : mshA 0x6000 < 0x03000000 := by decide
  unfold State.fieldWrite
  rw [if_neg (by omega), if_neg (by omega), if_neg (by omega), if_neg (by omega), if_neg (by omega), if_neg (by omega),
    if_pos (by omega), eb]
  unfold State.postWrite
  split <;> rfl

theorem hostWrite_post_local {s : State} {src : Fin 3} {b : Nat} (hb : b < 32768) {v : Word}
    (h : s.accepts src.val (batonA b 12) v) (he : s.batonEn b = true) (hp : s.batonProxy b = false)
    (hv : s.batonEvt b = false) : s.hostWrite src (batonA b 12) v = (s.counted b v.toNat).serveBaton b := by
  rw [hostWrite_post hb h, if_pos he, State.postHost, hp, if_neg Bool.false_ne_true, postLocal_quiet hv]

theorem post_none {s : State} {b : Nat} (h : ∀ w ∈ s.waits, w.baton ≠ b) (arg : Nat) :
    (s.counted b arg).serveBaton b = s.counted b arg :=
  serveBaton_none (by rwa [counted_waits])

theorem post_count_one {s : State} {b k : Nat} {w : BWait} {v : Word} (hw : s.waits = [w]) (hb : w.baton = b)
    (hk : w.src = .tile k) (ha : w.arg < 2 ^ 32) (hs : s.batonSem b = false)
    (hc : (s.rget (batonA b 0) + v - BitVec.ofNat 32 w.arg).toNat < 2 ^ 31) :
    (s.counted b v.toNat).serveBaton b = ({ s.rset (batonA b 0) (s.rget (batonA b 0) + v) with waits := [] }
      : State).setTc k { s.tc k with hold := .none } := by
  have hsat : countSat ((s.counted b v.toNat).batonCount b) w.arg = true := by
    have h := (countSat_iff _ _).2 hc
    rw [BitVec.toNat_ofNat, Nat.mod_eq_of_lt ha] at h
    rwa [State.batonCount, counted_count hs, rget_rset_self]
  unfold State.serveBaton
  rw [counted_batonSem, hs, if_neg Bool.false_ne_true,
    serveCount_one ((counted_waits s b _).trans hw) hb hk hsat, counted_tc, counted_count hs]

theorem post_sem_one {s : State} {b k : Nat} {w : BWait} {v : Word} (hw : s.waits = [w]) (hb : w.baton = b)
    (hk : w.src = .tile k) (hs : s.batonSem b = true) (ha : w.arg ≤ (s.rget (batonA b 0)).toNat + v.toNat)
    (hc : (s.rget (batonA b 0)).toNat + v.toNat < 2 ^ 32) :
    ∃ t, (s.counted b v.toNat).serveBaton b = t
      ∧ (t.rget (batonA b 0)).toNat = (s.rget (batonA b 0)).toNat + v.toNat - w.arg ∧ OnlyReg s t (batonA b 0)
      ∧ t = ({ s with ctl := t.ctl, waits := [] } : State).setTc k { s.tc k with hold := .none } := by
  let sum := (s.rget (batonA b 0)).toNat + v.toNat
  have hsum : s.counted b v.toNat = s.rset (batonA b 0) (BitVec.ofNat 32 sum) := counted_sem hs hc
  have hcnt : (s.counted b v.toNat).batonCount b = sum := by
    rw [hsum, State.batonCount, rget_rset_self, BitVec.toNat_ofNat, Nat.mod_eq_of_lt hc]
  refine ⟨_, rfl, ?_⟩
  unfold State.serveBaton
  rw [counted_batonSem, hs, if_pos rfl, serveSem_one ((counted_waits s b _).trans hw) hb hk (by rw [hcnt]; exact ha),
    hcnt, counted_tc, hsum]
  refine ⟨?_, fun a hne => ?_, rfl⟩
  · show ((State.rset _ _ _).rget _).toNat = _
    rw [rget_rset_self, BitVec.toNat_ofNat, Nat.mod_eq_of_lt (by omega)]
  · show (State.rset _ _ _).rget _ = _
    rw [rget_rset_ne _ _ hne, rget_rset_ne _ _ hne]

/-! ## Registers with rules of their own -/

/-- An error of the cycle shows in its capture register (R343, R345). -/
theorem eccShow_view (s : State) (a : Nat) (w : Word × Word) :
    s.eccShow a w = { s with ctl := (s.eccShow a w).ctl } ∧ (s.eccShow a w).rget a = w.1
      ∧ (a = memA 0x24 → (s.eccShow a w).rget (memA 0x20) = w.2)
      ∧ ∀ b, b ≠ a → (a = memA 0x24 → b ≠ memA 0x20) → (s.eccShow a w).rget b = s.rget b := by
  unfold State.eccShow
  refine ⟨CtlMoved.eq (CtlMoved.rset ?_ _ _), rget_rset_self _ _ _, fun h => ?_, fun b hb hm => ?_⟩
  · split
    · exact (CtlMoved.refl s).rset _ _
    · exact .refl s
  · rw [h, if_pos rfl, rget_rset_ne _ _ (by decide), rget_rset_self]
  · rw [rget_rset_ne _ _ hb]
    split
    · next h => exact rget_rset_ne _ _ (hm h)
    · rfl

theorem clearCounters_rset (s : State) (a : Nat) (w : Word) : (s.rset a w).clearCounters
    = { s with ctl := (s.rset a w).clearCounters.ctl
               obs := { s.obs with cnt := [], cmds := (s.rset a w).clearCounters.obs.cmds } } := rfl

theorem isCounter_eq_false {b : Nat} (h1 : b < 0x01000000 ∨ 0x01200000 ≤ b) (h2 : b < mshA 0x1000 ∨ mshA 0x2600 ≤ b) :
    isCounter b = false := by
  simp only [isCounter, Bool.or_eq_false_iff, Bool.and_eq_false_iff, decide_eq_false_iff_not, Nat.not_le, Nat.not_lt]
  exact ⟨h2, .inl h1⟩

/-- Settles O33: who may write (`hostWrite_refused`), what a register takes (`plainWrite_eq_rset`), what a violation
leaves (`hostWrite_violates`), and the registers with rules of their own. -/
theorem controlSpaceWrites : Obligations.ControlSpaceWrites := by
  intro s src addr v a c
  have hc : exec c s = .next (s.hostWrite src a v) := rfl
  have refused : ∀ h, exec c s = .next s := fun h => hc.trans (congrArg Host.Outcome.next (hostWrite_refused h))
  refine ⟨refused, fun n hn off ho ha hp => refused (.inr (.inr (.inl ?_))),
    fun ha hp hj => refused (.inr (.inr (.inl ?_))), fun r hp hn h hr => ?_, fun r e hp he hnow h hr hbit => ?_, fun r hp hn hr hl hm hb hv => ?_, fun h => ?_, ?_,
    fun b h => ?_⟩
  · rw [ha, mayWrite_loop s _ hn ho]
    rcases hp with hp | hp
    · rw [hp]
      rfl
    · rw [hp, Bool.and_false]
  · rw [mayWrite_dev s _ ha]
    by_cases h2 : src.val = 2
    · rw [h2, hj h2, Bool.and_false]
      rfl
    · rw [if_neg (by simpa using h2)]
      exact hp (by omega)
  · rw [hc, hostWrite_of_accepts h hr, fieldWrite_plain _ _ _ _ hp]
    exact congrArg Host.Outcome.next (plainWrite_eq_rset (.inl hn))
  · have hb : fbit (v &&& r.w1c) 31 = true := by rwa [BitVec.and_comm] at hbit
    obtain ⟨h1, h2, h3, h4⟩ := eccShow_view (s.rset a (plainWord r.rw r.w1c (s.rget a) v)) a e.2
    rw [hc, hostWrite_of_accepts h hr, fieldWrite_plain _ _ _ _ hp, plainWrite_err he hnow hb]
    exact ⟨_, rfl, h1, h2, h3, fun b hb hm => (h4 b hb hm).trans (rget_rset_ne _ _ hb)⟩
  · rw [hc, hostWrite_violates hp hn hr hl hm hb hv]
    obtain ⟨h0, h1, h2, h3, h4, h5, h6⟩ := violation_write_view s (src := src.val) (by omega) hr
      (fun h0 => hv (by rw [h0]; exact BitVec.and_zero)) v
    exact ⟨_, rfl, h0, h1, h2, h3, h4.trans ((BitVec.ofNat_toNat _ _).trans (BitVec.setWidth_eq _)), h5, h6⟩
  · have hp : plainReg (splA 0x00) := .inl ⟨by decide, by decide, by decide⟩
    have hr : regSpec (splA 0x00) = some (regRW 0x80000000) := rfl
    show Host.Outcome.next (s.hostWrite src (splA 0x00) v) = _
    rw [hostWrite_of_accepts h hr, fieldWrite_plain _ _ _ _ hp]
    exact congrArg Host.Outcome.next (plainWrite_eq_rset (.inr (by simp [fbit, regRW])))
  · intro o w h h1 h2
    have e : exec (.obsCounterClear src v) s = .next (s.rset o w).clearCounters :=
      congrArg Host.Outcome.next (hostWrite_clr h rfl h1 h2)
    refine ⟨_, e, ?_, clearCounters_rset _ _ _, fun k u => cmds_clearCounters _ k u,
      fun k hk u hu b hb => ?_, fun b hb1 hb2 hne => ?_⟩
    · rw [rget_clearCounters, if_neg (by decide), rget_rset_self]
    · obtain ⟨hi, h0⟩ := regReset_unitCnt hk hu hb
      rw [rget_clearCounters, if_pos hi, h0]
    · rw [rget_clearCounters, isCounter_eq_false hb1 hb2, if_neg Bool.false_ne_true, rget_rset_ne _ _ hne]
  · intro count put
    have hx : exec (.post src b v) s = .next (s.hostWrite src (batonA b.val 12) v) := rfl
    refine ⟨fun he => ?_, fun he hpx hev => ?_⟩
    · rw [hx, hostWrite_post b.isLt h, he]
      rfl
    · rw [hx, hostWrite_post_local b.isLt h he hpx hev]
      refine ⟨fun hs hw => ?_, fun hs hw => ?_, fun w k hw hb hk ha hs hlt => ?_, fun w k hw hb hk hs ha hlt => ?_⟩
      · rw [post_none hw, counted_count hs]
      · rw [post_none hw]
        split
        · next hlt => 
          rw [counted_sem hs hlt]
          rfl
        · next hge => rw [counted_full hs (Nat.not_lt.1 hge)]
      · rw [post_count_one hw hb hk ha hs hlt]
      · obtain ⟨t, ht, h⟩ := post_sem_one hw hb hk hs ha hlt
        exact ⟨t, congrArg Host.Outcome.next ht, h⟩

end Sys2Proof.Machine
end

section
/-!
# Sample Ports (O38)

A move of the receive side changes two bits of RXSTAT and what the port remembers of LOST (`rxMove_eq`); entering LOST
(`EntersLost`), discarding and accepting a frame are stated on top of it, once each.
-/

namespace Sys2Proof.Machine

/-! ## Port state -/

/-- `t` is `s` with other registers and another Lap Engine state. -/
def PortMoved (s t : State) : Prop := ∃ c l, t = { s with ctl := c, lap := l }

theorem PortMoved.refl (s : State) : PortMoved s s := ⟨s.ctl, s.lap, rfl⟩

theorem PortMoved.trans {a b c : State} (h : PortMoved a b) (k : PortMoved b c) : PortMoved a c := by
  obtain ⟨_, _, rfl⟩ := h
  obtain ⟨_, _, rfl⟩ := k
  exact ⟨_, _, rfl⟩

theorem PortMoved.rset (s : State) (a : Nat) (v : Word) : PortMoved s (s.rset a v) := ⟨_, s.lap, rfl⟩

theorem PortMoved.setSpt (s : State) (k : Nat) (x : SptSt) : PortMoved s (s.setSpt k x) := ⟨s.ctl, _, rfl⟩

theorem PortMoved.eq {s t : State} (h : PortMoved s t) : t = { s with ctl := t.ctl, lap := t.lap } := by
  obtain ⟨_, _, rfl⟩ := h
  rfl

@[simp] theorem spt_setSpt (s : State) (k : Nat) (x : SptSt) : (s.setSpt k x).spt k = x := tget_tput_self _ _ _ _

theorem sptA_ne (k : Nat) {o p : Nat} (h : o ≠ p) : sptA k o ≠ sptA k p := by
  unfold sptA
  omega

theorem clkStatA_ne_sptA (k o : Nat) : clkStatA ≠ sptA k o := by
  unfold clkStatA sptA
  omega

theorem coreHold_rset_spt (s : State) (k o : Nat) (v : Word) : (s.rset (sptA k o) v).coreHold = s.coreHold :=
  rbit_congr (rget_rset_ne _ _ (clkStatA_ne_sptA k o)) _

/-! ## Moves of the receive side (R255, R257) -/

/-- A move of the receive side: the state, and the report of LOST that the port remembers (R258). -/
theorem rxMove_eq (s : State) (k st : Nat) : ∃ at' prev, s.rxMove k st
    = (s.setSpt k { s.spt k with lostAt := at', lostPrev := prev }).rfldSet (sptA k 0x08) 30 2 st := by
  unfold State.rxMove
  dsimp only
  split
  · exact ⟨_, _, rfl⟩
  · exact ⟨_, _, rfl⟩

theorem rxMove_moved (s : State) (k st : Nat) : PortMoved s (s.rxMove k st) := by
  obtain ⟨_, _, e⟩ := rxMove_eq s k st
  rw [e]
  exact (PortMoved.setSpt s k _).trans (.rset _ _ _)

theorem rget_rxMove_ne (s : State) {k a : Nat} (st : Nat) (h : a ≠ sptA k 0x08) :
    (s.rxMove k st).rget a = s.rget a := by
  obtain ⟨_, _, e⟩ := rxMove_eq s k st
  rw [e, rget_rfldSet_ne _ _ _ _ h]
  rfl

theorem rxState_rxMove (s : State) (k : Nat) {st : Nat} (h : st < 4) : (s.rxMove k st).rxState k = st := by
  obtain ⟨_, _, e⟩ := rxMove_eq s k st
  rw [e, State.rxState, rfld_rfldSet_self _ _ _ _ _ (by decide)]
  omega

theorem rfld_rxMove (s : State) (k st : Nat) {lo n : Nat} (h : lo + n ≤ 30) :
    (s.rxMove k st).rfld (sptA k 0x08) lo n = s.rfld (sptA k 0x08) lo n := by
  obtain ⟨_, _, e⟩ := rxMove_eq s k st
  rw [e, rfld_rfldSet_ne _ _ _ _ _ _ _ (.inl h)]
  rfl

theorem rbit_rxMove (s : State) (k st : Nat) {i : Nat} (h : i < 30) :
    (s.rxMove k st).rbit (sptA k 0x08) i = s.rbit (sptA k 0x08) i := by
  obtain ⟨_, _, e⟩ := rxMove_eq s k st
  rw [e, rbit_rfldSet_ne _ _ _ _ _ _ (.inl h)]
  rfl

theorem spt_rxMove (s : State) (k st : Nat) : ∃ at' prev, (s.rxMove k st).spt k
    = { s.spt k with lostAt := at', lostPrev := prev } := by
  obtain ⟨a, p, e⟩ := rxMove_eq s k st
  refine ⟨a, p, ?_⟩
  rw [e]
  exact spt_setSpt _ _ _

/-- What entering LOST changes (R257): the state with FIRST, and LOST_CNT. -/
structure EntersLost (s t : State) (k : Nat) : Prop where
  moved : PortMoved s t
  state : t.rxState k = 0
  mark : (t.spt k).mark = (s.spt k).mark
  frames : (t.spt k).frames = (s.spt k).frames
  count : (t.rget (sptA k 0x20)).toNat = if s.rxState k = 0 then (s.rget (sptA k 0x20)).toNat
    else min ((s.rget (sptA k 0x20)).toNat + 1) 0xFFFFFFFF
  run : t.rfld (sptA k 0x08) 12 4 = s.rfld (sptA k 0x08) 12 4
  clock : t.rbit (sptA k 0x08) 29 = s.rbit (sptA k 0x08) 29
  regs : ∀ a, a ≠ sptA k 0x08 → a ≠ sptA k 0x20 → t.rget a = s.rget a

/-- FIRST is set too. -/
theorem EntersLost.first {s t : State} {k : Nat} (h : EntersLost s t k) (b : Bool) :
    EntersLost s (t.rbitSet (sptA k 0x08) 28 b) k where
  moved := h.moved.trans (.rset _ _ _)
  state := (rfld_rbitSet_ne _ _ _ _ _ _ (by decide)).trans h.state
  mark := h.mark
  frames := h.frames
  count := by rw [rget_rbitSet_ne _ _ _ (sptA_ne k (by decide)), h.count]
  run := (rfld_rbitSet_ne _ _ _ _ _ _ (by decide)).trans h.run
  clock := (rbit_rbitSet_ne _ _ _ _ _ (by decide)).trans h.clock
  regs a h1 h2 := (rget_rbitSet_ne _ _ _ h1).trans (h.regs a h1 h2)

theorem rxMove_entersLost {s w : State} {k : Nat}
    (hw : w = if s.rxState k = 0 then s else s.rcount (sptA k 0x20) 0 32 1) :
    EntersLost s (w.rxMove k 0) k := by
  have hspt : w.spt k = s.spt k := by rw [hw]; split <;> rfl
  have hreg : ∀ a, a ≠ sptA k 0x20 → w.rget a = s.rget a := fun a ha => by
    rw [hw]
    split
    · rfl
    · exact rget_rcount_ne _ _ _ _ ha
  have hstat := hreg (sptA k 0x08) (sptA_ne k (by decide))
  obtain ⟨a, p, e⟩ := spt_rxMove w k 0
  refine ⟨.trans ?_ (rxMove_moved w k 0), rxState_rxMove w k (by decide), ?_, ?_, ?_, ?_, ?_, fun a h1 h2 => ?_⟩
  · rw [hw]
    split
    · exact .refl s
    · exact .rset s _ _
  · rw [e, hspt]
  · rw [e, hspt]
  · rw [rget_rxMove_ne _ _ (sptA_ne k (by decide)), hw]
    split
    · rfl
    · exact rget_rcount_self _ _ _
  · rw [rfld_rxMove _ _ _ (by decide), rfld_congr hstat]
  · rw [rbit_rxMove _ _ _ (by decide), rbit_congr hstat]
  · rw [rget_rxMove_ne _ _ h1, hreg a h2]

theorem rxLost_entersLost (s : State) (k : Nat) : EntersLost s (s.rxLost k) k := by
  unfold State.rxLost
  extract_lets w w'
  have h : EntersLost s w' k := rxMove_entersLost rfl
  split
  · exact h.first true
  · exact h

/-! ### Time-outs and a lost clock -/

/-- The receive side of port `k` is lost: `part` with a partial frame, which is discarded and counted (R257). -/
def LostPort (s t : State) (k : Nat) (part : Bool) : Prop :=
  t = { s with ctl := t.ctl, lap := t.lap } ∧ t.rxState k = 0
    ∧ (t.spt k).mark = (if part then none else (s.spt k).mark)
    ∧ (t.rget (sptA k 0x18)).toNat = (if part then min ((s.rget (sptA k 0x18)).toNat + 1) 0xFFFFFFFF
      else (s.rget (sptA k 0x18)).toNat)
    ∧ (t.rget (sptA k 0x20)).toNat = (if s.rxState k = 0 then (s.rget (sptA k 0x20)).toNat
      else min ((s.rget (sptA k 0x20)).toNat + 1) 0xFFFFFFFF)
    ∧ ∀ a, a ≠ sptA k 0x08 → a ≠ sptA k 0x18 → a ≠ sptA k 0x20 → t.rget a = s.rget a

theorem rxLost_lostPort (s : State) (k : Nat) : LostPort s (s.rxLost k) k false := by
  have h := rxLost_entersLost s k
  refine ⟨h.moved.eq, h.state, h.mark, ?_, h.count, fun a h1 _ h3 => h.regs a h1 h3⟩
  rw [h.regs _ (sptA_ne k (by decide)) (sptA_ne k (by decide))]
  rfl

theorem rget_rxPartial_ne (s : State) {k a : Nat} (h : a ≠ sptA k 0x18) : (s.rxPartial k).rget a = s.rget a :=
  rget_rcount_ne _ _ _ _ h

theorem rxPartial_rxLost_lostPort (s : State) (k : Nat) : LostPort s ((s.rxPartial k).rxLost k) k true := by
  have h := rxLost_entersLost (s.rxPartial k) k
  have hst : (s.rxPartial k).rxState k = s.rxState k := rfld_congr (rget_rxPartial_ne s (sptA_ne k (by decide))) _ _
  have hm : PortMoved s (s.rxPartial k) := (PortMoved.setSpt s k _).trans (.rset _ _ _)
  refine ⟨(hm.trans h.moved).eq, h.state, h.mark.trans ?_, ?_, ?_, fun a h1 h2 h3 => ?_⟩
  · exact congrArg SptSt.mark (spt_setSpt s k _)
  · rw [h.regs _ (sptA_ne k (by decide)) (sptA_ne k (by decide))]
    exact rget_rcount_self _ _ _
  · rw [h.count, hst, rget_rxPartial_ne s (sptA_ne k (by decide))]
  · rw [h.regs a h1 h3, rget_rxPartial_ne s h2]

/-- A loss that a lost clock starts, from the state with CLKOK cleared. -/
theorem LostPort.of_clock {s t : State} {k : Nat} {part : Bool}
    (h : LostPort (s.rbitSet (sptA k 0x08) 29 false) t k part) : LostPort s t k part := by
  obtain ⟨h1, h2, h3, h4, h5, h6⟩ := h
  have hst : (s.rbitSet (sptA k 0x08) 29 false).rxState k = s.rxState k := rfld_rbitSet_ne _ _ _ _ _ _ (by decide)
  rw [rget_rbitSet_ne _ _ _ (sptA_ne k (by decide))] at h4 h5
  rw [hst] at h5
  exact ⟨h1, h2, h3, h4, h5, fun a ha hb hc => (h6 a ha hb hc).trans (rget_rbitSet_ne _ _ _ ha)⟩

@[simp] theorem spt_rset (s : State) (a k : Nat) (v : Word) : (s.rset a v).spt k = s.spt k := rfl
@[simp] theorem spt_rfldSet (s : State) (a lo n v k : Nat) : (s.rfldSet a lo n v).spt k = s.spt k := rfl
@[simp] theorem spt_rbitSet (s : State) (a i k : Nat) (b : Bool) : (s.rbitSet a i b).spt k = s.spt k := rfl

/-! ## Frames (R254, R255, R257) -/

/-- A frame that fails the CRC or NCH test (R255, R257): what discarding it changes. -/
theorem rxDiscard_spec (s : State) (k : Nat) :
    PortMoved s (s.rxDiscard k) ∧ ((s.rxDiscard k).spt k).mark = (s.spt k).mark
      ∧ ((s.rxDiscard k).spt k).frames = (s.spt k).frames
      ∧ ((s.rxDiscard k).rget (sptA k 0x14)).toNat = min ((s.rget (sptA k 0x14)).toNat + 1) 0xFFFFFFFF
      ∧ (s.rxDiscard k).rfld (sptA k 0x08) 12 4 = min (s.rfld (sptA k 0x08) 12 4 + 1) 15
      ∧ (s.rxDiscard k).rxState k = (if s.rxState k = 0 then 0
        else if s.rfld (sptA k 0x00) 20 4 ≤ min (s.rfld (sptA k 0x08) 12 4 + 1) 15 then 0 else 1) := by
  let run := min (s.rfld (sptA k 0x08) 12 4 + 1) 15
  let s1 := s.rcount (sptA k 0x14) 0 32 1
  let s2 := s1.rfldSet (sptA k 0x08) 12 4 run
  have h8 : s1.rget (sptA k 0x08) = s.rget (sptA k 0x08) := rget_rcount_ne _ _ _ _ (sptA_ne k (by decide))
  have hr : s1.rfld (sptA k 0x08) 12 4 = s.rfld (sptA k 0x08) 12 4 := rfld_congr h8 _ _
  have m : PortMoved s s2 := (PortMoved.rset s _ _).trans (.rset _ _ _)
  have hrun : s2.rfld (sptA k 0x08) 12 4 = run := by
    rw [rfld_rfldSet_self _ _ _ _ _ (by decide)]
    omega
  have hst : s2.rxState k = s.rxState k := (rfld_rfldSet_ne _ _ _ _ _ _ _ (by decide)).trans (rfld_congr h8 _ _)
  have hcfg : s2.rfld (sptA k 0x00) 20 4 = s.rfld (sptA k 0x00) 20 4 := rfld_congr
    ((rget_rfldSet_ne _ _ _ _ (sptA_ne k (by decide))).trans (rget_rcount_ne _ _ _ _ (sptA_ne k (by decide)))) _ _
  have hcnt : (s2.rget (sptA k 0x14)).toNat = min ((s.rget (sptA k 0x14)).toNat + 1) 0xFFFFFFFF := by
    rw [rget_rfldSet_ne _ _ _ _ (sptA_ne k (by decide))]
    exact rget_rcount_self _ _ _
  have e : s.rxDiscard k = if s.rxState k = 0 then s2 else if s.rfld (sptA k 0x00) 20 4 ≤ run then s2.rxLost k
      else s2.rxMove k 1 := by
    unfold State.rxDiscard
    dsimp only
    rw [show (s.rcount (sptA k 0x14) 0 32 1) = s1 from rfl, hr,
      show s1.rfldSet (sptA k 0x08) 12 4 _ = s2 from rfl, hst, hcfg]
  rw [e]
  by_cases h0 : s.rxState k = 0
  · rw [if_pos h0, if_pos h0]
    exact ⟨m, rfl, rfl, hcnt, hrun, hst.trans h0⟩
  · rw [if_neg h0, if_neg h0]
    by_cases hl : s.rfld (sptA k 0x00) 20 4 ≤ run
    · have h := rxLost_entersLost s2 k
      rw [if_pos hl, if_pos hl]
      refine ⟨m.trans h.moved, h.mark, h.frames, ?_, h.run.trans hrun, h.state⟩
      rw [h.regs _ (sptA_ne k (by decide)) (sptA_ne k (by decide)), hcnt]
    · obtain ⟨_, _, hx⟩ := spt_rxMove s2 k 1
      rw [if_neg hl, if_neg hl]
      refine ⟨m.trans (rxMove_moved _ _ _), ?_, ?_, ?_, ?_, rxState_rxMove _ _ (by decide)⟩
      · rw [hx]
        rfl
      · rw [hx]
        rfl
      · rw [rget_rxMove_ne _ _ (sptA_ne k (by decide)), hcnt]
      · rw [rfld_rxMove _ _ _ (by decide), hrun]

/-- The extended SEQ of an accepted frame (R259). -/
def State.eseqNext (s : State) (k seq : Nat) : Nat :=
  if s.rbit (sptA k 0x08) 28 then ((s.spt k).eseq / 4096 + 1) * 4096 + seq
  else (s.spt k).eseq + (seq + 4096 - s.rfld (sptA k 0x08) 0 12) % 4096

/-- What an accepted frame changes (R254, R255, R257, R259). -/
theorem rxAccept_spec (s : State) (k split : Nat) {seq : Nat} (samples : List Word) (hseq : seq < 4096) :
    let t := s.rxAccept k seq split samples
    let fr : SptFrame := ⟨s.now, s.eseqNext k seq, split, samples⟩
    PortMoved s t ∧ t.rxState k = 2 ∧ (t.spt k).mark = (s.spt k).mark ∧ (t.spt k).frames.head? = some fr
      ∧ (t.spt k).eseq = fr.eseq ∧ t.rget (sptA k 0x0C) = BitVec.ofNat 32 fr.eseq
      ∧ t.rget (sptA k 0x10) = BitVec.ofNat 32 (split / 2 ^ 32 % 1000000000)
      ∧ t.rfld (sptA k 0x08) 0 12 = seq ∧ t.rfld (sptA k 0x08) 12 4 = 0 ∧ t.rbit (sptA k 0x08) 28 = false
      ∧ ∀ a, a ≠ sptA k 0x08 → a ≠ sptA k 0x0C → a ≠ sptA k 0x10 → t.rget a = s.rget a := by
  intro t fr
  let s1 := s.rxMove k 2
  let keep := ((s1.spt k).frames.filter (fun f => decide (f.cycle < s1.now))).take 1
  let s2 := s1.setSpt k { s1.spt k with eseq := s.eseqNext k seq, frames := ⟨s1.now, fr.eseq, split, samples⟩ :: keep }
  let s3 := (s2.rfldSet (sptA k 0x08) 0 12 seq).rfldSet (sptA k 0x08) 12 4 0
  let s4 := s3.rbitSet (sptA k 0x08) 28 false
  have ht : t = (s4.rset (sptA k 0x0C) (BitVec.ofNat 32 fr.eseq)).rset (sptA k 0x10)
    (BitVec.ofNat 32 (split / 2 ^ 32 % 1000000000)) := rfl
  clear_value t
  have hm : PortMoved s s1 := rxMove_moved s k 2
  have hnow : s1.now = s.now := by
    rw [hm.eq]
  have hmark : (s1.spt k).mark = (s.spt k).mark := by
    obtain ⟨_, _, h⟩ := spt_rxMove s k 2
    rw [h]
  have hspt : t.spt k = { s1.spt k with
      eseq := s.eseqNext k seq, frames := ⟨s1.now, fr.eseq, split, samples⟩ :: keep } := by
    rw [ht]
    simp only [s4, s3, s2, spt_rset, spt_rbitSet, spt_rfldSet, spt_setSpt]
  have h4 : ∀ a, a ≠ sptA k 0x0C → a ≠ sptA k 0x10 → t.rget a = s4.rget a := fun a h1 h2 => by
    rw [ht, rget_rset_ne _ _ h2, rget_rset_ne _ _ h1]
  have h8 := h4 (sptA k 0x08) (sptA_ne k (by decide)) (sptA_ne k (by decide))
  refine ⟨?_, ?_, ?_, ?_, ?_, ?_, ?_, ?_, ?_, ?_, fun a h1 h2 h3 => ?_⟩
  · rw [ht]
    exact hm.trans ((PortMoved.setSpt s1 k _).trans ((PortMoved.rset _ _ _).trans ((PortMoved.rset _ _ _).trans
      ((PortMoved.rset _ _ _).trans ((PortMoved.rset _ _ _).trans (.rset _ _ _))))))
  · rw [State.rxState, rfld_congr h8, rfld_rbitSet_ne _ _ _ _ _ _ (by decide),
      rfld_rfldSet_ne _ _ _ _ _ _ _ (by decide), rfld_rfldSet_ne _ _ _ _ _ _ _ (by decide)]
    exact rxState_rxMove s k (by decide)
  · rw [hspt]
    exact hmark
  · rw [hspt, List.head?_cons, hnow]
  · rw [hspt]
  · rw [ht, rget_rset_ne _ _ (sptA_ne k (by decide)), rget_rset_self]
  · rw [ht, rget_rset_self]
  · rw [rfld_congr h8, rfld_rbitSet_ne _ _ _ _ _ _ (by decide), rfld_rfldSet_ne _ _ _ _ _ _ _ (by decide),
      rfld_rfldSet_self _ _ _ _ _ (by decide)]
    exact Nat.mod_eq_of_lt hseq
  · rw [rfld_congr h8, rfld_rbitSet_ne _ _ _ _ _ _ (by decide), rfld_rfldSet_self _ _ _ _ _ (by decide)]
    rfl
  · rw [rbit_congr h8]
    exact rbit_rbitSet_self _ _ _ _ (by decide)
  · rw [h4 a h2 h3, rget_rbitSet_ne _ _ _ h1, rget_rfldSet_ne _ _ _ _ h1, rget_rfldSet_ne _ _ _ _ h1]
    exact rget_rxMove_ne s 2 h1

/-! ## Lanes (R252) -/

/-- Every second element, from the one whose place has parity `r`. -/
theorem getElem?_parity {α : Type} {r : Nat} (hr : r < 2) (l : List α) (n j : Nat) :
    (((l.zipIdx n).filter (fun p => p.2 % 2 == r)).map Prod.fst)[j]? = l[2 * j + (r + n) % 2]? := by
  induction l generalizing n j with
  | nil => rfl
  | cons a l ih =>
    rw [List.zipIdx_cons]
    by_cases h : n % 2 = r
    · rw [List.filter_cons_of_pos (by exact beq_iff_eq.2 h), List.map_cons, show (r + n) % 2 = 0 by omega]
      cases j with
      | zero => rfl
      | succ j =>
        rw [List.getElem?_cons_succ, ih, show (r + (n + 1)) % 2 = 1 by omega]
        exact (List.getElem?_cons_succ (a := a) (l := l) (i := 2 * j + 1)).symm
    · rw [List.filter_cons_of_neg (by simpa using h), ih, show (r + (n + 1)) % 2 = 0 by omega,
        show (r + n) % 2 = 1 by omega, List.getElem?_cons_succ]
      rfl

theorem laneBits_two (l : List Bool) (j : Nat) :
    (laneBits true l).1[j]? = l[2 * j]? ∧ (laneBits true l).2[j]? = l[2 * j + 1]? :=
  ⟨getElem?_parity (by decide) l 0 j, getElem?_parity (by decide) l 0 j⟩

/-! ## Writes of the port's configuration (R263, R272) -/

theorem getLsbD_mergeRW (m old v : Word) (i : Nat) :
    (mergeRW m old v).getLsbD i = if m.getLsbD i then v.getLsbD i else old.getLsbD i := by
  unfold mergeRW
  rw [BitVec.getLsbD_or, BitVec.getLsbD_and, BitVec.getLsbD_and, BitVec.getLsbD_not]
  by_cases hi : i < 32
  · cases m.getLsbD i <;> simp [hi]
  · simp [BitVec.getLsbD_of_ge _ _ (Nat.le_of_not_lt hi)]

/-- A field that its mask covers takes the bits of the word written. -/
theorem fget_mergeRW {m : Word} {lo n : Nat} (hm : ∀ i < n, m.getLsbD (lo + i) = true) (old v : Word) :
    fget (mergeRW m old v) lo n = v.toNat / 2 ^ lo % 2 ^ n := by
  rw [← Nat.shiftRight_eq_div_pow]
  show fget _ lo n = fget v lo n
  apply Nat.eq_of_testBit_eq
  intro i
  rw [fget_testBit, fget_testBit, getLsbD_mergeRW]
  by_cases hi : i < n
  · rw [if_pos (hm i hi)]
  · simp [hi]

theorem regSpec_spt {k : Nat} (hk : k < 16) {o : Nat} (ho : o < 0x100) (h4 : o % 4 = 0) :
    regSpec (sptA k o) = specSpt o := by
  have e : sptA k o % 0x100 = o := by unfold sptA; omega
  unfold regSpec
  rw [e]
  unfold sptA
  simp (disch := omega) only [if_neg, if_pos]

/-- A write of one of the port's RW registers is checked by its own rules. -/
theorem hostWrite_spt {s : State} {src : Fin 3} {k : Nat} (hk : k < 16) {o : Nat} (ho : o < 0x100) (h4 : o % 4 = 0)
    {v : Word} (h : s.accepts src.val (sptA k o) v) {r : RegSpec} (hr : specSpt o = some r) (h0 : r.rw ≠ 0) :
    s.hostWrite src (sptA k o) v = (s.sptWrite k o r.rw v).1 := by
  have e1 : (sptA k o - 0x200000) / 0x100 = k := by unfold sptA; omega
  have e2 : sptA k o % 0x100 = o := by unfold sptA; omega
  have hlo : 0x200000 ≤ sptA k o ∧ sptA k o < 0x201000 := by unfold sptA; omega
  have hc : clkHoldA < 0x200000 := by decide
  have hm : mshA 0x6000 < 0x200000 := by decide
  rw [hostWrite_of_accepts h ((regSpec_spt hk ho h4).trans hr)]
  unfold State.fieldWrite
  rw [if_neg (by omega), if_neg (by omega), if_neg (by omega), if_neg (by omega), if_pos (by omega)]
  unfold State.ioWrite
  rw [if_pos hlo.2, if_neg h0, e1, e2]

/-- A write would change a field of an enabled port's configuration other than EN (R263, R272). -/
def cfgMoves (old w : Word) : Prop := fbit old 31 = true ∧ fsetBit w 31 false ≠ fsetBit old 31 false

theorem cfgMoves_iff (old w : Word) :
    (fbit old 31 && !decide (fsetBit w 31 false = fsetBit old 31 false)) = true ↔ cfgMoves old w := by
  rw [Bool.and_eq_true, Bool.not_eq_true', decide_eq_false_iff_not]
  rfl

/-- A write of SPT_RXCFG that is refused (R272). -/
def rxcfgBad (old w v : Word) : Prop := cfgMoves old w ∨ v.toNat / 2 ^ 28 % 4 = 3 ∨ v.toNat / 2 ^ 20 % 16 = 0

theorem sptWrite_rxcfg (s : State) (k : Nat) (v : Word) :
    let old := s.rget (sptA k 0x00)
    let w := mergeRW 0xFFF0FFFF old v
    (rxcfgBad old w v → s.sptWrite k 0x00 0xFFF0FFFF v = s.sptRefuse k)
    ∧ (¬ rxcfgBad old w v → (s.sptWrite k 0x00 0xFFF0FFFF v).1 =
        if fbit old 31 && !v.getLsbD 31 then
          (((s.rset (sptA k 0x00) w).rxMove k 0).rbitSet (sptA k 0x08) 28 true).setSpt k
            { (((s.rset (sptA k 0x00) w).rxMove k 0).rbitSet (sptA k 0x08) 28 true).spt k with mark := none }
        else s.rset (sptA k 0x00) w) := by
  intro old w
  have hw : fget w 28 2 = v.toNat / 2 ^ 28 % 4 := fget_mergeRW (by decide) _ _
  have hl : fget w 20 4 = v.toNat / 2 ^ 20 % 16 := fget_mergeRW (by decide) _ _
  have h31 : fbit w 31 = v.getLsbD 31 := by
    show w.getLsbD 31 = _
    rw [getLsbD_mergeRW, if_pos (by decide)]
  have hbad : ((fbit old 31 && !decide (fsetBit w 31 false = fsetBit old 31 false)) || fget w 28 2 == 3
      || fget w 20 4 == 0) = true ↔ rxcfgBad old w v := by
    rw [Bool.or_eq_true, Bool.or_eq_true, cfgMoves_iff, beq_iff_eq, beq_iff_eq, hw, hl, or_assoc]
    rfl
  unfold State.sptWrite
  refine ⟨fun h => if_pos (hbad.2 h), fun h => ?_⟩
  dsimp only
  rw [if_neg (hbad.not.2 h), ← h31]
  exact apply_ite Prod.fst _ _ _

/-- A write of SPT_TXCFG that is refused (R263). -/
def State.txcfgBad (s : State) (k : Nat) (w v : Word) : Prop :=
  cfgMoves (s.rget (sptA k 0x24)) w ∨ v.toNat / 2 ^ 28 % 4 = 3 ∨ v.toNat / 2 ^ 16 % 8 < 2 ∨ 6 < v.toNat / 2 ^ 16 % 8
    ∨ v.getLsbD 31 = true ∧ s.rfld (sptA k 0x28) 0 24 * (v.toNat / 2 ^ 30 % 2 + 1)
      < (48 + (v.toNat / 2 ^ 24 % 16 + 1) * sptWidth (v.toNat / 2 ^ 28 % 4)) * (v.toNat / 2 ^ 16 % 8)
        + 8 * (v.toNat / 2 ^ 30 % 2 + 1)

theorem sptWrite_txcfg (s : State) (k : Nat) (v : Word) :
    let old := s.rget (sptA k 0x24)
    let w := mergeRW 0xFF070000 old v
    (s.txcfgBad k w v → s.sptWrite k 0x24 0xFF070000 v = s.sptRefuse k)
    ∧ (¬ s.txcfgBad k w v → (s.sptWrite k 0x24 0xFF070000 v).1 = if v.getLsbD 31 && !fbit old 31 then
        (s.rset (sptA k 0x24) w).setSpt k { s.spt k with txNext := 0 } else s.rset (sptA k 0x24) w) := by
  intro old w
  have hw : fget w 28 2 = v.toNat / 2 ^ 28 % 4 := fget_mergeRW (by decide) _ _
  have hj : fget w 16 3 = v.toNat / 2 ^ 16 % 8 := fget_mergeRW (by decide) _ _
  have hn : fget w 24 4 = v.toNat / 2 ^ 24 % 16 := fget_mergeRW (by decide) _ _
  have hl : fget w 30 1 = v.toNat / 2 ^ 30 % 2 := fget_mergeRW (by decide) _ _
  have h31 : fbit w 31 = v.getLsbD 31 := by
    show w.getLsbD 31 = _
    rw [getLsbD_mergeRW, if_pos (by decide)]
  have hbad : ((fbit old 31 && !decide (fsetBit w 31 false = fsetBit old 31 false)) || fget w 28 2 == 3
      || decide (fget w 16 3 < 2) || decide (6 < fget w 16 3) || (fbit w 31 && !s.txFits k w)) = true
      ↔ s.txcfgBad k w v := by
    unfold State.txFits
    simp only [Bool.or_eq_true, beq_iff_eq, decide_eq_true_eq, Bool.and_eq_true, Bool.not_eq_true',
      decide_eq_false_iff_not, Nat.not_le, hw, hj, hn, hl, h31, or_assoc]
    rfl
  unfold State.sptWrite
  refine ⟨fun h => if_pos (hbad.2 h), fun h => ?_⟩
  dsimp only
  rw [if_neg (hbad.not.2 h), ← h31]
  rfl

/-! ## The commands -/

theorem rxEn_rset (s : State) (k : Nat) {o : Nat} (ho : o ≠ 0) (v : Word) :
    (s.rset (sptA k o) v).rxEn k = s.rxEn k := by
  unfold State.rxEn
  rw [coreHold_rset_spt, rbit_congr (rget_rset_ne _ _ (sptA_ne k ho.symm))]

theorem coreHold_of_rxEn {s : State} {k : Nat} (h : s.rxEn k = true) : s.coreHold = false := by
  unfold State.rxEn at h
  rw [Bool.and_eq_true, Bool.not_eq_true'] at h
  exact h.2

theorem execRxClockLoss_eq (p : Fin 16) (s : State) : execRxClockLoss p s = .next
    (let s' := if s.coreHold then s else s.rbitSet (sptA p.val 0x08) 29 false
     if s.rxEn p.val = false then s'
     else if (s.spt p.val).mark.isSome then (s'.rxPartial p.val).rxLost p.val else s'.rxLost p.val) := by
  have h1 : ∀ c : Bool, (if c then s else s.rbitSet (sptA p.val 0x08) 29 false).rxEn p.val = s.rxEn p.val := by
    intro c
    cases c
    · exact rxEn_rset s _ (by decide) _
    · rfl
  have h2 : ∀ c : Bool, (if c then s else s.rbitSet (sptA p.val 0x08) 29 false).spt p.val = s.spt p.val := by
    intro c
    cases c <;> rfl
  unfold execRxClockLoss
  dsimp only
  rw [h1, h2]
  cases s.rxEn p.val <;> rfl

/-- No frame is in progress on port `k`. -/
def State.unmarked (s : State) (k : Nat) : State := s.setSpt k { s.spt k with mark := none }

/-- The places by which SEQ has advanced since the last accepted frame (R255). -/
def State.seqStep (s : State) (k seq : Nat) : Nat := (seq + 4096 - s.rfld (sptA k 0x08) 0 12) % 4096

theorem execFrameCheck_none {s : State} {p : Fin 16} (h : (s.spt p.val).mark = none ∨ s.rxEn p.val = false)
    (seq : BitVec 12) (nch : Fin 16) (samples : List Word) (crc : BitVec 16) :
    execFrameCheck p seq nch samples crc s = .next s := by
  unfold execFrameCheck
  dsimp only
  cases hm : (s.spt p.val).mark with
  | none => rfl
  | some split =>
    have he : s.rxEn p.val = false := h.resolve_left (by rw [hm]; exact fun h => by cases h)
    rw [he]
    rfl

/-- The samples of a frame as the port reads them. -/
def State.frameSamples (s : State) (k : Nat) (samples : List Word) : List Nat :=
  samples.map (fun y => y.toNat % 2 ^ sptWidth (s.rfld (sptA k 0x00) 28 2))

/-- A frame passes the CRC and NCH tests (R255). -/
def State.frameSound (s : State) (k seq nch crc : Nat) (samples : List Word) : Prop :=
  crc16 (sptBody seq nch (sptWidth (s.rfld (sptA k 0x00) 28 2)) (s.frameSamples k samples)) = crc
    ∧ nch = s.rfld (sptA k 0x00) 24 4 ∧ samples.length = nch + 1

/-- A frame passes the SEQ test: the first one, or one that advances SEQ by 1 to 2047 (R255). -/
def State.seqGood (s : State) (k seq : Nat) : Prop :=
  s.rbit (sptA k 0x08) 28 = true ∨ (1 ≤ s.seqStep k seq ∧ s.seqStep k seq ≤ 2047)

section
variable {s : State} {p : Fin 16} {split : Nat} (hm : (s.spt p.val).mark = some split) (he : s.rxEn p.val = true)
  {seq : BitVec 12} {nch : Fin 16} {samples : List Word} {crc : BitVec 16}
include hm he

/-- The tests of a frame (R255): CRC and NCH, then SEQ. -/
theorem execFrameCheck_some [Decidable (s.frameSound p.val seq.toNat nch.val crc.toNat samples)]
    [Decidable (s.seqGood p.val seq.toNat)] : execFrameCheck p seq nch samples crc s = .next
      (if s.frameSound p.val seq.toNat nch.val crc.toNat samples then
        if s.seqGood p.val seq.toNat then
          (s.unmarked p.val).rxAccept p.val seq.toNat split
            ((s.frameSamples p.val samples).map (sampleWord (sptWidth (s.rfld (sptA p.val 0x00) 28 2))))
        else (s.unmarked p.val).rcount (sptA p.val 0x1C) 0 32 1
      else (s.unmarked p.val).rxDiscard p.val) := by
  have hbad : (crc16 (sptBody seq.toNat nch.val (sptWidth (s.rfld (sptA p.val 0x00) 28 2))
      (s.frameSamples p.val samples)) ≠ crc.toNat ∨ nch.val ≠ s.rfld (sptA p.val 0x00) 24 4
      ∨ samples.length ≠ nch.val + 1) ↔ ¬ s.frameSound p.val seq.toNat nch.val crc.toNat samples := by
    simp only [State.frameSound, not_and_or, ne_eq]
  have hgood : (s.rbit (sptA p.val 0x08) 28
      || (decide (1 ≤ s.seqStep p.val seq.toNat) && decide (s.seqStep p.val seq.toNat ≤ 2047))) = true
      ↔ s.seqGood p.val seq.toNat := by
    simp only [State.seqGood, Bool.or_eq_true, Bool.and_eq_true, decide_eq_true_eq]
  unfold execFrameCheck
  dsimp only
  rw [hm]
  dsimp only
  rw [he, if_neg (by decide)]
  by_cases hs : s.frameSound p.val seq.toNat nch.val crc.toNat samples
  · rw [if_pos hs]
    refine congrArg Host.Outcome.next ((if_neg (hbad.not.2 (not_not.2 hs))).trans ?_)
    by_cases hg : s.seqGood p.val seq.toNat
    · rw [if_pos hg]
      exact if_pos (hgood.2 hg)
    · rw [if_neg hg]
      exact if_neg (hgood.not.2 hg)
  · rw [if_neg hs]
    exact congrArg Host.Outcome.next (if_pos (hbad.2 hs))

theorem execFrameCheck_discards (hs : ¬ s.frameSound p.val seq.toNat nch.val crc.toNat samples) :
    execFrameCheck p seq nch samples crc s = .next ((s.unmarked p.val).rxDiscard p.val) := by
  classical rw [execFrameCheck_some hm he, if_neg hs]

theorem execFrameCheck_accepts (hs : s.frameSound p.val seq.toNat nch.val crc.toNat samples)
    (hg : s.seqGood p.val seq.toNat) : execFrameCheck p seq nch samples crc s = .next
      ((s.unmarked p.val).rxAccept p.val seq.toNat split
        ((s.frameSamples p.val samples).map (sampleWord (sptWidth (s.rfld (sptA p.val 0x00) 28 2))))) := by
  classical rw [execFrameCheck_some hm he, if_pos hs, if_pos hg]

theorem execFrameCheck_badSeq (hs : s.frameSound p.val seq.toNat nch.val crc.toNat samples)
    (hg : ¬ s.seqGood p.val seq.toNat) : execFrameCheck p seq nch samples crc s = .next
      ((s.unmarked p.val).rcount (sptA p.val 0x1C) 0 32 1) := by
  classical rw [execFrameCheck_some hm he, if_pos hs, if_neg hg]

end

/-- A lost clock while the receive side is enabled (R250, R257). -/
theorem execRxClockLoss_on {s : State} {p : Fin 16} (he : s.rxEn p.val = true) :
    ∃ t, execRxClockLoss p s = .next t ∧ LostPort s t p.val (s.spt p.val).mark.isSome
      ∧ t.rbit (sptA p.val 0x08) 29 = false := by
  let s0 := s.rbitSet (sptA p.val 0x08) 29 false
  have h29 : s0.rbit (sptA p.val 0x08) 29 = false := rbit_rbitSet_self _ _ _ _ (by decide)
  have e : execRxClockLoss p s = .next
      (if (s.spt p.val).mark.isSome then (s0.rxPartial p.val).rxLost p.val else s0.rxLost p.val) := by
    rw [execRxClockLoss_eq, he, coreHold_of_rxEn he]
    rfl
  refine ⟨_, e, ?_⟩
  cases (s.spt p.val).mark.isSome with
  | true =>
    refine ⟨(rxPartial_rxLost_lostPort s0 p.val).of_clock, (rxLost_entersLost _ _).clock.trans ?_⟩
    rw [rbit_congr (rget_rxPartial_ne s0 (sptA_ne _ (by decide))), h29]
  | false => exact ⟨(rxLost_lostPort s0 p.val).of_clock, (rxLost_entersLost _ _).clock.trans h29⟩

theorem execRxClockLoss_off {s : State} {p : Fin 16} (he : s.rxEn p.val = false) :
    execRxClockLoss p s = .next (if s.coreHold then s else s.rbitSet (sptA p.val 0x08) 29 false) := by
  rw [execRxClockLoss_eq, he]
  rfl

/-- A write of SPT_RXCFG (R272). -/
theorem execSptRxcfgWrite_eq {s : State} {src : Fin 3} {p : Fin 16} {v : Word}
    (h : s.accepts src.val (sptA p.val 0x00) v) :
    execSptRxcfgWrite src p v s = .next (s.sptWrite p.val 0x00 0xFFF0FFFF v).1 :=
  congrArg Host.Outcome.next (hostWrite_spt (r := regRW 0xFFF0FFFF 0x001003E8) p.isLt (by decide) (by decide) h rfl
    (by decide))

theorem execSptTxcfgWrite_eq {s : State} {src : Fin 3} {p : Fin 16} {v : Word}
    (h : s.accepts src.val (sptA p.val 0x24) v) :
    execSptTxcfgWrite src p v s = .next (s.sptWrite p.val 0x24 0xFF070000 v).1 :=
  congrArg Host.Outcome.next (hostWrite_spt (r := regRW 0xFF070000 0x00020000) p.isLt (by decide) (by decide) h rfl
    (by decide))

theorem rget_setSpt (s : State) (k a : Nat) (x : SptSt) : (s.setSpt k x).rget a = s.rget a := rfl

/-- The receive side as a write that clears EN leaves it (R272). -/
theorem rxOff_spec (s : State) (k : Nat) (w : Word) :
    let u := ((s.rset (sptA k 0x00) w).rxMove k 0).rbitSet (sptA k 0x08) 28 true
    let t := u.setSpt k { u.spt k with mark := none }
    t = { s with ctl := t.ctl, lap := t.lap } ∧ t.rxState k = 0 ∧ t.rbit (sptA k 0x08) 28 = true
      ∧ (t.spt k).mark = none ∧ t.rget (sptA k 0x00) = w := by
  have hst := rxState_rxMove (s.rset (sptA k 0x00) w) k (st := 0) (by decide)
  have hw : ((s.rset (sptA k 0x00) w).rxMove k 0).rget (sptA k 0x00) = w :=
    (rget_rxMove_ne _ _ (sptA_ne k (by decide))).trans (rget_rset_self _ _ _)
  have hm : PortMoved s ((s.rset (sptA k 0x00) w).rxMove k 0) := (PortMoved.rset s _ _).trans (rxMove_moved _ _ _)
  generalize (s.rset (sptA k 0x00) w).rxMove k 0 = x at hst hw hm
  intro u t
  refine ⟨(hm.trans ((PortMoved.rset x _ _).trans (.setSpt u _ _))).eq, ?_, ?_, ?_, ?_⟩
  · rw [State.rxState, rfld_congr (rget_setSpt u k _ _), rfld_rbitSet_ne _ _ _ _ _ _ (by decide)]
    exact hst
  · rw [rbit_congr (rget_setSpt u k _ _)]
    exact rbit_rbitSet_self _ _ _ _ (by decide)
  · exact congrArg SptSt.mark (spt_setSpt u k _)
  · rw [rget_setSpt, rget_rbitSet_ne _ _ _ (sptA_ne k (by decide)), hw]

theorem eseqNext_unmarked (s : State) (k seq : Nat) : (s.unmarked k).eseqNext k seq
    = if s.rbit (sptA k 0x08) 28 then ((s.spt k).eseq / 4096 + 1) * 4096 + seq
      else (s.spt k).eseq + s.seqStep k seq := by
  unfold State.eseqNext
  rw [State.unmarked, spt_setSpt]
  rfl

theorem execTxBoundary_off {s : State} {p : Fin 16}
    (h : s.rbit (sptA p.val 0x24) 31 = false ∨ s.lap.zero = none ∨ s.coreHold = true) :
    execTxBoundary p s = .next s := by
  unfold execTxBoundary
  refine congrArg Host.Outcome.next (if_neg ?_)
  rcases h with h | h | h <;> simp [h]

/-- The frame of a transmit side, and SEQ moved on (R251, R252, R261, R262). -/
theorem execTxBoundary_on {s : State} {p : Fin 16} (he : s.rbit (sptA p.val 0x24) 31 = true)
    (hz : s.lap.zero.isSome = true) (hc : s.coreHold = false) :
    let k := p.val
    let a := sptA k 0x24
    let w := sptWidth (s.rfld a 28 2)
    let n := s.rfld a 24 4
    let body := sptBody (s.spt k).txNext n w ((List.range (n + 1)).map (fun c => sampleOut w (s.txValue k c)))
    let b := laneBits (s.rbit a 30) (msbFirst 16 0xE31C ++ body ++ msbFirst 16 (crc16 body))
    execTxBoundary p s = .next (((s.rfldSet a 0 12 (s.spt k).txNext).ballOut (.sample k b.1 b.2)).setSpt k
      { s.spt k with txNext := ((s.spt k).txNext + 1) % 4096 }) := by
  intro k a w n body b
  have hs : ∀ (x : State) m, (x.ballOut m).spt k = x.spt k := fun x m => by
    unfold State.ballOut
    split <;> rfl
  unfold execTxBoundary
  dsimp only
  rw [if_pos (by rw [he, hz, hc]; rfl), hs, spt_rfldSet]

theorem sampleWord_mod (w n : Nat) : sampleWord w (n % 2 ^ w) = BitVec.ofNat 32 (n % 2 ^ w * 2 ^ (32 - w)) := by
  unfold sampleWord
  rw [Nat.mod_mod]

/-- Settles O38: a lemma for each outcome of a frame, a time-out, a lost clock, a boundary and a write. -/
theorem samplePorts : Obligations.SamplePorts := by
  intro s p src v k stat x lost
  refine ⟨?_, fun seq nch samples crc split => ?_, fun h => ?_, fun hm hc => ?_, ?_, fun he => ?_, fun he => ?_,
    rfl, rfl, ?_, ?_, ?_⟩
  · show Host.Outcome.next (if s.rxEn k && s.rbit stat 29 then _ else s) = _
    simp only [Bool.and_eq_true]
    rfl
  · intro w vs d sound c
    refine ⟨fun h => execFrameCheck_none h seq nch samples crc, fun hm he => ⟨fun hs => ?_, fun hs hf => ?_,
      fun hs h28 hd => ?_⟩⟩
    · obtain ⟨h1, h2, h3, h4, h5, h6⟩ := rxDiscard_spec (s.unmarked k) k
      rw [State.unmarked, spt_setSpt] at h2 h3
      exact ⟨_, execFrameCheck_discards hm he hs, ((PortMoved.setSpt s k _).trans h1).eq, h2, h3, h4, h5, h6⟩
    · obtain ⟨h1, h2, h3, h4, h5, h6, h7, h8, h9, h10, h11⟩ :=
        rxAccept_spec (s.unmarked k) k split (vs.map (sampleWord w)) seq.isLt
      rw [State.unmarked, spt_setSpt] at h3
      refine ⟨_, _, execFrameCheck_accepts hm he hs hf, ((PortMoved.setSpt s k _).trans h1).eq, h2, h3, h4, rfl, rfl,
        ?_, fun h => ?_, fun h => ?_, h5, h6, h7, h8, h9, h10, h11⟩
      · simp only [vs, List.map_map]
        exact List.map_congr_left (fun y _ => sampleWord_mod w y.toNat)
      · exact (eseqNext_unmarked s k _).trans (if_neg (by rw [h]; decide))
      · exact (eseqNext_unmarked s k _).trans (if_pos h)
    · refine execFrameCheck_badSeq hm he hs ?_
      rintro (h | ⟨h1, h2⟩)
      · exact Bool.false_ne_true (h28.symm.trans h)
      · have h1' : 1 ≤ d := h1
        have h2' : d ≤ 2047 := h2
        omega
  · show Host.Outcome.next _ = _
    rw [if_neg]
    rcases h with h | h
    · rw [h]
      exact Bool.false_ne_true
    · rw [h, Bool.not_true, Bool.and_false]
      exact Bool.false_ne_true
  · refine ⟨_, congrArg Host.Outcome.next (if_pos (by rw [hm, hc]; rfl)), rxPartial_rxLost_lostPort s k⟩
  · intro wait
    refine ⟨fun h1 h2 h3 h4 => ⟨_, congrArg Host.Outcome.next (if_pos ⟨h1, h2, h3, h4⟩), rxLost_lostPort s k⟩,
      fun h => ?_⟩
    refine congrArg Host.Outcome.next (if_neg ?_)
    rintro ⟨h1, h2, h3, h4⟩
    rcases h with h | ⟨ha, hb⟩ | h | h
    · exact h h1
    · rcases h2 with h2 | h2
      · rw [h2] at ha
        cases ha
      · exact absurd h2 (Nat.not_lt.2 hb)
    · exact h3 h
    · rw [h4] at h
      cases h
  · exact execRxClockLoss_on he
  · exact execRxClockLoss_off he
  · intro a w n body bits
    refine ⟨fun he hz hc => ⟨_, _, execTxBoundary_on he hz hc, fun h => ?_, fun h j => ?_⟩, execTxBoundary_off⟩
    · rw [h]
      exact ⟨rfl, rfl⟩
    · rw [h]
      exact laneBits_two bits j
  · intro a w bad h
    have hw : w = mergeRW 0xFFF0FFFF (s.rget a) v := plainWord_zero _ _ _
    obtain ⟨hbad, hgood⟩ := sptWrite_rxcfg s k v
    rw [← hw] at hbad hgood
    have e : exec (.sptRxcfgWrite src p v) s = _ := execSptRxcfgWrite_eq h
    refine ⟨fun hb => ?_, fun hb hv => ?_, fun hb h31 hv => ?_⟩
    · rw [e, hbad hb]
      rfl
    · rw [e, hgood hb, if_neg]
      rcases hv with hv | hv
      · rw [show fbit (s.rget a) 31 = false from hv]
        exact Bool.false_ne_true
      · rw [hv, Bool.not_true, Bool.and_false]
        exact Bool.false_ne_true
    · rw [e, hgood hb, if_pos (by rw [show fbit (s.rget a) 31 = true from h31, hv]; rfl)]
      exact ⟨_, rfl, rxOff_spec s k w⟩
  · intro a w j lanes bits bad h
    have hw : w = mergeRW 0xFF070000 (s.rget a) v := plainWord_zero _ _ _
    obtain ⟨hbad, hgood⟩ := sptWrite_txcfg s k v
    rw [← hw] at hbad hgood
    have e : exec (.sptTxcfgWrite src p v) s = _ := execSptTxcfgWrite_eq h
    refine ⟨fun hb => ?_, fun hb => ?_⟩
    · rw [e, hbad hb]
      rfl
    · rw [e, hgood hb]
      simp only [Bool.and_eq_true, Bool.not_eq_true']
      rfl

end Sys2Proof.Machine
end

section
/-!
# LPDDR5 in service (O58)

An uncorrectable line is counted, captured and recorded (`eccUE_lpddr`), and Marshal's verdict on it leaves every
register below its own (`verdict_view`); a field written in several registers in turn reads so in each
(`rget_each_rfldSet`).
-/

namespace Sys2Proof.Machine

/-! ## One field of several registers -/

theorem fset_idem (w : Word) (lo n v : Nat) : fset (fset w lo n v) lo n v = fset w lo n v := by
  refine BitVec.eq_of_getLsbD_eq fun i hi => ?_
  simp only [fset_getLsbD, hi, decide_true, Bool.true_and]
  split <;> rfl

theorem CtlMoved.trans {a b c : State} (h : CtlMoved a b) (k : CtlMoved b c) : CtlMoved a c := by
  obtain ⟨_, rfl⟩ := h
  obtain ⟨_, rfl⟩ := k
  exact ⟨_, rfl⟩

theorem CtlMoved.each {α : Type} {f : State → α → State} (hf : ∀ s x, CtlMoved s (f s x)) (l : List α) (s : State) :
    CtlMoved s (s.each l f) := by
  unfold State.each
  induction l generalizing s with
  | nil => exact .refl s
  | cons x l ih => exact (hf s x).trans (ih _)

/-- Where the same field of each of several registers is written, each reads so, and the other registers as before. -/
theorem rget_each_rfldSet (A : Nat → Nat) (lo n v : Nat) (l : List Nat) (s : State) (b : Nat) :
    (s.each l (fun s k => s.rfldSet (A k) lo n v)).rget b
      = if b ∈ l.map A then fset (s.rget b) lo n v else s.rget b := by
  unfold State.each
  induction l generalizing s with
  | nil => rfl
  | cons k l ih =>
    rw [List.foldl_cons, ih, List.map_cons]
    by_cases hb : b = A k
    · subst hb
      rw [State.rfldSet, rget_rset_self, fset_idem, ite_self, if_pos List.mem_cons_self]
    · rw [rget_rfldSet_ne _ _ _ _ hb]
      simp only [List.mem_cons, hb, false_or]

/-! ## Verdicts -/

/-- A verdict changes registers of Marshal's own, and its event what records change (R437, R452). -/
theorem verdict_view (s : State) (domain cls index cause detail : Nat) :
    ∃ t, CtlMoved s t ∧ (∀ b, b < mshA 0 ∨ mshA 0x200 ≤ b → t.rget b = s.rget b)
      ∧ Observed t (s.verdict domain cls index cause detail) := by
  refine ⟨_, ?_, fun b hb => ?_, event_observed 58 0x14 {} _ _ (by decide) (Observed.refl _)⟩
  · exact (((((((CtlMoved.refl s).rset _ _).rset _ _).rset _ _).rset _ _).rset _ _).rset _ _).rset _ _ |>.rset _ _
  · have hi : s.rfld (mshA 0x04) 0 4 < 16 := fget_lt _ 0 4
    have own : ∀ o, o < 0x200 → b ≠ mshA o := fun o ho => by unfold mshA at hb ⊢; omega
    have ring : ∀ k, k < 16 → b ≠ mshA (0x100 + 16 * s.rfld (mshA 0x04) 0 4) + k := fun k hk => by
      generalize s.rfld (mshA 0x04) 0 4 = i at hi
      unfold mshA at hb ⊢
      omega
    rw [rget_rfldSet_ne _ _ _ _ (own _ (by decide)), rget_rset_ne _ _ (own _ (by decide)),
      rget_rset_ne _ _ (own _ (by decide)), rget_rset_ne _ _ (own _ (by decide)), rget_rset_ne _ _ (ring 12 (by decide)),
      rget_rset_ne _ _ (ring 8 (by decide)), rget_rset_ne _ _ (ring 4 (by decide))]
    exact rget_rset_ne _ _ (ring 0 (by decide))

theorem streamsOff_congr {s t : State} (h : t.rget (mshA 0x3000) = s.rget (mshA 0x3000)) :
    t.streamsOff = s.streamsOff := by
  unfold State.streamsOff
  simp only [streamOn_congr h]

/-! ## Errors in LPDDR5 (R329, R345) -/

theorem lpChannel_lt (a : Nat) : lpChannel a < 16 :=
  Nat.xor_lt_two_pow (n := 4) (Nat.mod_lt _ (by decide)) (Nat.mod_lt _ (by decide))

theorem usable_le (s : State) : s.usable ≤ 0xF80000000 := by
  unfold State.usable
  split <;> decide

theorem eccReg_lpddr {a : Nat} (h : a < 0x100000000000) : eccReg a = memA 0x18 := if_pos h

theorem eccCap_lpddr {a : Nat} (h : a < 0x100000000000) : eccCap a = memA 0x24 := if_pos h

theorem eccRing_lt {a : Nat} (h : a < 0x100000000000) : eccRing a < 64 := by
  have := lpChannel_lt a
  unfold eccRing
  rw [if_pos h]
  omega

/-- A corrected error is counted and recorded. -/
theorem eccCE_observed (s : State) {a : Nat} (h : a < 0x100000000000) :
    Observed (s.rcount (memA 0x18) 0 16 1) (s.eccCE a) := by
  unfold State.eccCE
  rw [eccReg_lpddr h]
  exact event_observed _ _ _ _ _ (eccRing_lt h) (Observed.refl _)

theorem eccWords_lpddr {a : Nat} (h : a < 0x100000000000) : eccWords a
    = (BitVec.ofNat 32 (2 ^ 31 + lpChannel a * 2 ^ 16 + a / 2 ^ 32 % 2 ^ 16), BitVec.ofNat 32 (a / 64 * 64)) :=
  if_pos h

theorem captureWord_fields {c d : Nat} (hc : c < 16) :
    let w : Word := BitVec.ofNat 32 (2 ^ 31 + c * 2 ^ 16 + d % 2 ^ 16)
    fbit w 31 = true ∧ fget w 16 4 = c := by
  have hd : d % 2 ^ 16 < 2 ^ 16 := Nat.mod_lt _ (by decide)
  constructor
  · simp only [fbit, BitVec.getLsbD_ofNat, Nat.testBit_eq_decide_div_mod_eq]
    simp only [show (31 : Nat) < 32 by decide, decide_true, Bool.true_and, decide_eq_true_eq]
    omega
  · simp only [fget, bitsOf, BitVec.toNat_ofNat, Nat.shiftRight_eq_div_pow]
    omega

/-- An uncorrectable error in LPDDR5 is counted, captured unless an earlier one stands, and recorded. -/
theorem eccUE_lpddr (s : State) {a : Nat} (h : a < 0x100000000000) (h64 : a % 64 = 0) :
    ∃ x, (∃ c e, x = { s with ctl := c, ue := e }) ∧ Observed x (s.eccUE a)
      ∧ x.rfld (memA 0x18) 16 16 = min (s.rfld (memA 0x18) 16 16 + 1) 65535
      ∧ (s.rbit (memA 0x24) 31 = false → x.rget (memA 0x20) = BitVec.ofNat 32 a ∧ x.rbit (memA 0x24) 31 = true
        ∧ x.rfld (memA 0x24) 16 4 = lpChannel a)
      ∧ ∀ b, b ≠ memA 0x18 → b ≠ memA 0x20 → b ≠ memA 0x24 → x.rget b = s.rget b := by
  refine ⟨_, ?_, event_observed _ _ _ _ _ (eccRing_lt h) (Observed.refl _), ?_⟩
  · unfold State.eccCapture State.eccShow
    dsimp only
    split_ifs <;> exact ⟨_, _, rfl⟩
  · rw [eccReg_lpddr h]
    unfold State.eccCapture
    rw [eccCap_lpddr h]
    extract_lets r w y
    have hy : ∀ b, y.rget b = (s.rcount (memA 0x18) 16 16 1).rget b := fun _ => rfl
    have hcnt : y.rfld (memA 0x18) 16 16 = min (s.rfld (memA 0x18) 16 16 + 1) 65535 :=
      (rfld_congr (hy _) 16 16).trans (rfld_rcount_self _ _ _ _ _ (by decide))
    have hv : y.rbit (memA 0x24) 31 = s.rbit (memA 0x24) 31 :=
      rbit_congr ((hy _).trans (rget_rcount_ne _ _ _ _ (by decide))) _
    rw [hv]
    split
    · next hb =>
      exact ⟨hcnt, fun hf => absurd hb (by rw [hf]; decide), fun b h1 _ _ => (hy b).trans (rget_rcount_ne _ _ _ _ h1)⟩
    · obtain ⟨-, e2, e3, e4⟩ := eccShow_view y (memA 0x24) w
      have hw : w = eccWords a := rfl
      rw [eccWords_lpddr h, show a / 64 * 64 = a by omega] at hw
      obtain ⟨f1, f2⟩ := captureWord_fields (d := a / 2 ^ 32) (lpChannel_lt a)
      refine ⟨(rfld_congr (e4 _ (by decide) (fun _ => by decide)) _ _).trans hcnt, fun _ => ⟨?_, ?_, ?_⟩,
        fun b h1 h2 h3 => (e4 b h3 (fun _ => h2)).trans ((hy b).trans (rget_rcount_ne _ _ _ _ h1))⟩
      · rw [e3 rfl, hw]
      · rw [State.rbit, e2, hw]
        exact f1
      · rw [State.rfld, e2, hw]
        exact f2

/-! ## A line lost (R329, R438) -/

/-- Device-owned memory is a matter of the memory's bounds and of the partitions. -/
theorem deviceOwned_congr {s t : State} (h : ∀ b, b < memA 0x18 ∨ (memA 0x28 ≤ b ∧ b < mshA 0) →
    obsReg b = false → t.rget b = s.rget b) (a n : Nat) : t.deviceOwned a n = s.deviceOwned a n := by
  have part : ∀ p < 16, ∀ o, o < 0x40 → t.rget (partA p o) = s.rget (partA p o) := fun p hp o ho =>
    h _ (.inr ⟨by unfold partA memA; omega, by unfold partA mshA; omega⟩)
      (obsReg_dsp (by unfold partA; omega) (by unfold partA; omega))
  have hu : t.usable = s.usable := by
    unfold State.usable
    rw [rbit_congr (h _ (.inl (by decide)) (by decide))]
  have hs : t.shadow = s.shadow := by
    unfold State.shadow
    rw [rfld_congr (h _ (.inl (by decide)) (by decide)), rfld_congr (h _ (.inl (by decide)) (by decide))]
  have hp : ∀ p ∈ List.range 16, (!t.partEn p || !meets a n (t.partMem p).1 ((t.partMem p).2 - (t.partMem p).1))
      = (!s.partEn p || !meets a n (s.partMem p).1 ((s.partMem p).2 - (s.partMem p).1)) := fun p hp => by
    have hp := List.mem_range.1 hp
    unfold State.partEn State.partMem
    rw [rbit_congr (part p hp 0 (by decide)), rfld_congr (part p hp 8 (by decide)), rfld_congr (part p hp 12 (by decide))]
  have ha : (List.range 16).all (fun p => !t.partEn p || !meets a n (t.partMem p).1 ((t.partMem p).2 - (t.partMem p).1))
      = (List.range 16).all (fun p => !s.partEn p || !meets a n (s.partMem p).1 ((s.partMem p).2 - (s.partMem p).1)) := by
    rw [Bool.eq_iff_iff, List.all_eq_true, List.all_eq_true]
    exact forall₂_congr fun p h => by rw [hp p h]
  unfold State.deviceOwned
  rw [hu, hs]
  exact congrArg (_ && ·) ha

/-- What an uncorrectable line leaves, but for Marshal's report of it. -/
structure LineHit (s u : State) (a : Nat) : Prop where
  marks : s.streamsOff = true → u.mem = s.mem ∧ u.poison = (if s.fullNow a then s.poison else linsert s.poison a)
    ∧ u.lost = (if s.fullNow a then s.lost else linsert s.lost a)
  count : u.rfld (memA 0x18) 16 16 = min (s.rfld (memA 0x18) 16 16 + 1) 65535
  capture : s.rbit (memA 0x24) 31 = false → u.rget (memA 0x20) = BitVec.ofNat 32 a
    ∧ u.rbit (memA 0x24) 31 = true ∧ u.rfld (memA 0x24) 16 4 = lpChannel a

theorem rget_verdict_ne (s : State) (domain cls index cause detail : Nat) {b : Nat} (hb : b < mshA 0 ∨ mshA 0x200 ≤ b)
    (ho : obsReg b = false) : (s.verdict domain cls index cause detail).rget b = s.rget b := by
  obtain ⟨x, -, keep, hobs⟩ := verdict_view s domain cls index cause detail
  exact (hobs.regs b ho).trans (keep b hb)

/-- Marshal's report of the line adds its own registers only. -/
theorem LineHit.verdict {s t : State} {a : Nat} (h : LineHit s t a) (he : t.rget (mshA 0x3000) = s.rget (mshA 0x3000))
    (domain cls index cause detail : Nat) : LineHit s (t.verdict domain cls index cause detail) a := by
  have regs : ∀ b, b < mshA 0 → obsReg b = false → (t.verdict domain cls index cause detail).rget b = t.rget b :=
    fun b hb ho => rget_verdict_ne t _ _ _ _ _ (.inl hb) ho
  refine ⟨fun hq => ?_, (rfld_congr (regs _ (by decide) (by decide)) _ _).trans h.count, fun hv => ?_⟩
  · obtain ⟨x, ⟨c, rfl⟩, keep, hobs⟩ := verdict_view t domain cls index cause detail
    obtain ⟨q1, q2, -⟩ := hobs.quiet ((streamsOff_congr ((keep _ (.inr (by decide))).trans he)).trans hq)
    obtain ⟨m1, m2, m3⟩ := h.marks hq
    exact ⟨q1.trans m1, q2.trans m2, by rw [hobs.rest]; exact m3⟩
  · rw [regs _ (by decide) (by decide), rbit_congr (regs _ (by decide) (by decide)),
      rfld_congr (regs _ (by decide) (by decide))]
    exact h.capture hv

theorem poisonKey_lpddr {a : Nat} (h : a < 0x100000000000) (h64 : a % 64 = 0) : poisonKey a = a := by
  unfold poisonKey poisonUnit
  rw [if_pos h]
  omega

/-- The marks of a line that is lost (R329, R343). -/
def State.lineMarked (s : State) (a : Nat) : State :=
  if s.fullNow a then s else { s.mpoison a with lost := linsert s.lost a }

theorem lineMarked_view (s : State) {a : Nat} (h : a < 0x100000000000) (h64 : a % 64 = 0) :
    s.lineMarked a = { s with
      poison := if s.fullNow a then s.poison else linsert s.poison a
      lost := if s.fullNow a then s.lost else linsert s.lost a } := by
  unfold State.lineMarked
  split
  · rfl
  · rw [State.mpoison, poisonKey_lpddr h h64]

theorem lineLost_eq (s : State) (a : Nat) (own : Bool) : s.lineLost a own
    = if own && ((s.lineMarked a).eccUE a).deviceOwned a 64 then
        ((s.lineMarked a).eccUE a).verdict 0 3 (lpChannel a) 0x0B (lpChannel a)
      else (s.lineMarked a).eccUE a := rfl

theorem lineMarked_eccUE_hit (s : State) {a : Nat} (h : a < 0x100000000000) (h64 : a % 64 = 0) :
    LineHit s ((s.lineMarked a).eccUE a) a
      ∧ ∀ b, b ≠ memA 0x18 → b ≠ memA 0x20 → b ≠ memA 0x24 → obsReg b = false →
        ((s.lineMarked a).eccUE a).rget b = s.rget b := by
  rw [lineMarked_view s h h64]
  generalize hm : ({ s with poison := _, lost := _ } : State) = m
  have ctl : ∀ b, m.rget b = s.rget b := fun b => by rw [← hm]; rfl
  obtain ⟨x, ⟨c, e, hx⟩, hobs, hcnt, hcap, hreg⟩ := eccUE_lpddr m h h64
  rw [rfld_congr (ctl _)] at hcnt
  rw [rbit_congr (ctl _)] at hcap
  refine ⟨⟨fun hq => ?_, (rfld_congr (hobs.regs _ (by decide)) _ _).trans hcnt, fun hv => ?_⟩,
    fun b h1 h2 h3 h4 => (hobs.regs b h4).trans ((hreg b h1 h2 h3).trans (ctl b))⟩
  · have hx3 : x.rget (mshA 0x3000) = s.rget (mshA 0x3000) :=
      (hreg _ (by decide) (by decide) (by decide)).trans (ctl _)
    obtain ⟨q1, q2, -⟩ := hobs.quiet ((streamsOff_congr hx3).trans hq)
    rw [hobs.rest, q1, q2, hx, ← hm]
    exact ⟨rfl, rfl, rfl⟩
  · rw [hobs.regs _ (by decide), rbit_congr (hobs.regs _ (by decide)), rfld_congr (hobs.regs _ (by decide))]
    exact hcap hv

/-- A line that is lost is marked, counted and captured, and reported when Marshal or the Dispatcher reads its own. -/
theorem lineLost_hit (s : State) {a : Nat} (h : a < 0x100000000000) (h64 : a % 64 = 0) (own : Bool) :
    LineHit s (s.lineLost a own) a
      ∧ (own = true → s.deviceOwned a 64 = true → (s.lineLost a own).rget (mshA 0x08)
        = BitVec.ofNat 32 (verdictCode 0 3 (lpChannel a) 0x0B (lpChannel a)))
      ∧ (own = false ∨ s.deviceOwned a 64 = false →
        (s.lineLost a own).rget (mshA 0x08) = s.rget (mshA 0x08))
      ∧ (s.lineLost a own).rget (memA 0x1C) = s.rget (memA 0x1C) := by
  obtain ⟨hit, regs⟩ := lineMarked_eccUE_hit s h h64
  have hd : ((s.lineMarked a).eccUE a).deviceOwned a 64 = s.deviceOwned a 64 := by
    refine deviceOwned_congr (fun b hb ho => regs b ?_ ?_ ?_ ho) a 64 <;> unfold memA mshA at * <;> omega
  have h1C := regs (memA 0x1C) (by decide) (by decide) (by decide) (by decide)
  rw [lineLost_eq, hd]
  by_cases hr : (own && s.deviceOwned a 64) = true
  · rw [if_pos hr]
    rw [Bool.and_eq_true] at hr
    refine ⟨hit.verdict (regs _ (by decide) (by decide) (by decide) (by decide)) _ _ _ _ _,
      fun _ _ => rget_verdict _ _ _ _ _ _, fun hn => ?_,
      (rget_verdict_ne _ _ _ _ _ _ (.inl (by decide)) (by decide)).trans h1C⟩
    rw [hr.1, hr.2] at hn
    simp at hn
  · rw [if_neg hr]
    exact ⟨hit, fun h1 h2 => absurd (by rw [h1, h2]; rfl) hr,
      fun _ => regs _ (by decide) (by decide) (by decide) (by decide), h1C⟩

/-! ## Power-down (R27) -/

/-- The address of MEM_CH_k_STAT. -/
def chA (k : Nat) : Nat := memA (0x100 + 4 * k)

theorem mem_map_chA {l : List Nat} {j : Nat} : chA j ∈ l.map chA ↔ j ∈ l :=
  List.mem_map_of_injective (fun i j h => by unfold chA memA at h; omega)

/-- The channels in one state go to another; nothing else changes. -/
theorem channels_move (s : State) (p q : Nat) (hq : q < 4) :
    let u := s.each ((List.range 16).filter (fun k => s.chState k == p)) (fun s k => s.rfldSet (memA (0x100 + 4 * k)) 30 2 q)
    u = { s with ctl := u.ctl }
      ∧ (∀ j < 16, u.chState j = (if s.chState j = p then q else s.chState j)
        ∧ u.rfld (memA (0x100 + 4 * j)) 0 30 = s.rfld (memA (0x100 + 4 * j)) 0 30)
      ∧ ∀ b, (∀ j < 16, b ≠ memA (0x100 + 4 * j)) → u.rget b = s.rget b := by
  intro u
  have hu : ∀ b, u.rget b = _ := rget_each_rfldSet chA 30 2 q ((List.range 16).filter (fun k => s.chState k == p)) s
  refine ⟨(CtlMoved.each (fun s k => (CtlMoved.refl s).rset _ _) _ s).eq, fun j hj => ?_, fun b hb => ?_⟩
  · have hj' : u.rget (chA j) = if s.chState j = p then fset (s.rget (chA j)) 30 2 q else s.rget (chA j) := by
      simpa only [mem_map_chA, List.mem_filter, List.mem_range, hj, true_and, beq_iff_eq] using hu (chA j)
    show fget (u.rget (chA j)) 30 2 = _ ∧ fget (u.rget (chA j)) 0 30 = _
    rw [hj']
    split
    · rw [fget_fset_self _ _ _ _ (by decide), fget_fset_ne _ _ _ _ _ _ (by decide)]
      exact ⟨Nat.mod_eq_of_lt hq, rfl⟩
    · exact ⟨rfl, rfl⟩
  · rw [hu b, if_neg]
    intro hm
    obtain ⟨j, hj, rfl⟩ := List.mem_map.1 hm
    exact hb j (List.mem_range.1 (List.mem_filter.1 hj).1) rfl

/-! ## Patrol scrub (R331) -/

/-- The line that the scrub checks next lies in LPDDR5. -/
theorem scrubAddr_lpddr {s : State} {k n x : Nat} (hk : k < 16) (hn : n < s.scrubLines)
    (h : scrubAddr k n = some x) : x < 0x100000000000 ∧ x % 64 = 0 := by
  have hn : n < 2 ^ 26 := by
    unfold State.scrubLines at hn
    split at hn <;> omega
  unfold scrubAddr at h
  dsimp only at h
  generalize hb : (n / 2 ^ 25 * 0x7C000000 + 64 * (n % 2 ^ 25)) / 64 = b at h
  have hx : k ^^^ bitsOf (b * 1024) 18 4 < 2 ^ 4 := Nat.xor_lt_two_pow hk (Nat.mod_lt _ (by decide))
  generalize k ^^^ bitsOf (b * 1024) 18 4 = c at h hx
  obtain ⟨-, he⟩ := Option.ite_none_left_eq_some.1 h
  have he := Option.some.inj he
  omega

/-- The scrub of channel k goes on to its next line. -/
def State.scrubbing (s : State) (k : Nat) : State :=
  { s.onBus k with scrub := tput s.scrub k ((tget 0 s.scrub k + 1) % s.scrubLines) }

section
variable {k : Fin 16} {s : State}
  (due : s.rfld (memA 0x10) 0 16 ≠ 0 ∧ s.chState k.val = 0 ∧ s.boot.mem = 3) (f : Fin 3)
include due

theorem scrub_due : ¬ (s.rfld (memA 0x10) 0 16 = 0 ∨ s.chState k.val ≠ 0 ∨ s.boot.mem ≠ 3) := by
  obtain ⟨h1, h2, h3⟩ := due
  rintro (h | h | h)
  exacts [h1 h, h h2, h h3]

theorem execPatrolScrub_written : execPatrolScrub k ⟨f, true⟩ s = .next (s.scrubbing k.val) :=
  congrArg Host.Outcome.next ((if_neg (scrub_due due)).trans rfl)

theorem execPatrolScrub_line {x : Nat} (hx : scrubAddr k.val (tget 0 s.scrub k.val) = some x) :
    execPatrolScrub k ⟨f, false⟩ s = .next (if f.val = 2 || s.poisoned x 64 then ((s.scrubbing k.val).mpoison x).eccUE x
      else if f.val = 1 then (s.scrubbing k.val).eccCE x else s.scrubbing k.val) := by
  refine congrArg Host.Outcome.next ((if_neg (scrub_due due)).trans ?_)
  dsimp only
  rw [hx]
  rfl

theorem execPatrolScrub_check (hx : scrubAddr k.val (tget 0 s.scrub k.val) = none) :
    execPatrolScrub k ⟨f, false⟩ s = .next (if f.val = 2 then (s.scrubbing k.val).rcount (memA 0x18) 16 16 1
      else if f.val = 1 then (s.scrubbing k.val).rcount (memA 0x18) 0 16 1 else s.scrubbing k.val) := by
  refine congrArg Host.Outcome.next ((if_neg (scrub_due due)).trans ?_)
  dsimp only
  rw [hx]
  rfl

end

/-- A line that the scrub finds uncorrectable, or poisoned, is marked, counted and captured. -/
theorem scrubbed_view (v : State) {x : Nat} (h : x < 0x100000000000) (h64 : x % 64 = 0) :
    ((v.mpoison x).eccUE x).scrub = v.scrub
      ∧ ((v.mpoison x).eccUE x).rfld (memA 0x18) 16 16 = min (v.rfld (memA 0x18) 16 16 + 1) 65535
      ∧ (v.streamsOff = true → ((v.mpoison x).eccUE x).poison = linsert v.poison x
        ∧ ((v.mpoison x).eccUE x).mem = v.mem) := by
  obtain ⟨y, ⟨c, e, hy⟩, hobs, hcnt, -, hreg⟩ := eccUE_lpddr (v.mpoison x) h h64
  refine ⟨by rw [hobs.rest, hy]; rfl, (rfld_congr (hobs.regs _ (by decide)) _ _).trans hcnt, fun hq => ?_⟩
  obtain ⟨q1, q2, -⟩ := hobs.quiet
    ((streamsOff_congr (hreg _ (by decide) (by decide) (by decide))).trans hq)
  rw [q1, q2, hy]
  exact ⟨congrArg (linsert v.poison) (poisonKey_lpddr h h64), rfl⟩

/-! ## Refresh rates (R326, R345) -/

/-- The state that a refresh-rate field leaves before its event. -/
def State.rated (s : State) (k rate : Nat) : State :=
  let s := s.rfldSet (chA k) 0 5 rate
  s.rbitSet (memA 0x04) 30 ((List.range 16).any (fun j => s.rfld (chA j) 0 5 == 31))

theorem chA_ne_stat (k : Nat) : chA k ≠ memA 0x04 := by
  unfold chA memA
  omega

theorem obsReg_chA {k : Nat} (h : k < 16) : obsReg (chA k) = false := by
  obtain ⟨j, rfl⟩ : ∃ j : Fin 16, k = j.val := ⟨⟨k, h⟩, rfl⟩
  revert j
  decide

theorem rated_ctl (s : State) (k rate : Nat) : CtlMoved s (s.rated k rate) := ((CtlMoved.refl s).rset _ _).rset _ _

theorem rget_rated_ne (s : State) {k b : Nat} (rate : Nat) (h1 : b ≠ chA k) (h2 : b ≠ memA 0x04) :
    (s.rated k rate).rget b = s.rget b :=
  (rget_rbitSet_ne _ _ _ h2).trans (rget_rfldSet_ne _ _ _ _ h1)

theorem rated_rate (s : State) (k : Nat) {rate : Nat} (h : rate < 32) : (s.rated k rate).rfld (chA k) 0 5 = rate := by
  unfold State.rated
  rw [rfld_congr (rget_rbitSet_ne _ _ _ (chA_ne_stat k)), rfld_rfldSet_self _ _ _ _ _ (by decide)]
  exact Nat.mod_eq_of_lt h

/-- HOT shows whether a channel's field is code 31. -/
theorem rated_hot (s : State) {k rate : Nat} (hk : k < 16) (h : rate < 32) : (s.rated k rate).rbit (memA 0x04) 30 = true
    ↔ rate = 31 ∨ ∃ j < 16, j ≠ k ∧ s.rfld (chA j) 0 5 = 31 := by
  have own : (s.rfldSet (chA k) 0 5 rate).rfld (chA k) 0 5 = rate :=
    (rfld_rfldSet_self _ _ _ _ _ (by decide)).trans (Nat.mod_eq_of_lt h)
  have other : ∀ j, j ≠ k → (s.rfldSet (chA k) 0 5 rate).rfld (chA j) 0 5 = s.rfld (chA j) 0 5 := fun j hj =>
    rfld_congr (rget_rfldSet_ne _ _ _ _ (by unfold chA memA; omega)) _ _
  unfold State.rated
  rw [rbit_rbitSet_self _ _ _ _ (by decide), List.any_eq_true]
  simp only [List.mem_range, beq_iff_eq]
  constructor
  · rintro ⟨j, hj, he⟩
    by_cases hjk : j = k
    · rw [hjk, own] at he
      exact .inl he
    · exact .inr ⟨j, hj, hjk, (other j hjk).symm.trans he⟩
  · rintro (he | ⟨j, hj, hjk, he⟩)
    · exact ⟨k, hk, own.trans he⟩
    · exact ⟨j, hj, (other j hjk).trans he⟩

theorem execMr4Read_rates {s : State} {k : Fin 16} (rate : Fin 32) (h : s.chState k.val = 0) :
    ∃ u, execMr4Read k rate s = .next u ∧ Observed (s.rated k.val rate.val) u
      ∧ (rate.val = s.rfld (chA k.val) 0 5 → u = s.rated k.val rate.val) := by
  refine ⟨_, congrArg Host.Outcome.next (if_neg (not_not_intro h)), ?_, fun he => if_pos he⟩
  dsimp only
  split
  · exact .refl _
  · exact event_observed _ _ _ _ _ (by omega) (.refl _)

/-! ## Reads (R329, R330) -/

/-- A line of a channel in RUN is read, and its outcome found. -/
theorem execLpddr5ReadReply_here {s : State} {addr : BitVec 48} (o : ReadBack) {a : Nat} (ha : a = addr.toNat / 64 * 64)
    (h : a < s.usable ∧ s.chState (lpChannel a) = 0) : execLpddr5ReadReply addr o s
      = .next (match o.found.val with
        | 0 => s.onBus (lpChannel a)
        | 1 => (s.onBus (lpChannel a)).eccCE a
        | 2 => (s.onBus (lpChannel a)).lineLost a o.own
        | 3 => (s.onBus (lpChannel a)).rcount (memA 0x1C) 0 16 1
        | 4 => (s.onBus (lpChannel a)).rcount (memA 0x1C) 16 16 1
        | _ => ((s.onBus (lpChannel a)).rcount (memA 0x1C) 16 16 1).lineLost a o.own) := by
  subst ha
  refine congrArg Host.Outcome.next ((if_neg ?_).trans rfl)
  rintro (h1 | h1)
  exacts [absurd h.1 (Nat.not_lt.2 h1), h1 h.2]

/-- The line that is lost, after its channel's bus and the link's own count. -/
theorem lineLost_relinked (s : State) {a : Nat} (h : a < 0x100000000000) (h64 : a % 64 = 0) (own : Bool) {x : State}
    (hx : x = s.onBus (lpChannel a) ∨ x = (s.onBus (lpChannel a)).rcount (memA 0x1C) 16 16 1) :
    LineHit s (x.lineLost a own) a
      ∧ (own = true → s.deviceOwned a 64 = true → (x.lineLost a own).rget (mshA 0x08)
        = BitVec.ofNat 32 (verdictCode 0 3 (lpChannel a) 0x0B (lpChannel a)))
      ∧ (own = false ∨ s.deviceOwned a 64 = false → (x.lineLost a own).rget (mshA 0x08) = s.rget (mshA 0x08))
      ∧ (x.lineLost a own).rget (memA 0x1C) = x.rget (memA 0x1C) := by
  have keep : ∀ b, b ≠ memA 0x1C → x.rget b = s.rget b := fun b hb => by
    rcases hx with rfl | rfl
    · rfl
    · exact rget_rcount_ne _ _ _ _ hb
  have rest : ∃ c o, x = { s with ctl := c, obs := o } := by
    rcases hx with rfl | rfl <;> exact ⟨_, _, rfl⟩
  obtain ⟨hit, h1, h2, h3⟩ := lineLost_hit x h h64 own
  have hd : x.deviceOwned a 64 = s.deviceOwned a 64 :=
    deviceOwned_congr (fun b hb _ => keep b (by unfold memA mshA at *; omega)) a 64
  rw [hd] at h1 h2
  rw [keep _ (by decide)] at h2
  refine ⟨⟨fun hq => ?_, ?_, fun hv => ?_⟩, h1, h2, h3⟩
  · have := hit.marks ((streamsOff_congr (keep _ (by decide))).trans hq)
    obtain ⟨c, o, rfl⟩ := rest
    exact this
  · rw [hit.count, rfld_congr (keep _ (by decide))]
  · exact hit.capture ((rbit_congr (keep _ (by decide)) _).trans hv)

/-- Settles O58: the outcome of a read (`eccCE_observed`, `lineLost_relinked`), of a scrub (`scrubbed_view`), the
refresh-rate fields (`rated_hot`) and the channels in power-down (`channels_move`). -/
theorem memoryRuns : Obligations.MemoryRuns := by
  intro s addr own written k rate out found a read here lost n scrub due moves w v r powers
  have ha : a % 64 = 0 := Nat.mul_mod_left _ _
  have lt : here → a < 0x100000000000 := fun h => Nat.lt_of_lt_of_le h.1 ((usable_le s).trans (by decide))
  have hread := fun h : here => execLpddr5ReadReply_here ⟨out, own⟩ (a := a) rfl h
  refine ⟨fun h => ?_, fun h => ⟨fun h0 => ?_, fun h0 => ?_, fun h0 => ?_, fun h0 => ?_, fun h0 => ?_, fun h0 => ?_⟩,
    fun h => ?_, fun h hw => ?_, fun x h hw hn hx => ?_,
    fun h hw hx => ?_, fun h => ?_, fun h => ?_, rfl, fun h => ?_, fun h1 h2 => ?_, ?_⟩
  · refine congrArg Host.Outcome.next (if_pos ?_)
    by_contra hc
    rw [not_or, not_le, not_not] at hc
    exact h hc
  · rw [h0] at hread
    exact hread h
  · rw [h0] at hread
    exact ⟨_, hread h, eccCE_observed w (lt h)⟩
  · rw [h0] at hread
    obtain ⟨hit, h1, h2, h3⟩ := lineLost_relinked s (lt h) ha own (.inl rfl)
    exact ⟨_, hread h, ⟨hit.marks, hit.count, hit.capture, h1, h2⟩, h3⟩
  · rw [h0] at hread
    exact hread h
  · rw [h0] at hread
    exact hread h
  · rw [h0] at hread
    obtain ⟨hit, h1, h2, h3⟩ := lineLost_relinked s (lt h) ha own (.inr rfl)
    exact ⟨_, hread h, ⟨hit.marks, hit.count, hit.capture, h1, h2⟩,
      (rfld_congr h3 _ _).trans (rfld_rcount_self _ _ _ _ _ (by decide))⟩
  · refine congrArg Host.Outcome.next (if_pos ?_)
    by_contra hc
    rw [not_or, not_or, not_not, not_not] at hc
    exact h hc
  · subst hw
    exact execPatrolScrub_written h found
  · subst hw
    have hs : scrub = _ := execPatrolScrub_line h found hx
    obtain ⟨hlt, h64⟩ := scrubAddr_lpddr k.isLt hn hx
    refine ⟨fun h0 hp => ?_, fun h0 hp => ?_, fun h0 => ?_⟩
    · rw [hs, h0, hp]
      rfl
    · rw [hs, h0, hp]
      exact ⟨_, rfl, eccCE_observed v hlt⟩
    · rw [hs, if_pos (by simpa using h0)]
      exact ⟨_, rfl, scrubbed_view v hlt h64⟩
  · subst hw
    have hs : scrub = _ := execPatrolScrub_check h found hx
    refine ⟨fun h0 => ?_, fun h0 => ?_, fun h0 => ?_⟩ <;>
    · rw [hs, h0]
      rfl
  · exact congrArg Host.Outcome.next (if_pos h)
  · obtain ⟨u, hu, hobs, hsame⟩ := execMr4Read_rates rate h
    have stat := rated_ctl s k.val rate.val
    refine ⟨u, hu, ?_, ?_, fun b h1 h2 ho => (hobs.regs b ho).trans (rget_rated_ne s _ h1 h2), fun he => ?_, fun hq => ?_⟩
    · exact (rfld_congr (hobs.regs _ (obsReg_chA k.isLt)) _ _).trans (rated_rate s k.val rate.isLt)
    · rw [rbit_congr (hobs.regs _ (by decide))]
      exact rated_hot s k.isLt rate.isLt
    · rw [hsame he]
      exact stat.eq
    · have he := streamsOff_congr (rget_rated_ne s rate.val (k := k.val) (b := mshA 0x3000)
        (by unfold chA memA mshA; omega) (by decide))
      obtain ⟨q1, -⟩ := hobs.quiet (he.trans hq)
      rw [q1, stat.eq]
  · refine congrArg Host.Outcome.next (if_neg ?_)
    rintro ⟨h1, h2⟩
    exact h.elim (fun k => k h1) (fun k => k h2)
  · exact ⟨_, congrArg Host.Outcome.next (if_pos ⟨h1, h2⟩), channels_move s 0 1 (by decide)⟩
  · exact ⟨_, rfl, channels_move s 1 0 (by decide)⟩

end Sys2Proof.Machine
end

section
/-!
# Writes of a loop's registers (O35)

`hostWrite_loop` takes a write of a loop's register to `State.loopWrite`, whose answer is said once for each kind of
register; a refusal does what R237 says (`loopRefuse_refuses`).
-/

namespace Sys2Proof.Machine

/-! ## The state of a loop -/

@[simp] theorem loop_setLoop (s : State) (n : Nat) (x : LoopSt) : (s.setLoop n x).loop n = x := tget_tput_self _ _ _ _

theorem loop_setLoop_ne (s : State) {n m : Nat} (x : LoopSt) (h : m ≠ n) : (s.setLoop n x).loop m = s.loop m :=
  tget_tput_ne _ _ _ h

theorem rget_setLoop (s : State) (n : Nat) (x : LoopSt) (b : Nat) : (s.setLoop n x).rget b = s.rget b := rfl

theorem PortMoved.setLoop (s : State) (n : Nat) (x : LoopSt) : PortMoved s (s.setLoop n x) := ⟨s.ctl, _, rfl⟩

theorem loopA_ne (n m : Nat) {o p : Nat} (ho : o < 0x100) (hp : p < 0x100) (h : o ≠ p) : loopA n o ≠ loopA m p := by
  unfold loopA
  omega

theorem obsReg_loop {n o : Nat} (hn : n < 1024) (ho : o < 0x100) : obsReg (loopA n o) = false := by
  have lo : 0x00100000 ≤ loopA n o := by unfold loopA; omega
  have h1 : decide (loopA n o < 0x00100000) = false := decide_eq_false (by omega)
  have h2 : decide (loopA n o < mshA 0x3050) = false := decide_eq_false (by unfold mshA; omega)
  have h3 : [netA 0 0x24, netA 0 0x28, netA 1 0x24, netA 1 0x28].contains (loopA n o) = false := by
    have : ∀ b, b < 0x00100000 → (loopA n o == b) = false := fun b hb => by simp; omega
    simp only [List.contains_cons, List.contains_nil, Bool.or_false]
    rw [this _ (by decide), this _ (by decide), this _ (by decide), this _ (by decide)]
    rfl
  simp only [obsReg, h1, h2, h3, Bool.and_false, Bool.or_false]

theorem clkState_rset_loop (s : State) (n o : Nat) (w : Word) : (s.rset (loopA n o) w).clkState = s.clkState :=
  rfld_congr (rget_rset_ne _ _ (by unfold clkStatA loopA; omega)) _ _

theorem fget_div (w : Word) (lo n : Nat) : fget w lo n = w.toNat / 2 ^ lo % 2 ^ n := by
  rw [← Nat.shiftRight_eq_div_pow]
  rfl

theorem mergeRW_all (old v : Word) : mergeRW 0xFFFFFFFF old v = v := by
  unfold mergeRW
  rw [show (0xFFFFFFFF : Word) = BitVec.allOnes 32 from rfl, BitVec.not_allOnes, BitVec.and_zero, BitVec.zero_or,
    BitVec.and_allOnes]

/-! ## A write reaches its loop (R213) -/

theorem regSpec_loop {n : Nat} (hn : n < 1024) {o : Nat} (ho : o < 0x100) (h4 : o % 4 = 0) :
    regSpec (loopA n o) = specLoop o := by
  have e : loopA n o % 0x100 = o := by unfold loopA; omega
  unfold regSpec
  rw [e]
  unfold loopA
  simp (disch := omega) only [if_neg, if_pos]

theorem fieldWrite_loop (s : State) {n : Nat} (hn : n < 1024) {o : Nat} (ho : o < 0x100) (r : RegSpec) (v : Word) :
    s.fieldWrite false (loopA n o) r v = if r.rw = 0 then
      (if s.loopEn n = false then (s.rcount (lapA 0x10) 0 32 1, false)
        else (s.plainWrite (loopA n o) r (v &&& ~~~(s.flagsSet n (loopA n o))), true))
      else s.loopWrite false n o r.rw v := by
  have e1 : (loopA n o - 0x100000) / 0x100 = n := by unfold loopA; omega
  have e2 : loopA n o % 0x100 = o := by unfold loopA; omega
  have e3 : (loopA n o - 0x100000) % 0x100 = o := by unfold loopA; omega
  have hlo : 0x100000 ≤ loopA n o ∧ loopA n o < 0x140000 := by unfold loopA; omega
  have hc : clkHoldA < 0x100000 := by decide
  have hm : mshA 0x6000 < 0x100000 := by decide
  unfold State.fieldWrite
  rw [if_neg (by omega), if_neg (by omega), if_neg (by omega), if_pos (by omega)]
  unfold State.lapWrite
  rw [if_pos hlo.2, e1, e2]
  dsimp only
  cases s.loopEn n <;> rfl

section
variable {s : State} {src : Fin 3} {n : Nat} (hn : n < 1024) {o : Nat} (ho : o < 0x100) (h4 : o % 4 = 0) {v : Word}
  (h : s.accepts src.val (loopA n o) v)
include hn ho h4 h

theorem hostWrite_loop {m : Word} (hr : (specLoop o).map RegSpec.rw = some m) (h0 : m ≠ 0) :
    s.hostWrite src (loopA n o) v = (s.loopWrite false n o m v).1 := by
  obtain ⟨r, hs, rfl⟩ := Option.map_eq_some_iff.1 hr
  rw [hostWrite_of_accepts h ((regSpec_loop hn ho h4).trans hs), fieldWrite_loop s hn ho, if_neg h0]

end

/-! ## A refusal (R237) -/

theorem loopRefuse_refuses (s : State) (n bit : Nat) : LoopRefuses s (s.loopRefuse n bit).1 n bit :=
  event_observed _ _ _ _ _ (by decide) (Observed.refl _)

/-- A refusal leaves the loop's registers but FLAGS, and counts. -/
theorem LoopRefuses.regs {s u : State} {n bit : Nat} (h : LoopRefuses s u n bit) (hn : n < 1024) {o : Nat}
    (ho : o < 0x100) (hne : o ≠ 0x64) : u.rget (loopA n o) = s.rget (loopA n o)
      ∧ (u.rget (lapA 0x10)).toNat = min ((s.rget (lapA 0x10)).toNat + 1) 0xFFFFFFFF := by
  have ho' : Observed _ u := h
  have hl : lapA 0x10 ≠ loopA n 0x64 := by unfold lapA loopA; omega
  have hf : ∀ b, b ≠ loopA n 0x64 → (s.flagged n bit).rget b = s.rget b := fun b hb => rget_rset_ne s _ hb
  constructor
  · rw [ho'.regs _ (obsReg_loop hn ho), rget_rcount_ne _ _ _ _ (by unfold lapA loopA; omega),
      hf _ (loopA_ne _ _ ho (by decide) hne)]
  · rw [ho'.regs _ (by decide), rget_rcount_self, hf _ hl]

/-- A slot with EN = 0 refuses every write of its RW registers (R213). -/
theorem loopWrite_closed {s : State} {n : Nat} (he : s.loopEn n = false) (off : Nat) (m v : Word) :
    ∃ bit, LoopRefuses s (s.loopWrite false n off m v).1 n bit := by
  unfold State.loopWrite
  dsimp only
  rw [if_pos (by rw [he]; rfl)]
  exact ⟨_, loopRefuse_refuses _ _ _⟩

/-! ## What each register of an open slot takes -/

section
variable {s : State} {n : Nat} (he : s.loopEn n = true) (m v : Word)
include he

/-- A mode request (R219, R223). -/
theorem loopWrite_mode : (s.loopWrite false n 0x00 m v).1
    = if fget v 0 2 = 3 ∨ s.isServo n = true then (s.loopRefuse n fMwref).1
      else (s.rset (loopA n 0x00) (mergeRW m (s.rget (loopA n 0x00)) v)).modLoop n (fun x =>
        if x.reqAt = some s.now then x
        else { x with reqAt := some s.now, reqPrev := s.rfld (loopA n 0x00) 0 2 }) := by
  unfold State.loopWrite
  simp only [he, Bool.not_true, Bool.false_and, Bool.false_eq_true, if_false, if_true, and_true]
  exact apply_ite Prod.fst _ _ _

/-- A coefficient (R236). -/
theorem loopWrite_coefficient {off : Nat} (ho : 0x20 ≤ off ∧ off ≤ 0x40) : (s.loopWrite false n off m v).1
    = if s.loopMode n = 2 ∨ s.rfld (loopA n 0x00) 0 2 = 2 then (s.loopRefuse n fCwref).1
      else s.rset (loopA n off) (mergeRW m (s.rget (loopA n off)) v) := by
  unfold State.loopWrite
  dsimp only
  rw [if_neg (by rw [he]; decide), if_neg (by omega), if_neg (by omega), if_pos ho]
  exact apply_ite Prod.fst _ _ _

/-- The configuration (R237). -/
theorem loopWrite_config (k : Fin 5) : (s.loopWrite false n (4 + 4 * k.val) m v).1
    = if s.loopMode n ≠ 0 ∨ s.isServo n = true
        ∨ s.cfgWriteOk n (4 + 4 * k.val) (mergeRW m (s.rget (loopA n (4 + 4 * k.val))) v) = false
      then (s.loopRefuse n fCfgref).1
      else s.rset (loopA n (4 + 4 * k.val)) (mergeRW m (s.rget (loopA n (4 + 4 * k.val))) v) := by
  unfold State.loopWrite
  dsimp only
  rw [if_neg (by rw [he]; decide), if_neg (by omega), if_pos (by omega)]
  simp only [and_true]
  exact apply_ite Prod.fst _ _ _

/-- The limits (R235). -/
theorem loopWrite_limit {off : Nat} (ho : off = 0x44 ∨ off = 0x48) : (s.loopWrite false n off 0xFFFFFFFF v).1
    = if (if off = 0x44 then v else s.rget (loopA n 0x44)).slt (if off = 0x48 then v else s.rget (loopA n 0x48)) = false
      then (s.loopRefuse n fLimref).1 else s.rset (loopA n off) v := by
  have hs : ∀ a b : Word, (a.slt b = false) = (b.toInt ≤ a.toInt) := fun a b => by
    rw [BitVec.slt, decide_eq_false_iff_not, Int.not_lt]
  unfold State.loopWrite
  dsimp only
  rw [if_neg (by rw [he]; decide), if_neg (by omega), if_neg (by omega), if_neg (by omega), if_pos ho]
  simp only [hs, mergeRW_all, apply_ite BitVec.toInt]
  exact apply_ite Prod.fst _ _ _

/-- TARGET (R228). -/
theorem loopWrite_target : (s.loopWrite false n 0x4C 0xFFFFFFFF v).1
    = if (s.loop n).emitAt = some s.now then
        ((s.setTarget n v).modLoop n (fun x => { x with hostAt := some s.now })).loopFlags n (2 ^ fTcoll)
      else (s.setTarget n v).modLoop n (fun x => { x with hostAt := some s.now }) := by
  unfold State.loopWrite
  dsimp only
  rw [if_neg (by rw [he]; decide), if_neg (by decide), if_neg (by decide), if_neg (by decide), if_neg (by decide),
    if_pos rfl, mergeRW_all]
  simp only [beq_iff_eq]

end

/-! ## Configurations out of range (R214, R215, R223, R237) -/

/-- The RW bits of CFG, PERIOD, PHASE, SRC and DST, numbered 0 to 4. -/
def cfgMask (k : Nat) : Word :=
  if k = 0 then 0x0000FFF0 else if k = 3 then 0x03FF83FF else if k = 4 then 0x000003FF else 0x00FFFFFF

theorem specLoop_config (k : Fin 5) : (specLoop (4 + 4 * k.val)).map RegSpec.rw = some (cfgMask k.val) := by
  revert k
  decide

section
variable (s : State) (n : Nat) (old v : Word)

theorem cfgWriteOk_cfg (h : v.toNat / 1024 % 4 = 3 ∨ v.toNat / 4096 % 16 = 0) :
    s.cfgWriteOk n 0x04 (mergeRW (cfgMask 0) old v) = false := by
  show (fget _ 10 2 != 3 && fget _ 12 4 != 0) = false
  rw [fget_mergeRW (by decide), fget_mergeRW (by decide), Bool.and_eq_false_iff, bne_eq_false_iff_eq, bne_eq_false_iff_eq]
  exact h

theorem cfgWriteOk_period (h : v.toNat % 2 ^ 24 < 500 ∨ 12500000 < v.toNat % 2 ^ 24
    ∨ v.toNat % 2 ^ 24 ≤ s.rfld (loopA n 0x0C) 0 24) : s.cfgWriteOk n 0x08 (mergeRW (cfgMask 1) old v) = false := by
  have e : fget (mergeRW (cfgMask 1) old v) 0 24 = v.toNat % 2 ^ 24 := by
    rw [fget_mergeRW (by decide), pow_zero, Nat.div_one]
  show (decide (500 ≤ fget _ 0 24) && decide (fget _ 0 24 ≤ 12500000) && decide (_ < fget _ 0 24) && _) = false
  rw [e]
  simp only [Bool.and_eq_false_iff, decide_eq_false_iff_not]
  omega

theorem cfgWriteOk_phase (h : s.rfld (loopA n 0x08) 0 24 ≤ v.toNat % 2 ^ 24) :
    s.cfgWriteOk n 0x0C (mergeRW (cfgMask 2) old v) = false := by
  show decide (fget _ 0 24 < _) = false
  rw [fget_mergeRW (by decide), pow_zero, Nat.div_one, decide_eq_false_iff_not]
  omega

theorem cfgWriteOk_src (h : 2 ≤ v.toNat / 256 % 4 ∨ v.getLsbD 15 = true ∧ v.toNat / 65536 % 1024 = n) :
    s.cfgWriteOk n 0x10 (mergeRW (cfgMask 3) old v) = false := by
  have e8 : fget (mergeRW (cfgMask 3) old v) 8 2 = v.toNat / 256 % 4 := fget_mergeRW (by decide) _ _
  have e16 : fget (mergeRW (cfgMask 3) old v) 16 10 = v.toNat / 65536 % 1024 := fget_mergeRW (by decide) _ _
  have e15 : fbit (mergeRW (cfgMask 3) old v) 15 = v.getLsbD 15 := by
    show (mergeRW _ _ _).getLsbD 15 = _
    rw [getLsbD_mergeRW, if_pos (by decide)]
  show (decide (fget _ 8 2 < 2) && !(fbit _ 15 && fget _ 16 10 == n) && _ && _) = false
  rw [e8, e16, e15]
  rcases h with h | ⟨h1, h2⟩
  · rw [decide_eq_false (by omega)]
    rfl
  · rw [h1, beq_iff_eq.2 h2, Bool.and_self, Bool.not_true, Bool.and_false]
    rfl

/-- Another loop drives the destination. -/
theorem drives_isSome {j ty idx : Nat} (hj : j < 1024) (hne : j ≠ n) (he : s.loopEn j = true)
    (ht : s.rfld (loopA j 0x14) 8 2 = ty) (hi : s.rfld (loopA j 0x14) 0 8 = idx) : (s.drives n ty idx).isSome = true := by
  unfold State.drives
  rw [List.find?_isSome]
  exact ⟨j, List.mem_range.2 hj, by simp [hne, he, ht, hi]⟩

theorem cfgWriteOk_dst (h : (∃ j < 1024, j ≠ n ∧ s.loopEn j = true ∧ v.toNat / 256 % 4 ∈ [1, 2]
      ∧ s.rfld (loopA j 0x14) 0 10 = v.toNat % 1024)
    ∨ v.toNat / 256 % 4 ∈ [0, 3] ∧ v.toNat % 256 ≠ 0) : s.cfgWriteOk n 0x14 (mergeRW (cfgMask 4) old v) = false := by
  have e8 : fget (mergeRW (cfgMask 4) old v) 8 2 = v.toNat / 256 % 4 := fget_mergeRW (by decide) _ _
  have e0 : fget (mergeRW (cfgMask 4) old v) 0 8 = v.toNat % 256 := by
    rw [fget_mergeRW (by decide), pow_zero, Nat.div_one]
    rfl
  show ((fget _ 8 2 != 3 || _) && (fget _ 8 2 != 1 || decide (fget _ 0 8 < 64))
      && (fget _ 8 2 == 1 || fget _ 8 2 == 2 || fget _ 0 8 == 0)
      && ((fget _ 8 2 != 1 && fget _ 8 2 != 2) || (s.drives n (fget _ 8 2) (fget _ 0 8)).isNone) && _) = false
  rw [e8, e0]
  rcases h with ⟨j, hj, hne, he, hty, hd⟩ | ⟨hty, hi⟩
  · have hd' : (s.drives n (v.toNat / 256 % 4) (v.toNat % 256)).isNone = false := by
      unfold State.rfld at hd
      rw [fget_div] at hd
      refine Option.isNone_eq_false_iff.2 (drives_isSome s n hj hne he ?_ ?_) <;> unfold State.rfld <;> rw [fget_div] <;> omega
    have ht : (v.toNat / 256 % 4 != 1 && v.toNat / 256 % 4 != 2) = false := by
      simp only [List.mem_cons, List.not_mem_nil, or_false] at hty
      rcases hty with h | h <;> rw [h] <;> rfl
    rw [hd', ht, Bool.or_self, Bool.and_false]
    rfl
  · have ht : (v.toNat / 256 % 4 == 1 || v.toNat / 256 % 4 == 2 || v.toNat % 256 == 0) = false := by
      rw [beq_eq_false_iff_ne.2 hi]
      simp only [List.mem_cons, List.not_mem_nil, or_false] at hty
      rcases hty with h | h <;> rw [h] <;> rfl
    rw [ht, Bool.and_false]
    rfl

end

/-! ## Mode requests (R24, R31, R219) -/

/-- The state after a mode request that a loop takes. -/
def State.modeWritten (s : State) (n : Nat) (v : Word) : State :=
  (s.rset (loopA n 0x00) (mergeRW 0x203 (s.rget (loopA n 0x00)) v)).modLoop n (fun x =>
    if x.reqAt = some s.now then x
    else { x with reqAt := some s.now, reqPrev := s.rfld (loopA n 0x00) 0 2 })

section
variable (s : State) (n : Nat) (v : Word)

theorem loop_modeWritten : (s.modeWritten n v).loop n = if (s.loop n).reqAt = some s.now then s.loop n
    else { s.loop n with reqAt := some s.now, reqPrev := s.rfld (loopA n 0x00) 0 2 } := loop_setLoop _ _ _

theorem clkState_modeWritten : (s.modeWritten n v).clkState = s.clkState := clkState_rset_loop s n 0x00 _

theorem isServo_modeWritten : (s.modeWritten n v).isServo n = s.isServo n :=
  congrArg (· == 1) (rfld_congr (rget_rset_ne s _ (loopA_ne n n (by decide) (by decide) (by decide))) 8 2)

/-- A boundary of the cycle does not see the request. -/
theorem modeReq_modeWritten_now : (s.modeWritten n v).modeReq n = s.modeReq n := by
  unfold State.modeReq
  rw [clkState_modeWritten, isServo_modeWritten, loop_modeWritten, show (s.modeWritten n v).now = s.now from rfl]
  dsimp only
  split
  · rfl
  · by_cases hr : (s.loop n).reqAt = some s.now
    · simp only [hr, if_true]
    · simp only [hr, if_false, if_true]

/-- In HOLD and its exit a loop other than the servo requests OPEN. -/
theorem modeReq_modeWritten_held (h : s.clkState = 2 ∨ s.clkState = 3) (hs : s.isServo n = false) (k : Nat) :
    ({ s.modeWritten n v with now := k } : State).modeReq n = 0 := by
  rw [← clkState_modeWritten s n v] at h
  rw [← isServo_modeWritten s n v] at hs
  exact if_pos ⟨h, hs⟩

/-- From the next cycle on the loop requests the mode written. -/
theorem modeReq_modeWritten_later (h2 : s.clkState ≠ 2) (h3 : s.clkState ≠ 3) {k : Nat} (hk : k ≠ s.now) :
    ({ s.modeWritten n v with now := k } : State).modeReq n = v.toNat % 4 := by
  have hr : ((s.modeWritten n v).loop n).reqAt = some s.now := by
    rw [loop_modeWritten]
    split
    · next h => exact h
    · rfl
  have hf : (s.modeWritten n v).rfld (loopA n 0x00) 0 2 = v.toNat % 4 := by
    show fget ((s.rset _ _).rget (loopA n 0x00)) 0 2 = _
    rw [rget_rset_self, fget_mergeRW (by decide), pow_zero, Nat.div_one]
    rfl
  have hne : ((s.modeWritten n v).loop n).reqAt ≠ some k := by
    rw [hr]
    exact fun h => hk (Option.some.inj h).symm
  show (if ((s.modeWritten n v).clkState = 2 ∨ (s.modeWritten n v).clkState = 3) ∧ (s.modeWritten n v).isServo n = false
    then 0 else if ((s.modeWritten n v).loop n).reqAt = some k then _ else (s.modeWritten n v).rfld (loopA n 0x00) 0 2) = _
  rw [clkState_modeWritten, if_neg (fun h => h.1.elim h2 h3), if_neg hne, hf]

end

/-! ## TARGET (R24, R228) -/

/-- The state after a host's write of TARGET, with no write of Emit in the cycle. -/
def State.targetWritten (s : State) (n : Nat) (v : Word) : State :=
  (s.setTarget n v).modLoop n (fun x => { x with hostAt := some s.now })

section
variable (s : State) (n : Nat) (v : Word)

theorem loop_targetWritten : (s.targetWritten n v).loop n = if (s.loop n).tgtAt = some s.now
    then { s.loop n with hostAt := some s.now }
    else { s.loop n with tgtAt := some s.now, tgtPrev := s.rget (loopA n 0x4C), hostAt := some s.now } := by
  have h : (s.targetWritten n v).loop n = { (s.setTarget n v).loop n with hostAt := some s.now } := loop_setLoop _ _ _
  have h' : (s.setTarget n v).loop n = if (s.loop n).tgtAt = some s.now then s.loop n
      else { s.loop n with tgtAt := some s.now, tgtPrev := s.rget (loopA n 0x4C) } := loop_setLoop _ _ _
  rw [h, h']
  split <;> rfl

theorem loop_targetWritten_ne {m : Nat} (h : m ≠ n) : (s.targetWritten n v).loop m = s.loop m :=
  (loop_setLoop_ne _ _ h).trans (loop_setLoop_ne _ _ h)

theorem loop_loopFlags (m : Nat) : (s.loopFlags n m).loop n = raisedBits (s.loop n) s.now m := loop_setLoop _ _ _

theorem rget_loopFlags_ne (m : Nat) {b : Nat} (h : b ≠ loopA n 0x64) : (s.loopFlags n m).rget b = s.rget b :=
  rget_rset_ne s _ h

theorem loopFlags_sets {i : Nat} (h : i < 32) : (s.loopFlags n (2 ^ i)).rbit (loopA n 0x64) i = true := by
  show fbit ((s.rset (loopA n 0x64) (s.rget (loopA n 0x64) ||| BitVec.ofNat 32 (2 ^ i))).rget (loopA n 0x64)) i = true
  rw [rget_rset_self, fbit, BitVec.getLsbD_or, BitVec.getLsbD_ofNat, Nat.testBit_two_pow_self, decide_eq_true h,
    Bool.and_self, Bool.or_true]

theorem loop_loopFlags_ne (m : Nat) {j : Nat} (h : j ≠ n) : (s.loopFlags n m).loop j = s.loop j := loop_setLoop_ne _ _ h

/-- The target that a boundary sees in a cycle. -/
theorem targetAt_congr {t : State} (hg : ∀ j o, o = 0x10 ∨ o = 0x7C → t.rget (loopA j o) = s.rget (loopA j o))
    (hn : t.now = s.now) (happ : ∀ j, (t.loop j).appAt = (s.loop j).appAt ∧ (t.loop j).appPrev = (s.loop j).appPrev)
    (htgt : (if (t.loop n).tgtAt = some s.now then (t.loop n).tgtPrev else t.rget (loopA n 0x4C))
      = if (s.loop n).tgtAt = some s.now then (s.loop n).tgtPrev else s.rget (loopA n 0x4C)) :
    t.targetAt n = s.targetAt n := by
  unfold State.targetAt
  rw [rbit_congr (hg n 0x10 (.inl rfl)), rfld_congr (hg n 0x10 (.inl rfl)), hn]
  dsimp only
  rw [(happ _).1, (happ _).2, hg _ 0x7C (.inr rfl), htgt]

/-- What a host's write of TARGET leaves, with the flag of a collision or without it. -/
structure TargetTaken (s u : State) (n : Nat) (v : Word) : Prop where
  moved : PortMoved s u
  shows : u.rget (loopA n 0x4C) = v
  keeps : ∀ b, b ≠ loopA n 0x4C → b ≠ loopA n 0x64 → u.rget b = s.rget b
  app : ∀ j, (u.loop j).appAt = (s.loop j).appAt ∧ (u.loop j).appPrev = (s.loop j).appPrev
  at' : (u.loop n).tgtAt = some s.now
  prev : (u.loop n).tgtPrev = if (s.loop n).tgtAt = some s.now then (s.loop n).tgtPrev else s.rget (loopA n 0x4C)
  host : (u.loop n).hostAt = some s.now

theorem rget_targetWritten (b : Nat) : (s.targetWritten n v).rget b = (s.rset (loopA n 0x4C) v).rget b :=
  (rget_setLoop _ _ _ _).trans (rget_setLoop _ _ _ _)

theorem rget_targetWritten_ne {b : Nat} (h : b ≠ loopA n 0x4C) : (s.targetWritten n v).rget b = s.rget b :=
  (rget_targetWritten s n v b).trans (rget_rset_ne s v h)

theorem targetWritten_moved : PortMoved s (s.targetWritten n v) :=
  ((PortMoved.rset s _ v).trans (.setLoop _ n _)).trans (.setLoop _ n _)

theorem targetWritten_taken : TargetTaken s (s.targetWritten n v) n v := by
  have hl := loop_targetWritten s n v
  refine ⟨targetWritten_moved s n v, (rget_targetWritten s n v _).trans (rget_rset_self _ _ _),
    fun b hb _ => rget_targetWritten_ne s n v hb, fun j => ?_, ?_, ?_, ?_⟩
  · by_cases hj : j = n
    · subst hj
      rw [hl]
      split <;> exact ⟨rfl, rfl⟩
    · rw [loop_targetWritten_ne s n v hj]
      exact ⟨rfl, rfl⟩
  · rw [hl]
    split
    · next h => exact h
    · rfl
  · rw [hl]
    split <;> rfl
  · rw [hl]
    split <;> rfl

end

/-- The flag of a collision with Emit changes FLAGS only. -/
theorem TargetTaken.flagged {s t : State} {n : Nat} {v : Word} (h : TargetTaken s t n v) (m : Nat) :
    TargetTaken s (t.loopFlags n m) n v := by
  have hne : loopA n 0x4C ≠ loopA n 0x64 := loopA_ne n n (by decide) (by decide) (by decide)
  have hl := loop_loopFlags t n m
  refine ⟨h.moved.trans ((PortMoved.rset t _ _).trans (.setLoop _ n _)), (rget_loopFlags_ne t n m hne).trans h.shows,
    fun b h1 h2 => (rget_loopFlags_ne t n m h2).trans (h.keeps b h1 h2),
    fun j => ?_, ?_, ?_, ?_⟩
  · by_cases hj : j = n
    · subst hj
      rw [hl]
      exact h.app j
    · rw [loop_loopFlags_ne t n m hj]
      exact h.app j
  · rw [hl]
    exact h.at'
  · rw [hl]
    exact h.prev
  · rw [hl]
    exact h.host

/-- A boundary of the cycle does not see the target written. -/
theorem TargetTaken.now {s u : State} {n : Nat} {v : Word} (h : TargetTaken s u n v) : u.targetAt n = s.targetAt n := by
  refine targetAt_congr s n (fun j o ho => h.keeps _ ?_ ?_) (by rw [h.moved.eq]) h.app ?_
  · exact loopA_ne j n (by omega) (by decide) (by omega)
  · exact loopA_ne j n (by omega) (by decide) (by omega)
  · rw [if_pos h.at', h.prev]

/-- It counts from the next cycle. -/
theorem TargetTaken.later {s u : State} {n : Nat} {v : Word} (h : TargetTaken s u n v)
    (hs : s.rbit (loopA n 0x10) 15 = false) {k : Nat} (hk : k ≠ s.now) :
    ({ u with now := k } : State).targetAt n = v := by
  have hb : u.rbit (loopA n 0x10) 15 = false := (rbit_congr (h.keeps _ (loopA_ne n n (by decide) (by decide) (by decide))
    (loopA_ne n n (by decide) (by decide) (by decide))) _).trans hs
  show (if u.rbit (loopA n 0x10) 15 then _ else if (u.loop n).tgtAt = some k then _ else u.rget (loopA n 0x4C)) = v
  rw [hb, if_neg Bool.false_ne_true, h.at', if_neg (fun e => hk (Option.some.inj e).symm), h.shows]

/-! ## The statement -/

/-- A write of FLAGS (R244). -/
theorem hostWrite_flags {s : State} {src : Fin 3} {n : Nat} (hn : n < 1024) {v : Word}
    (h : s.accepts src.val (loopA n 0x64) v) : s.hostWrite src (loopA n 0x64) v = if s.loopEn n then
      s.rset (loopA n 0x64) (plainWord 0 0x1FFF (s.rget (loopA n 0x64)) (v &&& ~~~(s.flagsSet n (loopA n 0x64))))
      else s.rcount (lapA 0x10) 0 32 1 := by
  have hr : specLoop 0x64 = some (regW1C 0x1FFF) := rfl
  rw [hostWrite_of_accepts h ((regSpec_loop hn (by decide) (by decide)).trans hr), fieldWrite_loop s hn (by decide),
    if_pos (show (regW1C 0x1FFF).rw = 0 from rfl)]
  cases s.loopEn n
  · rfl
  · refine plainWrite_eq_rset (.inr ?_)
    rw [fbit, BitVec.getLsbD_and, show (regW1C 0x1FFF).w1c.getLsbD 31 = false from rfl, Bool.and_false]

section
variable {s : State} {src : Fin 3} {n : Nat} (hn : n < 1024) {v : Word}
include hn

theorem hostWrite_mode (h : s.accepts src.val (loopA n 0x00) v) :
    s.hostWrite src (loopA n 0x00) v = (s.loopWrite false n 0x00 0x203 v).1 :=
  hostWrite_loop hn (by decide) (by decide) h rfl (by decide)

theorem hostWrite_target (h : s.accepts src.val (loopA n 0x4C) v) :
    s.hostWrite src (loopA n 0x4C) v = (s.loopWrite false n 0x4C 0xFFFFFFFF v).1 :=
  hostWrite_loop hn (by decide) (by decide) h rfl (by decide)

theorem hostWrite_limit (hi : Bool) (h : s.accepts src.val (loopA n (if hi then 0x48 else 0x44)) v) :
    s.hostWrite src (loopA n (if hi then 0x48 else 0x44)) v
      = (s.loopWrite false n (if hi then 0x48 else 0x44) 0xFFFFFFFF v).1 := by
  cases hi
  · exact hostWrite_loop hn (by decide) (by decide) h rfl (by decide)
  · exact hostWrite_loop hn (by decide) (by decide) h rfl (by decide)

theorem hostWrite_config (k : Fin 5) (h : s.accepts src.val (loopA n (4 + 4 * k.val)) v) :
    s.hostWrite src (loopA n (4 + 4 * k.val)) v = (s.loopWrite false n (4 + 4 * k.val) (cfgMask k.val) v).1 :=
  hostWrite_loop hn (by omega) (by omega) h (specLoop_config k) (by unfold cfgMask; split_ifs <;> decide)

/-- The RW bits of B0 to B3, A1 to A3, BSH and ASH, numbered 0 to 8. -/
def coefMask (k : Nat) : Word := if k = 7 then 0x000FFFFF else if k = 8 then 0x00007FFF else 0xFFFFFFFF

omit hn in
theorem specLoop_coefficient (k : Fin 9) : (specLoop (0x20 + 4 * k.val)).map RegSpec.rw = some (coefMask k.val) := by
  revert k
  decide

theorem hostWrite_coefficient (k : Fin 9) (h : s.accepts src.val (loopA n (0x20 + 4 * k.val)) v) :
    s.hostWrite src (loopA n (0x20 + 4 * k.val)) v = (s.loopWrite false n (0x20 + 4 * k.val) (coefMask k.val) v).1 :=
  hostWrite_loop hn (by omega) (by omega) h (specLoop_coefficient k) (by unfold coefMask; split_ifs <;> decide)

end

/-- A slot with EN = 0 keeps its register and counts the refusal (R213, R237). -/
theorem closed_write_refused {s : State} {src : Fin 3} {n : Nat} (hn : n < 1024) {v m : Word} (he : s.loopEn n = false)
    {off : Nat} (hw : s.hostWrite src (loopA n off) v = (s.loopWrite false n off m v).1) (ho : off < 0x100)
    (hne : off ≠ 0x64) : ∃ u, (Host.Outcome.next (s.hostWrite src (loopA n off) v) : Out) = .next u
      ∧ u.rget (loopA n off) = s.rget (loopA n off)
      ∧ (u.rget (lapA 0x10)).toNat = min ((s.rget (lapA 0x10)).toNat + 1) 0xFFFFFFFF := by
  obtain ⟨bit, hr⟩ := loopWrite_closed he off m v
  rw [← hw] at hr
  exact ⟨_, rfl, hr.regs hn ho hne⟩

/-- A configuration that its ranges refuse (R237). -/
theorem config_refused {s : State} {n : Nat} {v : Word} {k : Fin 5} (hb :
    s.loopMode n ≠ 0 ∨ s.isServo n = true
      ∨ (k.val = 0 ∧ (v.toNat / 1024 % 4 = 3 ∨ v.toNat / 4096 % 16 = 0))
      ∨ (k.val = 1 ∧ (v.toNat % 2 ^ 24 < 500 ∨ 12500000 < v.toNat % 2 ^ 24
        ∨ v.toNat % 2 ^ 24 ≤ s.rfld (loopA n 0x0C) 0 24))
      ∨ (k.val = 2 ∧ s.rfld (loopA n 0x08) 0 24 ≤ v.toNat % 2 ^ 24)
      ∨ (k.val = 3 ∧ (2 ≤ v.toNat / 256 % 4 ∨ v.getLsbD 15 = true ∧ v.toNat / 65536 % 1024 = n))
      ∨ (k.val = 4 ∧ ∃ j < 1024, j ≠ n ∧ s.loopEn j = true ∧ v.toNat / 256 % 4 ∈ [1, 2]
        ∧ s.rfld (loopA j 0x14) 0 10 = v.toNat % 1024)
      ∨ (k.val = 4 ∧ v.toNat / 256 % 4 ∈ [0, 3] ∧ v.toNat % 256 ≠ 0)) (old : Word) :
    s.loopMode n ≠ 0 ∨ s.isServo n = true ∨ s.cfgWriteOk n (4 + 4 * k.val) (mergeRW (cfgMask k.val) old v) = false := by
  rcases hb with h | h | ⟨hk, h⟩ | ⟨hk, h⟩ | ⟨hk, h⟩ | ⟨hk, h⟩ | ⟨hk, h⟩ | ⟨hk, h⟩
  · exact .inl h
  · exact .inr (.inl h)
  all_goals
    refine .inr (.inr ?_)
    rw [hk]
  · exact cfgWriteOk_cfg s n old v h
  · exact cfgWriteOk_period s n old v h
  · exact cfgWriteOk_phase s n old v h
  · exact cfgWriteOk_src s n old v h
  · exact cfgWriteOk_dst s n old v (.inl h)
  · exact cfgWriteOk_dst s n old v (.inr h)

/-- Settles O35: what a loop's register takes (`loopWrite_mode`, `loopWrite_coefficient`, `loopWrite_config`,
`loopWrite_limit`, `loopWrite_target`), and what a slot with EN = 0 refuses (`loopWrite_closed`). -/
theorem loopWrites : Obligations.LoopWrites := by
  intro s src n v acc put refused
  have hn := n.isLt
  have hput : ∀ off m, put off m = s.rset (loopA n.val off) (mergeRW m (s.rget (loopA n.val off)) v) := fun off m => by
    show s.rset _ (plainWord _ _ _ _) = _
    rw [plainWord_zero]
  refine ⟨fun he => ⟨fun ha hv hs => ?_, fun ha hv => ?_, fun k ha => ?_, fun k ha => ?_, fun hi ha => ?_, fun ha => ?_⟩,
    fun he k hi c off hc ha => ?_, fun ha => ?_⟩
  · have hw : exec (.ctrl src n v) s = .next (s.modeWritten n.val v) := by
      refine congrArg Host.Outcome.next ((hostWrite_mode hn ha).trans ((loopWrite_mode he _ v).trans (if_neg ?_)))
      rw [fget_div, pow_zero, Nat.div_one, hs]
      simpa using hv
    refine ⟨_, hw, ?_, modeReq_modeWritten_now s n.val v, fun h2 h3 k hk => ?_, fun h k => ?_⟩
    · rw [hput]
      rfl
    · exact modeReq_modeWritten_later s n.val v h2 h3 hk
    · exact modeReq_modeWritten_held s n.val v h hs k
  · refine ⟨_, congrArg Host.Outcome.next ((hostWrite_mode hn ha).trans ((loopWrite_mode he _ v).trans (if_pos ?_))),
      loopRefuse_refuses _ _ _⟩
    rwa [fget_div, pow_zero, Nat.div_one]
  · have hw := (hostWrite_coefficient hn k ha).trans (loopWrite_coefficient he _ v ⟨by omega, by omega⟩)
    refine ⟨fun h1 h2 => ?_, fun h => ?_⟩
    · rw [hput]
      exact congrArg Host.Outcome.next (hw.trans (if_neg (not_or.2 ⟨h1, h2⟩)))
    · exact ⟨_, congrArg Host.Outcome.next (hw.trans (if_pos h)), loopRefuse_refuses _ _ _⟩
  · intro m w
    have hw := (hostWrite_config hn k ha).trans (loopWrite_config he _ v k)
    refine ⟨fun h1 h2 h3 => ?_, fun h => ?_⟩
    · rw [hput]
      refine congrArg Host.Outcome.next (hw.trans (if_neg ?_))
      have hok : s.cfgWriteOk n.val (4 + 4 * k.val) (plainWord (cfgMask k.val) 0 (s.rget (loopA n.val (4 + 4 * k.val))) v)
          = true := h3
      rw [← plainWord_zero, h2, hok]
      simp [h1]
    · exact ⟨_, congrArg Host.Outcome.next (hw.trans (if_pos (config_refused h _))), loopRefuse_refuses _ _ _⟩
  · intro low high
    have hw := (hostWrite_limit hn hi ha).trans (loopWrite_limit he v (by cases hi <;> decide))
    have hl : (if (if hi then 0x48 else 0x44) = 0x44 then v else s.rget (loopA n.val 0x44)) = low := by
      cases hi <;> rfl
    have hh : (if (if hi then 0x48 else 0x44) = 0x48 then v else s.rget (loopA n.val 0x48)) = high := by
      cases hi <;> rfl
    rw [hl, hh] at hw
    refine ⟨fun h => congrArg Host.Outcome.next (hw.trans (if_neg (by rw [h]; decide))), fun h =>
      ⟨_, congrArg Host.Outcome.next (hw.trans (if_pos h)), loopRefuse_refuses _ _ _⟩⟩
  · have hw := (hostWrite_target hn ha).trans (loopWrite_target he v)
    have ht : TargetTaken s (s.hostWrite src (loopA n.val 0x4C) v) n.val v := by
      rw [hw]
      split
      · exact (targetWritten_taken s n.val v).flagged _
      · exact targetWritten_taken s n.val v
    refine ⟨_, rfl, ht.moved.eq, ht.shows, ht.now, fun hb k hk => ht.later hb hk, ht.host, fun hne b hb => ?_, fun hem => ?_⟩
    · rw [hw, if_neg hne]
      exact rget_targetWritten_ne s n.val v hb
    · rw [hw, if_pos hem]
      exact loopFlags_sets _ n.val (by decide)
  · rcases hc with ⟨rfl, rfl⟩ | ⟨rfl, rfl⟩ | ⟨j, rfl, rfl⟩ | ⟨rfl, rfl⟩ | ⟨rfl, rfl⟩
    · exact closed_write_refused hn he (hostWrite_mode hn ha) (by decide) (by decide)
    · exact closed_write_refused hn he (hostWrite_coefficient hn k ha) (by omega) (by omega)
    · exact closed_write_refused hn he (hostWrite_config hn j ha) (by omega) (by omega)
    · exact closed_write_refused hn he (hostWrite_limit hn hi ha) (by cases hi <;> decide) (by cases hi <;> decide)
    · exact closed_write_refused hn he (hostWrite_target hn ha) (by decide) (by decide)
  · intro old x now
    have e : (BitVec.ofNat 32 (loopA n.val 0x64)).toNat = loopA n.val 0x64 :=
      (BitVec.toNat_ofNat _ _).trans (Nat.mod_eq_of_lt (by unfold loopA; omega))
    have hf : s.flagsSet n.val (loopA n.val 0x64) = now := by
      unfold State.flagsSet
      simp only [true_and]
      rfl
    have hw := hostWrite_flags hn ha
    rw [hf] at hw
    show Host.Outcome.next (s.hostWrite src (BitVec.ofNat 32 (loopA n.val 0x64)).toNat v) = _
    rw [e]
    exact congrArg Host.Outcome.next hw

end Sys2Proof.Machine
end

section
/-!
# Device HOLD (O40)

A write of CLK_HOLD is `State.holdWrite`; the end of HOLD's entry and of its exit are taken apart into the moves of the
links (`linkOff_off`), of the time (`Steered`) and of fields of registers.
-/

namespace Sys2Proof.Machine

/-! ## The write of CLK_HOLD (R29-R31) -/

theorem hostWrite_hold {s : State} {src : Fin 3} {v : Word} (h : s.accepts src.val clkHoldA v) :
    s.hostWrite src clkHoldA v = (s.holdWrite v).1 := by
  rw [hostWrite_of_accepts (r := ⟨0x23000000, 0, 0xC0000000, 0, 0, 0x03000000⟩) h rfl]
  unfold State.fieldWrite
  rw [if_pos rfl]

/-- CLK_HOLD with the RW bits of a word written. -/
def State.holdPut (s : State) (v : Word) : State := s.rset clkHoldA (plainWord 0x23000000 0 (s.rget clkHoldA) v)

/-- REQ and EXIT are no bits that the register keeps. -/
theorem mergeRW_or {m c : Word} (h : c &&& m = 0#32) (old v : Word) : mergeRW m old (v ||| c) = mergeRW m old v := by
  unfold mergeRW
  rw [BitVec.and_or_distrib_right, h, BitVec.or_zero]

theorem holdPut_or {c : Word} (h : c &&& 0x23000000 = 0#32) (s : State) (v : Word) :
    s.rset clkHoldA (mergeRW 0x23000000 (s.rget clkHoldA) (v ||| c)) = s.holdPut v := by
  rw [mergeRW_or h, State.holdPut, plainWord_zero]

section
variable (s : State) (v : Word)

theorem rget_holdPut_ne {b : Nat} (h : b ≠ clkHoldA) : (s.holdPut v).rget b = s.rget b := rget_rset_ne _ _ h

theorem clkState_holdPut : (s.holdPut v).clkState = s.clkState := rfld_congr (rget_holdPut_ne s v (by decide)) _ _

theorem role_holdPut : (s.holdPut v).role = s.role := rfld_congr (rget_holdPut_ne s v (by decide)) _ _

theorem holdIndex_holdPut : (s.holdPut v).holdIndex = s.holdIndex := by
  have hr : (s.holdPut v).member = s.member := by
    unfold State.member
    rw [role_holdPut]
    rfl
  unfold State.holdIndex State.boundsTo State.switchTime State.armed State.rbit State.rfld
  rw [hr]
  simp (disch := decide) only [rget_holdPut_ne]
  rfl

end

/-- Something that stands in the way of HOLD: the phase, an exit, or a partition that recovers (R29). -/
def State.holdBusy (s : State) : Prop :=
  s.phase ≠ .service ∨ s.clkState = 3 ∨ ∃ p < 16, s.partState p = 2 ∨ s.partState p = 3

/-- A loop other than the servo is closed. -/
def State.someClosed (s : State) : Prop :=
  ∃ n < 1024, s.loopEn n = true ∧ s.isServo n = false ∧ s.loopMode n ≠ 0

/-- No port that is to be kept has its link. -/
def State.unkept (s : State) (keep : Nat → Bool) : Prop := ∀ k < 2, keep k = false ∨ s.linkUp k = false

theorem loopsClosed_iff (s : State) : s.loopsClosed = true ↔ s.someClosed := by
  simp only [State.loopsClosed, State.someClosed, List.any_eq_true, List.mem_range, Bool.and_eq_true,
    Bool.not_eq_true', bne_iff_ne, and_assoc]

theorem someClosed_congr {s t : State} (h : ∀ n < 1024, ∀ o < 0x100, t.rget (loopA n o) = s.rget (loopA n o)) :
    t.someClosed ↔ s.someClosed := by
  refine exists_congr fun n => and_congr_right fun hn => ?_
  unfold State.loopEn State.isServo State.loopMode
  rw [rbit_congr (h n hn _ (by decide)), rfld_congr (h n hn _ (by decide)), rfld_congr (h n hn _ (by decide))]

/-- The first case of R29 that holds decides. -/
theorem holdCause_cases (s : State) :
    (s.holdBusy → s.holdCause false = 1) ∧ (¬ s.holdBusy → s.someClosed → s.holdCause false = 2)
      ∧ (¬ s.holdBusy → ¬ s.someClosed → s.role = 2 → s.holdCause false = 3)
      ∧ (¬ s.holdBusy → ¬ s.someClosed → s.role ≠ 2 → s.unkept (fun k => s.rbit clkHoldA (24 + k)) →
        s.holdCause false = 4)
      ∧ (¬ s.holdBusy → ¬ s.someClosed → s.role ≠ 2 → ¬ s.unkept (fun k => s.rbit clkHoldA (24 + k)) →
        s.holdCause false = 0) := by
  have hb : (s.phase ≠ .service ∨ s.clkState = 3
      ∨ (List.range 16).any (fun p => s.partState p == 2 || s.partState p == 3) = true) ↔ s.holdBusy := by
    simp only [State.holdBusy, List.any_eq_true, List.mem_range, Bool.or_eq_true, beq_iff_eq]
  have hc := loopsClosed_iff s
  have ha : [0, 1].all (fun k => !(s.rbit clkHoldA (24 + k) && s.linkUp k)) = true
      ↔ s.unkept (fun k => s.rbit clkHoldA (24 + k)) := by
    simp only [State.unkept, List.all_eq_true, List.mem_cons, List.not_mem_nil, or_false, Bool.not_eq_true',
      Bool.and_eq_false_iff]
    exact forall_congr' fun k => ⟨fun h hk => h (by omega), fun h hk => h (by omega)⟩
  unfold State.holdCause
  refine ⟨fun h1 => if_pos (hb.2 h1), fun h1 h2 => ?_, fun h1 h2 h3 => ?_, fun h1 h2 h3 h4 => ?_, fun h1 h2 h3 h4 => ?_⟩
  · rw [if_neg (hb.not.2 h1), if_pos (hc.2 h2)]
  · rw [if_neg (hb.not.2 h1), if_neg (hc.not.2 h2), if_pos ⟨rfl, h3⟩]
  · rw [if_neg (hb.not.2 h1), if_neg (hc.not.2 h2), if_neg (fun h => h3 h.2), if_pos (ha.2 h4)]
  · rw [if_neg (hb.not.2 h1), if_neg (hc.not.2 h2), if_neg (fun h => h3 h.2), if_neg (ha.not.2 h4)]

section
variable (s : State) (v : Word)

theorem holdBusy_holdPut : (s.holdPut v).holdBusy ↔ s.holdBusy := by
  unfold State.holdBusy
  rw [clkState_holdPut]
  refine or_congr_right (or_congr_right (exists_congr fun p => and_congr_right fun hp => ?_))
  unfold State.partState
  rw [rfld_congr (rget_holdPut_ne s v (by unfold partA clkHoldA; omega))]

theorem someClosed_holdPut : (s.holdPut v).someClosed ↔ s.someClosed :=
  someClosed_congr fun n _ o _ => rget_holdPut_ne s v (by unfold loopA clkHoldA; omega)

/-- NETKEEP reads as it has been written. -/
theorem unkept_holdPut : (s.holdPut v).unkept (fun k => (s.holdPut v).rbit clkHoldA (24 + k))
    ↔ s.unkept (fun k => v.getLsbD (24 + k)) := by
  refine forall_congr' fun k => forall_congr' fun hk => ?_
  have h1 : (s.holdPut v).rbit clkHoldA (24 + k) = v.getLsbD (24 + k) := by
    show fbit ((s.rset clkHoldA _).rget clkHoldA) (24 + k) = _
    rw [rget_rset_self, plainWord_zero, fbit, getLsbD_mergeRW]
    have : k = 0 ∨ k = 1 := by omega
    rcases this with rfl | rfl <;> rw [if_pos (by decide)]
  have h2 : (s.holdPut v).linkUp k = s.linkUp k :=
    rbit_congr (rget_holdPut_ne s v (by unfold netA clkHoldA; omega)) _
  show (s.holdPut v).rbit clkHoldA (24 + k) = false ∨ (s.holdPut v).linkUp k = false ↔ _
  rw [h1, h2]

end

/-- What HOLD's entry writes when it is accepted (R30). -/
def State.holdEnters (s : State) (casc : Bool) : State :=
  ({ s with dsp := { s.dsp with
      holdAt := if casc then none else some (s.nsUp + 10000)
      holdIdx := if casc then s.holdIndex else none } } : State).holdAccept casc

/-- A write of REQ without EXIT (R29, R30). -/
theorem holdWrite_req {s : State} {v : Word} (h30 : fbit v 30 = false) :
    (s.holdWrite (v ||| 0x80000000)).1 = if s.clkState = 0 ∨ s.clkState = 3 then
        (if (s.holdPut v).holdCause false ≠ 0 then (s.holdPut v).holdRefused ((s.holdPut v).holdCause false)
          else (s.holdPut v).holdEnters (fbit v 29 && s.role == 1))
      else s.holdPut v := by
  have h1 : fbit (v ||| 0x80000000) 30 = false := by
    rw [fbit, BitVec.getLsbD_or, show (0x80000000 : Word).getLsbD 30 = false from rfl, Bool.or_false]
    exact h30
  have h2 : fbit (v ||| 0x80000000) 31 = true := by
    rw [fbit, BitVec.getLsbD_or, show (0x80000000 : Word).getLsbD 31 = true from rfl, Bool.or_true]
  have h3 : fbit (v ||| 0x80000000) 29 = fbit v 29 := by
    rw [fbit, BitVec.getLsbD_or, show (0x80000000 : Word).getLsbD 29 = false from rfl, Bool.or_false]
    rfl
  unfold State.holdWrite
  dsimp only
  rw [holdPut_or (by decide), h1, h2, h3, clkState_holdPut, role_holdPut]
  simp only [Bool.false_eq_true, if_false, Bool.true_and, Bool.or_eq_true, beq_iff_eq]
  split
  · split <;> rfl
  · rfl

/-- A write of EXIT without REQ (R31). -/
theorem holdWrite_exit {s : State} {v : Word} (h31 : fbit v 31 = false) :
    (s.holdWrite (v ||| 0x40000000)).1 = if s.clkState = 2 then (s.holdPut v).exitHold
      else if s.clkState = 1 then { s.holdPut v with casc := { s.casc with exitReq := true } } else s.holdPut v := by
  have h1 : fbit (v ||| 0x40000000) 31 = false := by
    rw [fbit, BitVec.getLsbD_or, show (0x40000000 : Word).getLsbD 31 = false from rfl, Bool.or_false]
    exact h31
  have h2 : fbit (v ||| 0x40000000) 30 = true := by
    rw [fbit, BitVec.getLsbD_or, show (0x40000000 : Word).getLsbD 30 = true from rfl, Bool.or_true]
  unfold State.holdWrite
  dsimp only
  rw [holdPut_or (by decide), h1, h2, clkState_holdPut]
  rfl

/-- HOLD is entered: ENTERING, and the boundary at which the Dispatcher stops (R30). -/
theorem holdEnters_view (s : State) (v : Word) (casc : Bool) :
    let u := (s.holdPut v).holdEnters casc
    u.clkState = 1 ∧ u.rbit clkStatA 28 = casc ∧ u.rget clkHoldA = (s.holdPut v).rget clkHoldA
      ∧ u = { s with ctl := u.ctl, dsp := { s.dsp with
          holdAt := if casc then none else some (s.nsUp + 10000)
          holdIdx := if casc then s.holdIndex else none } }
      ∧ ∀ a, a ≠ clkHoldA → a ≠ clkStatA → u.rget a = s.rget a := by
  intro u
  have hu : ∀ b, u.rget b = (((s.holdPut v).rfldSet clkStatA 30 2 1).rbitSet clkStatA 28 casc).rget b := fun _ => rfl
  have hreg : ∀ b, b ≠ clkStatA → u.rget b = (s.holdPut v).rget b := fun b hb =>
    (hu b).trans ((rget_rbitSet_ne _ _ _ hb).trans (rget_rfldSet_ne _ _ _ _ hb))
  refine ⟨?_, ?_, hreg _ (by decide), ?_, fun a h1 h2 => (hreg a h2).trans (rget_holdPut_ne s v h1)⟩
  · exact (rfld_congr (hu _) _ _).trans ((rfld_rbitSet_ne _ _ _ _ _ _ (by decide)).trans
      (rfld_rfldSet_self _ _ _ _ _ (by decide)))
  · exact (rbit_congr (hu _) _).trans (rbit_rbitSet_self _ _ _ _ (by decide))
  · rw [← holdIndex_holdPut s v]
    rfl

/-- A request in RUN or in an exit is refused with the first case of R29 that holds, or begins HOLD's entry. -/
theorem hold_req_cases {s : State} {src : Fin 3} {v : Word} (ha : s.accepts src.val clkHoldA (v ||| 0x80000000))
    (h30 : v.getLsbD 30 = false) (h : s.clkState = 0 ∨ s.clkState = 3) :
    let u := s.hostWrite src clkHoldA (v ||| 0x80000000)
    let keep (k : Nat) : Bool := v.getLsbD (24 + k)
    (s.holdBusy → u = (s.holdPut v).holdRefused 1)
      ∧ (¬ s.holdBusy → s.someClosed → u = (s.holdPut v).holdRefused 2)
      ∧ (¬ s.holdBusy → ¬ s.someClosed → s.role = 2 → u = (s.holdPut v).holdRefused 3)
      ∧ (¬ s.holdBusy → ¬ s.someClosed → s.role ≠ 2 → s.unkept keep → u = (s.holdPut v).holdRefused 4)
      ∧ (¬ s.holdBusy → ¬ s.someClosed → s.role ≠ 2 → ¬ s.unkept keep →
        u = (s.holdPut v).holdEnters (v.getLsbD 29 && decide (s.role = 1))) := by
  intro u keep
  have hu : u = if (s.holdPut v).holdCause false ≠ 0 then (s.holdPut v).holdRefused ((s.holdPut v).holdCause false)
      else (s.holdPut v).holdEnters (v.getLsbD 29 && decide (s.role = 1)) :=
    (hostWrite_hold ha).trans ((holdWrite_req h30).trans (if_pos h))
  obtain ⟨c1, c2, c3, c4, c5⟩ := holdCause_cases (s.holdPut v)
  rw [holdBusy_holdPut] at c1 c2 c3 c4 c5
  rw [someClosed_holdPut] at c2 c3 c4 c5
  rw [role_holdPut] at c3 c4 c5
  rw [unkept_holdPut] at c4 c5
  rw [hu]
  refine ⟨fun h1 => ?_, fun h1 h2 => ?_, fun h1 h2 h3 => ?_, fun h1 h2 h3 h4 => ?_, fun h1 h2 h3 h4 => ?_⟩
  · rw [c1 h1, if_pos (by decide)]
  · rw [c2 h1 h2, if_pos (by decide)]
  · rw [c3 h1 h2 h3, if_pos (by decide)]
  · rw [c4 h1 h2 h3 h4, if_pos (by decide)]
  · rw [c5 h1 h2 h3 h4, if_neg (by decide)]

end Sys2Proof.Machine
end

section
/-!
# HOLD's entry: the links and the time (O40)

What goes when a link or a port goes, and what the time makes of it, is said once (`Steered`): the registers outside
the ports, the loops, the mailboxes and the rings are left, and with no stream enabled the memory.
-/

namespace Sys2Proof.Machine

/-- A register that neither the time, nor a port, nor a mailbox or a ring changes. -/
abbrev steady (a : Nat) : Prop := a < 0x20000 ∨ 0x40000 ≤ a ∧ a < 0x80000

theorem obsReg_steady {a : Nat} (h : steady a) : obsReg a = false := by

  have hn : ∀ b, ¬ steady b → (a == b) = false := fun b hb => beq_false_of_ne fun e => hb (by rwa [e] at h)
  unfold obsReg
  rw [decide_eq_false (by omega : ¬ 0x000C0000 ≤ a), decide_eq_false (by unfold mshA; omega : ¬ mshA 0x3008 ≤ a)]
  simp only [List.contains_cons, List.contains_nil, Bool.false_and, Bool.false_or, Bool.or_false]
  rw [hn _ (by decide), hn _ (by decide), hn _ (by decide), hn _ (by decide)]
  rfl

/-- What a reset of link `k` drops: its rings and mailboxes, its requests, and what stood in its buffers (R383). -/
def State.linkDropped (s : State) (k : Nat) : State :=
  let ring (a : Nat) : Bool := decide (ringA (52 + k) 0 ≤ a) && decide (a < ringA (53 + k) 0)
  let mine (a : Nat) : Bool := decide (mshA (0x1000 + 0x100 * (16 + k)) ≤ a)
    && decide (a < mshA (0x1100 + 0x100 * (16 + k)))
  { s with
    ctl := s.ctl.filter (fun e => !ring e.1 && !mine e.1)
    obs := { s.obs with cnt := s.obs.cnt.filter (fun e => !mine e.1) }
    outst := s.outst.filter (fun o => o.link != k)
    links := s.links.map (fun (e : Nat × Link) => (e.1, e.2.unhold k))
    dsp := { s.dsp with held := s.dsp.held.filter (fun h => match h with
      | .packet _ j _ => j != k
      | _ => true) } }

theorem linkReset_eq (s : State) (k : Nat) :
    s.linkReset k = ((((s.linkDropped k).setLnk k {}).setLinkState k
      (if (s.linkDropped k).rbit (linkA k 0x00) 31 then 1 else 0)).each (s.outst.filter (fun o => o.link == k))
        (fun s o => if o.bib = s.ctxBib o.ctx then s.failRequest o 4 else s)).pathCheck := rfl

theorem rget_linkDropped (s : State) {k : Nat} (hk : k < 4) {a : Nat} (ha : a < mshA 0x1000 ∨ a = mshA 0x3000) :
    (s.linkDropped k).rget a = s.rget a := by
  have hr : (decide (ringA (52 + k) 0 ≤ a) && decide (a < ringA (53 + k) 0)) = false := by
    simp only [Bool.and_eq_false_iff, decide_eq_false_iff_not]
    unfold ringA
    unfold mshA at ha
    omega
  have hi : (decide (mshA (0x1000 + 0x100 * (16 + k)) ≤ a) && decide (a < mshA (0x1100 + 0x100 * (16 + k)))) = false := by
    simp only [Bool.and_eq_false_iff, decide_eq_false_iff_not]
    unfold mshA at ha ⊢
    omega
  unfold State.rget State.linkDropped
  dsimp only
  rw [tget_filter _ _ (fun a => !(decide (ringA (52 + k) 0 ≤ a) && decide (a < ringA (53 + k) 0))
    && !(decide (mshA (0x1000 + 0x100 * (16 + k)) ≤ a) && decide (a < mshA (0x1100 + 0x100 * (16 + k))))), hr, hi]
  rfl

/-- `t` follows from `s` by moves of links, ports and the time; of the steady registers those in `K` may change. -/
structure Steered (K : List Nat) (s t : State) : Prop where
  rest : t = { s with
    ctl := t.ctl, mem := t.mem, poison := t.poison, wrote := t.wrote, links := t.links, dsp := t.dsp, lap := t.lap
    obs := t.obs, time := t.time, net0 := t.net0, net1 := t.net1, outs := t.outs }
  regs : ∀ a, steady a → a ∉ K → t.rget a = s.rget a
  enable : t.rget (mshA 0x3000) = s.rget (mshA 0x3000)
  quiet : s.streamsOff = true → t.mem = s.mem

namespace Steered

variable {K L : List Nat} {r s t : State}

theorem refl (s : State) : Steered K s s := ⟨rfl, fun _ _ _ => rfl, rfl, fun _ => rfl⟩

theorem trans (h : Steered K r s) (k : Steered K s t) : Steered K r t where
  rest := by rw [k.rest, h.rest]
  regs a ha hk := (k.regs a ha hk).trans (h.regs a ha hk)
  enable := k.enable.trans h.enable
  quiet q := (k.quiet ((streamsOff_congr h.enable).trans q)).trans (h.quiet q)

theorem mono (h : Steered K s t) (hs : K ⊆ L) : Steered L s t :=
  ⟨h.rest, fun a ha hk => h.regs a ha fun hm => hk (hs hm), h.enable, h.quiet⟩

theorem rset (h : Steered K s t) {a : Nat} (v : Word) (ha : ¬ steady a ∧ a ≠ mshA 0x3000) : Steered K s (t.rset a v) where
  rest := by rw [h.rest]; rfl
  regs b hb hk := (rget_rset_ne _ _ (fun e => ha.1 (by rwa [e] at hb))).trans (h.regs b hb hk)
  enable := (rget_rset_ne _ _ (Ne.symm ha.2)).trans h.enable
  quiet := h.quiet

theorem rset_mem (h : Steered K s t) {a : Nat} (v : Word) (ha : a ∈ K) (hn : a ≠ mshA 0x3000) :
    Steered K s (t.rset a v) where
  rest := by rw [h.rest]; rfl
  regs b hb hk := (rget_rset_ne _ _ (fun e => hk (by rwa [e]))).trans (h.regs b hb hk)
  enable := (rget_rset_ne _ _ (Ne.symm hn)).trans h.enable
  quiet := h.quiet

/-- A change of what the links, ports, loops and the time hold. -/
theorem update (h : Steered K s t) (lk : List (Nat × Link)) (d : Dsp) (l : Lap) (o : Obs) (tm : Time)
    (n0 n1 : NetPort) : Steered K s { t with links := lk, dsp := d, lap := l, obs := o, time := tm, net0 := n0, net1 := n1 } where
  rest := by rw [h.rest]
  regs := h.regs
  enable := h.enable
  quiet := h.quiet

theorem event (h : Steered K s t) (q code : Nat) (w : EvOf) (d0 d1 : Nat) (hq : q < 64) :
    Steered K s (t.event q code w d0 d1) := by
  have e := event_observed q code w d0 d1 hq (.refl t)
  refine h.trans ⟨?_, fun a ha _ => e.regs a ?_, e.regs _ (by decide), fun n => (e.quiet n).1⟩
  · rw [e.rest]
  · exact obsReg_steady ha

theorem ite {c : Prop} [Decidable c] {x y : State} (hx : Steered K s x) (hy : Steered K s y) :
    Steered K s (if c then x else y) := by split <;> assumption

theorem each {α : Type} {f : State → α → State} {l : List α} (hf : ∀ x ∈ l, ∀ u, Steered K s u → Steered K s (f u x))
    (h : Steered K s t) : Steered K s (t.each l f) := by
  unfold State.each
  induction l generalizing t with
  | nil => exact h
  | cons x l ih => exact ih (fun y hy => hf y (List.mem_cons_of_mem _ hy)) (hf x List.mem_cons_self t h)

/-! ### The time (R369, R372, R374) -/

theorem setModeReq (h : Steered K s t) (n m : Nat) : Steered K s (t.setModeReq n m) :=
  (h.rset _ (by unfold loopA mshA; omega)).update _ _ _ _ _ _ _

theorem setMan (h : Steered K s t) (n : Nat) (v : Word) : Steered K s (t.setMan n v) :=
  (h.rset _ (by unfold loopA mshA; omega)).update _ _ _ _ _ _ _

theorem servoMode (h : Steered K s t) (st : Nat) : Steered K s (t.servoMode st) := by
  unfold State.servoMode
  split
  · exact h
  · exact ite (h.setModeReq _ _) ((h.setMan _ _).setModeReq _ _)

theorem setTime (h : Steered K s t) (new : Nat) : Steered K s (t.setTime new) := by
  unfold State.setTime
  extract_lets old s1 s2
  have h1 : Steered K s s1 := (h.rset _ (by decide)).servoMode _
  exact ite h (event ((ite (h1.update _ _ _ _ _ _ _) h1).update _ _ _ _ _ _ _) _ _ _ _ _ (by decide))

theorem bmca (h : Steered K s t) : Steered K s t.bmca := by
  unfold State.bmca
  extract_lets b gv capable isGm gm was wasGm slave s1 s2 s3
  have h1 : Steered K s s1 := each (fun k hk u hu => hu.rset _ ?_) h
  have h3 : Steered K s s3 :=
    ((((h1.rset _ (by decide)).rset _ (by decide)).rset _ (by decide)).rset _ (by decide)).rset _ (by decide)
  · exact ite h3 (ite (ite h3 (h3.setTime _)) (ite ((h3.rset _ (by decide)).setTime _) (ite (h3.setTime _) h3)))
  · simp only [List.mem_cons, List.not_mem_nil, or_false] at hk
    rcases hk with rfl | rfl <;> decide

theorem modPort (h : Steered K s t) (k : Nat) (f : NetPort → NetPort) : Steered K s (t.modPort k f) := by
  unfold State.modPort State.setPort
  exact ite (h.update _ _ _ _ _ _ _) (h.update _ _ _ _ _ _ _)

/-- A port's link goes (R347). -/
theorem linkDown (h : Steered K s t) {k : Nat} (hk : k < 2) : Steered K s (t.linkDown k) := by
  have ha : ¬ steady (netA k 0x18) ∧ netA k 0x18 ≠ mshA 0x3000 := by unfold netA mshA; omega
  unfold State.linkDown
  extract_lets a s1
  have h1 : Steered K s s1 := (((h.rset _ ha).rset _ ha).rset _ ha).rset _ ha
  exact (h1.modPort _ _).bmca

theorem pathCheck (h : Steered K s t) : Steered K s t.pathCheck :=
  ite (ite (h.servoMode _) (h.setTime _)) h

/-! ### The links (R383, R386) -/

theorem setLinkState (h : Steered K s t) {k : Nat} (hk : k < 4) (hm : linkA k 0x04 ∈ K) (st : Nat) :
    Steered K s (t.setLinkState k st) :=
  event (h.rset_mem _ hm (by unfold linkA mshA; omega)) _ _ _ _ _ (by omega)

/-- A link that is reset with no request outstanding. -/
theorem linkReset (h : Steered K s t) {k : Nat} (hk : k < 4) (hm : linkA k 0x04 ∈ K) (ho : s.outst = []) :
    Steered K s (t.linkReset k) := by
  have ht : t.outst = [] := by rw [h.rest]; exact ho
  have h1 : Steered K t (t.linkDropped k) := by
    refine ⟨?_, fun a ha _ => rget_linkDropped t hk (by unfold steady mshA at *; omega), rget_linkDropped t hk (.inr rfl),
      fun _ => rfl⟩
    exact congrArg (fun o => ({ t with
      ctl := (t.linkDropped k).ctl, obs := (t.linkDropped k).obs, outst := o.filter (fun x => x.link != k)
      links := (t.linkDropped k).links, dsp := (t.linkDropped k).dsp } : State)) ht |>.trans
        (congrArg (fun o => ({ t with
          ctl := (t.linkDropped k).ctl, obs := (t.linkDropped k).obs, outst := o
          links := (t.linkDropped k).links, dsp := (t.linkDropped k).dsp } : State)) ht.symm)
  rw [linkReset_eq, ht]
  exact pathCheck (((h.trans h1).update _ _ _ _ _ _ _).setLinkState hk hm _)

theorem linkOff (h : Steered K s t) {k : Nat} (hk : k < 4) (hm : linkA k 0x04 ∈ K) (ho : s.outst = []) :
    Steered K s (t.linkOff k) := (h.linkReset hk hm ho).setLinkState hk hm 0

theorem outst (h : Steered K s t) : t.outst = s.outst := by rw [h.rest]

theorem casc (h : Steered K s t) : t.casc = s.casc := by rw [h.rest]

end Steered

/-- The links' state registers. -/
def linkStats : List Nat := (List.range 4).map fun k => linkA k 0x04

theorem mem_linkStats {k : Nat} (hk : k < 4) : linkA k 0x04 ∈ linkStats :=
  List.mem_map.2 ⟨k, List.mem_range.2 hk, rfl⟩

/-- One link moves to state `v`. -/
structure LinkMoved (k v : Nat) (s t : State) : Prop where
  steered : Steered [linkA k 0x04] s t
  state : t.linkState k = v

theorem LinkMoved.linkState_ne {k v j : Nat} {s t : State} (h : LinkMoved k v s t) (hj : j < 4) (hne : j ≠ k) :
    t.linkState j = s.linkState j :=
  rfld_congr (h.steered.regs _ (by unfold linkA; omega) (by
    rw [List.mem_singleton]
    unfold linkA
    omega)) _ _

/-- Links that move to `v` in turn. -/
theorem linksMoved {f : State → Nat → State} {v : Nat} {l : List Nat} (s : State) (hl : ∀ k ∈ l, k < 4)
    (hf : ∀ k ∈ l, ∀ u, u.outst = s.outst → LinkMoved k v u (f u k)) :
    Steered linkStats s (s.each l f) ∧ ∀ j < 4, (s.each l f).linkState j = if j ∈ l then v else s.linkState j := by
  unfold State.each
  induction l generalizing s with
  | nil => exact ⟨.refl s, fun _ _ => rfl⟩
  | cons k l ih =>
    have h1 := hf k List.mem_cons_self s rfl
    obtain ⟨h2, hst⟩ := ih (f s k) (fun x hx => hl x (List.mem_cons_of_mem _ hx)) fun x hx u hu =>
      hf x (List.mem_cons_of_mem _ hx) u (hu.trans h1.steered.outst)
    have hm : [linkA k 0x04] ⊆ linkStats :=
      List.cons_subset.2 ⟨mem_linkStats (hl k List.mem_cons_self), List.nil_subset _⟩
    refine ⟨(h1.steered.mono hm).trans h2, fun j hj => (hst j hj).trans ?_⟩
    by_cases hk : j = k
    · subst hk
      rw [h1.state, ite_self, if_pos List.mem_cons_self]
    · rw [h1.linkState_ne hj hk]
      simp only [List.mem_cons, hk, false_or]

theorem linkOff_moved {s : State} (ho : s.outst = []) {k : Nat} (hk : k < 4) : LinkMoved k 0 s (s.linkOff k) :=
  ⟨(Steered.refl s).linkOff hk List.mem_cons_self ho, linkState_setLinkState _ 0 hk (by decide)⟩

theorem setLinkState_moved (s : State) {k st : Nat} (hk : k < 4) (hs : st < 16) :
    LinkMoved k st s (s.setLinkState k st) :=
  ⟨(Steered.refl s).setLinkState hk List.mem_cons_self st, linkState_setLinkState s st hk hs⟩

/-! ### A counter of a whole word -/

theorem fset_word (w : Word) (v : Nat) : fset w 0 32 v = BitVec.ofNat 32 v := by
  refine BitVec.eq_of_getLsbD_eq fun i hi => ?_
  simp only [fset_getLsbD, BitVec.getLsbD_ofNat, hi, Nat.zero_le, decide_true, Bool.true_and, Nat.zero_add, Nat.sub_zero,
    and_self, if_true]

theorem rwrap_word (s : State) (a n : Nat) : s.rwrap a 0 32 n = s.rset a (s.rget a + BitVec.ofNat 32 n) := by
  rw [State.rwrap, State.rfldSet, rfld_whole, fset_word, BitVec.ofNat_add, BitVec.ofNat_toNat, BitVec.setWidth_eq]

/-! ### HOLD is reached (R28, R30) -/

/-- The memories, the ports not kept and the time, when HOLD is reached. -/
def State.holdSettled (s : State) : State :=
  let s := s.each (List.range 16) (fun s k => s.rfldSet (chA k) 30 2 2)
  let s := s.each [0, 1] (fun s k => if !s.netOn k && s.linkUp k then s.linkDown k else s)
  let s := if s.servoLoop.isNone && s.timeState == 0 then s else s.setTime 2
  s.rwrap clkHoldCntA 0 32 1

theorem holdReached_eq (s : State) :
    s.holdReached = if s.holdSettled.casc.exitReq then s.holdSettled.exitHold else s.holdSettled := by
  unfold State.holdReached
  extract_lets s1 s2 s3 s4
  have e : s.holdSettled = s4 := rfl
  rw [e]

/-- The registers that HOLD's end of entry changes among the steady ones. -/
def holdRegs : List Nat := clkHoldCntA :: (List.range 16).map chA

theorem holdSettled_view (s : State) :
    Steered holdRegs s s.holdSettled ∧ (∀ k < 16, s.holdSettled.rfld (chA k) 30 2 = 2)
      ∧ s.holdSettled.rget clkHoldCntA = s.rget clkHoldCntA + 1 := by
  unfold State.holdSettled
  extract_lets s1 s2 s3
  have hch : Steered holdRegs s s1 := Steered.each (fun k hk u hu =>
    hu.rset_mem _ (List.mem_cons_of_mem _ (List.mem_map_of_mem hk)) (by
      have := List.mem_range.1 hk
      unfold chA memA mshA
      omega)) (.refl s)
  have h2 : Steered [] s1 s2 := Steered.each (fun k hk u hu => by
    refine Steered.ite (hu.linkDown ?_) hu
    simp only [List.mem_cons, List.not_mem_nil, or_false] at hk
    omega) (.refl s1)
  have h3 : Steered [] s1 s3 := Steered.ite h2 (h2.setTime 2)
  have hcnt : s3.rget clkHoldCntA = s.rget clkHoldCntA := by
    rw [h3.regs _ (by decide) List.not_mem_nil]
    refine (rget_each_rfldSet chA 30 2 2 (List.range 16) s _).trans (if_neg fun hm => ?_)
    obtain ⟨k, -, hk⟩ := List.mem_map.1 hm
    unfold chA memA clkHoldCntA at hk
    omega
  rw [rwrap_word]
  refine ⟨(hch.trans (h3.mono (List.nil_subset _))).rset_mem _ List.mem_cons_self (by decide), fun k hk => ?_, ?_⟩
  · have hr : s1.rget (chA k) = fset (s.rget (chA k)) 30 2 2 :=
      (rget_each_rfldSet chA 30 2 2 (List.range 16) s _).trans (if_pos (mem_map_chA.2 (List.mem_range.2 hk)))
    have he : (s3.rset clkHoldCntA (s3.rget clkHoldCntA + BitVec.ofNat 32 1)).rget (chA k) = s1.rget (chA k) :=
      (rget_rset_ne _ _ (by unfold chA memA clkHoldCntA; omega)).trans
        (h3.regs _ (by unfold chA memA; omega) List.not_mem_nil)
    unfold State.rfld
    rw [he, hr, fget_fset_self _ _ _ _ (by decide)]
    rfl
  · rw [rget_rset_self, hcnt]
    rfl

/-- What goes off when HOLD's entry ends: links, tiles, on-chip memories and what they hold (R30). -/
def State.holdCleared (s : State) : State :=
  let s := s.each (List.range 4) State.linkOff
  let s := s.tilesDo (List.range 32) (fun t s => s.setTile t { power := .hold })
  let s := { s with
    mem := s.mem.filter (fun e => decide (e.1 < 0x100000000000))
    poison := s.poison.filter (fun k => decide (k < 0x100000000000))
    stores := [], tmpls := [], saved := [], loans := []
    dsp := { s.dsp with holdAt := none, holdIdx := none } }
  (s.rfldSet clkStatA 6 6 0x3F).rfldSet clkStatA 30 2 2

theorem execHoldEntryComplete_eq (s : State) :
    execHoldEntryComplete s = .next (if s.clkState = 1 ∧ s.dsp.holdOn = true ∧ s.loopsClosed = false
      ∧ (List.range 32).all (fun t => (s.tc t).heats.isEmpty) = true then s.holdCleared.holdReached else s) := rfl

/-- Off, as HOLD leaves the device: `u` after `s`. -/
structure InHold (s u : State) : Prop where
  domains : u.rfld clkStatA 6 6 = 0x3F
  tiles : ∀ t < 32, u.tile t = { power := .hold }
  links : ∀ k < 4, u.linkState k = 0
  mem : u.mem = s.mem.filter (fun e => decide (e.1 < 0x100000000000))
  saved : u.saved = []
  loans : u.loans = []
  stores : u.stores = []

theorem InHold.mget_low {s u : State} (h : InHold s u) {a : Nat} (ha : a < 0x100000000000) : u.mget a = s.mget a := by
  unfold State.mget
  rw [h.mem, tget_filter _ _ (fun a => decide (a < 0x100000000000)), decide_eq_true ha]
  rfl

theorem InHold.mget_high {s u : State} (h : InHold s u) {a : Nat} (ha : 0x100000000000 ≤ a) :
    u.mget a = emptyByte := by
  unfold State.mget
  rw [h.mem, tget_filter _ _ (fun a => decide (a < 0x100000000000)), decide_eq_false (by omega)]
  rfl

/-- Steered moves that leave CLK_STAT and the links' states leave the device off. -/
theorem InHold.steered {K : List Nat} {s u w : State} (h : InHold s u) (hw : Steered K u w) (hc : clkStatA ∉ K)
    (hl : ∀ k < 4, linkA k 0x04 ∉ K) (hq : u.streamsOff = true) : InHold s w where
  domains := (rfld_congr (hw.regs _ (by decide) hc) _ _).trans h.domains
  tiles := by rw [hw.rest]; exact h.tiles
  links k hk := (rfld_congr (hw.regs _ (by unfold linkA; omega) (hl k hk)) _ _).trans (h.links k hk)
  mem := (hw.quiet hq).trans h.mem
  saved := by rw [hw.rest]; exact h.saved
  loans := by rw [hw.rest]; exact h.loans
  stores := by rw [hw.rest]; exact h.stores

theorem rget_exitHold_ne (s : State) {b : Nat} (h : b ≠ clkStatA) : s.exitHold.rget b = s.rget b :=
  rget_rfldSet_ne _ _ _ _ h

theorem InHold.exitHold {s u : State} (h : InHold s u) : InHold s u.exitHold where
  domains := (rfld_rfldSet_ne _ _ _ _ _ _ _ (by decide)).trans h.domains
  tiles := h.tiles
  links k hk := (rfld_congr (rget_exitHold_ne u (by unfold linkA clkStatA; omega)) _ _).trans (h.links k hk)
  mem := h.mem
  saved := h.saved
  loans := h.loans
  stores := h.stores

theorem tile_holdAll (s : State) {t : Nat} (ht : t < 32) :
    (s.tilesDo (List.range 32) (fun t s => s.setTile t { power := .hold })).tile t = { power := .hold } :=
  (tile_tilesDo_modTile (fun _ => ({ power := .hold } : Tile)) s List.nodup_range t).trans
    (if_pos (List.mem_range.2 ht))

theorem holdCleared_view (s : State) (ho : s.outst = []) (hq : s.streamsOff = true) :
    InHold s s.holdCleared ∧ s.holdCleared.clkState = 2 ∧ s.holdCleared.streamsOff = true
      ∧ s.holdCleared.casc = s.casc ∧ s.holdCleared.rget clkHoldCntA = s.rget clkHoldCntA := by
  obtain ⟨hs, hl⟩ := linksMoved (l := List.range 4) (f := State.linkOff) s (fun _ => List.mem_range.1) fun k hk u hu =>
    linkOff_moved (hu.trans ho) (List.mem_range.1 hk)
  unfold State.holdCleared
  extract_lets s1 s2 d2 s3
  have hs : Steered linkStats s s1 := hs
  have hl : ∀ k < 4, s1.linkState k = 0 := fun k hk => (hl k hk).trans (if_pos (List.mem_range.2 hk))
  have h2 : s2 = { s1 with tiles := s2.tiles } := tilesDo_setTiles (f := fun _ => { power := .hold }) s1 (List.range 32)
  have htile : ∀ t < 32, s2.tile t = { power := .hold } := fun t ht => tile_holdAll s1 ht
  clear_value s2 s1
  have hctl : s2.ctl = s1.ctl := by rw [h2]
  have hreg : ∀ b, s3.rget b = s1.rget b := rget_of_ctl (t := s3) hctl
  have hmem : s2.mem = s.mem := by rw [h2]; exact hs.quiet hq
  have hput : ∀ b, b ≠ clkStatA → ((s3.rfldSet clkStatA 6 6 0x3F).rfldSet clkStatA 30 2 2).rget b = s1.rget b :=
    fun b hb => (rget_rfldSet_ne _ _ _ _ hb).trans ((rget_rfldSet_ne _ _ _ _ hb).trans (hreg b))
  refine ⟨⟨?_, htile, fun k hk => ?_, ?_, rfl, rfl, rfl⟩, ?_, ?_, ?_, ?_⟩
  · rw [rfld_rfldSet_ne _ _ _ _ _ _ _ (by decide), rfld_rfldSet_self _ _ _ _ _ (by decide)]
    rfl
  · exact (rfld_congr (hput _ (by unfold linkA clkStatA; omega)) _ _).trans (hl k hk)
  · show s2.mem.filter _ = _
    rw [hmem]
  · exact rfld_rfldSet_self _ _ _ _ _ (by decide)
  · rw [streamsOff_congr (hput _ (by decide)), streamsOff_congr hs.enable, hq]
  · show s2.casc = _
    rw [h2]
    exact hs.casc
  · rw [hput _ (by decide)]
    exact hs.regs _ (by decide) (by decide)

/-- The end of HOLD's entry (R30). -/
theorem holdEntry_done {s : State} (hst : s.clkState = 1) (hon : s.dsp.holdOn = true) (hcl : ¬ s.someClosed)
    (hh : ∀ t < 32, (s.tc t).heats = []) (ho : s.outst = []) (hq : s.streamsOff = true) :
    ∃ u, execHoldEntryComplete s = .next u ∧ InHold s u ∧ u.clkState = (if s.casc.exitReq then 3 else 2)
      ∧ (∀ k < 16, u.rfld (chA k) 30 2 = 2) ∧ u.rget clkHoldCntA = s.rget clkHoldCntA + 1 := by
  have hdone : s.clkState = 1 ∧ s.dsp.holdOn = true ∧ s.loopsClosed = false
      ∧ (List.range 32).all (fun t => (s.tc t).heats.isEmpty) = true :=
    ⟨hst, hon, Bool.eq_false_iff.2 fun h => hcl ((loopsClosed_iff s).1 h),
      List.all_eq_true.2 fun t ht => List.isEmpty_iff.2 (hh t (List.mem_range.1 ht))⟩
  obtain ⟨hi, hc2, hso, hca, hcn⟩ := holdCleared_view s ho hq
  obtain ⟨hw, hch, hcnt⟩ := holdSettled_view s.holdCleared
  have hstat : clkStatA ∉ holdRegs := by decide
  have hiw : InHold s s.holdCleared.holdSettled := hi.steered hw hstat (fun k hk hm => by
    simp only [holdRegs, List.mem_cons, List.mem_map] at hm
    unfold linkA chA memA clkHoldCntA at hm
    obtain hm | ⟨j, -, hj⟩ := hm <;> omega) hso
  have hexit : s.holdCleared.holdSettled.casc = s.casc := hw.casc.trans hca
  rw [execHoldEntryComplete_eq, if_pos hdone, holdReached_eq, hexit]
  refine ⟨_, rfl, ?_⟩
  cases s.casc.exitReq with
  | false => exact ⟨hiw, (rfld_congr (hw.regs _ (by decide) hstat) _ _).trans hc2, hch, hcnt.trans (by rw [hcn])⟩
  | true =>
    exact ⟨hiw.exitHold, rfld_rfldSet_self _ _ _ _ _ (by decide),
      fun k hk => (rfld_congr (rget_exitHold_ne _ (by unfold chA memA clkStatA; omega)) _ _).trans (hch k hk),
      (rget_exitHold_ne _ (by decide)).trans (hcnt.trans (by rw [hcn]))⟩

end Sys2Proof.Machine
end

section
/-!
# HOLD's exit (O40)

The wake of the clusters in use, the training of the links, the reloads; then the table's first boundary at or after
now.
-/

namespace Sys2Proof.Machine

/-! ## Clusters that the image leaves unused (X1 of R38) -/

/-- Cluster `k` stays off. -/
def State.clusterOff (s : State) (k : Nat) : State :=
  (s.tilesDo (clusterTiles k) (fun t s => s.modTile t (fun x => { x with power := .hold }))).rbitSet clkStatA (8 + k) true

theorem unusedHold_eq (s : State) :
    s.unusedHold = s.each ((List.range 4).filter (fun k => !s.clusterUsed k)) State.clusterOff := rfl

theorem tilesDo_modTile (s : State) (ts : List Nat) (f : Tile → Tile) :
    ∃ x, s.tilesDo ts (fun t s => s.modTile t f) = { s with tiles := x } := ⟨_, tilesDo_setTiles s ts⟩

theorem clusterOff_rest (s : State) (k : Nat) : ∃ c ts, s.clusterOff k = { s with ctl := c, tiles := ts } := by
  obtain ⟨ts, e⟩ := tilesDo_modTile s (clusterTiles k) (fun x => { x with power := .hold })
  unfold State.clusterOff
  rw [e]
  exact ⟨_, ts, rfl⟩

theorem rget_clusterOff (s : State) (k b : Nat) :
    (s.clusterOff k).rget b = (s.rbitSet clkStatA (8 + k) true).rget b := by
  obtain ⟨ts, e⟩ := tilesDo_modTile s (clusterTiles k) (fun x => { x with power := .hold })
  unfold State.clusterOff
  rw [e]
  rfl

theorem tile_clusterOff (s : State) (k t : Nat) :
    (s.clusterOff k).tile t = if t / 8 = k then { s.tile t with power := .hold } else s.tile t := by
  have h := tile_tilesDo_modTile (fun x => { x with power := .hold }) s (nodup_clusterTiles k) t
  simp only [mem_clusterTiles] at h
  exact h

/-- Clusters that stay off one after the other. -/
theorem clustersOff {l : List Nat} (s : State) (hl : l.Nodup) (h4 : ∀ k ∈ l, k < 4) :
    (∃ c ts, s.each l State.clusterOff = { s with ctl := c, tiles := ts })
      ∧ (∀ b, b ≠ clkStatA → (s.each l State.clusterOff).rget b = s.rget b)
      ∧ (∀ j, (s.each l State.clusterOff).rbit clkStatA j = if ∃ k ∈ l, j = 8 + k then true else s.rbit clkStatA j)
      ∧ (∀ lo n, lo + n ≤ 8 ∨ 12 ≤ lo → (s.each l State.clusterOff).rfld clkStatA lo n = s.rfld clkStatA lo n)
      ∧ ∀ t, (s.each l State.clusterOff).tile t = if t / 8 ∈ l then { s.tile t with power := .hold } else s.tile t := by
  unfold State.each
  induction l generalizing s with
  | nil => exact ⟨⟨_, _, rfl⟩, fun _ _ => rfl, fun _ => by simp, fun _ _ _ => rfl, fun _ => rfl⟩
  | cons k l ih =>
    obtain ⟨hk, hl⟩ := List.nodup_cons.1 hl
    obtain ⟨⟨c, ts, h1⟩, h2, h3, hf, ht⟩ := ih (s.clusterOff k) hl fun x hx => h4 x (List.mem_cons_of_mem _ hx)
    rw [List.foldl_cons]
    refine ⟨?_, fun b hb => ?_, fun j => ?_, fun lo n h => ?_, fun t => ?_⟩
    · obtain ⟨c', ts', e⟩ := clusterOff_rest s k
      rw [h1, e]
      exact ⟨c, ts, rfl⟩
    · exact (h2 b hb).trans ((rget_clusterOff s k b).trans (rget_rbitSet_ne _ _ _ hb))
    · refine (h3 j).trans ?_
      rw [rbit_congr (rget_clusterOff s k _)]
      by_cases hj : j = 8 + k
      · subst hj
        rw [rbit_rbitSet_self _ _ _ _ (by have := h4 k List.mem_cons_self; omega)]
        simp
      · rw [rbit_rbitSet_ne _ _ _ _ _ hj]
        simp only [List.mem_cons, exists_eq_or_imp, hj, false_or]
    · have hk4 := h4 k List.mem_cons_self
      exact (hf lo n h).trans ((rfld_congr (rget_clusterOff s k _) _ _).trans
        (rfld_rbitSet_ne _ _ _ _ _ _ (by omega)))
    · refine (ht t).trans ?_
      rw [tile_clusterOff]
      by_cases hj : t / 8 = k
      · rw [if_neg (by rw [hj]; exact hk), if_pos hj, if_pos (by rw [hj]; exact List.mem_cons_self)]
      · simp only [hj, if_false, List.mem_cons, false_or]

/-! ## The wake (R31) -/

theorem getLsbD_of_fget_zero {w : Word} {lo n i : Nat} (h : fget w lo n = 0) (hi : i < n) :
    w.getLsbD (lo + i) = false := by
  have ht := fget_testBit w lo n i
  rw [h, Nat.zero_testBit, decide_eq_true hi, Bool.true_and] at ht
  exact ht.symm

theorem fget_zero_of_le {w : Word} {lo n m : Nat} (h : fget w lo n = 0) (hm : m ≤ n) : fget w lo m = 0 := by
  refine Nat.eq_of_testBit_eq fun i => ?_
  rw [fget_testBit, Nat.zero_testBit]
  by_cases hi : i < m
  · rw [getLsbD_of_fget_zero h (by omega), Bool.and_false]
  · rw [decide_eq_false hi, Bool.false_and]

/-- The domains in RUN, with every tile. -/
def State.domainsWoken (s : State) : State :=
  let s := s.rfldSet clkStatA 6 6 0
  let s := s.each (List.range 16) (fun s k => s.rfldSet (chA k) 30 2 0)
  s.tilesDo (List.range 32) (fun t s => s.setTile t { power := .run })

theorem chA_ne_clkStat (k : Nat) : chA k ≠ clkStatA := by
  unfold chA memA clkStatA
  omega

theorem domainsWoken_view (s : State) :
    let u := s.domainsWoken
    (∃ c ts, u = { s with ctl := c, tiles := ts })
      ∧ (∀ b, b ≠ clkStatA → b ∉ (List.range 16).map chA → u.rget b = s.rget b)
      ∧ u.clkState = s.clkState ∧ fget (u.rget clkStatA) 6 6 = 0 ∧ (∀ t < 32, u.tile t = { power := .run })
      ∧ ∀ k < 16, u.rfld (chA k) 30 2 = 0 := by
  intro u
  let s1 := s.rfldSet clkStatA 6 6 0
  let s2 := s1.each (List.range 16) (fun s k => s.rfldSet (chA k) 30 2 0)
  have hch : ∀ b, s2.rget b = if b ∈ (List.range 16).map chA then fset (s1.rget b) 30 2 0 else s1.rget b :=
    rget_each_rfldSet chA 30 2 0 (List.range 16) s1
  obtain ⟨c, e⟩ : CtlMoved s s2 :=
    ((CtlMoved.refl s).rset _ _).trans (CtlMoved.each (fun s k => (CtlMoved.refl s).rset _ _) _ _)
  obtain ⟨x, hu⟩ : ∃ x, u = { s2 with tiles := x } := tilesDo_modTile s2 _ (fun _ => { power := .run })
  have htile : ∀ t < 32, u.tile t = { power := .run } := fun t ht =>
    (tile_tilesDo_modTile (fun _ => ({ power := .run } : Tile)) s2 List.nodup_range t).trans
      (if_pos (List.mem_range.2 ht))
  clear_value u
  have hreg : ∀ b, u.rget b = s2.rget b := rget_of_ctl (by rw [hu])
  have hstat : u.rget clkStatA = s1.rget clkStatA := (hreg _).trans ((hch _).trans (if_neg fun hm => by
    obtain ⟨k, -, hk⟩ := List.mem_map.1 hm
    exact chA_ne_clkStat k hk))
  refine ⟨⟨c, x, by rw [hu, e]⟩, fun b hb hm => (hreg b).trans ((hch b).trans ((if_neg hm).trans
    (rget_rfldSet_ne _ _ _ _ hb))), (rfld_congr hstat _ _).trans (rfld_rfldSet_ne _ _ _ _ _ _ _ (by decide)), ?_, htile,
    fun k hk => ?_⟩
  · rw [hstat]
    exact rfld_rfldSet_self s clkStatA 6 6 0 (by decide)
  · unfold State.rfld
    rw [hreg, hch, if_pos (mem_map_chA.2 (List.mem_range.2 hk))]
    exact fget_fset_self _ _ _ _ (by decide)

theorem clusterUsed_congr {s u : State} (h : ∀ b, 0x60000 ≤ b → u.rget b = s.rget b) (k : Nat) :
    u.clusterUsed k = s.clusterUsed k := by
  have hp : ∀ p o, u.rget (partA p o) = s.rget (partA p o) := fun p o => h _ (by unfold partA; omega)
  have hc : ∀ c o, u.rget (ctxA c o) = s.rget (ctxA c o) := fun c o => h _ (by unfold ctxA; omega)
  unfold State.clusterUsed State.partEn State.ctxEn State.ctxTiles State.rbit
  simp only [hp, hc]

/-- The domains in RUN, and the clusters that the image uses. -/
def State.clustersWoken (s : State) : State := s.domainsWoken.unusedHold

theorem clustersWoken_view (s : State) :
    let u := s.clustersWoken
    (∃ c ts, u = { s with ctl := c, tiles := ts })
      ∧ (∀ b, b ≠ clkStatA → b ∉ (List.range 16).map chA → u.rget b = s.rget b)
      ∧ u.clkState = s.clkState ∧ u.rfld clkStatA 6 2 = 0
      ∧ (∀ k < 4, u.rbit clkStatA (8 + k) = !s.clusterUsed k)
      ∧ (∀ t < 32, u.tile t = { power := if s.clusterUsed (t / 8) then .run else .hold })
      ∧ ∀ k < 16, u.rfld (chA k) 30 2 = 0 := by
  intro u
  obtain ⟨⟨c, ts, hw⟩, hreg, hst, hoff, htile, hmem⟩ := domainsWoken_view s
  have hused : ∀ k, s.domainsWoken.clusterUsed k = s.clusterUsed k := clusterUsed_congr fun b hb =>
    hreg b (by unfold clkStatA; omega) fun hm => by
      obtain ⟨k, hk, hk'⟩ := List.mem_map.1 hm
      have := List.mem_range.1 hk
      unfold chA memA at hk'
      omega
  have hu : u = s.domainsWoken.each ((List.range 4).filter (fun k => !s.clusterUsed k)) State.clusterOff := by
    show s.domainsWoken.unusedHold = _
    rw [unusedHold_eq, funext hused]
  obtain ⟨⟨c', ts', h1⟩, h2, hb, hf, ht⟩ := clustersOff s.domainsWoken (List.nodup_range.filter (fun k => !s.clusterUsed k))
    fun k hk => List.mem_range.1 (List.mem_filter.1 hk).1
  rw [← hu] at h1 h2 hb hf ht
  clear_value u
  refine ⟨⟨c', ts', by rw [h1, hw]⟩, fun b hn hm => (h2 b hn).trans (hreg b hn hm), (hf 30 2 (.inr (by decide))).trans hst,
    (hf 6 2 (.inl (by decide))).trans (fget_zero_of_le hoff (by decide)), fun k hk => ?_, fun t ht' => ?_,
    fun k hk => (rfld_congr (h2 _ (chA_ne_clkStat k)) _ _).trans (hmem k hk)⟩
  · rw [hb]
    by_cases hk' : s.clusterUsed k = true
    · have hn : ¬ ∃ j ∈ (List.range 4).filter (fun k => !s.clusterUsed k), 8 + k = 8 + j := by
        rintro ⟨j, hj, he⟩
        obtain rfl : k = j := by omega
        rw [List.mem_filter, hk'] at hj
        cases hj.2
      rw [if_neg hn, hk', show 8 + k = 6 + (2 + k) by omega]
      exact getLsbD_of_fget_zero hoff (by omega)
    · rw [Bool.not_eq_true] at hk'
      rw [if_pos ⟨k, List.mem_filter.2 ⟨List.mem_range.2 hk, by rw [hk']; rfl⟩, rfl⟩, hk']
      rfl
  · rw [ht, htile t ht']
    simp only [List.mem_filter, List.mem_range, Bool.not_eq_true', show t / 8 < 4 by omega, true_and]
    cases s.clusterUsed (t / 8) <;> rfl

/-! ## Reloads and links -/

/-- The partitions that reload at HOLD's exit: enabled, and not taken down by a failed reload (R441). -/
def State.reloads (s : State) : List Nat :=
  (List.range 16).filter (fun p => s.partEn p && !s.health.dead.contains p)

theorem mem_reloads {s : State} {p : Nat} : p ∈ s.reloads ↔ p < 16 ∧ s.partEn p = true ∧ p ∉ s.health.dead := by
  simp only [State.reloads, List.mem_filter, List.mem_range, Bool.and_eq_true, Bool.not_eq_true', ← Bool.not_eq_true,
    List.contains_iff_mem]

/-- Reloads are ordered, partition by partition (R31). -/
def State.reloadsOrdered (s : State) : State :=
  let ps := s.reloads
  let s := s.each ps (fun s p => s.rfldSet (partA p 0x1C) 30 2 2)
  let s := s.each ((List.range 64).filter (fun c => s.ctxEn c && ps.contains (s.ctxPart c)))
    (fun s c => s.rfldSet (ctxA c 0x24) 29 3 1)
  s.setHealth { s.health with parts := ps.map (fun p => PartReset.mk p true false []) }

theorem reloadsOrdered_view (s : State) :
    let u := s.reloadsOrdered
    (∃ c h, u = { s with ctl := c, health := h })
      ∧ (∀ b, b ∉ s.reloads.map (fun p => partA p 0x1C) → (∀ c < 64, b ≠ ctxA c 0x24) → u.rget b = s.rget b)
      ∧ (∀ p ∈ s.reloads, u.partState p = 2 ∧ ∃ r ∈ u.health.parts, r.part = p ∧ r.force = true ∧ r.dead = false)
      ∧ ∀ c < 64, s.ctxEn c = true → s.ctxPart c ∈ s.reloads → u.ctxState c = 1 := by
  intro u
  let ps := s.reloads
  let s1 := s.each ps (fun s p => s.rfldSet (partA p 0x1C) 30 2 2)
  have h1 : ∀ b, s1.rget b = if b ∈ ps.map (fun p => partA p 0x1C) then fset (s.rget b) 30 2 2 else s.rget b :=
    rget_each_rfldSet (fun p => partA p 0x1C) 30 2 2 ps s
  let cs := (List.range 64).filter (fun c => s1.ctxEn c && ps.contains (s1.ctxPart c))
  let s2 := s1.each cs (fun s c => s.rfldSet (ctxA c 0x24) 29 3 1)
  have h2 : ∀ b, s2.rget b = if b ∈ cs.map (fun c => ctxA c 0x24) then fset (s1.rget b) 29 3 1 else s1.rget b :=
    rget_each_rfldSet (fun c => ctxA c 0x24) 29 3 1 cs s1
  have hps : ∀ p ∈ ps, p < 16 := fun p hp => (mem_reloads.1 hp).1
  have hnp : ∀ b, (∀ p < 16, b ≠ partA p 0x1C) → s1.rget b = s.rget b := fun b hb => (h1 b).trans (if_neg fun hm => by
    obtain ⟨p, hp, he⟩ := List.mem_map.1 hm
    exact hb p (hps p hp) he.symm)
  have hnc : ∀ b, (∀ c < 64, b ≠ ctxA c 0x24) → s2.rget b = s1.rget b := fun b hb => (h2 b).trans (if_neg fun hm => by
    obtain ⟨c, hc, he⟩ := List.mem_map.1 hm
    exact hb c (List.mem_range.1 (List.mem_filter.1 hc).1) he.symm)
  have hu : ∀ b, u.rget b = s2.rget b := fun b => rfl
  refine ⟨?_, fun b hp hc => (hnc b hc).trans ((h1 b).trans (if_neg hp)), fun p hp => ⟨?_, ?_⟩, fun c hc he hm => ?_⟩
  · have hm : CtlMoved s s2 := (CtlMoved.each (fun s p => (CtlMoved.refl s).rset _ _) _ _).trans
      (CtlMoved.each (fun s p => (CtlMoved.refl s).rset _ _) _ _)
    obtain ⟨c, e⟩ := hm
    exact ⟨c, u.health, by show s2.setHealth _ = _; rw [e]; rfl⟩
  · have hr : u.rget (partA p 0x1C) = fset (s.rget (partA p 0x1C)) 30 2 2 :=
      (hnc _ (fun c _ => by have := hps p hp; unfold partA ctxA; omega)).trans
        ((h1 _).trans (if_pos (List.mem_map_of_mem (f := fun p => partA p 0x1C) hp)))
    unfold State.partState State.rfld
    rw [hr]
    exact fget_fset_self _ _ _ _ (by decide)
  · exact ⟨_, List.mem_map_of_mem hp, rfl, rfl, rfl⟩
  · have hcfg : s1.rget (ctxA c 0x00) = s.rget (ctxA c 0x00) := hnp _ fun p hp => by unfold partA ctxA; omega
    have hcs : c ∈ cs := by
      rw [List.mem_filter, Bool.and_eq_true, List.contains_iff_mem]
      refine ⟨List.mem_range.2 hc, (rbit_congr hcfg _).trans he, ?_⟩
      rw [show s1.ctxPart c = s.ctxPart c from rfld_congr hcfg _ _]
      exact hm
    have hr : u.rget (ctxA c 0x24) = fset (s1.rget (ctxA c 0x24)) 29 3 1 :=
      (h2 _).trans (if_pos (List.mem_map_of_mem (f := fun c => ctxA c 0x24) hcs))
    unfold State.ctxState State.rfld
    rw [hr]
    exact fget_fset_self _ _ _ _ (by decide)

/-- The links enabled begin to train (R31). -/
def State.linksTrained (s : State) : State :=
  s.each ((List.range 4).filter (fun k => s.rbit (linkA k 0x00) 31)) (fun s k => s.setLinkState k 1)

theorem execHoldExitWakeComplete_eq (s : State) :
    execHoldExitWakeComplete s = .next (if s.clkState = 3 ∧ s.rbit clkStatA 7 = true then
      s.clustersWoken.linksTrained.reloadsOrdered else s) := rfl

theorem linksTrained_view (s : State) :
    Steered linkStats s s.linksTrained
      ∧ ∀ k < 4, s.linksTrained.linkState k = if s.rbit (linkA k 0x00) 31 then 1 else s.linkState k := by
  obtain ⟨hs, hl⟩ := linksMoved (l := (List.range 4).filter (fun k => s.rbit (linkA k 0x00) 31))
    (f := fun s k => s.setLinkState k 1) s (fun k hk => List.mem_range.1 (List.mem_filter.1 hk).1) fun k hk u _ =>
      setLinkState_moved u (List.mem_range.1 (List.mem_filter.1 hk).1) (by decide)
  refine ⟨hs, fun k hk => (hl k hk).trans ?_⟩
  simp only [List.mem_filter, List.mem_range, hk, true_and]

theorem reloads_congr {s u : State} (hp : ∀ p < 16, u.rget (partA p 0x00) = s.rget (partA p 0x00))
    (hd : u.health = s.health) : u.reloads = s.reloads := by
  unfold State.reloads
  refine List.filter_congr fun p hm => ?_
  rw [State.partEn, rbit_congr (hp p (List.mem_range.1 hm)), hd]
  rfl

/-- HOLD's exit: what a wake that is complete leaves (R31). -/
theorem holdExit_woken {s : State} (hst : s.clkState = 3) (h7 : s.rbit clkStatA 7 = true) :
    ∃ u, execHoldExitWakeComplete s = .next u
      ∧ u.clkState = 3 ∧ u.rfld clkStatA 6 2 = 0 ∧ (∀ k < 4, u.rbit clkStatA (8 + k) = !s.clusterUsed k)
      ∧ (∀ t < 32, u.tile t = { power := if s.clusterUsed (t / 8) then .run else .hold })
      ∧ (∀ k < 4, u.linkState k = if s.rbit (linkA k 0x00) 31 then 1 else s.linkState k)
      ∧ (∀ k < 16, u.rfld (chA k) 30 2 = 0)
      ∧ (∀ p ∈ s.reloads, u.partState p = 2 ∧ ∃ r ∈ u.health.parts, r.part = p ∧ r.force = true ∧ r.dead = false)
      ∧ (∀ c < 64, s.ctxEn c = true → s.ctxPart c ∈ s.reloads → u.ctxState c = 1)
      ∧ (s.streamsOff = true → u.mem = s.mem) := by
  obtain ⟨⟨c1, ts, e1⟩, w1, w2, w3, w4, w5, w6⟩ := clustersWoken_view s
  obtain ⟨hx, hl⟩ := linksTrained_view s.clustersWoken
  obtain ⟨⟨c2, h2, e2⟩, u1, u2, u3⟩ := reloadsOrdered_view s.clustersWoken.linksTrained
  rw [execHoldExitWakeComplete_eq, if_pos ⟨hst, h7⟩]
  generalize s.clustersWoken.linksTrained.reloadsOrdered = u at e2 u1 u2 u3
  generalize s.clustersWoken.linksTrained = x at hx hl e2 u1 u2 u3
  generalize s.clustersWoken = w at e1 w1 w2 w3 w4 w5 w6 hx hl
  have hw : ∀ b, (∀ k < 16, b ≠ chA k) → b ≠ clkStatA → w.rget b = s.rget b := fun b hb hn => w1 b hn fun hm => by
    obtain ⟨k, hk, he⟩ := List.mem_map.1 hm
    exact hb k (List.mem_range.1 hk) he.symm
  have hxw : ∀ b, steady b → (∀ k < 4, b ≠ linkA k 0x04) → x.rget b = w.rget b := fun b hs hb => hx.regs b hs fun hm => by
    obtain ⟨k, hk, he⟩ := List.mem_map.1 hm
    exact hb k (List.mem_range.1 hk) he.symm
  have hcfg : ∀ b, 0x60000 ≤ b → b < 0x80000 → x.rget b = s.rget b := fun b h1 h2 =>
    (hxw b (.inr ⟨by omega, h2⟩) fun k hk => by unfold linkA; omega).trans
      (hw b (fun k hk => by unfold chA memA; omega) (by unfold clkStatA; omega))
  have hlow : ∀ b, b < 0x60000 → u.rget b = x.rget b := fun b hb => u1 b (fun hm => by
    obtain ⟨p, -, he⟩ := List.mem_map.1 hm
    unfold partA at he
    omega) fun c _ => by unfold ctxA; omega
  have hstat : u.rget clkStatA = w.rget clkStatA :=
    (hlow _ (by decide)).trans (hxw _ (by decide) fun k hk => by unfold linkA clkStatA; omega)
  have hr : x.reloads = s.reloads := reloads_congr
    (fun p hp => hcfg _ (by unfold partA; omega) (by unfold partA; omega)) (by rw [hx.rest, e1])
  rw [hr] at u2 u3
  refine ⟨u, rfl, (rfld_congr hstat _ _).trans (w2.trans hst), (rfld_congr hstat _ _).trans w3,
    fun k hk => (rbit_congr hstat _).trans (w4 k hk), fun t ht => ?_, fun k hk => ?_, fun k hk => ?_, u2,
    fun c hc he hp => ?_, fun hq => ?_⟩
  · rw [← w5 t ht, e2, hx.rest]
    rfl
  · have h0 : w.rbit (linkA k 0x00) 31 = s.rbit (linkA k 0x00) 31 :=
      rbit_congr (hw _ (fun j hj => by unfold linkA chA memA; omega) (by unfold linkA clkStatA; omega)) _
    have h4 : w.linkState k = s.linkState k :=
      rfld_congr (hw _ (fun j hj => by unfold linkA chA memA; omega) (by unfold linkA clkStatA; omega)) _ _
    rw [← h0, ← h4]
    exact (rfld_congr (hlow _ (by unfold linkA; omega)) _ _).trans (hl k hk)
  · exact (rfld_congr ((hlow _ (by unfold chA memA; omega)).trans
      (hxw _ (by unfold chA memA; omega) fun j hj => by unfold linkA chA memA; omega)) _ _).trans (w6 k hk)
  · have hb : x.rget (ctxA c 0x00) = s.rget (ctxA c 0x00) := hcfg _ (by unfold ctxA; omega) (by unfold ctxA; omega)
    exact u3 c hc ((rbit_congr hb _).trans he) (by rw [show x.ctxPart c = s.ctxPart c from rfld_congr hb _ _]; exact hp)
  · have hwm : w.mem = s.mem := by rw [e1]
    have hwq : w.streamsOff = true := by
      rw [streamsOff_congr (hw _ (fun k hk => by unfold chA memA mshA; omega) (by decide)), hq]
    rw [e2]
    exact (hx.quiet hwq).trans hwm

/-! ## The table resumes (R28, R31) -/

/-- The first boundary at or after `x` on a grid of `len` from `nb`. -/
theorem resume_bounds {x nb len : Nat} (hl : 0 < len) :
    let n := if x < nb ∨ len = 0 then 0 else ceilDiv (x - nb) len
    x ≤ nb + n * len ∧ (0 < n → nb + n * len < x + len) := by
  intro n
  by_cases h : x < nb
  · have hn : n = 0 := if_pos (.inl h)
    rw [hn]
    omega
  · have hn : n = (x - nb + len - 1) / len := if_neg (by omega)
    have h1 := Nat.div_add_mod (x - nb + len - 1) len
    have h2 := Nat.mod_lt (x - nb + len - 1) hl
    rw [← hn, Nat.mul_comm] at h1
    omega

end Sys2Proof.Machine
end

section
/-! # Device HOLD (O40) -/

namespace Sys2Proof.Machine

/-- A request that finds HOLD entered or reached changes NETKEEP alone (R29). -/
theorem hold_req_put {s : State} {src : Fin 3} {v : Word} (ha : s.accepts src.val clkHoldA (v ||| 0x80000000))
    (h30 : v.getLsbD 30 = false) (h : s.clkState = 1 ∨ s.clkState = 2) :
    s.hostWrite src clkHoldA (v ||| 0x80000000) = s.holdPut v :=
  (hostWrite_hold ha).trans ((holdWrite_req h30).trans (if_neg (by omega)))

/-- A write of EXIT (R31). -/
theorem hold_exit_write {s : State} {src : Fin 3} {v : Word} (ha : s.accepts src.val clkHoldA (v ||| 0x40000000))
    (h31 : v.getLsbD 31 = false) :
    s.hostWrite src clkHoldA (v ||| 0x40000000) = if s.clkState = 2 then (s.holdPut v).exitHold
      else if s.clkState = 1 then { s.holdPut v with casc := { s.casc with exitReq := true } } else s.holdPut v :=
  (hostWrite_hold ha).trans (holdWrite_exit h31)

/-- HOLD's entry goes on until the loops are open and the tiles have no heat. -/
theorem holdEntry_waits {s : State} (h : ¬ (s.clkState = 1 ∧ s.dsp.holdOn = true ∧ ¬ s.someClosed
    ∧ ∀ t < 32, (s.tc t).heats = [])) : execHoldEntryComplete s = .next s := by
  rw [execHoldEntryComplete_eq, if_neg]
  rintro ⟨h1, h2, h3, h4⟩
  refine h ⟨h1, h2, fun hc => ?_, fun t ht => ?_⟩
  · rw [(loopsClosed_iff s).2 hc] at h3
    cases h3
  · exact List.isEmpty_iff.1 (List.all_eq_true.1 h4 t (List.mem_range.2 ht))

/-- The reloads of HOLD's exit are complete. -/
def State.reloaded (s : State) : Prop :=
  s.clkState = 3 ∧ s.rbit clkStatA 7 = false ∧ s.dsp.holdOn = true ∧ s.health.parts = []

/-- The Dispatcher goes on from boundary `b`, `n` boundaries passed over (R28). -/
def State.resumed (s : State) (b n : Nat) : State :=
  { s.rset (dspA 0x24) (s.rget (dspA 0x24) + BitVec.ofNat 32 n) with dsp := { s.dsp with
    holdOn := false, nextBound := some b, look := [], rdPos := 0, rdTime := b, rdPrev := none
    rdNext := false, rdFrom := none, rdPlace := 0 } }

theorem holdReload_cases (s : State) :
    (¬ s.reloaded → execHoldExitReloadComplete s = .next s)
      ∧ (s.reloaded → s.dsp.nextBound = none →
        execHoldExitReloadComplete s = .next { s with dsp := { s.dsp with holdOn := false } })
      ∧ ∀ nb, s.reloaded → s.dsp.nextBound = some nb →
        let len := 8 * s.rfld (dspA 0x08) 0 20
        let n := if s.nsUp < nb ∨ len = 0 then 0 else ceilDiv (s.nsUp - nb) len
        execHoldExitReloadComplete s = .next (s.resumed (nb + n * len) n) := by
  have hd : s.reloaded ↔ s.clkState = 3 ∧ s.rbit clkStatA 7 = false ∧ s.dsp.holdOn = true
      ∧ s.health.parts.isEmpty = true := by rw [State.reloaded, List.isEmpty_iff]
  unfold execHoldExitReloadComplete
  refine ⟨fun h => ?_, fun h hb => ?_, fun nb h hb => ?_⟩
  · rw [if_neg (hd.not.1 h)]
  · rw [if_pos (hd.1 h), hb]
  · rw [if_pos (hd.1 h), hb]
    dsimp only
    rw [rwrap_word, State.resumed, State.rset_dsp]

/-- Settles O40: a request is taken apart by R29's cases (`hold_req_cases`), the end of entry by what the links, the
ports and the time leave (`holdEntry_done`), the end of exit by its wake and its reloads. -/
theorem deviceHold : Obligations.DeviceHold := by
  unfold Obligations.DeviceHold
  intro s src v put busy closed alone refused
  refine ⟨fun ha h30 => ⟨fun h => congrArg Host.Outcome.next (hold_req_put ha h30 h), fun h => ?_⟩,
    fun ha h31 => congrArg Host.Outcome.next (hold_exit_write ha h31), ?_, ?_, ?_⟩
  · obtain ⟨c1, c2, c3, c4, c5⟩ := hold_req_cases ha h30 h
    refine ⟨_, rfl, c1, c2, c3, c4, fun h1 h2 h3 h4 => ?_⟩
    rw [c5 h1 h2 h3 h4]
    exact holdEnters_view s v _
  · intro done
    refine ⟨holdEntry_waits, fun hd ho hq => ?_⟩
    obtain ⟨h1, h2, h3, h4⟩ := hd
    obtain ⟨u, hu, hi, hst, hch, hcnt⟩ := holdEntry_done h1 h2 h3 h4 ho hq
    exact ⟨u, hu, hst, hi.domains, hi.tiles, hi.links, hch, hcnt, fun a => hi.mget_low, fun a => hi.mget_high,
      hi.saved, hi.loans, hi.stores⟩
  · intro done
    refine ⟨fun h => congrArg Host.Outcome.next (if_neg h), fun hd => ?_⟩
    obtain ⟨u, hu, h1, h2, h3, h4, h5, h6, h7, h8, h9⟩ := holdExit_woken hd.1 hd.2
    exact ⟨u, hu, h1, h2, h3, h4, h5, h6, fun p hp he hn => h7 p (mem_reloads.2 ⟨hp, he, hn⟩),
      fun c hc he hp hn => h8 c hc he (mem_reloads.2 ⟨fget_lt _ 16 4, hp, hn⟩), h9⟩
  · intro done
    obtain ⟨h1, h2, h3⟩ := holdReload_cases s
    refine ⟨h1, h2, fun nb hd hb hl => ?_⟩
    obtain ⟨r1, r2⟩ := resume_bounds (x := s.nsUp) (nb := nb) (len := 8 * s.rfld (dspA 0x08) 0 20) (by omega)
    exact ⟨_, _, _, h3 nb hd hb, rfl, r1, r2, rfl⟩

end Sys2Proof.Machine
end

section
/-!
# What a failed request spares (O55)

A request that fails with its link ends what waits for it, and everything that this sets going: copies end, commands
start, problems advance.  None of it touches a port, a link's state or the last verdict (`Spares`).
-/

namespace Sys2Proof.Machine

/-- The state registers of the links, and the verdict that Marshal shows. -/
abbrev guarded (a : Nat) : Prop := (a % 256 = 4 ∧ 0x41000 ≤ a ∧ a < 0x41400) ∨ a = 0x80008

theorem guarded_linkStat {k : Nat} (h : k < 4) : guarded (linkA k 0x04) := by
  unfold linkA
  omega

theorem guarded_verdict : guarded (mshA 0x08) := .inr rfl

theorem obsReg_guarded {a : Nat} (h : guarded a) : obsReg a = false := by
  have hn : ∀ b, ¬ guarded b → (a == b) = false := fun b hb => beq_false_of_ne fun e => hb (by rwa [e] at h)
  unfold obsReg
  rw [decide_eq_false (by omega : ¬ 0x000C0000 ≤ a), decide_eq_false (by unfold mshA; omega : ¬ mshA 0x3008 ≤ a)]
  simp only [List.contains_cons, List.contains_nil, Bool.false_and, Bool.false_or, Bool.or_false]
  rw [hn _ (by decide), hn _ (by decide), hn _ (by decide), hn _ (by decide)]
  rfl

/-- An address whose memory's error registers lie apart from the verdict: any that a memory has. -/
abbrev apart (k : Nat) : Prop := k < 0x102000000000 ∨ 0x103000000000 ≤ k

/-- `t` has the ports and the guarded registers of `s`. -/
structure Spares (s t : State) : Prop where
  net0 : t.net0 = s.net0
  net1 : t.net1 = s.net1
  regs : ∀ a, guarded a → t.rget a = s.rget a

namespace Spares

variable {s t u : State}

theorem refl (s : State) : Spares s s := ⟨rfl, rfl, fun _ _ => rfl⟩

theorem trans (h : Spares s t) (k : Spares t u) : Spares s u :=
  ⟨k.net0.trans h.net0, k.net1.trans h.net1, fun a ha => (k.regs a ha).trans (h.regs a ha)⟩

/-- What leaves registers and ports. -/
theorem same (h : Spares s t) (hc : u.ctl = t.ctl) (h0 : u.net0 = t.net0) (h1 : u.net1 = t.net1) : Spares s u :=
  h.trans ⟨h0, h1, fun a _ => rget_of_ctl hc a⟩

theorem templates (h : Spares s t) (x : Tab TmplSt) (q : List EmitWrite) :
    Spares s { t with tmpls := x, emitQ := q } := h.same rfl rfl rfl

theorem rset (h : Spares s t) {a : Nat} (v : Word) (ha : ¬ guarded a) : Spares s (t.rset a v) :=
  h.trans ⟨rfl, rfl, fun b hb => rget_rset_ne _ _ fun e => ha (by rwa [e] at hb)⟩

theorem observed (h : Spares s t) (o : Observed t u) : Spares s u :=
  h.trans ⟨by rw [o.rest], by rw [o.rest], fun a ha => o.regs a (obsReg_guarded ha)⟩

theorem ite {c : Prop} [Decidable c] {x y : State} (hx : Spares s x) (hy : Spares s y) :
    Spares s (if c then x else y) := by split <;> assumption

theorem foldl {α : Type} {f : State → α → State} {l : List α} (hf : ∀ x ∈ l, ∀ u, Spares s u → Spares s (f u x))
    (h : Spares s t) : Spares s (l.foldl f t) := by
  induction l generalizing t with
  | nil => exact h
  | cons x l ih => exact ih (fun y hy => hf y (List.mem_cons_of_mem _ hy)) (hf x List.mem_cons_self t h)

theorem foldl_fst {α β : Type} {f : State × β → α → State × β} {l : List α} {a : State × β}
    (hf : ∀ b x, Spares s b.1 → Spares s (f b x).1) (h : Spares s a.1) : Spares s (l.foldl f a).1 := by
  induction l generalizing a with
  | nil => exact h
  | cons x l ih => exact ih (hf a x h)

theorem each {α : Type} {f : State → α → State} {l : List α} (hf : ∀ x ∈ l, ∀ u, Spares s u → Spares s (f u x))
    (h : Spares s t) : Spares s (t.each l f) := foldl hf h

/-! ### Tiles -/

theorem modTile (h : Spares s t) (x : Nat) (f : Tile → Tile) : Spares s (t.modTile x f) := h.same rfl rfl rfl

theorem modTc (h : Spares s t) (x : Nat) (f : TCtx → TCtx) : Spares s (t.modTc x f) := h.same rfl rfl rfl

/-! ### Events and faults -/

theorem rsetWords (h : Spares s t) {a : Nat} (ha : 0x90000 ≤ a) (l : List Word) : Spares s (t.rsetWords a l) := by
  induction l generalizing t a with
  | nil => exact h
  | cons w l ih => exact ih (h.rset w (by omega)) (by omega)

theorem event (h : Spares s t) (q code : Nat) (w : EvOf) (d0 d1 : Nat) : Spares s (t.event q code w d0 d1) := by
  unfold State.event
  extract_lets n st b s1
  exact ((h.rsetWords (by unfold ringA; omega) _).rset _ (by unfold ringA; omega)).observed (streamRec_observed _ _ _ _)

theorem eventCtx (h : Spares s t) (q code c heat layer oper d0 d1 : Nat) :
    Spares s (t.eventCtx q code c heat layer oper d0 d1) := h.event _ _ _ _ _

theorem eventTile (h : Spares s t) (x code d0 d1 : Nat) (ids : Option CmdIds) :
    Spares s (t.eventTile x code d0 d1 ids) := h.event _ _ _ _ _

theorem acct (h : Spares s t) (c : Nat) (f : Acct → Acct) : Spares s (t.acct c f) :=
  ite (h.same rfl rfl rfl) h

theorem reportFault (h : Spares s t) (cause c x cls : Nat) : Spares s (t.reportFault cause c x cls) := by
  unfold State.reportFault
  extract_lets w s1 s2 s3
  have h2 : Spares s s2 := ((h.acct _ _).rset _ (by unfold ctxA; omega)).rset _ (by unfold ctxA; omega)
  have h3 : Spares s s3 := h2.rset _ (by
    have : s2.ctxPart c < 16 := fget_lt _ 16 4
    unfold partA
    omega)
  exact ite h3 (h3.same rfl rfl rfl)

theorem faultTile (h : Spares s t) (x c cause cls : Nat) (ids : Option CmdIds) :
    Spares s (t.faultTile x c cause cls ids) := by
  have h1 := (h.reportFault cause c x cls).eventTile x 0x06 cause x ids
  exact ite (h1.eventTile _ _ _ _ _) h1

theorem faultDsp (h : Spares s t) (c cause cls : Nat) : Spares s (t.faultDsp c cause cls) := by
  have h1 : Spares s ((t.reportFault cause c 0 cls).eventCtx 56 0x06 c 0 0 0 cause 0) :=
    (h.reportFault cause c 0 cls).event _ _ _ _ _
  exact ite (h1.event _ _ _ _ _) h1

/-! ### Poison that is read -/

theorem eccUE (h : Spares s t) {k : Nat} (hk : apart k) : Spares s (t.eccUE k) := by
  have hr : ¬ guarded (eccReg k) ∧ ¬ guarded (eccReg k + 4) := by
    unfold eccReg memA tileA
    split
    · omega
    · split <;> omega
  have hc : ¬ guarded (eccCap k) := by
    unfold eccCap
    split
    · unfold memA
      omega
    · exact hr.2
  refine event ?_ _ _ _ _ _
  unfold State.eccCapture
  extract_lets r w s1
  have h1 : Spares s s1 := (h.rset _ hr.1).same rfl rfl rfl
  refine ite h1 ?_
  unfold State.eccShow
  exact (ite (h1.rset _ (by decide)) h1).rset _ hc

theorem takePoison (h : Spares s t) {k : Nat} (hk : apart k) : Spares s (t.takePoison k) :=
  ite (h.same rfl rfl rfl) (h.eccUE hk)

end Spares

/-- Bytes whose poisoned units are apart. -/
def apartBytes (a n : Nat) : Prop := a + n ≤ 0x102000000000 ∨ 0x103000000100 ≤ a

theorem shareA_scratch (s : State) (t c o : Nat) : 0x200000000000 ≤ s.shareA t c o := by
  unfold State.shareA spadBase
  omega

/-- Ranges of bytes in scratchpads. -/
def OnScratch (l : List (Nat × Nat)) : Prop := ∀ r ∈ l, 0x200000000000 ≤ r.1

namespace OnScratch

variable {l m : List (Nat × Nat)}

theorem nil : OnScratch [] := fun _ h => absurd h List.not_mem_nil

theorem cons {a n : Nat} (h : 0x200000000000 ≤ a) (hl : OnScratch l) : OnScratch ((a, n) :: l) :=
  List.forall_mem_cons.2 ⟨h, hl⟩

theorem one {a n : Nat} (h : 0x200000000000 ≤ a) : OnScratch [(a, n)] := cons h nil

theorem append (hl : OnScratch l) (hm : OnScratch m) : OnScratch (l ++ m) := List.forall_mem_append.2 ⟨hl, hm⟩

theorem ite {c : Prop} [Decidable c] (hl : OnScratch l) (hm : OnScratch m) : OnScratch (if c then l else m) := by
  split <;> assumption

theorem flatMap {α : Type} {f : α → List (Nat × Nat)} {x : List α} (h : ∀ a, OnScratch (f a)) :
    OnScratch (x.flatMap f) := fun r hr => by
  obtain ⟨a, -, hm⟩ := List.mem_flatMap.1 hr
  exact h a r hm

theorem roleBytes {ta : Nat} (h : 0x200000000000 ≤ ta) (tp : Tmpl) (arrs : Tab (Tab Word)) (id : Nat) :
    OnScratch (roleBytes ta tp arrs id) := by
  unfold Machine.roleBytes
  split
  · exact ite nil (one (by omega))
  · exact nil

theorem bankBytes (s : State) (t c : Nat) (tp : Tmpl) (off b : Nat) : OnScratch (s.bankBytes t c tp off b) := by
  have := shareA_scratch s t c off
  exact one (by unfold State.storeA; dsimp only; omega)

theorem warmBytes (s : State) (t c ta : Nat) (tp : Tmpl) (i : Nat) : OnScratch (s.warmBytes t c ta tp i) := by
  unfold State.warmBytes
  extract_lets w
  split
  · exact one (shareA_scratch _ _ _ _)
  · have ha := shareA_scratch s t c w.src
    exact ite (one ha) (cons ha (cons (by omega) (one (by omega))))
  · exact nil

theorem slotBytes (s : State) (t c : Nat) (sl : Slot) : OnScratch (s.slotBytes t c sl) := by
  unfold State.slotBytes
  extract_lets tp ta roles bank
  have ha : 0x200000000000 ≤ ta := shareA_scratch _ _ _ _
  have hr : ∀ l, OnScratch (roles l) := fun l => flatMap fun id => roleBytes ha _ _ _
  have hb : OnScratch bank := by
    simp only [bank]
    split
    · exact bankBytes _ _ _ _ _ _
    · exact nil
  split
  · exact nil
  · exact hr _
  · exact ite (hr _) nil
  · exact (hr _).append (ite nil hb)
  · exact ite ((ite nil (cons (by omega) (warmBytes _ _ _ _ _ _))).append (hr _)) ((hr _).append (ite hb nil))
  · exact ((ite nil (one (by omega))).append (ite (hr _) nil)).append (ite hb nil)

theorem tmplBytes (s : State) {ta : Nat} (h : 0x200000000000 ≤ ta) (tp : Tmpl) : OnScratch (s.tmplBytes ta tp) :=
  cons h (cons (by omega) (cons (by omega) (cons (by omega) (cons (by omega) (cons (by omega) (one (by omega)))))))

theorem tensorBytes (s : State) (t c i : Nat) : OnScratch (s.tensorBytes t c i) := by
  refine cons (shareA_scratch _ _ _ _) (append (one (shareA_scratch _ _ _ _)) ?_)
  split
  · exact one (shareA_scratch _ _ _ _)
  · exact nil

theorem tensorReads (s : State) (t c : Nat) (op : StageOp) : OnScratch (s.tensorReads t c op) := by
  unfold State.tensorReads
  extract_lets b
  have hb : ∀ i, OnScratch (b i) := fun i => tensorBytes _ _ _ _
  split
  · exact ((((hb _).append (hb _)).append (ite (one (shareA_scratch _ _ _ _)) nil)).append
      (ite nil ((hb _).append (ite (tensorBytes _ _ _ _) nil)))).append (one (shareA_scratch _ _ _ _))
  · exact (hb _).append (one (shareA_scratch _ _ _ _))
  · exact one (shareA_scratch _ _ _ _)
  · exact nil

end OnScratch

/-- Where the rows of the address map lie (R323). -/
theorem place_bounds (s : State) {x : Nat} (hx : x < 2 ^ 48) :
    ((s.place x).row = 1 ∨ (s.place x).row = 2) ∧ x < 0x102000000000 ∨ (s.place x).row = 0
      ∨ 3 ≤ (s.place x).row ∧ 0x103000000100 ≤ x := by
  unfold State.place bitsOf
  simp only [Nat.shiftRight_eq_div_pow]
  split
  · exact .inl ⟨.inl rfl, by omega⟩
  · split
    · exact .inl ⟨.inr rfl, by omega⟩
    · split
      · exact .inr (.inr ⟨Nat.le_refl 3, by omega⟩)
      · split
        · exact .inr (.inr ⟨Nat.le_add_right_of_le (by decide), by omega⟩)
        · exact .inr (.inl rfl)

/-- Bytes that a copy may read are apart: those of one memory, or another device's (R323, R324). -/
theorem apartBytes_of_copyFault {s : State} {t c a n : Nat} {w : Bool} (h : s.copyFault t c a n w = 0) : apartBytes a n := by
  have hrow : s.oneRow a n = true := by
    unfold State.copyFault at h
    cases hr : s.oneRow a n with
    | true => rfl
    | false => rw [hr, Bool.not_false, Bool.true_or, if_pos rfl] at h; cases h
  unfold State.oneRow at hrow
  simp only [Bool.and_eq_true, bne_iff_ne, ne_eq, beq_iff_eq, decide_eq_true_eq] at hrow
  obtain ⟨⟨⟨h0, hn⟩, hl⟩, hm⟩ := hrow
  have first := place_bounds s (x := a) (by omega)
  have last := place_bounds s (x := a + n - 1) (by omega)
  unfold apartBytes
  omega

theorem acct_tiles (s : State) (c : Nat) (f : Acct → Acct) : (s.acct c f).tiles = s.tiles := by
  unfold State.acct
  split <;> rfl

/-- What a tile's copy still has to read is apart. -/
def State.copyApart (s : State) (x : Nat) : Prop := ∀ r, (s.tc x).copy = some r → apartBytes r.src r.left

theorem apart_of_unit {s : State} {a n k : Nat} (h : apartBytes a n) (hk : k ∈ s.poisonedUnits a n) : apart k := by
  have h1 := (List.mem_filter.1 hk).2
  rw [Bool.and_eq_true, decide_eq_true_eq, decide_eq_true_eq] at h1
  have h2 : poisonUnit k ≤ 64 := by
    unfold poisonUnit
    split <;> decide
  unfold apartBytes at h
  omega

theorem apartBytes_scratch {a n : Nat} (h : 0x200000000000 ≤ a) : apartBytes a n := .inr (by omega)

namespace Spares

variable {s t u : State}

theorem readPoison (h : Spares s t) {a n : Nat} (ha : apartBytes a n) : Spares s (t.readPoison a n) :=
  each (fun _ hk _ hu => hu.takePoison (apart_of_unit ha hk)) h

theorem readUnits (h : Spares s t) (x c : Nat) (ids : Option CmdIds) {l : List Nat} (hl : ∀ k ∈ l, apart k) :
    Spares s (t.readUnits x c ids l) := by
  cases l with
  | nil => exact h
  | cons k l => exact (each (fun y hy _ hu => hu.takePoison (hl y hy)) h).faultTile _ _ _ _ _

/-- A stage reads ranges of its scratchpad. -/
theorem stagePoison (h : Spares s t) (x c : Nat) {l : List (Nat × Nat)} (ids : Option CmdIds)
    (hl : OnScratch l) : Spares s (t.stagePoison x c l ids) := by
  refine h.readUnits x c ids fun k hk => ?_
  obtain ⟨r, hr, hm⟩ := List.mem_flatMap.1 (List.mem_eraseDups.1 hk)
  exact apart_of_unit (apartBytes_scratch (hl r hr)) hm

theorem stageReads (h : Spares s t) (x c : Nat) {l : List (Nat × Nat)} (ids : Option CmdIds)
    (hl : OnScratch l) : Spares s (t.stageReads x c l ids) := by
  unfold State.stageReads
  split
  · exact h.stagePoison x c ids hl
  · exact h.faultTile _ _ _ _ _

theorem portWrite (h : Spares s t) (x c a : Nat) (l : List Byte) (ids : Option CmdIds) :
    Spares s (t.portWrite x c a l ids) := by
  unfold State.portWrite
  split
  · exact h.same rfl rfl rfl
  · exact h.faultTile _ _ _ _ _

/-! ### Packets -/

theorem linkQueue (h : Spares s t) (k : Nat) (nak : Bool) (seq : Nat) (cr : List Nat) :
    Spares s (t.linkQueue k nak seq cr) := h.same rfl rfl rfl

theorem freeBuf (h : Spares s t) (p : Pkt) : Spares s (t.freeBuf p) := by
  unfold State.freeBuf
  split
  · exact ite (h.linkQueue _ _ _ _) h
  · exact h

theorem pump (h : Spares s t) (k n : Nat) : Spares s (t.pump k n) := by
  induction n generalizing t with
  | zero => exact h
  | succ n ih =>
    unfold State.pump
    dsimp only
    refine ite h ?_
    split
    · exact h
    · refine ih (freeBuf ?_ _)
      exact h.same rfl rfl rfl

theorem pumpAll (h : Spares s t) (k : Nat) : Spares s (t.pumpAll k) := each (fun _ _ _ hu => hu.pump _ _) h

theorem queuePkt (h : Spares s t) (k : Nat) (p : Pkt) : Spares s (t.queuePkt k p) := by
  refine pumpAll ?_ k
  exact h.same rfl rfl rfl

theorem chargeMem (h : Spares s t) (c n : Nat) : Spares s (t.chargeMem c n) := h.acct _ _

theorem issuePkt (h : Spares s t) (pt k : Nat) (p : Pkt) : Spares s (t.issuePkt pt k p) := by
  refine queuePkt ?_ k p
  exact (h.acct _ _).same rfl rfl rfl

theorem pacedPkt (h : Spares s t) (c k : Nat) (p : Pkt) : Spares s (t.pacedPkt c k p) :=
  ite (h.issuePkt _ _ _) (h.same rfl rfl rfl)

theorem sendBack (h : Spares s t) (dst : Nat) (p : Pkt) : Spares s (t.sendBack dst p) := by
  unfold State.sendBack
  split
  · exact h.queuePkt _ _
  · exact h

theorem request (h : Spares s t) {c x d ty addr len : Nat} {data : List Byte} {poison : Bool} {kind : ReqKind}
    (e : t.request c x d ty addr len data poison kind = some u) : Spares s u := by
  unfold State.request at e
  split at e
  · cases e
  · cases e
    refine pacedPkt ?_ _ _ _
    exact h.same rfl rfl rfl

theorem remotePiece (h : Spares s t) {c x src dst n : Nat} {rd : Nat → ReqKind} {wr : ReqKind}
    (ha : apartBytes src n) (e : t.remotePiece c x src dst n rd wr = some u) : Spares s u := by
  unfold State.remotePiece at e
  split at e
  · exact h.request e
  · split at e
    · exact (h.readPoison ha).request e
    · cases e

/-! ### Copies -/

theorem copyBlock (h : Spares s t) (x c n : Nat) (ha : t.copyApart x) : Spares s (t.copyBlock x c n) := by
  induction n generalizing t with
  | zero => exact h
  | succ n ih =>
    unfold State.copyBlock
    split
    · exact h
    · next r hr =>
      have hb := ha r hr
      refine ite h ?_
      extract_lets k r' bad e
      have hk : apartBytes r.src k := by
        unfold apartBytes at hb ⊢
        omega
      split
      · next s2 he =>
        refine ih ?_ fun q hq => ?_
        · exact (h.remotePiece hk he).same rfl rfl rfl
        · rw [State.modCopy, State.modTc, State.tc_setTc, Option.map_eq_some_iff] at hq
          obtain ⟨-, -, rfl⟩ := hq
          unfold apartBytes at hb ⊢
          show r.src + k + (r.left - k) ≤ _ ∨ _ ≤ r.src + k
          omega
      · exact h.same rfl rfl rfl

/-! ### Batons -/

theorem releaseWait (h : Spares s t) (w : BWait) : Spares s (t.releaseWait w) := by
  unfold State.releaseWait
  split
  · exact h.same rfl rfl rfl
  · exact h.sendBack _ _

theorem serveCount (h : Spares s t) (b : Nat) : Spares s (t.serveCount b) :=
  each (fun _ _ _ hu => hu.releaseWait _) (h.same rfl rfl rfl)

theorem serveSem (h : Spares s t) (b n : Nat) : Spares s (t.serveSem b n) := by
  induction n generalizing t with
  | zero => exact h
  | succ n ih =>
    unfold State.serveSem
    split
    · exact h
    · refine ite (ih (releaseWait ?_ _)) h
      exact (h.rset _ (by unfold batonA; omega)).same rfl rfl rfl

theorem serveBaton (h : Spares s t) (b : Nat) : Spares s (t.serveBaton b) := ite (h.serveSem b _) (h.serveCount b)

theorem postLocal (h : Spares s t) (b arg : Nat) : Spares s (t.postLocal b arg) := by
  unfold State.postLocal
  extract_lets sum s1 s2
  have hb : ∀ o, ¬ guarded (batonA b o) := fun o => by unfold batonA; omega
  have h1 : Spares s s1 := ite (ite ((h.rset _ (hb 0)).rset _ (hb 4)) (h.rset _ (hb 0))) (h.rset _ (hb 0))
  exact ite ((h1.serveBaton b).same rfl rfl rfl) (h1.serveBaton b)

theorem post (h : Spares s t) (c b arg : Nat) {fault : State → Nat → State}
    (hf : ∀ f, Spares s (fault t f)) : Spares s (t.post c b arg fault) := by
  unfold State.post
  refine ite (hf 4) (ite ?_ (h.postLocal b arg))
  split
  · exact hf 1031
  · exact h.pacedPkt _ _ _

/-! ### Commands and dumps -/

theorem solveStart (h : Spares s t) (x u c heat : Nat) (r : SolveRun) : Spares s (t.solveStart x u c heat r) :=
  ite h (h.same rfl rfl rfl)

theorem cmdRecord (h : Spares s t) (x u : Nat) (k : UnitCmd) (b : Bool) : Spares s (t.cmdRecord x u k b) :=
  ite (h.observed (streamRec_observed _ _ _ _)) h

theorem cmdEnd (h : Spares s t) (x u seq : Nat) : Spares s (t.cmdEnd x u seq) := by
  unfold State.cmdEnd
  split
  · exact h
  · refine cmdRecord ?_ _ _ _ _
    exact h.same rfl rfl rfl

theorem dumpTake (h : Spares s t) (d : DumpReq) : Spares s (t.dumpTake d) := by
  unfold State.dumpTake
  extract_lets o1 s1 s2
  have hd : ¬ guarded (dumpA d.point) := by unfold dumpA mshA; omega
  have h1 : Spares s s1 := ite (h.rset _ hd) h
  have h2 : Spares s s2 := h1.same rfl rfl rfl
  exact ite (h.same rfl rfl rfl) (h2.same rfl rfl rfl)

theorem dumpGate (h : Spares s t) (x c u step seq prob layer oper heat : Nat) (solve : Bool) :
    Spares s (t.dumpGate x c u step seq prob layer oper heat solve).1 := by
  unfold State.dumpGate
  extract_lets key pts s1 s2
  have h1 : Spares s s1 := foldl (fun i _ v hv => by
    have hc : Spares s (v.dumpCount i).1 := hv.same rfl rfl rfl
    exact ite (hc.dumpTake _) hc) h
  exact ite h1 (h1.same rfl rfl rfl)

theorem leave (h : Spares s t) (x c heat : Nat) (l : List Nat) : Spares s (t.leave x c heat l) := by
  unfold State.leave
  refine same (t := t.each l _) (each (fun u _ v hv => ?_) h) rfl rfl rfl
  extract_lets v1
  have h1 : Spares s v1 := hv.same rfl rfl rfl
  split
  · extract_lets v2
    have h2 : Spares s v2 := by
      refine cmdEnd ?_ _ _ _
      exact h1.same rfl rfl rfl
    exact ite (ite (h2.dumpGate _ _ _ _ _ _ _ _ _ _) h2) h1
  · exact h1

/-! ### Problems (Assemble to Emit) -/

theorem slotRead (h : Spares s t) (x c heat prob : Nat) : Spares s (t.slotRead x c heat prob) := by
  unfold State.slotRead
  split
  · refine ite h ?_
    extract_lets ids
    split
    · exact h.stageReads _ _ _ (.slotBytes _ _ _ _)
    · exact h.faultTile _ _ _ _ _
  · exact h

theorem enterStage (h : Spares s t) (x c heat prob : Nat) (st : StageName) :
    Spares s (t.enterStage x c heat prob st) := by
  unfold State.enterStage
  split
  · next k sl hh _ _ =>
    extract_lets s1 sl1
    have h1 : Spares s s1 := by
      simp only [s1]
      split
      · exact h.solveStart _ _ _ _ _
      · exact h
    split
    · exact ite (h1.same rfl rfl rfl) (h1.same rfl rfl rfl)
    · exact h1.same rfl rfl rfl
    · exact ite (h1.same rfl rfl rfl) (h1.same rfl rfl rfl)
    · exact h1.same rfl rfl rfl
  · exact h

theorem leftSolve (h : Spares s t) (x c heat pf : Nat) : Spares s (t.leftSolve x c heat pf) := by
  unfold State.leftSolve
  extract_lets s1
  have h1 : Spares s s1 := h.same rfl rfl rfl
  split
  · exact h1.same rfl rfl rfl
  · exact h1

theorem quitSolve (h : Spares s t) (x c : Nat) (sl : Slot) : Spares s (t.quitSolve x c sl) :=
  ite (h.leftSolve _ _ _ _) h

theorem skipToEmit (h : Spares s t) (x c heat prob mark : Nat) : Spares s (t.skipToEmit x c heat prob mark) := by
  unfold State.skipToEmit
  split
  · exact h
  · refine leave ?_ _ _ _ _
    exact (h.quitSolve _ _ _).same rfl rfl rfl

theorem leaveFactor (h : Spares s t) (x c heat prob : Nat) : Spares s (t.leaveFactor x c heat prob) := by
  unfold State.leaveFactor
  split
  · refine ite (h.skipToEmit _ _ _ _ _) (ite (leave ?_ _ _ _ _) h)
    exact h.same rfl rfl rfl
  · exact h

theorem advance (h : Spares s t) (x c n : Nat) : Spares s (t.advance x c n) := by
  induction n generalizing t with
  | zero => exact h
  | succ n ih =>
    unfold State.advance
    dsimp only
    split
    · exact h
    · exact ih (((h.enterStage _ _ _ _ _).leaveFactor _ _ _ _).slotRead _ _ _ _)

theorem writeOutputs (h : Spares s t) (x c : Nat) (e : Env) (fb : Bool) (prob : Nat) :
    Spares s (t.writeOutputs x c e fb prob).1 := by
  unfold State.writeOutputs
  extract_lets od base
  refine foldl_fst (fun b p hb => ?_) h
  split
  · exact hb
  · have hw := hb.portWrite x c (base + 4 * p.1)
    dsimp only
    split
    · exact hw _ _
    · exact hw _ _

theorem writeIterStore (h : Spares s t) (x c : Nat) (e : Env) (sl : Slot) (code : Nat) :
    Spares s (t.writeIterStore x c e sl code) := by
  unfold State.writeIterStore
  extract_lets w m a word
  refine ite h (ite ?_ ?_)
  · exact h.portWrite _ _ _ _ _
  · exact h.portWrite _ _ _ _ _

theorem commitTile (h : Spares s t) (x c : Nat) (hh : Heat) (r : SolveRun) (sl : Slot) (pf : Nat) (first : Bool) :
    Spares s (t.commitTile x c hh r sl pf first) := by
  unfold State.commitTile
  extract_lets e0 code fx e pf1 fb w pf2 s1 late sfl lat s2 ts ew s3 s4 s5 s6 s7
  have hw : Spares s w.1 := by
    simp only [w]
    split
    · exact h
    · exact h.writeOutputs _ _ _ _ _
  have h1 : Spares s s1 := hw.writeIterStore x c e sl code
  have h2 : Spares s s2 := h1.portWrite _ _ _ _ _
  have h3 : Spares s s3 := h2.templates _ _
  have h7 : Spares s s7 := (((h3.modTile _ _).modTc _ _).modTc _ _).modTc _ _
  exact ite h7 (h7.eventCtx _ _ _ _ _ _ _ _)

theorem commitRank (h : Spares s t) (u c heat prob mark pf : Nat) (first : Bool) :
    Spares s (t.commitRank u c heat prob mark pf first) := by
  unfold State.commitRank
  extract_lets sl entered from'
  split
  · split
    · extract_lets s1 s2 s3
      have h1 : Spares s s1 := ite h (h.solveStart _ _ _ _ _)
      have hq : Spares s (if entered = true then s1.quitSolve u c sl else s1) := ite (h1.quitSolve _ _ _) h1
      have h2 : Spares s s2 := hq.commitTile _ _ _ _ _ _ _
      have h3 : Spares s s3 := ite h2 (h2.modTc _ _)
      exact h3.leave _ _ _ _
    · exact h
  · exact h

theorem startSolve (h : Spares s t) (x c : Nat) (q : QCmd) (tm count xl : Nat) :
    Spares s (t.startSolve x c q tm count xl) := by
  unfold State.startSolve
  extract_lets ta s1 y run s2 z s3
  have h1 : Spares s s1 := h.stageReads _ _ _ (.tmplBytes _ (shareA_scratch _ _ _ _) _)
  have h2 : Spares s s2 := h1.modTc _ _
  have h3 : Spares s s3 := h2.templates _ _
  exact ite (each (fun _ _ _ hu => hu.commitRank _ _ _ _ _ _ _) h3) h3

/-! ### Commands of the other queues -/

theorem startOutput (h : Spares s t) (x c : Nat) (q : QCmd) (di slot smode : Nat) (qx : Int) (hrec : Nat)
    (src : List (List FVal)) (fl : FlagSet) (extra : List (Nat × Byte)) :
    Spares s (t.startOutput x c q di slot smode qx hrec src fl extra) :=
  ite (h.same rfl rfl rfl) (h.same rfl rfl rfl)

theorem startTensor (h : Spares s t) (x c : Nat) (q : QCmd) : Spares s (t.startTensor x c q) := by
  unfold State.startTensor
  extract_lets f drop reads s1 s2
  refine ite ((h.faultTile x c f 1 (some q.ids)).same rfl rfl rfl)
    (ite ((h.stagePoison x c (some q.ids) (.tensorReads _ _ _ _)).same rfl rfl rfl) ?_)
  have h2 : Spares s s2 := h.same rfl rfl rfl
  split
  · exact h2.startOutput _ _ _ _ _ _ _ _ _ _ _
  · exact h2.startOutput _ _ _ _ _ _ _ _ _ _ _
  · exact h2.same rfl rfl rfl
  · exact h2

theorem cmdStart (h : Spares s t) (x u c seq : Nat) (i : CmdIds) : Spares s (t.cmdStart x u c seq i) :=
  h.same rfl rfl rfl

theorem hold (h : Spares s t) (x : Held) : Spares s (t.hold x) := h.same rfl rfl rfl

theorem paceTake (h : Spares s t) (p kind n : Nat) : Spares s (t.paceTake p kind n) := h.same rfl rfl rfl

theorem modCopy (h : Spares s t) (x : Nat) (f : CopyRun → CopyRun) : Spares s (t.modCopy x f) := h.modTc _ _

theorem startCopy (h : Spares s t) (x c : Nat) (q : QCmd) (src dst len : Nat) :
    Spares s (t.startCopy x c q src dst len) := by
  unfold State.startCopy
  extract_lets f1 f rem run s1 n p go
  by_cases hf : f ≠ 0
  · rw [if_pos hf]
    exact (h.faultTile _ _ _ _ _).modTc _ _
  · rw [if_neg hf]
    have hsrc : apartBytes src len := apartBytes_of_copyFault (s := t) (t := x) (c := c) (w := false) (by
      by_cases h1 : f1 = 0
      · exact h1
      · exact absurd (if_neg h1 : f = f1) fun e => hf (fun h0 => h1 (e ▸ h0)))
    have h1 : Spares s s1 := (h.modTc _ _).cmdStart _ _ _ _ _
    have ha : ∀ r, (s1.tc x).copy = some r → apartBytes r.src r.left := fun r hr => by
      have hc : (s1.tc x).copy = some run := by
        show ((t.modTc x (fun y => { y with copy := some run })).tc x).copy = _
        rw [State.modTc, State.tc_setTc]
      rw [hc, Option.some_inj] at hr
      rw [← hr]
      exact hsrc
    have hgo : ∀ v, Spares s v → v.tiles = s1.tiles → Spares s (go v) := fun v hv hv' =>
      ite (hv.copyBlock _ _ _ fun r hr => ha r (by rwa [State.tc, State.tile, hv'] at hr)) hv
    refine ite (hgo _ h1 rfl) (ite (hgo _ ((h1.chargeMem _ _).paceTake _ _ _) (acct_tiles _ _ _)) ?_)
    exact (h1.modCopy _ _).hold _

theorem mayStart (h : Spares s t) (x c u : Nat) (q : QCmd) (solve : Bool) :
    Spares s (t.mayStart x c u q solve).1 := by
  unfold State.mayStart
  split
  · exact h
  · exact h.dumpGate _ _ _ _ _ _ _ _ _ _

theorem ite_fst {c : Prop} [Decidable c] {b : Bool} {p : State × Bool} (h : Spares s t) (hp : Spares s p.1) :
    Spares s (if c then (t, b) else p).1 := by split <;> assumption

theorem startHeads (h : Spares s t) (x c : Nat) : Spares s (t.startHeads x c) := by
  unfold State.startHeads
  extract_lets s1 s2 s3
  have h1 : Spares s s1 := by
    simp only [s1]
    split
    · next q rest _ =>
      have hr : Spares s (if (t.tile x).preq.isSome = true then (t, false) else t.mayStart x c 16 q false).1 :=
        h.ite_fst (h.mayStart _ _ _ _ _)
      refine ite ?_ hr
      split
      · exact ((hr.modTc _ _).post _ _ _ fun _ => (hr.modTc _ _).faultTile _ _ _ _ _).dumpGate _ _ _ _ _ _ _ _ _ _
      · exact hr.modTc _ _
    · exact h
  clear_value s1
  have h2 : Spares s s2 := by
    simp only [s2]
    split
    · next q rest _ =>
      have hr := h1.mayStart x c 1 q false
      exact ite (ite ((hr.modTc _ _).startTensor _ _ _) hr) h1
    · exact h1
  clear_value s2
  have h3 : Spares s s3 := by
    simp only [s3]
    split
    · next q rest _ =>
      have hr := h2.mayStart x c 6 q false
      refine ite (ite ?_ hr) h2
      split
      · exact (hr.modTc _ _).startCopy _ _ _ _ _ _
      · exact hr.modTc _ _
    · exact h2
  clear_value s3
  split
  · next q rest _ =>
    have hr : Spares s (if (s3.tile x).preq.isSome = true then (s3, false) else s3.mayStart x c 0 q true).1 :=
      h3.ite_fst (h3.mayStart _ _ _ _ _)
    refine ite ?_ hr
    dsimp only
    split
    · exact (hr.modTc _ _).startSolve _ _ _ _ _ _
    · exact hr.modTc _ _
  · exact h3

theorem kickN (h : Spares s t) (x n : Nat) : Spares s (t.kickN x n) := by
  induction n generalizing t with
  | zero => exact h
  | succ n ih =>
    exact ite (ih (modTc (startHeads (modTc (advance (h.modTc _ _) _ _ _) _ _) _ _) _ _)) h

theorem heatRecord (h : Spares s t) (x : Nat) (hh : Heat) (fl : FlagSet) : Spares s (t.heatRecord x hh fl) := by
  unfold State.heatRecord
  split
  · exact h
  · exact (h.portWrite _ _ _ _ _).modTc _ _

theorem recordHeats (h : Spares s t) (x : Nat) : Spares s (t.recordHeats x) :=
  each (fun hh _ u hu => each (fun y _ v hv => by
    split
    · exact hv.heatRecord _ _ _
    · exact hv) hu) h

theorem kick (h : Spares s t) (x : Nat) : Spares s (t.kick x) := (h.kickN x 5).recordHeats x

theorem kickGang (h : Spares s t) (x heat : Nat) : Spares s (t.kickGang x heat) :=
  foldl (fun y _ _ hu => hu.kick y) (h.kick x)

theorem unitDone (h : Spares s t) (x c u : Nat) (q : QCmd) : Spares s (t.unitDone x c u q) := by
  unfold State.unitDone
  extract_lets s1 s2 s3
  have h1 : Spares s s1 := h.modTc _ _
  have h3 : Spares s s3 := (h1.cmdEnd _ _ _).dumpGate _ _ _ _ _ _ _ _ _ _
  exact ite (h3.kickGang _ _) (h3.kick _)

/-! ### The end of a request -/

theorem copyEnd (h : Spares s t) (x c : Nat) (r : CopyRun) (err : Nat) : Spares s (t.copyEnd x c r err) := by
  unfold State.copyEnd
  extract_lets s1 s2
  have h1 : Spares s s1 := h.modTc _ _
  have h2 : Spares s s2 := ite h1 (h1.faultTile _ _ _ _ _)
  exact h2.unitDone _ _ _ _

/-- A copy that a fault of the path ends. -/
theorem copyReply (h : Spares s t) (x c : Nat) {err : Nat} (he : 256 ≤ err) : Spares s (t.copyReply x c err) := by
  unfold State.copyReply
  extract_lets s1
  have h1 : Spares s s1 := h.modCopy _ _
  split
  · next r hr =>
    have hre : 256 ≤ r.err := by
      simp only [s1, State.modCopy, State.modTc, State.tc_setTc, Option.map_eq_some_iff] at hr
      obtain ⟨q, -, rfl⟩ := hr
      show 256 ≤ if q.err = 0 ∨ q.err < 256 ∧ 256 ≤ err then err else q.err
      split <;> omega
    exact ite h1 (by
      rw [if_pos hre]
      exact h1.copyEnd _ _ _ _)
  · exact h1

theorem pfReply (h : Spares s t) (c id cls : Nat) {err : Nat} (he : err ≠ 0) : Spares s (t.pfReply c id err cls) := by
  unfold State.pfReply
  split
  · exact h
  · next j _ =>
    rw [if_pos he]
    refine faultDsp ?_ _ _ _
    exact h.same rfl rfl rfl

theorem modCtx (h : Spares s t) (x c : Nat) (f : TCtx → TCtx) : Spares s (t.modCtx x c f) :=
  ite (h.modTc _ _) (h.same rfl rfl rfl)

/-- A request ends with LINK. -/
theorem failRequest (h : Spares s t) (o : Outst) : Spares s (t.failRequest o 4) := by
  unfold State.failRequest
  extract_lets e
  split
  · exact h.copyReply _ _ (by decide)
  · exact h.copyReply _ _ (by decide)
  · exact h.pfReply _ _ _ (by decide)
  · exact h.pfReply _ _ _ (by decide)
  · exact (h.modCtx _ _ _).faultTile _ _ _ _ _

end Spares

end Sys2Proof.Machine
end

section
/-!
# The Relay Links (O55)

An attempt that fails or succeeds, a link that sends (`Sends`), and one that is lost.
-/

namespace Sys2Proof.Machine

/-! ## Training (R381-R383, R418) -/

/-- `t` has the links of `s`, and draws the same free values. -/
structure SameLinks (s t : State) : Prop where
  links : t.links = s.links
  fresh : t.fresh = s.fresh

namespace SameLinks

variable {s t : State}

theorem refl (s : State) : SameLinks s s := ⟨rfl, rfl⟩

theorem observed {u : State} (h : SameLinks s t) (o : Observed t u) : SameLinks s u :=
  ⟨by rw [o.rest]; exact h.links, by rw [o.rest]; exact h.fresh⟩

theorem rset (h : SameLinks s t) (a : Nat) (v : Word) : SameLinks s (t.rset a v) := ⟨h.links, h.fresh⟩

theorem lapTime (h : SameLinks s t) (l : Lap) (tm : Time) : SameLinks s { t with lap := l, time := tm } :=
  ⟨h.links, h.fresh⟩

theorem lnk (h : SameLinks s t) (k : Nat) : t.lnk k = s.lnk k := by rw [State.lnk, h.links]; rfl

theorem setLinkState (h : SameLinks s t) {k : Nat} (hk : k < 4) (st : Nat) : SameLinks s (t.setLinkState k st) := by
  exact (h.rset _ _).observed (setLinkState_observed t st hk)

theorem bootFail (h : SameLinks s t) (code detail : Nat) : SameLinks s (t.bootFail code detail) := by
  unfold State.bootFail
  extract_lets s1 s2
  have h1 : SameLinks s s1 := (h.rset _ _).rset _ _
  have h2 : SameLinks s s2 := ⟨h1.links, h1.fresh⟩
  refine observed (rset ?_ _ _) (bootStep_observed _ 15)
  exact ⟨h2.links, h2.fresh⟩

/-- What the script does when a training that it waits for ends (R418). -/
theorem bootLinks (h : SameLinks s t) : SameLinks s t.bootLinks := by
  unfold State.bootLinks
  split
  · split
    · unfold State.nextEntry State.enterEntry
      extract_lets s1
      have h1 : SameLinks s s1 := ⟨h.links, h.fresh⟩
      split
      · exact h1.bootFail _ _
      · split
        · exact h1
        · exact h1.bootFail _ _
    · exact h
  · exact h

theorem setModeReq (h : SameLinks s t) (n m : Nat) : SameLinks s (t.setModeReq n m) :=
  (h.rset _ _).lapTime _ _

theorem setMan (h : SameLinks s t) (n : Nat) (v : Word) : SameLinks s (t.setMan n v) :=
  (h.rset _ _).lapTime _ _

theorem servoMode (h : SameLinks s t) (st : Nat) : SameLinks s (t.servoMode st) := by
  unfold State.servoMode
  split
  · exact h
  · split
    · exact h.setModeReq _ _
    · exact (h.setMan _ _).setModeReq _ _

theorem setTime (h : SameLinks s t) (new : Nat) : SameLinks s (t.setTime new) := by
  unfold State.setTime
  extract_lets old s1 tm s2 tm'
  have h1 : SameLinks s s1 := (h.rset _ _).servoMode new
  have h2 : SameLinks s s2 := by
    simp only [s2]
    split
    · exact h1.lapTime _ _
    · exact h1
  split
  · exact h
  · refine observed ?_ (event_observed _ _ _ _ _ (by decide) (.refl _))
    exact h2.lapTime _ _

theorem pathCheck (h : SameLinks s t) : SameLinks s t.pathCheck := by
  unfold State.pathCheck
  split
  · split
    · exact h.servoMode 2
    · exact h.setTime 2
  · exact h

end SameLinks

namespace Spares

variable {s t : State}

theorem bootFail (h : Spares s t) (code detail : Nat) : Spares s (t.bootFail code detail) := by
  unfold State.bootFail
  extract_lets s1 s2
  have h1 : Spares s s1 := (h.rset _ (by decide)).rset _ (by decide)
  have h2 : Spares s s2 := h1.same rfl rfl rfl
  refine observed (rset ?_ _ ?_) (bootStep_observed _ 15)
  · exact h2.same rfl rfl rfl
  · decide

theorem bootLinks (h : Spares s t) : Spares s t.bootLinks := by
  unfold State.bootLinks
  split
  · refine ite ?_ h
    unfold State.nextEntry State.enterEntry
    extract_lets s1
    have h1 : Spares s s1 := (h.rset _ (by decide)).same rfl rfl rfl
    exact ite (h1.bootFail _ _) (ite h1 (h1.bootFail _ _))
  · exact h

/-! ### The time -/

theorem lapTime (h : Spares s t) (l : Lap) (tm : Time) : Spares s { t with lap := l, time := tm } :=
  h.same rfl rfl rfl

theorem setModeReq (h : Spares s t) (n m : Nat) : Spares s (t.setModeReq n m) :=
  (h.rset _ (by unfold loopA; omega)).lapTime _ _

theorem setMan (h : Spares s t) (n : Nat) (v : Word) : Spares s (t.setMan n v) :=
  (h.rset _ (by unfold loopA; omega)).lapTime _ _

theorem servoMode (h : Spares s t) (st : Nat) : Spares s (t.servoMode st) := by
  unfold State.servoMode
  split
  · exact h
  · exact ite (h.setModeReq _ _) ((h.setMan _ _).setModeReq _ _)

theorem setTime (h : Spares s t) (new : Nat) : Spares s (t.setTime new) := by
  unfold State.setTime
  extract_lets old s1 tm s2 tm'
  have h1 : Spares s s1 := (h.rset _ (by decide)).servoMode _
  have h2 : Spares s s2 := ite (h1.lapTime _ _) h1
  exact ite h ((h2.lapTime _ _).event _ _ _ _ _)

theorem pathCheck (h : Spares s t) : Spares s t.pathCheck := ite (ite (h.servoMode _) (h.setTime _)) h

end Spares

/-- What an attempt that failed leaves: its code, the count, and the state. -/
theorem trainFail_view (s : State) {k : Nat} (hk : k < 4) (code : Nat) :
    let a := linkA k 0x04
    let u := s.trainFail k code
    u.rfld a 23 4 = code % 16 ∧ u.rfld a 15 4 = min (s.rfld a 15 4 + 1) 15
      ∧ u.linkState k = (if 3 ≤ s.rfld a 15 4 then 0 else 1) ∧ u.rfld a 19 4 = s.rfld a 19 4 ∧ u.fresh = s.fresh := by
  intro a u
  let s1 := (s.rfldSet a 23 4 code).rcount a 15 4 1
  let st := if 4 ≤ s1.rfld a 15 4 then 0 else 1
  have ho := setLinkState_observed s1 st hk
  have hu : u.rget a = (s1.rfldSet a 28 4 st).rget a :=
    ((Spares.refl _).bootLinks.regs _ (guarded_linkStat hk)).trans (ho.regs _ (linkReg hk (by decide)))
  have hcount : s1.rfld a 15 4 = min (s.rfld a 15 4 + 1) 15 :=
    (rfld_rcount_self _ _ _ _ _ (by decide)).trans (by rw [rfld_rfldSet_ne _ _ _ _ _ _ _ (by decide)]; rfl)
  have hfield : ∀ lo n, lo + n ≤ 28 → u.rfld a lo n = s1.rfld a lo n := fun lo n h =>
    (rfld_congr hu _ _).trans (rfld_rfldSet_ne _ _ _ _ _ _ _ (.inl h))
  refine ⟨?_, (hfield _ _ (by decide)).trans hcount, ?_, ?_, ?_⟩
  · rw [hfield _ _ (by decide)]
    exact (rfld_rfldSet_ne _ _ _ _ _ _ _ (by decide)).trans (rfld_rfldSet_self _ _ _ _ _ (by decide))
  · refine (rfld_congr hu _ _).trans ((rfld_rfldSet_self _ _ _ _ _ (by decide)).trans ?_)
    simp only [st, hcount]
    by_cases h3 : 3 ≤ s.rfld a 15 4
    · rw [if_pos (by omega), if_pos h3]
      rfl
    · rw [if_neg (by omega), if_neg h3]
      rfl
  · rw [hfield _ _ (by decide)]
    exact (rfld_rfldSet_ne _ _ _ _ _ _ _ (by decide)).trans (rfld_rfldSet_ne _ _ _ _ _ _ _ (by decide))
  · exact ((SameLinks.mk rfl rfl : SameLinks s s1).setLinkState hk st).bootLinks.fresh

/-! ## Sending (R385, R386) -/

/-- `t` is `s` after its links have sent. -/
def Sends (s t : State) : Prop := ∃ lk os, t = { s with links := lk, outs := s.outs ++ os }

namespace Sends

variable {s t : State}

theorem refl (s : State) : Sends s s := ⟨s.links, [], by rw [List.append_nil]⟩

theorem trans {a b c : State} (h : Sends a b) (k : Sends b c) : Sends a c := by
  obtain ⟨_, x, rfl⟩ := h
  obtain ⟨lk, y, rfl⟩ := k
  exact ⟨lk, x ++ y, by rw [← List.append_assoc]⟩

theorem setLnk (s : State) (k : Nat) (l : Link) : Sends s (s.setLnk k l) :=
  ⟨tput s.links k l, [], by rw [List.append_nil]; rfl⟩

theorem out (s : State) (m : OutMsg) : Sends s (s.out m) := ⟨s.links, [m], rfl⟩

theorem freeBuf (s : State) (p : Pkt) : Sends s (s.freeBuf p) := by
  unfold State.freeBuf
  split
  · split
    · exact setLnk _ _ _
    · exact refl s
  · exact refl s

theorem pump (s : State) (k n : Nat) : Sends s (s.pump k n) := by
  induction n generalizing s with
  | zero => exact refl s
  | succ n ih =>
    unfold State.pump
    dsimp only
    split
    · exact refl s
    · split
      · exact refl s
      · exact (((setLnk s k _).trans (out _ _)).trans (freeBuf _ _)).trans (ih _)

theorem pumpAll (s : State) (k : Nat) : Sends s (s.pumpAll k) := by
  unfold State.pumpAll State.each
  generalize k :: (List.range 4).filter (fun j => j != k) = l
  induction l generalizing s with
  | nil => exact refl s
  | cons j l ih => exact (pump _ _ _).trans (ih _)

theorem sendLink (s : State) (k : Nat) (nak : Bool) (seq : Nat) (cr : List Nat) : Sends s (s.sendLink k nak seq cr) :=
  (setLnk s k _).trans (pumpAll _ k)

theorem linkTaken (s : State) (k : Nat) : Sends s (s.linkTaken k) := by
  unfold State.linkTaken
  dsimp only
  split
  · exact (setLnk s k _).trans (sendLink _ _ _ _ _)
  · exact (setLnk s k _).trans (pumpAll _ _)

theorem rget (h : Sends s t) (a : Nat) : t.rget a = s.rget a := by
  obtain ⟨_, _, rfl⟩ := h
  rfl

theorem outs (h : Sends s t) : s.outs <+: t.outs := by
  obtain ⟨_, os, rfl⟩ := h
  exact ⟨os, rfl⟩

end Sends

theorem linksCalm_of_links {s t : State} (h : t.links = s.links) (hc : s.linksCalm) : t.linksCalm := fun j hj => by
  rw [State.lnk, h]
  exact hc j hj

/-- A change of a link on which nothing waits. -/
theorem linksCalm_setLnk {s : State} (k : Nat) {l : Link} (hl : l.wait = []) (hc : s.linksCalm) :
    (s.setLnk k l).linksCalm := fun j hj => by
  by_cases h : j = k
  · subst h
    rw [State.lnk_setLnk, hl]
  · rw [State.lnk_setLnk_ne _ _ h]
    exact hc j hj

/-- A packet taken on calm links, its acknowledgement not yet due. -/
theorem linkTaken_calm {s : State} {k : Nat} (hk : k < 4) (hc : s.linksCalm)
    (h : lget 0 (addCredits (s.lnk k).owed [2, 0, 0]) 0 < 16) :
    s.linkTaken k = s.setLnk k { s.lnk k with
      rxSeq := (s.lnk k).rxSeq + 1, owed := addCredits (s.lnk k).owed [2, 0, 0] } := by
  unfold State.linkTaken
  dsimp only
  rw [if_neg (by omega)]
  exact pumpAll_calm _ k hk (linksCalm_setLnk k (hc k hk) hc)

/-- Links on which nothing waits send nothing. -/
theorem pumps_calm {l : List Nat} {s : State} (h : ∀ j ∈ l, (s.lnk j).wait = []) :
    l.foldl (fun s j => s.pump j (2 * (s.lnk j).wait.length)) s = s := by
  induction l with
  | nil => rfl
  | cons j l ih =>
    rw [List.foldl_cons, pump_empty s j _ (h j List.mem_cons_self)]
    exact ih fun i hi => h i (List.mem_cons_of_mem _ hi)

/-- A LINK packet as it is queued takes 20 bytes and 2 credits. -/
theorem ctlPkt_link (s : State) (k : Nat) (nak : Bool) (seq : Nat) (cr : List Nat) :
    (s.ctlPkt k (.link nak seq cr)).size = 20 ∧ (s.ctlPkt k (.link nak seq cr)).cost = 2 := by
  have hs : (s.ctlPkt k (.link nak seq cr)).size = 20 := rfl
  exact ⟨hs, by rw [Pkt.cost, hs]; rfl⟩

/-- The first packet of channel CTL goes when its credits and its bytes are there. -/
theorem pick_single {l : Link} {p : Pkt} (hw : l.wait = [p]) (hv : p.vc = 0) (hc : p.cost ≤ lget 0 l.credits 0)
    (hb : l.replayBytes + p.size ≤ 32768) : l.pick = some p := by
  have hf : l.wait.find? (fun p => p.vc == 0) = some p := by
    rw [hw, List.find?_cons_of_pos (by rw [hv]; rfl)]
  unfold Link.pick
  simp only [hf, hc, hb, decide_true, Bool.and_self, if_true]

/-- A link that is ACTIVE sends the packet whose turn it is, which held no buffer. -/
theorem pump_picks {s : State} {k : Nat} {p : Pkt} (m : Nat) (hst : s.linkState k = 7) (hp : (s.lnk k).pick = some p)
    (hh : p.held = none) : ∃ l : Link, l.wait = (s.lnk k).wait.erase p ∧ s.pump k (m + 1)
      = ((s.setLnk k l).out (.packet k (s.lnk k).nextSeq (s.stamp p) (s.stamp p).wire)).pump k m := by
  have hf : ∀ u : State, u.freeBuf p = u := fun u => by rw [State.freeBuf, hh]
  rw [State.pump]
  dsimp only
  rw [if_neg (by rw [hst]; decide), hp]
  dsimp only
  rw [hf]
  exact ⟨_, rfl, rfl⟩

/-- A link with one LINK packet waiting sends it (R385, R386). -/
theorem pump_link {s : State} {k : Nat} (m : Nat) (hst : s.linkState k = 7) (nak : Bool) (seq : Nat) (cr : List Nat)
    (hw : (s.lnk k).wait = [s.ctlPkt k (.link nak seq cr)]) (h2 : 2 ≤ lget 0 (s.lnk k).credits 0)
    (hr : (s.lnk k).replayBytes + 20 ≤ 32768) :
    (s.pump k (m + 1)).outs = s.outs ++ [s.linkSent k nak seq cr] ∧ ((s.pump k (m + 1)).lnk k).wait = []
      ∧ ∀ j, j ≠ k → (s.pump k (m + 1)).lnk j = s.lnk j := by
  obtain ⟨hs, hc⟩ := ctlPkt_link s k nak seq cr
  obtain ⟨l, hl, e⟩ := pump_picks m hst (pick_single hw rfl (by rw [hc]; exact h2) (by rw [hs]; exact hr)) rfl
  rw [hw, List.erase_cons_head] at hl
  have hlnk : (((s.setLnk k l).out (.packet k (s.lnk k).nextSeq (s.stamp (s.ctlPkt k (.link nak seq cr)))
      (s.stamp (s.ctlPkt k (.link nak seq cr))).wire)).lnk k) = l := State.lnk_setLnk s k l
  rw [e, pump_empty _ _ _ (by rw [hlnk, hl])]
  exact ⟨rfl, by rw [hlnk, hl], fun j hj => State.lnk_setLnk_ne s l hj⟩

/-- One LINK packet queued on calm links is sent when credits and the replay buffer admit it. -/
theorem sendLink_calm {s : State} {k : Nat} (hk : k < 4) (hst : s.linkState k = 7) (hc : s.linksCalm) (nak : Bool)
    (seq : Nat) (cr : List Nat) (h2 : 2 ≤ lget 0 (s.lnk k).credits 0) (hr : (s.lnk k).replayBytes + 20 ≤ 32768) :
    (s.sendLink k nak seq cr).outs = s.outs ++ [s.linkSent k nak seq (addCredits (s.lnk k).owed cr)] := by
  have hlnk : (s.linkQueue k nak seq cr).lnk k = { s.lnk k with
      owed := [], wait := [s.ctlPkt k (.link nak seq (addCredits (s.lnk k).owed cr))] } := by
    rw [State.linkQueue, State.lnk_setLnk, hc k hk]
    rfl
  obtain ⟨ho, hw, hne⟩ := pump_link (s := s.linkQueue k nak seq cr) 1 hst nak seq (addCredits (s.lnk k).owed cr)
    (by rw [hlnk]; rfl) (by rw [hlnk]; exact h2) (by rw [hlnk]; exact hr)
  have hlen : 2 * ((s.linkQueue k nak seq cr).lnk k).wait.length = 1 + 1 := by
    rw [hlnk]
    rfl
  unfold State.sendLink State.pumpAll State.each
  rw [List.foldl_cons, hlen, pumps_calm, ho]
  · unfold State.linkSent
    rw [hlnk]
    rfl
  · intro j hj
    obtain ⟨hm, hjk⟩ := List.mem_filter.1 hj
    have hjk : j ≠ k := bne_iff_ne.1 hjk
    rw [hne j hjk, State.linkQueue, State.lnk_setLnk_ne _ _ hjk]
    exact hc j (List.mem_range.1 hm)

/-! ## The CRC of what arrives (R384) -/

theorem crcGood_iff (b : List Byte) : crcGood b = true ↔ ∃ body, b = body ++ leBytes 4 (crc32 body) := by
  unfold crcGood withCrc
  rw [beq_iff_eq]
  constructor
  · exact fun h => ⟨_, h.symm⟩
  · rintro ⟨body, rfl⟩
    rw [List.length_append, length_leBytes, Nat.add_sub_cancel, List.take_left]

/-! ## A link that is lost (R383) -/

/-- A link reset: it trains anew when it is enabled, ports and verdict stay, and with no request outstanding nothing
of it is left. -/
theorem linkReset_view (s : State) {k : Nat} (hk : k < 4) :
    let u := s.linkReset k
    u.linkState k = (if s.rbit (linkA k 0x00) 31 then 1 else 0) ∧ u.rget (mshA 0x08) = s.rget (mshA 0x08)
      ∧ u.net0 = s.net0 ∧ u.net1 = s.net1 ∧ (s.outst = [] → u.lnk k = {}) := by
  intro u
  let d := s.linkDropped k
  let st := if d.rbit (linkA k 0x00) 31 then 1 else 0
  let x := (d.setLnk k {}).setLinkState k st
  let y := x.each (s.outst.filter (fun o => o.link == k)) (fun s o => if o.bib = s.ctxBib o.ctx then s.failRequest o 4 else s)
  have hu : u = y.pathCheck := linkReset_eq s k
  have hx : Observed ((d.setLnk k {}).rfldSet (linkA k 0x04) 28 4 st) x := setLinkState_observed _ st hk
  have hy : Spares x u := by
    rw [hu]
    exact (Spares.each (fun o _ v hv => Spares.ite (hv.failRequest o) hv) (.refl x)).pathCheck
  have hen : d.rbit (linkA k 0x00) 31 = s.rbit (linkA k 0x00) 31 :=
    rbit_congr (rget_linkDropped s hk (.inl (by unfold linkA mshA; omega))) _
  refine ⟨?_, ?_, hy.net0.trans (by rw [hx.rest]; rfl), hy.net1.trans (by rw [hx.rest]; rfl), fun ho => ?_⟩
  · refine (rfld_congr (hy.regs _ (guarded_linkStat hk)) _ _).trans ((linkState_setLinkState _ st hk ?_).trans ?_)
    · simp only [st]
      split <;> decide
    · simp only [st, hen]
  · exact (hy.regs _ guarded_verdict).trans ((hx.regs _ (obsReg_guarded guarded_verdict)).trans
      ((rget_rfldSet_ne _ _ _ _ (by unfold mshA linkA; omega)).trans (rget_linkDropped s hk (.inl (by decide)))))
  · have hxu : SameLinks (d.setLnk k {}) u := by
      rw [hu, show y = x by simp only [y, ho]; rfl]
      exact ((SameLinks.refl _).setLinkState hk st).pathCheck
    rw [hxu.lnk, State.lnk_setLnk]

/-- No command waits on a port, so no read waits for a hung unit. -/
theorem endHungReads_idle {s : State} (h0 : s.waitingCmd 0 = none) (h1 : s.waitingCmd 1 = none) : s.endHungReads = s := by
  unfold State.endHungReads State.each
  simp only [List.foldl_cons, List.foldl_nil, h0, h1]

theorem waitingCmd_congr {s u : State} (h0 : u.net0 = s.net0) (h1 : u.net1 = s.net1) (k : Nat) :
    u.waitingCmd k = s.waitingCmd k := by
  unfold State.waitingCmd State.port
  rw [h0, h1]

/-- Marshal's state and its bit of delayed resets. -/
theorem delayed_view (s : State) (h : Health) (b : Bool) :
    let u := if b then (s.setHealth h).rbitSet (mshA 0x04) 27 false else s.setHealth h
    (∀ a, a ≠ mshA 0x04 → u.rget a = s.rget a) ∧ u.net0 = s.net0 ∧ u.net1 = s.net1 ∧ u.links = s.links := by
  cases b with
  | false => exact ⟨fun _ _ => rfl, rfl, rfl, rfl⟩
  | true => exact ⟨fun a ha => rget_rbitSet_ne _ _ _ ha, rfl, rfl, rfl⟩

/-- An ACTIVE link that loses its lock, or has replayed too often, is reset (R383, R438). -/
theorem linkLost_view (s : State) (k : Fin 4) (lock : Bool)
    (hg : s.linkState k.val = 7 ∧ (lock = true ∨ 16 ≤ (s.lnk k.val).replays)) (h0 : s.waitingCmd 0 = none)
    (h1 : s.waitingCmd 1 = none) :
    ∃ u, execRelayLinkLost k lock s = .next u
      ∧ u.linkState k.val = (if s.rbit (linkA k.val 0x00) 31 then 1 else 0)
      ∧ u.rget (mshA 0x08) = BitVec.ofNat 32 (verdictCode 4 4 k.val 0x06 (if lock then 2 else 1))
      ∧ (s.outst = [] → u.lnk k.val = {}) := by
  let v := s.verdict 4 4 k.val 0x06 (if lock then 2 else 1)
  obtain ⟨t, ⟨c, ht⟩, hlow, hv⟩ := verdict_view s 4 4 k.val 0x06 (if lock then 2 else 1)
  have hvreg : v.rbit (linkA k.val 0x00) 31 = s.rbit (linkA k.val 0x00) 31 :=
    rbit_congr ((hv.regs _ (linkReg k.isLt (by decide))).trans (hlow _ (.inl (by unfold linkA mshA; omega)))) _
  have hvrest : v.net0 = s.net0 ∧ v.net1 = s.net1 ∧ v.outst = s.outst := by
    rw [show v = _ from hv.rest, ht]
    exact ⟨rfl, rfl, rfl⟩
  obtain ⟨hn0, hn1, hout⟩ := hvrest
  obtain ⟨r1, r2, r3, r4, r5⟩ := linkReset_view v k.isLt
  let r := v.linkReset k.val
  let d := r.health.delayed.filter (fun x => x.1 != (4, k.val))
  let w := if d.isEmpty then (r.setHealth { r.health with delayed := d }).rbitSet (mshA 0x04) 27 false
    else r.setHealth { r.health with delayed := d }
  have hw := delayed_view r { r.health with delayed := d } d.isEmpty
  obtain ⟨w1, w2, w3, w4⟩ : (∀ a, a ≠ mshA 0x04 → w.rget a = r.rget a) ∧ w.net0 = r.net0 ∧ w.net1 = r.net1
    ∧ w.links = r.links := hw
  have hc := waitingCmd_congr (w2.trans (r3.trans hn0)) (w3.trans (r4.trans hn1))
  have hidle : w.endHungReads = w := endHungReads_idle ((hc 0).trans h0) ((hc 1).trans h1)
  have he : execRelayLinkLost k lock s = .next w.endHungReads := congrArg Host.Outcome.next (if_pos hg)
  refine ⟨w, he.trans (congrArg Host.Outcome.next hidle), ?_, ?_, fun ho => ?_⟩
  · rw [← hvreg, ← r1]
    exact rfld_congr (w1 _ (by unfold linkA mshA; omega)) _ _
  · exact (w1 _ (by decide)).trans (r2.trans (rget_verdict _ _ _ _ _ _))
  · rw [← r5 (hout.trans ho), State.lnk, w4]
    rfl

end Sys2Proof.Machine
end

section
/-! # Links train and replay (O55) -/

namespace Sys2Proof.Machine

/-! ## Training -/

/-- An attempt that fails with TFAIL `c`: the link tries again at once, or stays OFF after four in a row. -/
def TrainFails (s u : State) (n c : Nat) : Prop :=
  u.rfld (linkA n 0x04) 23 4 = c % 16 ∧ u.rfld (linkA n 0x04) 15 4 = min (s.rfld (linkA n 0x04) 15 4 + 1) 15
    ∧ u.linkState n = if 3 ≤ s.rfld (linkA n 0x04) 15 4 then 0 else 1

theorem trainFails (s : State) {k : Nat} (hk : k < 4) (c : Nat) : TrainFails s (s.trainFail k c) k c := by
  obtain ⟨h1, h2, h3, -⟩ := trainFail_view s hk c
  exact ⟨h1, h2, h3⟩

/-- The failure code of IDENT, with the partner's words as they come (R382). -/
theorem identCode_words (s : State) (n : Nat) (part cascade : Word) (dev : Fin 16) (role : Fin 4) :
    s.identCode n part.toNat cascade.toNat dev.val role.val
      = if part ≠ s.rget 0x00 then 5 else if cascade ≠ s.rget (rlyA 0x08) then 6
        else if dev.val = s.devnum then 7
        else if (role = 1 ∧ s.role = 1) ∨ role = 0 ∨ s.role = 0 then 8
        else if s.rbit (linkA n 0x00) 30 = true ∧ dev.val ≠ s.rfld (linkA n 0x00) 20 4 then 9 else 0 := by
  have hn : ∀ x y : Word, x.toNat ≠ y.toNat ↔ x ≠ y := fun x y => not_congr BitVec.toNat_inj
  have hr : ∀ c : Fin 4, role.val = c.val ↔ role = c := fun c => Fin.val_inj
  unfold State.identCode
  simp only [hn, show role.val = 1 ↔ role = 1 from hr 1, show role.val = 0 ↔ role = 0 from hr 0]

/-- IDENT ends: DEVNUM of the partner shows, and the link goes on or has failed (R382). -/
theorem identStep_view (s : State) (k : Fin 4) (ok : Bool) (part cascade : Word) (dev : Fin 16) (role : Fin 4)
    (hst : s.linkState k.val = 5) :
    let code := s.identCode k.val part.toNat cascade.toNat dev.val role.val
    ∃ u, execRelayTrainingStepComplete k ok part cascade dev role s = .next u
      ∧ u.rfld (linkA k.val 0x04) 19 4 = dev.val ∧ (code = 0 → u.linkState k.val = 6)
      ∧ (code ≠ 0 → TrainFails s u k.val code) := by
  intro code
  let s1 := s.rfldSet (linkA k.val 0x04) 19 4 dev.val
  have he : execRelayTrainingStepComplete k ok part cascade dev role s
      = .next (if code = 0 then s1.setLinkState k.val 6 else s1.trainFail k.val code) := by
    unfold execRelayTrainingStepComplete
    dsimp only
    rw [if_neg (by omega), if_pos hst]
  have hdev : s1.rfld (linkA k.val 0x04) 19 4 = dev.val :=
    (rfld_rfldSet_self _ _ _ _ _ (by decide)).trans (Nat.mod_eq_of_lt dev.isLt)
  have hcnt : s1.rfld (linkA k.val 0x04) 15 4 = s.rfld (linkA k.val 0x04) 15 4 :=
    rfld_rfldSet_ne _ _ _ _ _ _ _ (by decide)
  rw [he]
  by_cases hc : code = 0
  · rw [if_pos hc]
    refine ⟨_, rfl, ?_, fun _ => linkState_setLinkState s1 6 k.isLt (by decide), fun h => absurd hc h⟩
    rw [rfld_congr ((setLinkState_observed s1 6 k.isLt).regs _ (linkReg k.isLt (by decide))),
      rfld_rfldSet_ne _ _ _ _ _ _ _ (by decide), hdev]
  · rw [if_neg hc]
    obtain ⟨h1, h2, h3, h4, -⟩ := trainFail_view s1 k.isLt code
    rw [hcnt] at h2 h3
    exact ⟨_, rfl, h4.trans hdev, fun h => absurd h hc, fun _ => ⟨h1, h2, h3⟩⟩

/-- CREDIT ends: the link is ACTIVE, with the credits of R385. -/
theorem linkActive_view {s : State} (k : Fin 4) (hst : s.linkState k.val = 6) (hc : s.linksCalm) :
    ∃ u, execRelayLinkActive k s = .next u ∧ u.linkState k.val = 7 ∧ u.rfld (linkA k.val 0x04) 15 4 = 0
      ∧ u.lnk k.val = { s.lnk k.val with credits := [32, 1024, 1024], nextSeq := 0, rxSeq := 0, replays := 0, owed := [] } := by
  let l : Link := { s.lnk k.val with credits := [32, 1024, 1024], nextSeq := 0, rxSeq := 0, replays := 0, owed := [] }
  let s1 := (s.setLnk k.val l).rfldSet (linkA k.val 0x04) 15 4 0
  let s2 := s1.setLinkState k.val 7
  have h2 : SameLinks (s.setLnk k.val l) s2 := ((SameLinks.refl _).rset _ _).setLinkState k.isLt 7
  have hcalm : s2.linksCalm := linksCalm_of_links h2.links (linksCalm_setLnk k.val (hc k.val k.isLt) hc)
  have he : execRelayLinkActive k s = .next (s2.pumpAll k.val).bootLinks :=
    congrArg Host.Outcome.next (if_pos hst)
  rw [pumpAll_calm s2 k.val k.isLt hcalm] at he
  have hreg : s2.bootLinks.rget (linkA k.val 0x04) = s2.rget (linkA k.val 0x04) :=
    (Spares.refl s2).bootLinks.regs _ (guarded_linkStat k.isLt)
  refine ⟨_, he, (rfld_congr hreg _ _).trans (linkState_setLinkState s1 7 k.isLt (by decide)), ?_, ?_⟩
  · rw [rfld_congr (hreg.trans ((setLinkState_observed s1 7 k.isLt).regs _ (linkReg k.isLt (by decide)))),
      rfld_rfldSet_ne _ _ _ _ _ _ _ (by decide), rfld_rfldSet_self _ _ _ _ _ (by decide)]
    rfl
  · rw [h2.bootLinks.lnk, State.lnk_setLnk]

/-! ## NAP (R27) -/

theorem quiet_iff (l : Link) : l.quiet = true ↔ l.wait = [] ∧ ∀ q ∈ l.replay, q.2.ty = 0x30 := by
  simp only [Link.quiet, Bool.and_eq_true, List.isEmpty_iff, List.all_eq_true, beq_iff_eq]

theorem napExit_view {s : State} (k : Fin 4) (hst : s.linkState k.val = 8) (hc : s.linksCalm) :
    execRelayLinkNapExit k s = .next (s.setLinkState k.val 7) := by
  refine congrArg Host.Outcome.next ((if_pos hst).trans (pumpAll_calm _ k.val k.isLt ?_))
  exact linksCalm_of_links ((SameLinks.refl s).setLinkState k.isLt 7).links hc

/-! ## NAKs and acknowledgements (R385, R386) -/

theorem linkSent_congr {s t : State} {k : Nat} (hd : t.devnum = s.devnum) (hp : t.partner k = s.partner k)
    (hl : t.lnk k = s.lnk k) (nak : Bool) (seq : Nat) (cr : List Nat) :
    t.linkSent k nak seq cr = s.linkSent k nak seq cr := by
  unfold State.linkSent State.ctlPkt
  rw [hd, hp, hl]

/-- A packet with a bad CRC: it counts, and the NAK goes when credits and the replay buffer admit it. -/
theorem nakSent_view {s : State} (k : Fin 4) {bytes : List Byte} (hst : s.linkState k.val = 7)
    (hb : crcGood bytes = false) :
    ∃ u, execLinkNak k (some bytes) s = .next u ∧ OnlyReg s u (linkA k.val 0x0C)
      ∧ (u.rget (linkA k.val 0x0C)).toNat = min ((s.rget (linkA k.val 0x0C)).toNat + 1) 0xFFFFFFFF
      ∧ (s.linksCalm → 2 ≤ lget 0 (s.lnk k.val).credits 0 → (s.lnk k.val).replayBytes + 20 ≤ 32768 →
        u.outs = s.outs ++ [s.linkSent k.val true (s.lnk k.val).rxSeq (addCredits (s.lnk k.val).owed [0, 0, 0])]) := by
  let s1 := s.rcount (linkA k.val 0x0C) 0 32 1
  have he : execLinkNak k (some bytes) s = .next (s1.sendLink k.val true (s.lnk k.val).rxSeq [0, 0, 0]) := by
    unfold execLinkNak
    dsimp only
    rw [if_neg (by rw [hst]; decide), hb]
    rfl
  have hs : Sends s1 (s1.sendLink k.val true (s.lnk k.val).rxSeq [0, 0, 0]) := .sendLink _ _ _ _ _
  have hne : ∀ b, b ≠ linkA k.val 0x0C → s1.rget b = s.rget b := fun b h => rget_rcount_ne _ _ _ _ h
  refine ⟨_, he, fun b h => (hs.rget b).trans (hne b h), ?_, fun hc h2 hr => ?_⟩
  · rw [hs.rget]
    exact rget_rcount_self _ _ _
  · have hst' : s1.linkState k.val = 7 := (rfld_congr (hne _ (by unfold linkA; omega)) _ _).trans hst
    rw [sendLink_calm (s := s1) k.isLt hst' hc true _ _ h2 hr]
    rw [linkSent_congr (rfld_congr (hne _ (by unfold rlyA linkA; omega)) _ _)
      (rfld_congr (hne _ (by unfold linkA; omega)) _ _) rfl]
    rfl

theorem each_out {α : Type} (l : List α) (f : α → OutMsg) (s : State) :
    s.each l (fun s x => s.out (f x)) = { s with outs := s.outs ++ l.map f } := by
  unfold State.each
  induction l generalizing s with
  | nil => rw [List.map_nil, List.append_nil]; rfl
  | cons x l ih =>
    rw [List.foldl_cons, ih, List.map_cons]
    show ({ s with outs := (s.outs ++ [f x]) ++ l.map f } : State) = _
    rw [List.append_assoc]
    rfl

/-- A NAK that arrives: everything not yet acknowledged is sent again (R386). -/
theorem nakTaken_view {s : State} (k : Fin 4) (hst : s.linkState k.val = 7) :
    let l := s.lnk k.val
    let owes := addCredits l.owed [2, 0, 0]
    let again := s.outs ++ l.replay.map (fun q => OutMsg.packet k.val q.1 q.2 q.2.wire)
    ∃ u, execLinkNak k none s = .next u ∧ OnlyReg s u (linkA k.val 0x10) ∧ again <+: u.outs
      ∧ (u.rget (linkA k.val 0x10)).toNat = min ((s.rget (linkA k.val 0x10)).toNat + 1) 0xFFFFFFFF
      ∧ (s.linksCalm → lget 0 owes 0 < 16 → u.outs = again
        ∧ u.lnk k.val = { l with replays := l.replays + 1, rxSeq := l.rxSeq + 1, owed := owes }) := by
  intro l owes again
  let s1 := (s.setLnk k.val { l with replays := l.replays + 1 }).rcount (linkA k.val 0x10) 0 32 1
  let s2 : State := { s1 with outs := again }
  have he : execLinkNak k none s = .next (s2.linkTaken k.val) := by
    unfold execLinkNak
    dsimp only
    rw [if_neg (by rw [hst]; decide), each_out]
    rfl
  have hs : Sends s2 (s2.linkTaken k.val) := .linkTaken _ _
  have hl : s2.lnk k.val = { l with replays := l.replays + 1 } := State.lnk_setLnk s k.val _
  have hreg : ∀ b, s2.rget b = s1.rget b := fun _ => rfl
  have hne : ∀ b, b ≠ linkA k.val 0x10 → s1.rget b = s.rget b := fun b h => rget_rcount_ne _ _ _ _ h
  refine ⟨_, he, fun b h => (hs.rget b).trans ((hreg b).trans (hne b h)), hs.outs, ?_, fun hc h16 => ?_⟩
  · rw [hs.rget, hreg]
    exact rget_rcount_self _ _ _
  · have hcalm : s2.linksCalm := linksCalm_of_links (s := s.setLnk k.val { l with replays := l.replays + 1 }) rfl
      (linksCalm_setLnk k.val (hc k.val k.isLt) hc)
    rw [linkTaken_calm k.isLt hcalm (by rw [hl]; exact h16), hl]
    exact ⟨rfl, State.lnk_setLnk _ _ _⟩

/-- A good packet: what it acknowledges leaves the replay buffer, and credits come back (R385, R386). -/
theorem linkPacket_view {s : State} (k : Fin 4) (ack : Option Word) (ctlCr lcCr beCr : BitVec 11)
    (hst : s.linkState k.val = 7) (hc : s.linksCalm) :
    let l := s.lnk k.val
    let owes := addCredits l.owed [2, 0, 0]
    let keep := match ack with
      | some x => l.replay.filter (fun q => decide (x.toNat < q.1))
      | none => l.replay
    lget 0 owes 0 < 16 → ∃ u, execLinkPacket k ack ctlCr lcCr beCr s = .next u ∧ u = s.setLnk k.val { l with
      replay := keep
      replays := if keep.length < l.replay.length then 0 else l.replays
      credits := [min 32 (lget 0 l.credits 0 + ctlCr.toNat), min 1024 (lget 0 l.credits 1 + lcCr.toNat),
        min 1024 (lget 0 l.credits 2 + beCr.toNat)]
      rxSeq := l.rxSeq + 1, owed := owes, dry := (u.lnk k.val).dry } := by
  intro l owes keep h16
  let l' : Link := { l with
    replay := keep
    replays := if keep.length < l.replay.length then 0 else l.replays
    credits := [min 32 (lget 0 l.credits 0 + ctlCr.toNat), min 1024 (lget 0 l.credits 1 + lcCr.toNat),
      min 1024 (lget 0 l.credits 2 + beCr.toNat)] }
  let m : Link := { l' with dry := l.dryAt l' s.now [ctlCr.toNat, lcCr.toNat, beCr.toNat] }
  have he : execLinkPacket k ack ctlCr lcCr beCr s = .next ((s.setLnk k.val m).linkTaken k.val) := by
    unfold execLinkPacket
    dsimp only
    rw [if_neg (by rw [hst]; decide)] <;> rfl
  have hcalm : (s.setLnk k.val m).linksCalm := linksCalm_setLnk k.val (hc k.val k.isLt) hc
  have hl : (s.setLnk k.val m).lnk k.val = m := State.lnk_setLnk _ _ _
  rw [linkTaken_calm k.isLt hcalm (by rw [hl]; exact h16), hl, State.setLnk_setLnk] at he
  exact ⟨_, he, by rw [State.lnk_setLnk]⟩

/-- A link that is not ACTIVE takes no packet. -/
theorem inactive_takes_none {s : State} (k : Fin 4) (h : s.linkState k.val ≠ 7) (bytes : Option (List Byte))
    (ack : Option Word) (c0 c1 c2 : BitVec 11) :
    execLinkNak k bytes s = .next s ∧ execLinkPacket k ack c0 c1 c2 s = .next s :=
  ⟨congrArg Host.Outcome.next (if_pos h), congrArg Host.Outcome.next (if_pos h)⟩

theorem linkNak_good (s : State) (k : Fin 4) {bytes : List Byte} (h : crcGood bytes = true) :
    execLinkNak k (some bytes) s = .next s := by
  unfold execLinkNak
  dsimp only
  rw [if_pos h, ite_self]

/-- The training steps before IDENT: one after the other, or the attempt has failed (R381). -/
theorem trainStep_eq {s : State} (k : Fin 4) (h : 1 ≤ s.linkState k.val ∧ s.linkState k.val ≤ 4) (ok : Bool)
    (part cascade : Word) (dev : Fin 16) (role : Fin 4) :
    execRelayTrainingStepComplete k ok part cascade dev role s
      = .next (if ok then s.setLinkState k.val (s.linkState k.val + 1) else s.trainFail k.val (s.linkState k.val)) :=
  congrArg Host.Outcome.next (if_pos h)

theorem trainStep_none {s : State} (k : Fin 4) (h : s.linkState k.val = 0 ∨ 6 ≤ s.linkState k.val) (ok : Bool)
    (part cascade : Word) (dev : Fin 16) (role : Fin 4) :
    execRelayTrainingStepComplete k ok part cascade dev role s = .next s :=
  congrArg Host.Outcome.next ((if_neg (by omega)).trans (if_neg (by omega)))

/-- A step that does not end in time (R381). -/
theorem trainTimeout_eq (s : State) (k : Fin 4) :
    (1 ≤ s.linkState k.val ∧ s.linkState k.val ≤ 4 →
      execRelayTrainingStepTimeout k s = .next (s.trainFail k.val (s.linkState k.val)))
    ∧ (s.linkState k.val = 5 ∨ s.linkState k.val = 6 → execRelayTrainingStepTimeout k s
      = .next ({ s with fresh := s.fresh + 1 }.trainFail k.val (Config.trainFail s.fresh).toNat))
    ∧ (s.linkState k.val = 0 ∨ 7 ≤ s.linkState k.val → execRelayTrainingStepTimeout k s = .next s) :=
  ⟨fun h => congrArg Host.Outcome.next (if_pos h),
    fun h => congrArg Host.Outcome.next ((if_neg (by omega)).trans (if_pos h)),
    fun h => congrArg Host.Outcome.next ((if_neg (by omega)).trans (if_neg (by omega)))⟩

/-- Settles O55: the steps of training by the state that each leaves (`trainFail_view`, `identStep_view`), what a link
sends by `sendLink_calm` and `linkTaken_calm`, and its loss by what failed requests spare (`linkLost_view`). -/
theorem linksTrainAndReplay : Obligations.LinksTrainAndReplay := by
  unfold Obligations.LinksTrainAndReplay
  intro s k ok lock bytes part cascade dev role ack ctlCr lcCr beCr n a st l enters idle napDue owes fails step
  obtain ⟨t1, t2, t3⟩ := trainTimeout_eq s k
  refine ⟨fun h ho => ?_, fun h ho => ?_, fun h => ?_, fun h => trainStep_none k h _ _ _ _ _,
    fun h => ⟨_, t1 h, trainFails s k.isLt st⟩, fun h => ?_, t3, linkActive_view k,
    fun h => congrArg Host.Outcome.next (if_neg h), ⟨fun h => ?_, fun h => congrArg Host.Outcome.next (if_neg h)⟩,
    ⟨fun h => congrArg Host.Outcome.next (if_neg h), fun h hi => linkLost_view s k lock h hi.1 hi.2⟩, fun h => ?_,
    fun h => ?_, fun h hc => ?_, fun h => congrArg Host.Outcome.next (if_neg h), fun h => ?_, fun h hb => ?_,
    fun body hb => ?_, fun h => nakTaken_view k h, fun h hc => linkPacket_view k ack ctlCr lcCr beCr h hc⟩
  · exact ⟨_, (trainStep_eq k h ok _ _ _ _).trans (by rw [if_pos ho]), setLinkState_observed s _ k.isLt⟩
  · exact ⟨_, (trainStep_eq k h ok _ _ _ _).trans (by rw [ho, if_neg (by decide)]), trainFails s k.isLt st⟩
  · obtain ⟨u, hu, h1, h2, h3⟩ := identStep_view s k ok part cascade dev role h
    rw [identCode_words] at h2 h3
    exact ⟨u, hu, h1, h2, h3⟩
  · obtain ⟨f1, f2, f3, -, f5⟩ := trainFail_view { s with fresh := s.fresh + 1 } k.isLt (Config.trainFail s.fresh).toNat
    exact ⟨_, t2 h, ⟨f1, f2, f3⟩, f5⟩
  · exact ⟨_, congrArg Host.Outcome.next (if_pos h), setLinkState_observed s 1 k.isLt⟩
  · obtain ⟨h1, h2, h3, h4⟩ := h
    exact ⟨_, congrArg Host.Outcome.next (if_pos ⟨h1, h2, (quiet_iff _).2 ⟨h3, h4⟩⟩), setLinkState_observed s 8 k.isLt⟩
  · refine congrArg Host.Outcome.next (if_neg fun hq => h ?_)
    exact ⟨hq.1, hq.2.1, (quiet_iff _).1 hq.2.2⟩
  · exact ⟨_, napExit_view k h hc, setLinkState_observed s 7 k.isLt⟩
  · obtain ⟨h1, h2⟩ := inactive_takes_none k h none ack ctlCr lcCr beCr
    exact ⟨h1, (inactive_takes_none k h (some bytes) ack ctlCr lcCr beCr).1, h2⟩
  · refine nakSent_view k h (Bool.eq_false_iff.2 fun hg => ?_)
    obtain ⟨body, he⟩ := (crcGood_iff bytes).1 hg
    exact hb body he
  · exact linkNak_good s k ((crcGood_iff bytes).2 ⟨body, hb⟩)

end Sys2Proof.Machine
end

section
/-!
Values of the number formats: what a magnitude code is worth in units of its format's least subnormal (R40), and that
finite values compare as their multiples of a common unit.
-/

namespace Sys2Proof.Machine

theorem bitAt_eq_testBit (w i : Nat) : bitAt w i = w.testBit i := by
  rw [bitAt, bitsOf, Nat.testBit_eq_decide_div_mod_eq, Nat.shiftRight_eq_div_pow, pow_one]
  rfl

/-- A magnitude code in units of the least subnormal (R40). -/
def FFmt.mant (f : FFmt) (mag : Nat) : Nat :=
  if mag / 2 ^ f.fb = 0 then mag % 2 ^ f.fb else (2 ^ f.fb + mag % 2 ^ f.fb) * 2 ^ (mag / 2 ^ f.fb - 1)

theorem FFmt.mant_zero (f : FFmt) : f.mant 0 = 0 := by simp [FFmt.mant]

theorem FFmt.mant_sub (f : FFmt) {fr : Nat} (h : fr < 2 ^ f.fb) : f.mant fr = fr := by
  rw [FFmt.mant, if_pos (Nat.div_eq_of_lt h), Nat.mod_eq_of_lt h]

/-- The magnitude code of a normal number: exponent field `e + 1` and fraction `fr`. -/
theorem FFmt.mant_normal (f : FFmt) (e : Nat) {fr : Nat} (h : fr < 2 ^ f.fb) :
    f.mant ((e + 1) * 2 ^ f.fb + fr) = (2 ^ f.fb + fr) * 2 ^ e := by
  have hd : ((e + 1) * 2 ^ f.fb + fr) / 2 ^ f.fb = e + 1 := by
    rw [Nat.mul_comm, Nat.mul_add_div (Nat.two_pow_pos _), Nat.div_eq_of_lt h, Nat.add_zero]
  have hm : ((e + 1) * 2 ^ f.fb + fr) % 2 ^ f.fb = fr := by
    rw [Nat.mul_comm, Nat.mul_add_mod, Nat.mod_eq_of_lt h]
  rw [FFmt.mant, hd, hm, if_neg (by omega), Nat.add_sub_cancel]

/-- Every magnitude code is that of a subnormal or of a normal number. -/
theorem FFmt.mag_cases (f : FFmt) (mag : Nat) :
    mag < 2 ^ f.fb ∨ ∃ e fr, fr < 2 ^ f.fb ∧ mag = (e + 1) * 2 ^ f.fb + fr := by
  have hm := Nat.mod_lt mag (Nat.two_pow_pos f.fb)
  have hd := Nat.div_add_mod' mag (2 ^ f.fb)
  rcases h : mag / 2 ^ f.fb with _ | e
  · left; rw [h] at hd; omega
  · right; exact ⟨e, _, hm, by rw [h] at hd; exact hd.symm⟩

theorem FFmt.mant_lt_succ (f : FFmt) (n : Nat) : f.mant n < f.mant (n + 1) := by
  have hp : 0 < 2 ^ f.fb := Nat.two_pow_pos _
  rcases f.mag_cases n with h | ⟨e, fr, h, rfl⟩
  · rw [f.mant_sub h]
    rcases Nat.lt_or_ge (n + 1) (2 ^ f.fb) with h1 | h1
    · rw [f.mant_sub h1]; omega
    · have : n + 1 = (0 + 1) * 2 ^ f.fb + 0 := by omega
      rw [this, f.mant_normal 0 hp]; omega
  · rw [f.mant_normal e h]
    rcases Nat.lt_or_ge (fr + 1) (2 ^ f.fb) with h1 | h1
    · rw [Nat.add_assoc, f.mant_normal e h1]
      exact Nat.mul_lt_mul_of_pos_right (by omega) (Nat.two_pow_pos e)
    · have h2 : (e + 1) * 2 ^ f.fb + fr + 1 = (e + 1 + 1) * 2 ^ f.fb + 0 := by
        rw [Nat.succ_mul (e + 1)]; omega
      rw [h2, f.mant_normal (e + 1) hp, Nat.add_zero, Nat.pow_succ, Nat.mul_comm (2 ^ e), ← Nat.mul_assoc]
      exact Nat.mul_lt_mul_of_pos_right (by omega) (Nat.two_pow_pos e)

/-- Larger magnitude codes are larger numbers. -/
theorem FFmt.mant_lt_iff (f : FFmt) (a b : Nat) : f.mant a < f.mant b ↔ a < b :=
  (strictMono_nat_of_lt_succ f.mant_lt_succ).lt_iff_lt

/-- The sign of a value as a factor. -/
def sgn (neg : Bool) : Int := if neg then -1 else 1

theorem units_num (k : Nat) (neg : Bool) (m : Nat) (e : Int) :
    (FVal.num neg m e).units k = sgn neg * ((m * 2 ^ (e + k).toNat : Nat) : Int) := rfl

theorem sm_num (neg : Bool) (m : Nat) (e : Int) : (FVal.num neg m e).sm = sgn neg * (m : Int) := by
  cases neg <;> simp [FVal.sm, sgn]

theorem toNat_sub_split {e e' : Int} {k : Nat} (h : e ≤ e') (hk : 0 ≤ e + k) :
    (e' + k).toNat = (e' - e).toNat + (e + k).toNat := by omega

/-- A finite value in units of 2^-k, from its significand against a common exponent. -/
theorem units_eq_sm {k : Nat} {neg : Bool} {m : Nat} {e e' : Int} (h : e ≤ e') (hk : 0 ≤ e + k) :
    (FVal.num neg m e').units k
      = (FVal.num neg m e').sm * ((2 ^ (e' - e).toNat : Nat) : Int) * ((2 ^ (e + k).toNat : Nat) : Int) := by
  rw [units_num, sm_num, toNat_sub_split h hk, Nat.pow_add]
  push_cast
  ring

/-- Finite values compare as their multiples of a common unit. -/
theorem finLt_iff {k : Nat} {n1 n2 : Bool} {m1 m2 : Nat} {e1 e2 : Int} (h1 : 0 ≤ e1 + k) (h2 : 0 ≤ e2 + k) :
    finLt (.num n1 m1 e1) (.num n2 m2 e2) = true
      ↔ (FVal.num n1 m1 e1).units k < (FVal.num n2 m2 e2).units k := by
  have hk : 0 ≤ min e1 e2 + k := by omega
  rw [units_eq_sm (Int.min_le_left e1 e2) hk, units_eq_sm (Int.min_le_right e1 e2) hk,
    Int.mul_lt_mul_right (by exact_mod_cast Nat.two_pow_pos _)]
  exact decide_eq_true_iff

/-- What a finite magnitude code is worth (R40). -/
theorem finVal_units (f : FFmt) {k : Nat} (hk : 0 ≤ f.emin + k) (neg : Bool) (mag : Nat) :
    (f.finVal neg mag).units k = sgn neg * ((f.mant mag * 2 ^ (f.emin + k).toNat : Nat) : Int) := by
  unfold FFmt.finVal FFmt.mant
  generalize mag / 2 ^ f.fb = q
  dsimp only
  split
  · exact units_num _ _ _ _
  · next h =>
    rw [units_num, toNat_sub_split (e := f.emin) (by omega) hk, Nat.pow_add, ← Nat.mul_assoc]
    congr 5
    omega

theorem finVal_num (f : FFmt) (neg : Bool) (mag : Nat) :
    ∃ m e, f.finVal neg mag = .num neg m e ∧ f.emin ≤ e ∧ (m = 0 ↔ mag = 0) := by
  have hd := Nat.div_add_mod' mag (2 ^ f.fb)
  have hp := Nat.two_pow_pos f.fb
  have h0 : mag = 0 → mag / 2 ^ f.fb = 0 := fun h => by rw [h, Nat.zero_div]
  unfold FFmt.finVal
  generalize mag / 2 ^ f.fb = q at *
  dsimp only
  split
  · next h => exact ⟨_, _, rfl, Int.le_refl _, by rw [h] at hd; omega⟩
  · next h => exact ⟨_, _, rfl, by omega, by omega⟩

end Sys2Proof.Machine
end

section
/-!
Encodings of the IEEE formats: what they decode to (R40, R41), that the order of values is the order of the encodings,
and minimum and maximum (R67, R68).
-/

namespace Sys2Proof.Machine

/-- The magnitude code and the sign of an encoding. -/
def FFmt.mag (m : FFmt) (c : Nat) : Nat := c % 2 ^ (m.width - 1)
def FFmt.isNeg (m : FFmt) (c : Nat) : Bool := c.testBit (m.width - 1)

/-- A binary format with infinities and signalling NaNs (R40, R41). -/
structure FFmt.Ieee (m : FFmt) : Prop where
  kind : m.kind = .ieee
  eb : 0 < m.eb

theorem ieee_fFP32 : fFP32.Ieee := ⟨rfl, by decide⟩
theorem ieee_fFP64 : fFP64.Ieee := ⟨rfl, by decide⟩

theorem FFmt.width_sub (m : FFmt) : m.width - 1 = m.eb + m.fb := by unfold FFmt.width; omega

theorem FFmt.nanBits_eq (m : FFmt) (c : Nat) : m.nanBits c = decide (m.infCode < m.mag c) := rfl

theorem FFmt.key_eq (m : FFmt) (c : Nat) : m.key c = if m.isNeg c then -1 - (m.mag c : Int) else (m.mag c : Int) := rfl

/-- An encoding that is no NaN is a finite number or an infinity. -/
theorem mag_of_not_nan {m : FFmt} {c : Nat} (hc : m.nanBits c = false) :
    m.mag c < m.infCode ∨ m.mag c = m.infCode := by
  have := of_decide_eq_false (m.nanBits_eq c ▸ hc)
  omega

section
variable {m : FFmt} (h : m.Ieee)
include h

theorem decode_ieee (c : Nat) :
    m.decode c = if m.mag c < m.infCode then m.finVal (m.isNeg c) (m.mag c)
      else if m.mag c = m.infCode then .inf (m.isNeg c) else .nan (!c.testBit (m.fb - 1)) := by
  have hw := h.eb
  unfold FFmt.decode FFmt.sign FFmt.mag FFmt.isNeg
  simp only [h.kind, bitAt_eq_testBit, m.width_sub, Nat.testBit_mod_two_pow,
    decide_eq_true (show m.fb - 1 < m.eb + m.fb by omega), Bool.true_and]

theorem decode_fin {c : Nat} (hc : m.mag c < m.infCode) : m.decode c = m.finVal (m.isNeg c) (m.mag c) := by
  rw [decode_ieee h, if_pos hc]

theorem decode_inf {c : Nat} (hc : m.mag c = m.infCode) : m.decode c = .inf (m.isNeg c) := by
  rw [decode_ieee h, if_neg (by omega), if_pos hc]

theorem decode_nan {c : Nat} (hc : m.nanBits c = true) : m.decode c = .nan (!c.testBit (m.fb - 1)) := by
  have := of_decide_eq_true (m.nanBits_eq c ▸ hc)
  rw [decode_ieee h, if_neg (by omega), if_neg (by omega)]

theorem isNan_decode (c : Nat) : (m.decode c).isNan = m.nanBits c := by
  cases hc : m.nanBits c with
  | true => rw [decode_nan h hc]; rfl
  | false =>
    rcases mag_of_not_nan hc with hf | hi
    · obtain ⟨n, e, hv, -⟩ := finVal_num m (m.isNeg c) (m.mag c)
      rw [decode_fin h hf, hv]; rfl
    · rw [decode_inf h hi]; rfl

theorem snanFlag_decode (c : Nat) : (m.decode c).snanFlag = if m.snanBits c then 1 else 0 := by
  unfold FFmt.snanBits
  cases hc : m.nanBits c with
  | true => rw [decode_nan h hc]; cases c.testBit (m.fb - 1) <;> rfl
  | false =>
    rcases mag_of_not_nan hc with hf | hi
    · obtain ⟨n, e, hv, -⟩ := finVal_num m (m.isNeg c) (m.mag c)
      rw [decode_fin h hf, hv]; rfl
    · rw [decode_inf h hi]; rfl

theorem neg_decode {c : Nat} (hc : m.nanBits c = false) : (m.decode c).neg = m.isNeg c := by
  rcases mag_of_not_nan hc with hf | hi
  · obtain ⟨n, e, hv, -⟩ := finVal_num m (m.isNeg c) (m.mag c)
    rw [decode_fin h hf, hv]; rfl
  · rw [decode_inf h hi]; rfl

theorem infCode_pos : 0 < m.infCode :=
  Nat.mul_pos (Nat.sub_pos_of_lt (Nat.one_lt_two_pow (Nat.pos_iff_ne_zero.1 h.eb))) (Nat.two_pow_pos _)

theorem isZero_decode {c : Nat} (hc : m.nanBits c = false) : (m.decode c).isZero = decide (m.mag c = 0) := by
  rcases mag_of_not_nan hc with hf | hi
  · obtain ⟨n, e, hv, -, hz⟩ := finVal_num m (m.isNeg c) (m.mag c)
    rw [decode_fin h hf, hv]
    exact decide_eq_decide.2 hz
  · have := infCode_pos h
    rw [decode_inf h hi, decide_eq_false (by omega)]; rfl

/-- Values compare as the signed magnitudes of their encodings, an infinity beyond every finite one. -/
theorem valLt_decode {a b : Nat} (ha : m.nanBits a = false) (hb : m.nanBits b = false) :
    valLt (m.decode a) (m.decode b) = true
      ↔ sgn (m.isNeg a) * (m.mant (m.mag a) : Int) < sgn (m.isNeg b) * (m.mant (m.mag b) : Int) := by
  have hpos : 0 < m.mant m.infCode := m.mant_zero ▸ (m.mant_lt_iff _ _).2 (infCode_pos h)
  rcases mag_of_not_nan ha with fa | ia <;> rcases mag_of_not_nan hb with fb | ib
  · have hk : 0 ≤ m.emin + m.emin.natAbs := by omega
    obtain ⟨n1, e1, hv1, he1, -⟩ := finVal_num m (m.isNeg a) (m.mag a)
    obtain ⟨n2, e2, hv2, he2, -⟩ := finVal_num m (m.isNeg b) (m.mag b)
    have hu := finLt_iff (n1 := m.isNeg a) (n2 := m.isNeg b) (m1 := n1) (m2 := n2)
      (show 0 ≤ e1 + m.emin.natAbs by omega) (show 0 ≤ e2 + m.emin.natAbs by omega)
    rw [← hv1, ← hv2, finVal_units m hk, finVal_units m hk, Nat.cast_mul, Nat.cast_mul, ← mul_assoc, ← mul_assoc,
      Int.mul_lt_mul_right (by exact_mod_cast Nat.two_pow_pos _)] at hu
    rw [decode_fin h fa, decode_fin h fb, ← hu, hv1, hv2]
    rfl
  · obtain ⟨n, e, hv, -⟩ := finVal_num m (m.isNeg a) (m.mag a)
    have hl := (m.mant_lt_iff _ _).2 fa
    rw [decode_fin h fa, decode_inf h ib, hv, ib]
    cases m.isNeg a <;> cases m.isNeg b <;> simp [valLt, sgn] <;> omega
  · obtain ⟨n, e, hv, -⟩ := finVal_num m (m.isNeg b) (m.mag b)
    have hl := (m.mant_lt_iff _ _).2 fb
    rw [decode_inf h ia, decode_fin h fb, hv, ia]
    cases m.isNeg a <;> cases m.isNeg b <;> simp [valLt, sgn] <;> omega
  · rw [decode_inf h ia, decode_inf h ib, ia, ib]
    cases m.isNeg a <;> cases m.isNeg b <;> simp [valLt, sgn]
    omega

/-- The order of R67 is the order of the encodings. -/
theorem minLt_decode {a b : Nat} (ha : m.nanBits a = false) (hb : m.nanBits b = false) :
    minLt (m.decode a) (m.decode b) = decide (m.key a < m.key b) := by
  rw [Bool.eq_iff_iff, decide_eq_true_iff, minLt]
  simp only [isZero_decode h ha, isZero_decode h hb, neg_decode h ha, neg_decode h hb, m.key_eq]
  by_cases hz : m.mag a = 0 ∧ m.mag b = 0
  · simp only [hz, decide_true, Bool.and_self, if_true]
    cases m.isNeg a <;> cases m.isNeg b <;> simp
  · rw [if_neg (by simpa using hz), valLt_decode h ha hb]
    have h1 := m.mant_lt_iff (m.mag a) (m.mag b)
    have h2 := m.mant_lt_iff (m.mag b) (m.mag a)
    have h3 := m.mant_lt_iff 0 (m.mag a)
    have h4 := m.mant_lt_iff 0 (m.mag b)
    rw [m.mant_zero] at h3 h4
    cases m.isNeg a <;> cases m.isNeg b <;> simp only [sgn, if_true, if_false, Bool.false_eq_true] <;> omega
end

/-- The result of a minimum or maximum and its flags, from whether the first operand is the one sought (R67, R68). -/
def FFmt.picked (m : FFmt) (service best : Bool) (a b : Nat) : Nat × FlagSet :=
  (if m.nanBits a && (service || m.nanBits b) then m.nanCode
   else if m.nanBits a then b
   else if m.nanBits b then (if service then m.nanCode else a)
   else if best then a else b,
   if m.snanBits a || m.snanBits b then 1 else 0)

theorem or_snan (a b : Bool) : ((if a then 1 else 0) ||| (if b then 1 else 0) : FlagSet) = if a || b then 1 else 0 := by
  cases a <;> cases b <;> rfl

theorem ite_lt_swap (x y : Int) (a b : Nat) : (if x < y then b else a) = if y ≤ x then a else b := by
  split <;> split <;> omega

/-- Minimum and maximum with subnormals kept (R67, R68). -/
theorem mm_eq_picked {m : FFmt} (h : m.Ieee) (service mx : Bool) (a b : Nat) :
    FFmt.mm service mx m false a b
      = m.picked service (if mx then decide (m.key b ≤ m.key a) else decide (m.key a ≤ m.key b)) a b := by
  unfold FFmt.mm FFmt.flush2 FFmt.flushIn FFmt.maxMin FFmt.picked
  simp only [Bool.false_and, Bool.false_eq_true, if_false, isNan_decode h, snanFlag_decode h, or_snan, flNone]
  cases ha : m.nanBits a with
  | true => cases hb : m.nanBits b <;> simp
  | false =>
    cases hb : m.nanBits b with
    | true => simp
    | false =>
      have hab := minLt_decode h ha hb
      have hba := minLt_decode h hb ha
      cases mx <;> simp [hab, hba, ite_lt_swap]

end Sys2Proof.Machine
end

section
/-!
Floating operations in the form of AUX (R100, R192), and FMIN and FMAX (R67-R69, R106).
-/

namespace Sys2Proof.Machine

theorem flane_eq (q : QWord) (j : Nat) : flane q j = (q.extractLsb' (32 * j) 32).toNat := by
  rw [BitVec.extractLsb'_toNat]; rfl

theorem fdbl_eq (q : QWord) : fdbl q = (q.extractLsb' 0 64).toNat := by
  rw [BitVec.extractLsb'_toNat]; rfl

/-- The low `w` bits of an F register are replaced (R100). -/
theorem low_replaced (old : QWord) {w : Nat} (v : Nat) (hw : w < 128) :
    let q := BitVec.ofNat 128 (old.toNat - old.toNat % 2 ^ w + v % 2 ^ w)
    q.extractLsb' 0 w = BitVec.ofNat w v ∧ q >>> w = old >>> w := by
  have hp : 0 < 2 ^ w := Nat.two_pow_pos w
  have hv := Nat.mod_lt v hp
  have hd := Nat.div_add_mod' old.toNat (2 ^ w)
  have he : old.toNat - old.toNat % 2 ^ w + v % 2 ^ w = 2 ^ w * (old.toNat / 2 ^ w) + v % 2 ^ w := by
    rw [Nat.mul_comm]; omega
  have hlt : 2 ^ w * (old.toNat / 2 ^ w) + v % 2 ^ w < 2 ^ 128 := by
    have h1 : old.toNat / 2 ^ w < 2 ^ (128 - w) := by
      rw [Nat.div_lt_iff_lt_mul hp, ← Nat.pow_add, Nat.sub_add_cancel hw.le]
      exact old.isLt
    calc _ < 2 ^ w * (old.toNat / 2 ^ w + 1) := by rw [Nat.mul_succ]; omega
      _ ≤ 2 ^ w * 2 ^ (128 - w) := Nat.mul_le_mul_left _ h1
      _ = 2 ^ 128 := by rw [← Nat.pow_add, Nat.add_sub_cancel' hw.le]
  dsimp only
  constructor <;> apply BitVec.eq_of_toNat_eq
  · rw [BitVec.extractLsb'_toNat, BitVec.toNat_ofNat, BitVec.toNat_ofNat, Nat.shiftRight_zero, he, Nat.mod_eq_of_lt hlt,
      Nat.mul_add_mod, Nat.mod_mod]
  · rw [BitVec.toNat_ushiftRight, BitVec.toNat_ushiftRight, BitVec.toNat_ofNat, he, Nat.mod_eq_of_lt hlt,
      Nat.shiftRight_eq_div_pow, Nat.shiftRight_eq_div_pow, Nat.mul_add_div hp, Nat.div_eq_of_lt hv, Nat.add_zero]

theorem fsetLane_zero (q : QWord) (v : Nat) :
    (fsetLane q 0 v).extractLsb' 0 32 = BitVec.ofNat 32 v ∧ fsetLane q 0 v >>> 32 = q >>> 32 := by
  have := low_replaced q (w := 32) v (by decide)
  simpa [fsetLane, flane, bitsOf] using this

theorem fsetDbl_low (q : QWord) (v : Nat) :
    (fsetDbl q v).extractLsb' 0 64 = BitVec.ofNat 64 v ∧ fsetDbl q v >>> 64 = q >>> 64 :=
  low_replaced q v (by decide)

/-- Four lanes packed into an F register. -/
def packLanes (l : List (Nat × FlagSet)) : Nat := l.foldr (fun r a => a * 2 ^ 32 + r.1 % 2 ^ 32) 0

theorem packLanes_lane (l : List (Nat × FlagSet)) (j : Nat) (hj : j < l.length) :
    packLanes l >>> (32 * j) % 2 ^ 32 = l[j].1 % 2 ^ 32 := by
  induction l generalizing j with
  | nil => exact absurd hj (Nat.not_lt_zero _)
  | cons r l ih =>
    have hr := Nat.mod_lt r.1 (Nat.two_pow_pos 32)
    have hc : packLanes (r :: l) = 2 ^ 32 * packLanes l + r.1 % 2 ^ 32 := by rw [Nat.mul_comm]; rfl
    rw [hc]
    cases j with
    | zero => rw [Nat.mul_zero, Nat.shiftRight_zero, Nat.mul_add_mod, Nat.mod_mod]; rfl
    | succ j =>
      rw [Nat.mul_succ, Nat.add_comm (32 * j), Nat.shiftRight_add, Nat.shiftRight_eq_div_pow _ 32,
        Nat.mul_add_div (Nat.two_pow_pos 32), Nat.div_eq_of_lt hr, Nat.add_zero, ih j (Nat.lt_of_succ_lt_succ hj)]
      rfl

theorem packLanes_extract (l : List (Nat × FlagSet)) (j : Nat) (hj : j < l.length) (h4 : l.length ≤ 4) :
    (BitVec.ofNat 128 (packLanes l)).extractLsb' (32 * j) 32 = BitVec.ofNat 32 l[j].1 := by
  apply BitVec.eq_of_toNat_eq
  have hd : 2 ^ (32 * j + 32) ∣ 2 ^ 128 := Nat.pow_dvd_pow 2 (by omega)
  rw [BitVec.extractLsb'_toNat, BitVec.toNat_ofNat, BitVec.toNat_ofNat, ← packLanes_lane l j hj,
    Nat.shiftRight_eq_div_pow, Nat.shiftRight_eq_div_pow, ← Nat.mod_mul_right_div_self, ← Nat.mod_mul_right_div_self,
    ← Nat.pow_add, Nat.mod_mod_of_dvd _ hd]

/-- The register of a scalar result. -/
theorem fpDest_single {old q : QWord} {r : Nat × FlagSet} {aux : Byte} {w : Nat}
    (hw : (if aux.toNat % 4 = 2 then 64 else 32) = w)
    (hq : q.extractLsb' 0 w = BitVec.ofNat w r.1 ∧ q >>> w = old >>> w) : fpDest old q [r] aux := by
  subst hw
  refine ⟨fun j hj => ?_, fun _ => hq.2⟩
  obtain rfl : j = 0 := by simpa using hj
  exact hq.1

/-- The register of a quad result. -/
theorem fpDest_quad (old : QWord) {l : List (Nat × FlagSet)} {aux : Byte} (ha : aux.toNat % 4 = 1) (hl : l.length = 4) :
    fpDest old (BitVec.ofNat 128 (packLanes l)) l aux := by
  unfold fpDest
  rw [ha]
  exact ⟨fun j hj => packLanes_extract l j hj hl.le, fun h => by omega⟩

/-- A floating operation in the form of AUX writes its lanes' results and raises their flags (R100, R103). -/
theorem fpApply_dest {c : TCtx} {aux : Byte} (haux : aux.toNat % 4 ≠ 3) (rd : RegNo)
    {g : FFmt → (Nat → Nat) → Nat × FlagSet} {h : FFmt → (RegNo → Nat) → Nat × FlagSet}
    (h32 : ∀ j, g fFP32 (fun n => flane (c.fr n) j)
      = h fFP32 (fun r => ((c.fr r.val).extractLsb' (32 * j) 32).toNat))
    (h64 : g fFP64 (fun n => fdbl (c.fr n)) = h fFP64 (fun r => ((c.fr r.val).extractLsb' 0 64).toNat)) :
    ∃ q, fpDest (c.fr rd.val) q (fpLanes c aux h) aux
      ∧ c.fpApply aux rd.val g = ⟨[.f rd.val q], (fpLanes c aux h).map Prod.snd⟩ := by
  unfold TCtx.fpApply fpForm fpLanes
  rcases (show aux.toNat % 4 = 0 ∨ aux.toNat % 4 = 1 ∨ aux.toNat % 4 = 2 by omega) with ha | ha | ha
  · rw [if_pos ha, ha]
    simp only [h32]
    exact ⟨_, fpDest_single (by rw [ha]; rfl) (fsetLane_zero _ _), rfl⟩
  · rw [if_neg (by omega), if_pos ha, ha]
    simp only [h32]
    exact ⟨_, fpDest_quad _ ha rfl, rfl⟩
  · rw [if_neg (by omega), if_neg (by omega), ha]
    simp only [h64]
    exact ⟨_, fpDest_single (by rw [ha]; rfl) (fsetDbl_low _ _), rfl⟩

theorem flUnion_lanes (l : List (Nat × FlagSet)) : flUnion (l.map Prod.snd) = fpFlags l := by
  rw [flUnion, List.foldl_map]; rfl

/-- A floating operation on two F registers whose untrapped flags let it retire. -/
theorem fp2_retires {s : State} {t : TileNo} (hr : s.laneReady t.val) (rd x y : RegNo) {aux : Byte}
    (haux : aux.toNat % 4 ≠ 3) {f : FFmt → Bool → Nat → Nat → Nat × FlagSet} {p : FFmt → Nat → Nat → Nat × FlagSet}
    (hf : ∀ m : FFmt, m.Ieee → ∀ a b, f m (s.flushOn t.val) a b = p m a b)
    (hq : fpFlags (fpLanes (s.tc t.val) aux (fun m r => p m (r x) (r y))) &&& s.trapEn t.val = 0) :
    FpRetires s (s.fp2 t rd x y aux f) t.val rd aux (fun m r => p m (r x) (r y)) := by
  obtain ⟨q, hd, he⟩ := fpApply_dest (c := s.issuing t.val) haux rd
    (g := fun m r => f m (s.flushOn t.val) (r x.val) (r y.val)) (h := fun m r => p m (r x) (r y))
    (fun j => by simp only [hf _ ieee_fFP32, flane_eq]) (by simp only [hf _ ieee_fFP64, fdbl_eq])
  refine ⟨q, hd, ?_⟩
  have := lane_retires hr (fun c => c.fpApply aux rd.val (fun m r => f m (s.flushOn t.val) (r x.val) (r y.val)))
  rw [he, flUnion_lanes] at this
  exact this hq

/-- Settles O17: the operand chosen is the one that the order of encodings chooses (`mm_eq_picked`), lane by lane
(`fp2_retires`). -/
theorem fpMinimumMaximum : Obligations.FpMinimumMaximum := by
  unfold Obligations.FpMinimumMaximum
  intro s t rd x y aux hr haux hfl service pick least most
  have hmm (mx : Bool) (m : FFmt) (hm : m.Ieee) (a b : Nat) : FFmt.mm service mx m (s.flushOn t.val) a b
      = m.picked service (if mx then decide (m.key b ≤ m.key a) else decide (m.key a ≤ m.key b)) a b := by
    rw [hfl, mm_eq_picked hm]
  exact ⟨fun hq => ⟨_, rfl, fp2_retires hr rd x y haux (hmm false) hq⟩,
    fun hq => ⟨_, rfl, fp2_retires hr rd x y haux (hmm true) hq⟩⟩

end Sys2Proof.Machine
end

section
/-!
Conversions (R51, R101, R107): what a conversion delivers exactly, and the range of what it delivers.
-/

namespace Sys2Proof.Machine

/-! ## Exact roundings -/

theorem bitLen_bounds {m : Nat} (h : m ≠ 0) : 0 < bitLen m ∧ 2 ^ (bitLen m - 1) ≤ m ∧ m < 2 ^ bitLen m := by
  rw [bitLen, if_neg h]
  exact ⟨Nat.succ_pos _, Nat.log2_self_le h, Nat.lt_log2_self⟩

theorem bitLen_le {m n : Nat} (h : m < 2 ^ n) : bitLen m ≤ n := by
  by_cases h0 : m = 0
  · rw [bitLen, if_pos h0]; exact Nat.zero_le _
  · have hb := bitLen_bounds h0
    have := (Nat.pow_lt_pow_iff_right (by decide : 1 < 2)).1 (hb.2.1.trans_lt h)
    omega

theorem bitLen_eq {m n : Nat} (h1 : 2 ^ n ≤ m) (h2 : m < 2 ^ (n + 1)) : bitLen m = n + 1 := by
  have h0 : m ≠ 0 := fun h => absurd h1 (by have := Nat.two_pow_pos n; omega)
  have hb := bitLen_bounds h0
  have := (Nat.pow_lt_pow_iff_right (by decide : 1 < 2)).1 (h1.trans_lt hb.2.2)
  have := bitLen_le h2
  omega

/-- A multiple of 2^k rounds to an integer exactly. -/
theorem roundAt_shift (n k : Nat) : roundAt (n * 2 ^ k) (-k) 0 = (n, true) := by
  rcases Nat.eq_zero_or_pos k with rfl | hk
  · simp [roundAt]
  · rw [roundAt, if_neg (by omega)]
    have hk' : (0 - -(k : Int)).toNat = k := by omega
    simp only [hk']
    have hp := Nat.two_pow_pos (k - 1)
    split
    · next hb =>
      have h0 : n = 0 := by
        by_contra h0
        have hm : n * 2 ^ k ≠ 0 := Nat.mul_ne_zero h0 (Nat.two_pow_pos k).ne'
        have hlt : 2 ^ k < 2 ^ k := calc
          2 ^ k ≤ n * 2 ^ k := Nat.le_mul_of_pos_left _ (Nat.pos_of_ne_zero h0)
          _ < 2 ^ bitLen (n * 2 ^ k) := (bitLen_bounds hm).2.2
          _ ≤ 2 ^ k := Nat.pow_le_pow_right (by decide) (by omega)
        omega
      simp [h0]
    · rw [Nat.mul_div_cancel _ (Nat.two_pow_pos k), Nat.mul_mod_left, if_pos hp]
      rfl

/-- A magnitude that is an integer, in units of 2^-k, rounds to it exactly. -/
theorem roundAt_exact {m n k : Nat} {e : Int} (he : 0 ≤ e + k) (h : m * 2 ^ (e + k).toNat = n * 2 ^ k) :
    roundAt m e 0 = (n, true) := by
  rcases le_or_gt 0 e with h0 | h0
  · have hs : (e + k).toNat = e.toNat + k := by omega
    rw [hs, Nat.pow_add, ← Nat.mul_assoc] at h
    rw [roundAt, if_pos h0, Int.sub_zero, Nat.eq_of_mul_eq_mul_right (Nat.two_pow_pos k) h]
  · obtain ⟨j, rfl⟩ : ∃ j : Nat, e = -j := ⟨e.natAbs, by omega⟩
    have hs : k = j + (-(j : Int) + k).toNat := by omega
    have hm : m = n * 2 ^ j := by
      refine Nat.eq_of_mul_eq_mul_right (Nat.two_pow_pos (-(j : Int) + k).toNat) ?_
      rw [h, Nat.mul_assoc, ← Nat.pow_add, ← hs]
    rw [hm, roundAt_shift]

theorem sgn_mul_self (neg : Bool) : sgn neg * sgn neg = 1 := by cases neg <;> rfl

/-- A finite value that is an integer rounds to it exactly. -/
theorem roundInt_exact {neg : Bool} {m k : Nat} {e v : Int} (he : 0 ≤ e + k)
    (h : (FVal.num neg m e).units k = v * 2 ^ k) : roundInt neg m e = (v, true) := by
  have hw : sgn neg * v * (2 ^ k : Nat) = (m * 2 ^ (e + k).toNat : Nat) := by
    rw [units_num] at h
    push_cast at h ⊢
    rw [mul_assoc, ← h, ← mul_assoc, sgn_mul_self, one_mul]
  obtain ⟨n, hn⟩ : ∃ n : Nat, sgn neg * v = n := by
    refine Int.eq_ofNat_of_zero_le (Int.le_of_not_gt fun hlt => ?_)
    have := mul_neg_of_neg_of_pos hlt (show (0 : Int) < (2 ^ k : Nat) by exact_mod_cast Nat.two_pow_pos k)
    omega
  have hv : v = sgn neg * n := by rw [← hn, ← mul_assoc, sgn_mul_self, one_mul]
  rw [hn] at hw
  rw [roundInt, roundAt_exact he (n := n) (by exact_mod_cast hw.symm), hv]
  cases neg <;> simp [sgn]

/-! ## An integer in FP64 -/

theorem pack_lt {m : FFmt} {neg : Bool} {mag : Nat} (h : mag < 2 ^ (m.eb + m.fb)) : m.pack neg mag < 2 ^ m.width := by
  have hw : 2 ^ m.width = 2 ^ (m.eb + m.fb) + 2 ^ (m.eb + m.fb) := by
    rw [FFmt.width, Nat.add_assoc, Nat.add_comm, Nat.pow_succ, Nat.mul_two]
  rw [hw, FFmt.pack]
  cases neg <;> simp only [cond_true, cond_false] <;> omega

theorem mag_pack {m : FFmt} {neg : Bool} {mag : Nat} (h : mag < 2 ^ (m.eb + m.fb)) : m.mag (m.pack neg mag) = mag := by
  rw [FFmt.mag, m.width_sub, FFmt.pack]
  cases neg
  · rw [cond_false, Nat.zero_add, Nat.mod_eq_of_lt h]
  · rw [cond_true, Nat.add_mod_left, Nat.mod_eq_of_lt h]

theorem isNeg_pack {m : FFmt} {neg : Bool} {mag : Nat} (h : mag < 2 ^ (m.eb + m.fb)) :
    m.isNeg (m.pack neg mag) = neg := by
  rw [FFmt.isNeg, m.width_sub, FFmt.pack]
  cases neg
  · rw [cond_false, Nat.zero_add]; exact Nat.testBit_lt_two_pow h
  · rw [cond_true, Nat.testBit_two_pow_add_eq, Nat.testBit_lt_two_pow h]; rfl

/-- What a packed finite magnitude code is worth. -/
theorem pack_units {m : FFmt} (h : m.Ieee) {k : Nat} (hk : 0 ≤ m.emin + k) (neg : Bool) {mag : Nat}
    (hm : mag < m.infCode) :
    (m.decode (m.pack neg mag)).units k = sgn neg * ((m.mant mag * 2 ^ (m.emin + k).toNat : Nat) : Int) := by
  have hl : mag < 2 ^ (m.eb + m.fb) := by
    refine hm.trans_le ?_
    rw [FFmt.infCode, Nat.pow_add]
    exact Nat.mul_le_mul_right _ (Nat.sub_le _ _)
  rw [decode_fin h (by rw [mag_pack hl]; exact hm), mag_pack hl, isNeg_pack hl, finVal_units m hk]

theorem emin_fFP64 : fFP64.emin = -1074 := rfl

theorem fb_fFP64 : fFP64.fb = 52 := rfl

/-- A nonzero integer below 2^32 is delivered in FP64 exactly, with no flag (R51). -/
theorem deliverNum_int {n : Nat} (h0 : n ≠ 0) (h : n < 2 ^ 32) (flush neg : Bool) :
    ∃ mag, fFP64.deliverNum flush neg n 0 = (fFP64.pack neg mag, flNone) ∧ mag < fFP64.infCode
      ∧ fFP64.mant mag = n * 2 ^ 1074 := by
  obtain ⟨hl, hlo, hhi⟩ := bitLen_bounds h0
  have hle := bitLen_le h
  obtain ⟨j, hj⟩ : ∃ j, bitLen n + j = 53 := ⟨53 - bitLen n, by omega⟩
  have hlow : 2 ^ 52 ≤ n * 2 ^ j := calc
    2 ^ 52 = 2 ^ (bitLen n - 1) * 2 ^ j := by rw [← Nat.pow_add]; congr 1; omega
    _ ≤ n * 2 ^ j := Nat.mul_le_mul_right _ hlo
  have hhigh : n * 2 ^ j < 2 ^ 53 := calc
    n * 2 ^ j < 2 ^ bitLen n * 2 ^ j := Nat.mul_lt_mul_of_pos_right hhi (Nat.two_pow_pos j)
    _ = 2 ^ 53 := by rw [← Nat.pow_add, hj]
  have hu : ulpExp n 0 (fFP64.fb + 1) = -(j : Int) := by rw [ulpExp, fb_fFP64]; omega
  have hq : max (-(j : Int)) fFP64.emin = -(j : Int) := by rw [emin_fFP64]; omega
  have hr : roundAt n 0 (-(j : Int)) = (n * 2 ^ j, true) := by
    rw [roundAt, if_pos (by omega)]; congr 4; omega
  have ht : fFP64.tiny n 0 = false := by
    rw [FFmt.tiny, hu, hr, bitLen_eq hlow hhigh]
    exact decide_eq_false (by simp only [emin_fFP64, fb_fFP64]; omega)
  have hc : (-(j : Int) - fFP64.emin).toNat = 1074 - j := by rw [emin_fFP64]; omega
  have hs : (1074 - j) * 2 ^ 52 + n * 2 ^ j = (1074 - j + 1) * 2 ^ 52 + (n * 2 ^ j - 2 ^ 52) := by
    rw [Nat.succ_mul]; omega
  refine ⟨(1074 - j + 1) * 2 ^ 52 + (n * 2 ^ j - 2 ^ 52), ?_, ?_, ?_⟩
  · rw [FFmt.deliverNum, hu, hq, hr, hc, ht]
    simp only [show fFP64.kind = .ieee from rfl, fb_fFP64, hs]
    rw [if_neg (by simp only [fFP64]; omega), if_neg (by decide)]
    rfl
  · simp only [FFmt.infCode, fFP64]; omega
  · have hm := fFP64.mant_normal (1074 - j) (fr := n * 2 ^ j - 2 ^ 52) (by rw [fb_fFP64]; omega)
    rw [fb_fFP64, Nat.add_sub_cancel' hlow, Nat.mul_assoc, ← Nat.pow_add] at hm
    rw [hm]; congr 2; omega

theorem sgn_natAbs (i : Int) : sgn (decide (i < 0)) * (i.natAbs : Int) = i := by
  rcases lt_or_ge i 0 with h | h
  · rw [decide_eq_true h, sgn, if_pos rfl]; omega
  · rw [decide_eq_false (by omega), sgn, if_neg Bool.false_ne_true]; omega

/-- An integer of at most 32 bits is delivered in FP64 exactly, with no flag (R51). -/
theorem deliver_int {i : Int} (h : i.natAbs < 2 ^ 32) (flush : Bool) {k : Nat} (hk : 1074 ≤ k) :
    ∃ r, fFP64.deliver flush (ofInt i) = (r, flNone) ∧ r < 2 ^ 64 ∧ (fFP64.decode r).units k = i * 2 ^ k := by
  have hk' : 0 ≤ fFP64.emin + k := by rw [emin_fFP64]; omega
  by_cases h0 : i.natAbs = 0
  · obtain rfl := Int.natAbs_eq_zero.1 h0
    refine ⟨fFP64.pack false 0, rfl, pack_lt (m := fFP64) (Nat.two_pow_pos _), ?_⟩
    rw [pack_units ieee_fFP64 hk' false (infCode_pos ieee_fFP64), fFP64.mant_zero, Nat.zero_mul, Nat.cast_zero, mul_zero,
      zero_mul]
  · obtain ⟨mag, hd, hm, hv⟩ := deliverNum_int h0 h flush (decide (i < 0))
    refine ⟨_, (if_neg h0).trans hd, pack_lt (m := fFP64) (hm.trans (by decide)), ?_⟩
    have he : 1074 + (fFP64.emin + k).toNat = k := by rw [emin_fFP64]; omega
    rw [pack_units ieee_fFP64 hk' _ hm, hv, Nat.mul_assoc, ← Nat.pow_add, he, Nat.cast_mul, ← mul_assoc, sgn_natAbs,
      Nat.cast_pow, Nat.cast_ofNat]

/-! ## Integers -/

/-- A value in the range of a W-bit register result is written as it is (R100). -/
theorem gres_of_range {w : Nat} (hw : w = 64 ∨ w = 32) {v : Int} (h1 : -2 ^ (w - 1) ≤ v) (h2 : v < 2 ^ (w - 1)) :
    gres w v = BitVec.ofInt 64 v := by
  rcases hw with rfl | rfl
  · rfl
  · have h : sext (wrapN v 32) 32 = v := by
      unfold sext wrapN
      simp only at h1 h2 ⊢
      split <;> omega
    rw [gres, if_neg (by decide), h]

/-- An integral value in range is delivered as it is, with no flag (R52). -/
theorem deliverInt_exact {lo hi : Int} {neg : Bool} {m k : Nat} {e v : Int} (he : 0 ≤ e + k)
    (h : (FVal.num neg m e).units k = v * 2 ^ k) (h1 : lo ≤ v) (h2 : v ≤ hi) :
    deliverInt lo hi (.num neg m e) = (v, flNone) := by
  simp only [deliverInt, roundInt_exact he h, if_neg (not_lt.2 h1), if_neg (not_lt.2 h2)]
  rfl

/-! ## The range of what is delivered -/

/-- The codes that a floating format delivers fit its width. -/
structure FFmt.Fits (m : FFmt) : Prop where
  max : m.maxCode < 2 ^ (m.eb + m.fb)
  inf : m.infCode < 2 ^ (m.eb + m.fb)
  nan : m.nanCode < 2 ^ m.width

theorem deliverNum_lt {m : FFmt} (h : m.Fits) (flush neg : Bool) (n : Nat) (e : Int) :
    (m.deliverNum flush neg n e).1 < 2 ^ m.width := by
  unfold FFmt.deliverNum
  extract_lets q r code inex
  have h0 : (0 : Nat) < 2 ^ (m.eb + m.fb) := Nat.two_pow_pos _
  have hc (hn : ¬ m.maxCode < code) : code < 2 ^ (m.eb + m.fb) := (Nat.le_of_not_lt hn).trans_lt h.max
  split
  · split
    · exact pack_lt h.inf
    · next hn =>
      split
      · split
        · exact pack_lt h0
        · exact pack_lt (hc hn)
      · exact pack_lt (hc hn)
  · split
    · exact pack_lt h.max
    · next hn =>
      split
      · dsimp only
        split
        · exact Nat.two_pow_pos _
        · exact pack_lt h0
      · exact pack_lt (hc hn)

theorem FFmt.deliver_lt {m : FFmt} (h : m.Fits) (flush : Bool) (v : FVal) : (m.deliver flush v).1 < 2 ^ m.width := by
  unfold FFmt.deliver
  split
  · exact h.nan
  · split
    · exact pack_lt h.inf
    · exact pack_lt h.inf
    · exact pack_lt h.max
  · split
    · dsimp only
      split
      · exact Nat.two_pow_pos _
      · exact pack_lt (Nat.two_pow_pos _)
    · exact deliverNum_lt h _ _ _ _

theorem wrapN_lt (i : Int) (n : Nat) : wrapN i n < 2 ^ n := by
  have h0 : (0 : Int) < ((2 ^ n : Nat) : Int) := by exact_mod_cast Nat.two_pow_pos n
  have h1 := Int.emod_nonneg i h0.ne'
  have h2 := Int.emod_lt_of_pos i h0
  unfold wrapN
  omega

/-- A floating element format and the layout it stands for. -/
theorem float_fits {f : EFmt} {m : FFmt} (h : f.float = some m) : m.Fits ∧ m.width = f.bits := by
  cases f <;> cases h <;> exact ⟨⟨by decide, by decide, by decide⟩, rfl⟩

theorem cond_lt_two (n : Bool) : cond n 0 1 < 2 := by cases n <;> decide

/-- What a conversion delivers fits the destination's width (R51). -/
theorem EFmt.deliver_lt (f : EFmt) (flush : Bool) (x : Int) (v : FVal) : (f.deliver flush x v).1 < 2 ^ f.bits := by
  unfold EFmt.deliver
  split
  · split
    · exact Nat.two_pow_pos _
    · exact wrapN_lt _ _
  · exact wrapN_lt _ _
  · exact wrapN_lt _ _
  · exact wrapN_lt _ _
  · exact wrapN_lt _ _
  · split
    · decide
    · exact cond_lt_two _
    · exact cond_lt_two _
  · exact wrapN_lt _ _
  · split
    · next m hm =>
      obtain ⟨hfit, hw⟩ := float_fits hm
      exact hw ▸ m.deliver_lt hfit _ _
    · exact Nat.two_pow_pos _

end Sys2Proof.Machine
end

section
/-!
CVT (R51, R101, R107, R193).
-/

namespace Sys2Proof.Machine

theorem scale_zero (v : FVal) : v.scale 0 = v := by cases v <;> simp [FVal.scale]

/-- The floating format of a source of CVT that is an F register. -/
theorem cvtSrc_float (c : TCtx) (flush wide : Bool) (e : Int) {code : Nat} (hc : code ≤ 1) (r : Nat) :
    let m := if code = 0 then fFP64 else fFP32
    let v := m.load flush ((c.fr r).toNat % 2 ^ m.width)
    c.cvtSrc flush wide e code r = (v.1, v.2 ||| v.1.snanFlag) := by
  rcases (show code = 0 ∨ code = 1 by omega) with rfl | rfl
  · simp [TCtx.cvtSrc, fmtCode, EFmt.load, EFmt.float, scale_zero, TCtx.cvtRaw, fdbl, EFmt.bits, fFP64, FFmt.width]
  · simp [TCtx.cvtSrc, fmtCode, EFmt.load, EFmt.float, scale_zero, TCtx.cvtRaw, flane, bitsOf, EFmt.bits, fFP32,
      FFmt.width]

/-- The integer register that CVT reads. -/
theorem cvtSrc_int (c : TCtx) (flush wide : Bool) (e : Int) (r : Nat) :
    c.cvtSrc flush wide e 15 r = (ofInt (sext (c.gr r).toNat (if wide then 64 else 32)), flNone) := rfl

/-- The integer register that CVT writes. -/
theorem cvtDst_int (c : TCtx) (flush wide : Bool) (e : Int) (rd : Nat) (v : FVal) :
    let w := if wide then 64 else 32
    let r := deliverInt (-((2 ^ (w - 1) : Nat) : Int)) (((2 ^ (w - 1) : Nat) : Int) - 1) v
    c.cvtDst flush wide e 15 rd v = (.g rd (gres w r.1), r.2) := rfl

theorem fmtCode_elem {code : Nat} (h : code < 15) (h' : ¬ (5 ≤ code ∧ code ≤ 8)) :
    ∃ f, fmtCode code false = .elem f := by
  rcases (show code = 0 ∨ code = 1 ∨ code = 2 ∨ code = 3 ∨ code = 4 ∨ code = 9 ∨ code = 10 ∨ code = 11 ∨ code = 12
    ∨ code = 13 ∨ code = 14 by omega) with rfl | rfl | rfl | rfl | rfl | rfl | rfl | rfl | rfl | rfl | rfl <;>
    exact ⟨_, rfl⟩

/-- The register that CVT writes: an F register for FP64 and FP32, a G register for any other format, with zeros above
the width of a narrow one. -/
theorem cvtDst_write (c : TCtx) (flush wide : Bool) (e : Int) {code : Nat} (h : code < 16)
    (h' : ¬ (5 ≤ code ∧ code ≤ 8)) (rd : Nat) (v : FVal) :
    (code ≤ 1 → ∃ q, (c.cvtDst flush wide e code rd v).1 = .f rd q)
    ∧ (2 ≤ code → ∃ x, (c.cvtDst flush wide e code rd v).1 = .g rd x
      ∧ (code ≠ 15 → x.toNat < 2 ^ (fmtCode code false).bits)) := by
  by_cases h15 : code = 15
  · subst h15
    exact ⟨fun h1 => absurd h1 (by decide), fun _ => ⟨_, rfl, fun h2 => absurd rfl h2⟩⟩
  · obtain ⟨f, hf⟩ := fmtCode_elem (by omega) h'
    unfold TCtx.cvtDst
    rw [hf]
    dsimp only
    refine ⟨fun h1 => ?_, fun h2 => ?_⟩
    · split
      · exact ⟨_, rfl⟩
      · rw [if_pos (by omega)]; exact ⟨_, rfl⟩
    · rw [if_neg (by omega), if_neg (by omega)]
      refine ⟨_, rfl, fun _ => ?_⟩
      rw [BitVec.toNat_ofNat]
      exact (Nat.mod_le _ _).trans_lt (f.deliver_lt _ _ _)

theorem flUnion_single (f : FlagSet) : flUnion [f] = f := BitVec.zero_or

/-- A format code of an MX format (R193). -/
def mxCode (k : Nat) : Prop := 5 ≤ k ∧ k ≤ 8

theorem cvt_bad (src dst : Nat) :
    ((decide (5 ≤ src) && decide (src ≤ 8)) || (decide (5 ≤ dst) && decide (dst ≤ 8))) = true
      ↔ mxCode src ∨ mxCode dst := by
  simp [mxCode]

/-- A CVT between formats that CVT has writes its one destination and raises its flags. -/
theorem cvt_retires {s : State} {t : TileNo} (hr : s.laneReady t.val) (rd x : RegNo) (wide : Bool) {src dst : Fin 16}
    (e : Byte) (hs : ¬ mxCode src.val) (hd : ¬ mxCode dst.val) {wr : RegWrite} {f : FlagSet}
    (hw : let c := s.tc t.val
      let v := c.cvtSrc (s.flushOn t.val) wide e.toInt src.val x.val
      let r := c.cvtDst (s.flushOn t.val) wide e.toInt dst.val rd.val v.1
      r.1 = wr ∧ v.2 ||| r.2 = f) (hq : f &&& s.trapEn t.val = 0) :
    ∃ u, exec (.cvt t rd x wide src dst e) s = .next u ∧ LaneRetires s u t.val [wr] f ((s.tc t.val).pc + 8) := by
  obtain ⟨rfl, rfl⟩ := hw
  have hl := lane_retires hr (fun c : TCtx =>
    let v := c.cvtSrc (s.flushOn t.val) wide e.toInt src.val x.val
    let r := c.cvtDst (s.flushOn t.val) wide e.toInt dst.val rd.val v.1
    ⟨[r.1], [v.2 ||| r.2]⟩)
  rw [flUnion_single] at hl
  exact ⟨_, if_neg fun hb => ((cvt_bad _ _).1 hb).elim hs hd, hl hq⟩

/-! ## Integers to FP64 -/

theorem sext_toInt (x : DWord) : sext x.toNat 32 = (x.setWidth 32).toInt := by
  rw [sext, BitVec.toInt_eq_toNat_cond, BitVec.toNat_setWidth]
  split <;> split <;> omega

theorem sext_natAbs (x : Nat) : (sext x 32).natAbs < 2 ^ 32 := by
  unfold sext
  dsimp only
  split <;> omega

/-- The F register that CVT writes in FP64. -/
theorem cvtDst_fp64 (c : TCtx) (flush wide : Bool) (e : Int) (rd : Nat) (v : FVal) :
    c.cvtDst flush wide e 0 rd v
      = (.f rd (fsetDbl (c.fr rd) (fFP64.deliver flush v).1), (fFP64.deliver flush v).2) := by
  simp [TCtx.cvtDst, fmtCode, EFmt.deliver, EFmt.float, scale_zero]

theorem fsetDbl_toNat (q : QWord) {v : Nat} (h : v < 2 ^ 64) : (fsetDbl q v).toNat % 2 ^ 64 = v := by
  have := congrArg BitVec.toNat (fsetDbl_low q v).1
  rwa [BitVec.extractLsb'_toNat, BitVec.toNat_ofNat, Nat.shiftRight_zero, Nat.mod_eq_of_lt h] at this

/-- CVT of a 32-bit integer to FP64 is exact and raises no flag (R51). -/
theorem cvt_toFp64 {s : State} {t : TileNo} (hr : s.laneReady t.val) (rd x : RegNo) {src dst : Fin 16} (e : Byte)
    (hs : src.val = 15) (hd : dst.val = 0) {k : Nat} (hk : 1074 ≤ k) :
    let c := s.tc t.val
    ∃ u q, exec (.cvt t rd x false src dst e) s = .next u ∧ LaneRetires s u t.val [.f rd.val q] 0 (c.pc + 8)
      ∧ q >>> 64 = c.fr rd.val >>> 64
      ∧ (fFP64.decode (q.toNat % 2 ^ 64)).units k = ((c.gr x.val).setWidth 32).toInt * 2 ^ k := by
  intro c
  obtain ⟨r, hdel, hlt, hval⟩ := deliver_int (sext_natAbs (c.gr x.val).toNat) (s.flushOn t.val) hk
  obtain ⟨u, hu, hl⟩ := cvt_retires hr rd x false e (src := src) (dst := dst) (f := 0)
    (wr := .f rd.val (fsetDbl (c.fr rd.val) r)) (fun h => absurd h.2 (by omega)) (fun h => absurd h.1 (by omega))
    (by
      rw [hs, hd]
      dsimp only
      rw [cvtSrc_int, cvtDst_fp64, if_neg Bool.false_ne_true, hdel]
      exact ⟨rfl, BitVec.zero_or⟩) BitVec.zero_and
  exact ⟨u, _, hu, hl, (fsetDbl_low _ _).2, by rw [fsetDbl_toNat _ hlt, hval, sext_toInt]⟩

/-! ## FP64 and FP32 to integers -/

/-- The input flush leaves an infinity or a NaN alone (R61). -/
theorem load_special {m : FFmt} (h : m.Ieee) (flush : Bool) {c : Nat} (hc : m.infCode ≤ m.mag c) :
    m.load flush c = (m.decode c, flNone) := by
  have hs : m.isSubnormal c = false := by
    have hle : 2 ^ m.fb ≤ m.infCode :=
      Nat.le_mul_of_pos_left _ (Nat.sub_pos_of_lt (Nat.one_lt_two_pow (Nat.pos_iff_ne_zero.1 h.eb)))
    rw [FFmt.mag, m.width_sub] at hc
    rw [FFmt.isSubnormal, decide_eq_false (by omega), Bool.and_false]
  simp only [FFmt.load, FFmt.flushIn, hs, Bool.and_false, Bool.false_eq_true, if_false]

theorem load_kept (m : FFmt) (c : Nat) : m.load false c = (m.decode c, flNone) := rfl

/-- A finite encoding of a format whose least exponent is at least -k. -/
theorem decode_finite {m : FFmt} (h : m.Ieee) {c k : Nat} (hk : 0 ≤ m.emin + k) (hf : (m.decode c).isFinite = true) :
    ∃ neg n e, m.decode c = .num neg n e ∧ 0 ≤ e + k := by
  by_cases hc : m.mag c < m.infCode
  · obtain ⟨n, e, hv, he, -⟩ := finVal_num m (m.isNeg c) (m.mag c)
    exact ⟨_, n, e, (decode_fin h hc).trans hv, by omega⟩
  · rw [decode_ieee h, if_neg hc] at hf
    split at hf <;> cases hf

/-- The binary format of a source code 0 or 1. -/
theorem ieee_src (n : Nat) : (if n = 0 then fFP64 else fFP32).Ieee
    ∧ 0 ≤ (if n = 0 then fFP64 else fFP32).emin + (2200 : Nat) := by
  split
  · exact ⟨ieee_fFP64, by decide⟩
  · exact ⟨ieee_fFP32, by decide⟩

/-- CVT of FP64 or FP32 to an integer register, from what is loaded and delivered. -/
theorem cvt_toInt {s : State} {t : TileNo} (hr : s.laneReady t.val) (rd x : RegNo) (wide : Bool) {src dst : Fin 16}
    (e : Byte) (hs : src.val ≤ 1) (hd : dst.val = 15) {v : FVal} {i : Int} {f0 f : FlagSet}
    (hl : let m := if src.val = 0 then fFP64 else fFP32
      m.load (s.flushOn t.val) (((s.tc t.val).fr x.val).toNat % 2 ^ m.width) = (v, flNone))
    (hi : let w := if wide then 64 else 32
      deliverInt (-((2 ^ (w - 1) : Nat) : Int)) (((2 ^ (w - 1) : Nat) : Int) - 1) v = (i, f0)
        ∧ -2 ^ (w - 1) ≤ i ∧ i < 2 ^ (w - 1))
    (hf : v.snanFlag ||| f0 = f) (hq : f &&& s.trapEn t.val = 0) :
    ∃ u, exec (.cvt t rd x wide src dst e) s = .next u
      ∧ LaneRetires s u t.val [.g rd.val (BitVec.ofInt 64 i)] f ((s.tc t.val).pc + 8) := by
  obtain ⟨hi, h1, h2⟩ := hi
  subst hf
  refine cvt_retires hr rd x wide e (fun h => absurd h.1 (by omega)) (fun h => absurd h.2 (by omega)) ⟨?_, ?_⟩ hq
  · rw [cvtSrc_float _ _ _ _ hs, hd, cvtDst_int]
    dsimp only at hl ⊢
    rw [hl, hi, gres_of_range (by cases wide <;> simp) h1 h2]
  · rw [cvtSrc_float _ _ _ _ hs, hd, cvtDst_int]
    dsimp only at hl ⊢
    rw [hl, hi]
    exact congrArg (· ||| f0) BitVec.zero_or

/-- The limits of a W-bit integer are in its range. -/
theorem limit_range (w : Nat) (neg : Bool) :
    -2 ^ w ≤ (if neg then -2 ^ w else 2 ^ w - 1 : Int) ∧ (if neg then -2 ^ w else 2 ^ w - 1 : Int) < 2 ^ w := by
  have : (0 : Int) < 2 ^ w := pow_pos (by decide) w
  cases neg <;> simp only [if_true, if_false, Bool.false_eq_true] <;> omega

/-- An infinity is delivered as the limit of its sign. -/
theorem deliverInt_inf (w : Nat) (neg : Bool) : deliverInt (-((2 ^ w : Nat) : Int)) (((2 ^ w : Nat) : Int) - 1) (.inf neg)
    = (if neg then -2 ^ w else 2 ^ w - 1, 0x11) := by
  rw [deliverInt, Nat.cast_pow]
  cases neg <;> rfl

/-- Settles O20: an integer of 32 bits is exact in FP64 (`cvt_toFp64`), NaNs, infinities and integral values go to an
integer register by `cvt_toInt`, and every other pair writes one destination in its range (`cvtDst_write`). -/
theorem conversions : Obligations.Conversions := by
  unfold Obligations.Conversions
  intro s t rd x wide src dst e hr c w m a g
  obtain ⟨hm, hk⟩ := ieee_src src.val
  refine ⟨?_, fun hs hd hn hq => ?_, fun hs hd hn hq => ?_, fun v hs hd hfl hf hv h1 h2 => ?_, fun hs hd hq => ?_,
    fun hb => if_pos ((cvt_bad _ _).2 hb)⟩
  · rintro hs hd rfl
    exact cvt_toFp64 hr rd x e hs hd (by decide)
  · have hl := load_special hm (s.flushOn t.val) (c := a) (of_decide_eq_true (m.nanBits_eq a ▸ hn)).le
    rw [decode_nan hm hn] at hl
    have hp : (0 : Int) < 2 ^ (w - 1) := pow_pos (by decide) _
    exact cvt_toInt hr rd x wide e hs hd hl ⟨rfl, Int.neg_nonpos_of_nonneg hp.le, hp⟩
      (by cases a.testBit (m.fb - 1) <;> rfl) hq
  · have hl := load_special hm (s.flushOn t.val) (c := a) (show m.infCode ≤ m.mag a from hn.ge)
    rw [decode_inf hm hn] at hl
    exact cvt_toInt hr rd x wide e hs hd hl ⟨deliverInt_inf (w - 1) (m.isNeg a), limit_range (w - 1) (m.isNeg a)⟩
      BitVec.zero_or hq
  · obtain ⟨neg, n, e', hdec, he⟩ := decode_finite hm hk hf
    have hl : m.load (s.flushOn t.val) a = (.num neg n e', flNone) := by rw [hfl, load_kept, hdec]
    rw [hdec] at hv
    have hi := deliverInt_exact he hv (lo := -((2 ^ (w - 1) : Nat) : Int)) (hi := ((2 ^ (w - 1) : Nat) : Int) - 1)
      (by rw [Nat.cast_pow]; exact h1) (by rw [Nat.cast_pow]; exact Int.le_sub_one_of_lt h2)
    exact cvt_toInt hr rd x wide e hs hd hl ⟨hi, h1, h2⟩ BitVec.zero_or BitVec.zero_and
  · obtain ⟨u, hu, hl⟩ := cvt_retires hr rd x wide e hs hd ⟨rfl, rfl⟩ (by rw [hq]; exact BitVec.and_zero)
    obtain ⟨h1, h2⟩ := cvtDst_write c (s.flushOn t.val) wide e.toInt dst.isLt hd rd.val
      (c.cvtSrc (s.flushOn t.val) wide e.toInt src.val x.val).1
    exact ⟨u, _, _, hu, hl, h1, h2⟩

end Sys2Proof.Machine
end

section
/-!
A tile on which nothing waits stays as it is when it proceeds, but for a FENCE that ends (R199).
-/

namespace Sys2Proof.Machine

/-! ## Heats of a tile -/

/-- What of a heat its LAYER, OPERATOR, STAMP and HEND do not touch. -/
def Heat.core (h : Heat) : Nat × List Nat × Option SolveRun × Bool := (h.num, h.tiles, h.solve, h.recd)

/-- No heat record of a tile is due, whatever the tiles of its heats hold. -/
def TCtx.recorded (c : TCtx) : Prop := ∀ h ∈ c.heats, h.solve = none ∨ h.recd = true

theorem recorded_of_core {c d : TCtx} (h : d.heats.map Heat.core = c.heats.map Heat.core) (hc : c.recorded) :
    d.recorded := by
  intro x hx
  obtain ⟨y, hy, he⟩ := List.mem_map.1 (h ▸ List.mem_map_of_mem (f := Heat.core) hx)
  simp only [Heat.core, Prod.mk.injEq] at he
  rw [← he.2.2.1, ← he.2.2.2]
  exact hc y hy

theorem heatTiles_of_core {c d : TCtx} (h : d.heats.map Heat.core = c.heats.map Heat.core) (n : Nat) :
    (d.heat? n).map Heat.tiles = (c.heat? n).map Heat.tiles := by
  have key (l : List Heat) : (l.find? (fun x => x.num == n)).map Heat.tiles
      = ((l.map Heat.core).find? (fun x => x.1 == n)).map (fun x => x.2.1) := by
    rw [List.find?_map, Option.map_map]; rfl
  rw [TCtx.heat?, TCtx.heat?, key, key, h]

theorem modHeat_core (c : TCtx) {f : Heat → Heat} (hf : ∀ x, (f x).core = x.core) :
    (c.modHeat f).heats.map Heat.core = c.heats.map Heat.core := by
  unfold TCtx.modHeat
  split
  · next x hx =>
    conv_rhs => rw [← List.dropLast_append_getLast? x hx]
    simp only [List.map_append, List.map_cons, List.map_nil, hf]
  · rfl

theorem modHeat_heats {c : TCtx} {x : Heat} (h : c.heats.getLast? = some x) (f : Heat → Heat) :
    c.modHeat f = { c with heats := c.heats.dropLast ++ [f x] } := by
  unfold TCtx.modHeat
  rw [h]

theorem curHeat_last {c : TCtx} {h : Heat} (hc : c.curHeat = some h) : c.heats.getLast? = some h ∧ h.hended = false := by
  unfold TCtx.curHeat at hc
  split at hc
  · next x hx =>
    split at hc
    · cases hc
    · next he => cases hc; exact ⟨hx, Bool.eq_false_iff.2 he⟩
  · cases hc

/-! ## A tile at rest proceeds -/

/-- Nothing waits for a stage or a unit of the tile. -/
structure TCtx.Quiet (c : TCtx) : Prop where
  slots : c.live4 = []
  qa : c.qa = []
  qt : c.qt = []
  qc : c.qc = []
  qb : c.qb = []
  order : c.torder = []

theorem TCtx.atRest.quiet {c : TCtx} (h : c.atRest) : c.Quiet :=
  ⟨h.1, h.2.1, h.2.2.1, h.2.2.2.1, h.2.2.2.2.1, h.2.2.2.2.2.1⟩

theorem TCtx.atRest.hold {c : TCtx} (h : c.atRest) : c.hold = .none := h.2.2.2.2.2.2.1

theorem TCtx.atRest.recorded {c : TCtx} (h : c.atRest) : c.recorded := h.2.2.2.2.2.2.2

theorem tensorOrder_quiet {c : TCtx} (h : c.Quiet) : c.tensorOrder = c := by
  have hr : c.reached = [] := by rw [TCtx.reached, h.slots, h.qt]; rfl
  obtain ⟨-, -, -, -, -, ho⟩ := h
  cases c
  cases ho
  simp only [TCtx.tensorOrder, hr]
  rfl

theorem advance_quiet (s : State) (t c n : Nat) (h : (s.tc t).Quiet) : s.advance t c n = s := by
  cases n with
  | zero => rfl
  | succ n => rw [State.advance, h.slots]; rfl

theorem startHeads_quiet (s : State) (t c : Nat) (h : (s.tc t).Quiet) : s.startHeads t c = s := by
  rw [State.startHeads, h.qb]
  dsimp only
  rw [h.qt]
  dsimp only
  rw [h.qc]
  dsimp only
  rw [h.qa]

theorem working_setTc (s : State) (t k : Nat) (x : TCtx) : (s.setTc t x).working k = s.working k := by
  have ht : ∃ y : TCtx, (s.setTc t x).tile k = { s.tile k with tc := y } := by
    by_cases hk : k = t
    · subst hk; exact ⟨x, State.tile_setTile _ _ _⟩
    · exact ⟨(s.tile k).tc, State.tile_setTile_ne _ _ hk⟩
  obtain ⟨y, hy⟩ := ht
  simp only [State.working, State.ctxOn, hy]
  rfl

theorem fenceDone_none {c : TCtx} (h : c.hold = .none) : c.fenceDone = c := by
  rw [TCtx.fenceDone, h]

theorem fenceDone_fence {c : TCtx} {q m : Nat} (h : c.hold = .fence q m) :
    c.fenceDone = { c with hold := if c.waitOk q m then .none else .fence q m } := by
  rw [TCtx.fenceDone, h]
  by_cases hw : c.waitOk q m = true
  · simp only [hw, if_true]
  · simp only [hw, if_false, ← h, Bool.false_eq_true]

theorem fenceDone_fenceDone (c : TCtx) : c.fenceDone.fenceDone = c.fenceDone := by
  cases hc : c.hold with
  | none => rw [fenceDone_none hc, fenceDone_none hc]
  | bwait b a =>
    have : c.fenceDone = c := by rw [TCtx.fenceDone, hc]
    rw [this, this]
  | fence q m =>
    by_cases hw : c.waitOk q m = true
    · rw [fenceDone_fence hc, if_pos hw]
      exact fenceDone_none rfl
    · have : c.fenceDone = c := by rw [fenceDone_fence hc, if_neg hw, ← hc]
      rw [this, this]

theorem fenceDone_fields (c : TCtx) : ∃ y, c.fenceDone = { c with hold := y } := by
  unfold TCtx.fenceDone
  split
  · split
    · exact ⟨_, rfl⟩
    · exact ⟨c.hold, rfl⟩
  · exact ⟨c.hold, rfl⟩

theorem TCtx.Quiet.withHold {c : TCtx} (h : c.Quiet) (y : Hold) : ({ c with hold := y } : TCtx).Quiet :=
  ⟨h.slots, h.qa, h.qt, h.qc, h.qb, h.order⟩

theorem fenceDone_quiet {c : TCtx} (h : c.Quiet) : c.fenceDone.Quiet := by
  obtain ⟨y, hy⟩ := fenceDone_fields c
  exact hy ▸ h.withHold y

/-- One round on a tile on which nothing waits. -/
theorem kickN_succ_quiet {s : State} {t : Nat} (hw : s.working t = true) (h : (s.tc t).Quiet) (n : Nat) :
    s.kickN t (n + 1) = (s.setTc t (s.tc t).fenceDone).kickN t n := by
  have h1 : ((s.setTc t (s.tc t)).tc t).Quiet := by rw [State.tc_setTc]; exact h
  rw [State.kickN, if_pos hw]
  simp only [State.modTc, tensorOrder_quiet h, advance_quiet _ _ _ _ h1, State.tc_setTc, State.setTc_setTc,
    startHeads_quiet _ _ _ h1]

/-- A tile on which nothing waits can only end its FENCE (R199). -/
theorem kickN_quiet {s : State} {t : Nat} (hw : s.working t = true) (h : (s.tc t).Quiet) (n : Nat) :
    s.kickN t (n + 1) = s.setTc t (s.tc t).fenceDone := by
  induction n generalizing s with
  | zero => exact kickN_succ_quiet hw h 0
  | succ n ih =>
    have hq : ((s.setTc t (s.tc t).fenceDone).tc t).Quiet := by rw [State.tc_setTc]; exact fenceDone_quiet h
    rw [kickN_succ_quiet hw h, ih (by rw [working_setTc]; exact hw) hq, State.tc_setTc, fenceDone_fenceDone,
      State.setTc_setTc]

/-- No record is due of heats that are recorded or do not solve (R184). -/
theorem recordHeats_recorded {s : State} {t : Nat} (h : (s.tc t).recorded) : s.recordHeats t = s := by
  have hf : (s.tc t).heats.filter s.recordDue = [] := by
    refine List.filter_eq_nil_iff.2 fun x hx hd => ?_
    simp only [State.recordDue, Bool.and_eq_true, Bool.not_eq_true'] at hd
    obtain ⟨⟨hs, hr⟩, -⟩ := hd
    rcases h x hx with h0 | h0
    · rw [h0] at hs; cases hs
    · rw [h0] at hr; cases hr
  rw [State.recordHeats, hf]
  rfl

/-- A working tile on which nothing waits, and of which no record is due, only ends its FENCE. -/
theorem kick_quiet {s : State} {t : Nat} (hw : s.working t = true) (h : (s.tc t).Quiet) (hr : (s.tc t).recorded) :
    s.kick t = s.setTc t (s.tc t).fenceDone := by
  obtain ⟨y, hy⟩ := fenceDone_fields (s.tc t)
  rw [State.kick, kickN_quiet hw h, recordHeats_recorded]
  rw [State.tc_setTc, hy]
  exact hr

/-- The same tiles, listed anew. -/
structure SameTiles (s u : State) : Prop where
  rest : u = { s with tiles := u.tiles }
  tile : ∀ k, u.tile k = s.tile k

theorem SameTiles.refl (s : State) : SameTiles s s := ⟨rfl, fun _ => rfl⟩

theorem SameTiles.trans {a b c : State} (h : SameTiles a b) (k : SameTiles b c) : SameTiles a c :=
  ⟨by rw [k.rest, h.rest], fun j => (k.tile j).trans (h.tile j)⟩

theorem SameTiles.tc {s u : State} (h : SameTiles s u) (k : Nat) : u.tc k = s.tc k := congrArg Tile.tc (h.tile k)

theorem sameTiles_setTc (s : State) (t : Nat) : SameTiles s (s.setTc t (s.tc t)) := by
  refine ⟨rfl, fun k => ?_⟩
  by_cases hk : k = t
  · subst hk; exact State.tile_setTile _ _ _
  · exact State.tile_setTile_ne _ _ hk

/-- A tile at rest proceeds to nothing. -/
theorem kick_atRest {s : State} {t : Nat} (h : (s.tc t).atRest) : SameTiles s (s.kick t) := by
  by_cases hw : s.working t = true
  · rw [kick_quiet hw h.quiet h.recorded, fenceDone_none h.hold]
    exact sameTiles_setTc s t
  · have hk : s.kickN t 5 = s := by rw [State.kickN, if_neg hw]
    rw [State.kick, hk, recordHeats_recorded h.recorded]
    exact .refl s

theorem kickAll_atRest {s : State} {l : List Nat} (h : ∀ k ∈ l, (s.tc k).atRest) : SameTiles s (s.kickAll l) := by
  unfold State.kickAll State.tilesDo
  induction l generalizing s with
  | nil => exact .refl s
  | cons j l ih =>
    have hj := kick_atRest (h j List.mem_cons_self)
    exact hj.trans (ih fun k hk => by rw [hj.tc]; exact h k (List.mem_cons_of_mem _ hk))

/-- The ranks of a heat, all at rest, proceed to nothing. -/
theorem kickGang_atRest {s : State} {t n : Nat} (ht : (s.tc t).atRest)
    (h : ∀ k ∈ s.heatTiles t n, (s.tc k).atRest) : SameTiles s (s.kickGang t n) := by
  have hk := kick_atRest ht
  have hh : (s.kick t).heatTiles t n = s.heatTiles t n := by rw [State.heatTiles, hk.tc]; rfl
  refine hk.trans (kickAll_atRest fun k hm => ?_)
  rw [hk.tc]
  exact h k (hh ▸ (List.mem_filter.1 hm).1)

end Sys2Proof.Machine
end

section
/-!
What an entry of the sequencer leaves on its tile (R195, R200), and HEND, FENCE and SETMODE (R63, R199, R201).
-/

namespace Sys2Proof.Machine

/-! ## An entry issues -/

/-- An entry at the program address of a ready lane acts at once. -/
theorem issueDo_ready {s : State} {t : Nat} (h : s.laneReady t) (f : State → State) :
    s.issueDo t f = f (s.takeStamp t) := by
  have hd : s.drainV t = s := by
    unfold State.drainV
    rw [h.2]
  simp [State.issueDo, h.1, hd]

/-- The IDs of an entry, given to the newest heat (R200). -/
def entryLabel (hdr : CmdHdr) (y : Heat) : Heat := { y with layer := hdr.layer.toNat, oper := hdr.oper.toNat }

/-- A heat whose STAMP is due takes it (R168). -/
def State.stamped (s : State) (y : Heat) : Heat :=
  { y with stamp := if y.stampDue then s.ns / 256 % 2 ^ 32 else y.stamp, stampDue := false }

theorem issuing_core (s : State) (t : Nat) : (s.issuing t).heats.map Heat.core = (s.tc t).heats.map Heat.core := by
  simp only [State.issuing, List.map_map]
  refine List.map_congr_left fun y _ => ?_
  simp only [Function.comp_apply]
  split <;> rfl

theorem stamped_eq (s : State) (y : Heat) :
    s.stamped y = if y.stampDue then { y with stamp := s.ns / 256 % 2 ^ 32, stampDue := false } else y := by
  unfold State.stamped
  cases hd : y.stampDue
  · rw [if_neg Bool.false_ne_true, if_neg Bool.false_ne_true]
    cases y; cases hd; rfl
  · rfl

/-- The newest heat of a tile whose entry issues. -/
theorem issuing_last {s : State} {t : Nat} {h : Heat} (hc : (s.tc t).curHeat = some h) :
    (s.issuing t).heats.getLast? = some (s.stamped h) := by
  simp only [State.issuing, List.getLast?_map, (curHeat_last hc).1, hc, Option.any_some, beq_self_eq_true,
    Bool.true_and, Option.map_some, stamped_eq]

/-- What an entry leaves on its tile, as `State.took` says it. -/
theorem entry_took {s : State} {t : Nat} {h : Heat} (hdr : CmdHdr) (hc : (s.tc t).curHeat = some h) :
    ((s.issuing t).modHeat (entryLabel hdr)).entry hdr = s.took t h hdr := by
  have hl := issuing_last hc
  have hl2 : ((s.issuing t).modHeat (entryLabel hdr)).heats.getLast? = some (entryLabel hdr (s.stamped h)) := by
    rw [modHeat_heats hl, List.getLast?_concat]
  rw [TCtx.entry, modHeat_heats hl2, modHeat_heats hl, List.dropLast_concat]
  rfl

theorem entry_core (c : TCtx) (hdr : CmdHdr) : (c.entry hdr).heats.map Heat.core = c.heats.map Heat.core :=
  modHeat_core c fun _ => rfl

/-- The heats of the tile keep their numbers, tiles, SOLVEs and records. -/
theorem took_core {s : State} {t : Nat} {h : Heat} (hdr : CmdHdr) (hc : (s.tc t).curHeat = some h) :
    (s.took t h hdr).heats.map Heat.core = (s.tc t).heats.map Heat.core := by
  rw [← entry_took hdr hc, entry_core, modHeat_core (f := entryLabel hdr) _ (fun _ => rfl), issuing_core]

/-- The newest heat is the one that issues. -/
theorem took_last (s : State) (t : Nat) (h : Heat) (hdr : CmdHdr) :
    (s.took t h hdr).heats.getLast? = some (entryLabel hdr (s.stamped h)) := List.getLast?_concat ..

/-- The sequencer has taken an entry, with the records of its units (R195, R200). -/
theorem entered {s : State} {t : Nat} {h : Heat} (hdr : CmdHdr) (hc : (s.tc t).curHeat = some h) :
    Recorded (s.setTc t (s.took t h hdr))
      (((s.takeStamp t).entryIds t hdr).modTc t (fun x => x.entry hdr)) := by
  have he : Recorded ((s.takeStamp t).modTc t (fun x => x.modHeat (entryLabel hdr))) ((s.takeStamp t).entryIds t hdr) :=
    endRun_recorded _ _
  have := he.setTc t (fun x => x.entry hdr)
  rwa [State.modTc, State.tc_setTc, State.setTc_setTc, takeStamp_tc, takeStamp_setTc, entry_took hdr hc] at this

/-- What an entry of the sequencer does is done to the state that has taken it. -/
theorem seqEntry_ready {s : State} {t : Nat} (hr : s.laneReady t) (hdr : CmdHdr) (f : State → State) :
    s.seqEntry t hdr f = f (((s.takeStamp t).entryIds t hdr).modTc t (fun x => x.entry hdr)) := issueDo_ready hr _

/-- A tile whose sequencer issues works. -/
theorem working_of_ready {s : State} {t : Nat} (h : s.laneReady t) : s.working t = true := by
  have hi := h.1
  unfold State.canIssue at hi
  unfold State.working
  dsimp only at hi ⊢
  cases hx : (s.tile t).ctx with
  | none => rw [hx] at hi; cases hi
  | some c =>
    rw [hx] at hi
    simp only [Bool.and_eq_true, decide_eq_true_iff] at hi
    obtain ⟨⟨⟨⟨⟨⟨⟨h1, -⟩, -⟩, -⟩, -⟩, -⟩, h2⟩, h3⟩ := hi
    simp only [h1, h2, h3, Option.isSome_some, decide_true, Bool.and_self]

theorem Recorded.tile {s u : State} (h : Recorded s u) (t : Nat) : u.tile t = s.tile t := by rw [h.rest]; rfl

theorem Recorded.working {s u : State} (h : Recorded s u) (t : Nat) : u.working t = s.working t := by
  rw [h.rest]; rfl

/-- Recorded states whose tiles are listed anew. -/
theorem Recorded.sameTiles {s u v : State} (h : Recorded s u) (k : SameTiles u v) :
    Recorded { s with tiles := v.tiles } v where
  rest := by rw [k.rest, h.rest]
  regs := by rw [k.rest]; exact h.regs
  quiet := by rw [k.rest]; exact h.quiet

/-! ## HEND, FENCE, SETMODE -/

/-- An entry leaves a quiet tile quiet. -/
theorem took_quiet {s : State} {t : Nat} (h : Heat) (hdr : CmdHdr) (hq : (s.tc t).Quiet) : (s.took t h hdr).Quiet :=
  ⟨hq.slots, hq.qa, hq.qt, hq.qc, hq.qb, hq.order⟩

/-- SETMODE changes the subnormal mode of its tile, and nothing else (R63). -/
theorem setmode_view {s : State} {t : TileNo} {h : Heat} (hr : s.laneReady t.val) (hdr : CmdHdr)
    (hc : (s.tc t.val).curHeat = some h) (subn : Bool) :
    ∃ u, exec (.setmode t hdr subn) s = .next u
      ∧ Recorded (s.setTc t.val { s.took t.val h hdr with subn := subn }) u := by
  refine ⟨_, congrArg Host.Outcome.next (seqEntry_ready hr _ _), ?_⟩
  have := (entered hdr hc).setTc t.val (fun x => { x with subn := subn })
  rwa [State.tc_setTc, State.setTc_setTc] at this

/-- A quiet tile that works, with its context given and the records of its units, proceeds to end its FENCE. -/
theorem kick_recorded {s v : State} {t : Nat} {x : TCtx} (hw : s.working t = true) (h : Recorded (s.setTc t x) v)
    (hq : x.Quiet) (hx : x.recorded) : Recorded (s.setTc t x.fenceDone) (v.kick t) := by
  have hv : v.tc t = x := (h.tc t).trans (State.tc_setTc _ _ _)
  rw [kick_quiet (by rw [h.working, working_setTc]; exact hw) (hv ▸ hq) (hv ▸ hx)]
  have := h.setTc t TCtx.fenceDone
  rwa [State.tc_setTc, State.setTc_setTc] at this

/-- FENCE holds issue until the work it selects has finished (R199). -/
theorem fence_view {s : State} {t : TileNo} {h : Heat} (hr : s.laneReady t.val) (hdr : CmdHdr)
    (hc : (s.tc t.val).curHeat = some h) (ha : (s.tc t.val).atRest) :
    let c := s.tc t.val
    ∃ u, exec (.fence t hdr) s = .next u ∧ Recorded (s.setTc t.val { s.took t.val h hdr with
      nextSeq := c.nextSeq + 1
      hold := if c.waitOk c.nextSeq hdr.wait.toNat then .none else .fence c.nextSeq hdr.wait.toNat }) u := by
  intro c
  have h1 := (entered hdr hc).setTc t.val
    (fun x => { x with hold := .fence x.nextSeq hdr.wait.toNat, nextSeq := x.nextSeq + 1 })
  rw [State.tc_setTc, State.setTc_setTc] at h1
  have hq := took_quiet h hdr ha.quiet
  have h2 := kick_recorded (working_of_ready hr) h1 ⟨hq.slots, hq.qa, hq.qt, hq.qc, hq.qb, hq.order⟩
    (recorded_of_core (took_core hdr hc) ha.recorded)
  refine ⟨_, congrArg Host.Outcome.next (seqEntry_ready hr _ _), ?_⟩
  rwa [fenceDone_fence rfl] at h2

theorem tfFinal_fields (c : TCtx) : ∃ w, c.tfFinal = { c with tflagPrev := w } := by
  unfold TCtx.tfFinal
  split
  · split
    · exact ⟨_, rfl⟩
    · exact ⟨c.tflagPrev, rfl⟩
  · exact ⟨c.tflagPrev, rfl⟩

/-- The tile behind HEND: its newest heat's program has ended (R201), and FINAL may be set (R94). -/
def TCtx.ended (c : TCtx) : TCtx := (c.modHeat (fun y => { y with hended := true })).tfFinal

theorem ended_eq {c : TCtx} {y : Heat} (h : c.heats.getLast? = some y) : ∃ w, c.ended
    = { c with heats := c.heats.dropLast ++ [{ y with hended := true }], tflagPrev := w } := by
  obtain ⟨w, hw⟩ := tfFinal_fields (c.modHeat (fun y => { y with hended := true }))
  exact ⟨w, by rw [TCtx.ended, hw, modHeat_heats h]⟩

theorem ended_core (c : TCtx) : c.ended.heats.map Heat.core = c.heats.map Heat.core := by
  obtain ⟨w, hw⟩ := tfFinal_fields (c.modHeat (fun y => { y with hended := true }))
  rw [TCtx.ended, hw]
  exact modHeat_core c fun _ => rfl

/-- HEND ends the heat's program on its tile and leaves the ranks as they are (R201). -/
theorem hend_view {s : State} {t : TileNo} {h : Heat} (hr : s.laneReady t.val) (hdr : CmdHdr)
    (hc : (s.tc t.val).curHeat = some h) (ha : (s.tc t.val).atRest) (hh : (s.tc t.val).heat? h.num = some h)
    (hg : ∀ j ∈ h.tiles, (s.tc j).atRest) :
    ∃ u, exec (.hend t hdr) s = .next u ∧ Recorded { s with tiles := u.tiles } u
      ∧ (∀ j, j ≠ t.val → u.tile j = s.tile j) ∧ u.tc t.val = (s.took t.val h hdr).ended := by
  have he := entered hdr hc
  have h1 := (cmdEnd_recorded t.val 7 0 he).setTc t.val TCtx.ended
  rw [State.tc_setTc, State.setTc_setTc] at h1
  have hcore : (s.took t.val h hdr).ended.heats.map Heat.core = (s.tc t.val).heats.map Heat.core :=
    (ended_core _).trans (took_core hdr hc)
  obtain ⟨w, hw⟩ := ended_eq (took_last s t.val h hdr)
  have hrest : (s.took t.val h hdr).ended.atRest := by
    have hq := took_quiet h hdr ha.quiet
    refine ⟨?_, ?_, ?_, ?_, ?_, ?_, ?_, recorded_of_core hcore ha.recorded⟩ <;> rw [hw]
    exacts [hq.slots, hq.qa, hq.qt, hq.qc, hq.qb, hq.order, ha.hold]
  have hn : ((((s.takeStamp t.val).entryIds t.val hdr).modTc t.val (fun x => x.entry hdr)).tc t.val).heatNum
      = h.num := by
    rw [he.tc, State.tc_setTc, TCtx.heatNum, took_last]; rfl
  have hv := (h1.tc t.val).trans (State.tc_setTc _ _ _)
  have hsame := kickGang_atRest (n := h.num) (hv ▸ hrest) fun j hj => by
    by_cases hjt : j = t.val
    · rw [hjt, hv]; exact hrest
    · rw [h1.tc, State.tc_setTc_ne _ _ hjt]
      refine hg j ?_
      have ht := heatTiles_of_core hcore h.num
      rw [hh] at ht
      obtain ⟨y, hy, hyt⟩ := Option.map_eq_some_iff.1 ht
      rw [State.heatTiles, hv, hy] at hj
      exact hyt ▸ hj
  refine ⟨_, (congrArg Host.Outcome.next (seqEntry_ready hr _ _)).trans
    (congrArg (fun n => Host.Outcome.next (State.kickGang _ t.val n)) hn), ?_, fun j hj => ?_, ?_⟩
  · exact h1.sameTiles hsame
  · exact (hsame.tile j).trans ((h1.tile j).trans (State.tile_setTile_ne _ _ hj))
  · exact (hsame.tc t.val).trans hv

/-- Settles O22: what HEND (`hend_view`), FENCE (`fence_view`) and SETMODE (`setmode_view`) leave. -/
theorem sequencerEntries : Obligations.SequencerEntries := by
  unfold Obligations.SequencerEntries
  intro s t hdr h hr c k hc
  refine ⟨fun ha hh hg => ?_, fun ha => ?_, setmode_view hr hdr hc⟩
  · obtain ⟨u, hu, hrec, htile, htc⟩ := hend_view hr hdr hc ha hh hg
    obtain ⟨w, hw⟩ := ended_eq (took_last s t.val h hdr)
    have hl := took_last s t.val h hdr
    rw [hw] at htc
    refine ⟨u, hu, hrec, htile, ?_, ?_, ?_, ?_, ?_, ?_⟩ <;> rw [htc]
    · rw [TCtx.curHeat, List.getLast?_concat]; rfl
    · rfl
    · rw [hl]; rfl
    · rfl
    · rfl
    · rfl
  · have := fence_view hr hdr hc ha
    simp only [TCtx.waitOk, bitAt_eq_testBit] at this
    exact this

end Sys2Proof.Machine
end

section
/-!
A SOLVE that starts on a tile which lists two heats of one number: both are given the SOLVE, and the heat record (R184)
of the second is then due on a tile that the first does not run on.
-/

namespace Sys2Proof.Machine

/-- A heat of context 0 with number 1 on the tiles given, whose program issues. -/
def loneHeat (tiles : List Nat) : Heat :=
  { ctx := 0, num := 1, lc := true, entry := 0, dead := false, stamp := 0, tiles := tiles, rank := 0, snap := []
    host := [], hostBad := [], hended := false, layer := 0, oper := 0, solve := none, worst := 0, nfb := 0
    cutFac := false, cutOut := false, late := false, pendFac := false, pendOut := false, tflags := 0
    commits := [], aborted := false }

/-- A SOLVE of no problems, all of them committed. -/
def doneSolve : SolveRun :=
  { tmpl := 0, count := 0, xlist := 0, layer := 0, oper := 0, seq := 0, flush := false, next := 0, done := 0
    left := [], bank := 0 }

/-- Heat 1 issues on tile 0 and runs there alone, but the tile lists another heat 1, of tile 1, where it has finished
and its record is not written.  The context has 4 KiB of scratchpad, with a template for one tile at its start. -/
def twinHeats : State :=
  { ctl := [(ctxA 0 0x08, 0x00010000)]
    mem := [(spadBase 0 + 0x0B, 1)]
    tiles := [
      (0, { ctx := some 0, seq := .running, tc := { heats := [loneHeat [0], loneHeat [1], loneHeat [0]] } }),
      (1, { ctx := some 0, seq := .running
            tc := { heats := [{ loneHeat [1] with hended := true, solve := some doneSolve }] } })] }

/-- The header of a command that waits for nothing. -/
def freeHdr : CmdHdr := { wait := 0, layer := 0, oper := 0 }

theorem twinHeats_issues : twinHeats.laneReady 0 ∧ (twinHeats.tc 0).curHeat = some (loneHeat [0]) := by
  unfold State.laneReady
  decide

theorem twinHeats_starts : (twinHeats.tc 0).atRest ∧ (twinHeats.tc 0).waitOk (twinHeats.tc 0).nextSeq 0 = true
    ∧ twinHeats.dumpsOff ∧ (twinHeats.tile 0).stops = [] := by
  unfold TCtx.atRest State.dumpsOff
  decide +kernel

/-- The template is for one tile, and lies in the context's share unpoisoned. -/
theorem twinHeats_template : (twinHeats.tmpl 0 0 0).gang = 1
    ∧ twinHeats.portFaults 0 0 (twinHeats.tmplBytes (twinHeats.shareA 0 0 0) (twinHeats.tmpl 0 0 0)) false = 0
    ∧ twinHeats.poisonIn (twinHeats.tmplBytes (twinHeats.shareA 0 0 0) (twinHeats.tmpl 0 0 0)) = false := by
  decide +kernel

/-- The heat records on tile 1 after the SOLVE of tile 0. -/
def recordsOnTile1 (o : Out) : List Bool :=
  match o with
  | .next u => (u.tc 1).heats.map Heat.recd
  | _ => []

theorem twinHeats_records : (twinHeats.tc 1).heats.map Heat.recd = [false]
    ∧ recordsOnTile1 (exec (.solve 0 freeHdr 0 0 0) twinHeats) = [true] := by
  decide +kernel

/-- Refutes O24: its clause on a SOLVE that starts keeps every other tile, but where a tile lists two heats of one number
the SOLVE is given to both, and the second one's heat record is written on its own tile (`twinHeats`). -/
theorem not_stageCommandsQueue : ¬ Obligations.StageCommandsQueue := by
  unfold Obligations.StageCommandsQueue
  intro h
  obtain ⟨hready, hheat⟩ := twinHeats_issues
  obtain ⟨hgang, hport, hpoison⟩ := twinHeats_template
  obtain ⟨hbefore, hafter⟩ := twinHeats_records
  obtain ⟨-, -, -, -, -, -, -, -, -, -, hsolve, -⟩ := h twinHeats 0 freeHdr (loneHeat [0]) hready hheat
  obtain ⟨u, y, r, hu, -, -, -, -, -, -, -, -, -, -, -, ⟨htiles, -⟩, -⟩ :=
    hsolve 0 0 0 twinHeats_starts rfl rfl hgang rfl (List.mem_singleton.2 rfl) hport hpoison
  rw [hu] at hafter
  have hsame : u.tc 1 = twinHeats.tc 1 := congrArg Tile.tc (htiles 1 (by decide))
  rw [recordsOnTile1, hsame, hbefore] at hafter
  cases hafter

end Sys2Proof.Machine
end

section
/-!
One rounding, to nearest with ties to even (R51, R103): what a format delivers of an exact value within its range is
the encoding nearest to it.
-/

namespace Sys2Proof.Machine

/-! ## The nearest multiple -/

/-- How many times `d` the multiple of `d` nearest to `v` is, ties to even. -/
def nearestMul (v d : Nat) : Nat :=
  if 2 * (v % d) < d then v / d else if d < 2 * (v % d) then v / d + 1 else v / d + v / d % 2

theorem nearestMul_mul_right (v d : Nat) {u : Nat} (hu : 0 < u) : nearestMul (v * u) (d * u) = nearestMul v d := by
  have h : 2 * (v % d * u) = 2 * (v % d) * u := (Nat.mul_assoc _ _ _).symm
  simp only [nearestMul, Nat.mul_div_mul_right _ _ hu, Nat.mul_mod_mul_right, h, Nat.mul_lt_mul_right hu]

theorem nearestMul_multiple (n : Nat) {d : Nat} (hd : 0 < d) : nearestMul (n * d) d = n := by
  rw [nearestMul, Nat.mul_mod_left, Nat.mul_div_cancel _ hd, if_pos (by omega)]

/-- `roundAt` takes the nearest multiple of its unit, both counted in units of 2^-k. -/
theorem roundAt_nearestMul (m : Nat) {e q : Int} {k : Nat} (he : 0 ≤ e + k) (hq : 0 ≤ q + k) :
    (roundAt m e q).1 = nearestMul (m * 2 ^ (e + k).toNat) (2 ^ (q + k).toNat) := by
  rcases le_or_gt q e with h | h
  · rw [roundAt, if_pos h, toNat_sub_split h hq, Nat.pow_add, ← Nat.mul_assoc,
      nearestMul_multiple _ (Nat.two_pow_pos _)]
  · obtain ⟨j, hj⟩ : ∃ j, (q - e).toNat = j + 1 := ⟨(q - e).toNat - 1, by omega⟩
    have hp : 2 ^ (j + 1) = 2 * 2 ^ j := Nat.pow_succ'
    rw [roundAt, if_neg (by omega), toNat_sub_split h.le he, Nat.pow_add, nearestMul_mul_right _ _ (Nat.two_pow_pos _),
      nearestMul, hj]
    simp only [Nat.add_sub_cancel]
    by_cases hb : bitLen m + 1 < j + 1
    · have hm : 2 * m < 2 ^ (j + 1) := by
        rcases Nat.eq_zero_or_pos m with h0 | h0
        · rw [h0]; exact Nat.two_pow_pos _
        · have := (bitLen_bounds h0.ne').2.2
          have := Nat.pow_le_pow_right (n := 2) (by decide) (show bitLen m ≤ j by omega)
          omega
      have hlt : m < 2 ^ (j + 1) := by omega
      rw [if_pos hb, Nat.mod_eq_of_lt hlt, if_pos hm, Nat.div_eq_of_lt hlt]
    · rw [if_neg hb]
      generalize m / 2 ^ (j + 1) = n
      generalize m % 2 ^ (j + 1) = r
      dsimp only
      split_ifs <;> omega

/-! ## The nearest magnitude code -/

/-- Among the numbers `g c`, `g n` is nearest to `v`, and one as near is that of an odd `c` where `n` is even. -/
def NearestOf (g : Nat → Nat) (n v : Nat) : Prop :=
  ∀ c, ((g n : Int) - v).natAbs ≤ ((g c : Int) - v).natAbs
    ∧ (((g n : Int) - v).natAbs = ((g c : Int) - v).natAbs → c = n ∨ c % 2 = 1 ∧ n % 2 = 0)

/-- The nearest number is no larger than another that bounds `v`. -/
theorem NearestOf.le_of_le {g : Nat → Nat} (hg : StrictMono g) {n v t : Nat} (h : NearestOf g n v) (ht : v ≤ g t) :
    n ≤ t := by
  by_contra hn
  have hnear := (h t).1
  have := hg (Nat.lt_of_not_le hn)
  omega

/-- Rounding to a multiple of `d` finds the nearest number where the neighbours of `v` are multiples of `d`. -/
theorem nearestOf_round {g : Nat → Nat} (hg : StrictMono g) {v d base : Nat} (hd : 0 < d) (heven : base % 2 = 0)
    (hlo : g (base + v / d) = v / d * d) (hhi : g (base + v / d + 1) = (v / d + 1) * d) :
    NearestOf g (base + nearestMul v d) v := by
  have hv := Nat.div_add_mod' v d
  have hr := Nat.mod_lt v hd
  rw [Nat.succ_mul] at hhi
  intro c
  have hc : (c < base + v / d ∧ g c < g (base + v / d)) ∨ c = base + v / d ∨ c = base + v / d + 1
      ∨ (base + v / d + 1 < c ∧ g (base + v / d + 1) < g c) := by
    have h1 := hg.lt_iff_lt (a := c) (b := base + v / d)
    have h2 := hg.lt_iff_lt (a := base + v / d + 1) (b := c)
    omega
  unfold nearestMul
  generalize v / d * d = p at *
  generalize v % d = r at *
  generalize v / d = n at *
  split_ifs with h1 h2
  · rcases hc with h | rfl | rfl | h <;> omega
  · rw [← Nat.add_assoc]
    rcases hc with h | rfl | rfl | h <;> omega
  · rcases Nat.mod_two_eq_zero_or_one n with he | he
    · rw [he, Nat.add_zero]
      rcases hc with h | rfl | rfl | h <;> omega
    · rw [he, ← Nat.add_assoc]
      rcases hc with h | rfl | rfl | h <;> omega

/-- The magnitude code with `x` units of 2^`j` (in units of the least subnormal), `x` being normalised. -/
theorem FFmt.mant_grid (f : FFmt) {j x : Nat} (h : j = 0 ∨ 2 ^ f.fb ≤ x) (hx : x ≤ 2 ^ (f.fb + 1)) :
    f.mant (j * 2 ^ f.fb + x) = x * 2 ^ j := by
  have hp : 2 ^ (f.fb + 1) = 2 * 2 ^ f.fb := Nat.pow_succ'
  rcases Nat.lt_or_ge x (2 ^ f.fb) with h1 | h1
  · obtain rfl : j = 0 := by omega
    rw [Nat.zero_mul, Nat.zero_add, f.mant_sub h1, Nat.pow_zero, Nat.mul_one]
  · rcases Nat.lt_or_ge x (2 ^ (f.fb + 1)) with h2 | h2
    · have hs : j * 2 ^ f.fb + x = (j + 1) * 2 ^ f.fb + (x - 2 ^ f.fb) := by rw [Nat.succ_mul]; omega
      rw [hs, f.mant_normal j (by omega), Nat.add_sub_cancel' h1]
    · have hs : j * 2 ^ f.fb + x = (j + 1 + 1) * 2 ^ f.fb + 0 := by rw [Nat.succ_mul (j + 1), Nat.succ_mul]; omega
      rw [hs, f.mant_normal (j + 1) (Nat.two_pow_pos _), Nat.add_zero, hx.antisymm h2, Nat.pow_succ, Nat.pow_succ]
      ring

/-- A binary format whose largest finite code is the one below infinity (R40). -/
structure FFmt.Binary (m : FFmt) : Prop extends m.Ieee where
  fb : 0 < m.fb
  max : m.maxCode + 1 = m.infCode

theorem binary_fFP32 : fFP32.Binary := ⟨ieee_fFP32, by decide, by decide⟩
theorem binary_fFP64 : fFP64.Binary := ⟨ieee_fFP64, by decide, by decide⟩

/-- A magnitude code in units of 2^-k. -/
def FFmt.worth (m : FFmt) (k mag : Nat) : Nat := m.mant mag * 2 ^ (m.emin + k).toNat

theorem FFmt.worth_strictMono (m : FFmt) (k : Nat) : StrictMono (m.worth k) :=
  strictMono_nat_of_lt_succ fun n => Nat.mul_lt_mul_of_pos_right (m.mant_lt_succ n) (Nat.two_pow_pos _)

theorem FFmt.worth_zero (m : FFmt) (k : Nat) : m.worth k 0 = 0 := by rw [FFmt.worth, m.mant_zero, Nat.zero_mul]

/-- The unit in the last place of a rounding: the exact value is below 2^(p+1) of them, and at least 2^p where it is not
the least one. -/
theorem ulp_bounds (m : FFmt) {n k : Nat} {e : Int} (h0 : n ≠ 0) (he : 0 ≤ e + k) (hk : 0 ≤ m.emin + k) :
    let q := max (ulpExp n e (m.fb + 1)) m.emin
    n * 2 ^ (e + k).toNat < 2 ^ (m.fb + 1) * 2 ^ (q + k).toNat
      ∧ (q = m.emin ∨ 2 ^ m.fb * 2 ^ (q + k).toNat ≤ n * 2 ^ (e + k).toNat) := by
  obtain ⟨hl, hlo, hhi⟩ := bitLen_bounds h0
  intro q
  have hq : q = max (e + (bitLen n : Int) - ((m.fb + 1 : Nat) : Int)) m.emin := rfl
  constructor
  · calc n * 2 ^ (e + k).toNat < 2 ^ bitLen n * 2 ^ (e + k).toNat := Nat.mul_lt_mul_of_pos_right hhi (Nat.two_pow_pos _)
      _ ≤ 2 ^ (m.fb + 1) * 2 ^ (q + k).toNat := by
        rw [← Nat.pow_add, ← Nat.pow_add]; exact Nat.pow_le_pow_right (by decide) (by omega)
  · refine or_iff_not_imp_left.2 fun hne => ?_
    calc 2 ^ m.fb * 2 ^ (q + k).toNat = 2 ^ (bitLen n - 1) * 2 ^ (e + k).toNat := by
          rw [← Nat.pow_add, ← Nat.pow_add]; congr 1; omega
      _ ≤ n * 2 ^ (e + k).toNat := Nat.mul_le_mul_right _ hlo

/-- A nonzero exact magnitude within the range of a format is delivered as its nearest magnitude code (R51). -/
theorem deliverNum_nearest {m : FFmt} (h : m.Binary) {n k : Nat} {e : Int} (h0 : n ≠ 0) (he : 0 ≤ e + k)
    (hk : 0 ≤ m.emin + k) (htop : n * 2 ^ (e + k).toNat ≤ m.worth k m.maxCode) (neg : Bool) :
    ∃ mag, (m.deliverNum false neg n e).1 = m.pack neg mag ∧ mag < m.infCode
      ∧ NearestOf (m.worth k) mag (n * 2 ^ (e + k).toNat) := by
  obtain ⟨hhi, hlo⟩ := ulp_bounds m h0 he hk
  have hq : m.emin ≤ max (ulpExp n e (m.fb + 1)) m.emin := Int.le_max_right _ _
  unfold FFmt.deliverNum
  dsimp only
  generalize max (ulpExp n e (m.fb + 1)) m.emin = q at *
  rw [roundAt_nearestMul n he (show 0 ≤ q + k by omega), h.kind]
  generalize n * 2 ^ (e + k).toNat = v at *
  obtain ⟨j, hj⟩ : ∃ j : Nat, q = m.emin + j := ⟨(q - m.emin).toNat, by omega⟩
  have hjt : (q - m.emin).toNat = j := by omega
  have hworth {x : Nat} (hx : j = 0 ∨ 2 ^ m.fb ≤ x) (hx2 : x ≤ 2 ^ (m.fb + 1)) :
      m.worth k (j * 2 ^ m.fb + x) = x * 2 ^ (q + k).toNat := by
    rw [FFmt.worth, m.mant_grid hx hx2, Nat.mul_assoc, ← Nat.pow_add]; congr 2; omega
  rw [hjt]
  have hd : 0 < 2 ^ (q + k).toNat := Nat.two_pow_pos _
  generalize 2 ^ (q + k).toNat = d at *
  have hlo' : j = 0 ∨ 2 ^ m.fb ≤ v / d := hlo.imp (by omega) (Nat.le_div_iff_mul_le hd).2
  have hhi' : v / d < 2 ^ (m.fb + 1) := (Nat.div_lt_iff_lt_mul hd).2 hhi
  have heven : j * 2 ^ m.fb % 2 = 0 :=
    Nat.mod_eq_zero_of_dvd (Dvd.dvd.mul_left (dvd_pow_self 2 h.fb.ne') j)
  have hfloor := hworth hlo' hhi'.le
  have hN := nearestOf_round (m.worth_strictMono k) hd heven hfloor
    (by rw [Nat.add_assoc]; exact hworth (hlo'.imp_right (Nat.le_succ_of_le)) hhi')
  generalize j * 2 ^ m.fb + nearestMul v d = code at *
  have hmax : code ≤ m.maxCode := hN.le_of_le (m.worth_strictMono k) htop
  refine ⟨code, ?_, by have := h.max; omega, hN⟩
  rw [if_neg hmax.not_gt]
  cases m.tiny n e <;> rfl

/-! ## The nearest encoding -/

theorem isFinite_decode {m : FFmt} (h : m.Ieee) (c : Nat) :
    (m.decode c).isFinite = decide (m.mag c < m.infCode) := by
  by_cases hc : m.mag c < m.infCode
  · obtain ⟨n, e, hv, -⟩ := finVal_num m (m.isNeg c) (m.mag c)
    rw [decode_fin h hc, hv, decide_eq_true hc]; rfl
  · rw [decode_ieee h, if_neg hc, decide_eq_false hc]
    split <;> rfl

/-- What a finite encoding is worth. -/
theorem units_decode {m : FFmt} (h : m.Ieee) {k : Nat} (hk : 0 ≤ m.emin + k) {c : Nat}
    (hf : (m.decode c).isFinite = true) : (m.decode c).units k = sgn (m.isNeg c) * (m.worth k (m.mag c) : Int) := by
  rw [isFinite_decode h, decide_eq_true_iff] at hf
  rw [decode_fin h hf, finVal_units m hk]; rfl

theorem mag_mod_two {m : FFmt} (h : m.Binary) (c : Nat) : m.mag c % 2 = c % 2 := by
  rw [FFmt.mag, m.width_sub]
  exact Nat.mod_mod_of_dvd _ (dvd_pow_self 2 (by have := h.fb; omega))

theorem infCode_lt (m : FFmt) : m.infCode < 2 ^ (m.eb + m.fb) := by
  rw [FFmt.infCode, Nat.pow_add]
  exact Nat.mul_lt_mul_of_pos_right (Nat.sub_lt (Nat.two_pow_pos _) Nat.one_pos) (Nat.two_pow_pos _)

/-- An encoding whose magnitude code is nearest to the magnitude of an exact value is nearest to the value. -/
theorem nearest_of_mag {m : FFmt} (h : m.Binary) {k mag v : Nat} (hk : 0 ≤ m.emin + k) (hmag : mag < m.infCode)
    (hN : NearestOf (m.worth k) mag v) (neg : Bool) : m.nearest k (m.pack neg mag) (sgn neg * v) := by
  have hl := hmag.trans (infCode_lt m)
  have hfin : (m.decode (m.pack neg mag)).isFinite = true := by
    rw [isFinite_decode h.toIeee, mag_pack hl, decide_eq_true hmag]
  refine ⟨hfin, fun c _ hc => ?_⟩
  rw [units_decode h.toIeee hk hfin, units_decode h.toIeee hk hc, mag_pack hl, isNeg_pack hl, ← mag_mod_two h c,
    ← mag_mod_two h (m.pack neg mag), mag_pack hl]
  have hz := m.worth_zero k
  obtain ⟨hle, hties⟩ := hN (m.mag c)
  obtain ⟨hle0, hties0⟩ := hN 0
  rcases eq_or_ne (m.isNeg c) neg with hs | hs
  · have hdist (x : Nat) : (sgn neg * (x : Int) - sgn neg * v).natAbs = ((x : Int) - v).natAbs := by
      rw [← mul_sub, Int.natAbs_mul]; cases neg <;> simp [sgn]
    rw [hs, hdist, hdist]
    exact ⟨hle, fun ht => (hties ht).imp_left fun he => by rw [he]⟩
  · have hneg : sgn (m.isNeg c) = -sgn neg := by
      revert hs; cases m.isNeg c <;> cases neg <;> decide
    have hdist : (sgn neg * (m.worth k mag : Int) - sgn neg * v).natAbs = ((m.worth k mag : Int) - v).natAbs := by
      rw [← mul_sub, Int.natAbs_mul]; cases neg <;> simp [sgn]
    have hopp : (-sgn neg * (m.worth k (m.mag c) : Int) - sgn neg * v).natAbs = m.worth k (m.mag c) + v := by
      cases neg <;> simp [sgn] <;> omega
    rw [hneg, hdist, hopp]
    refine ⟨by omega, fun ht => Or.inl ?_⟩
    have h0 : mag = 0 := by
      have := hties0 (by omega)
      omega
    have hc0 : m.worth k (m.mag c) = 0 := by omega
    rw [hc0, h0, hz]
    simp

/-- The magnitude of the largest finite encoding. -/
theorem units_maxCode {m : FFmt} (h : m.Binary) {k : Nat} (hk : 0 ≤ m.emin + k) :
    (m.decode m.maxCode).units k = (m.worth k m.maxCode : Int) := by
  have := pack_units h.toIeee hk false (mag := m.maxCode) (by have := h.max; omega)
  rw [FFmt.pack, cond_false, Nat.zero_add] at this
  rw [this, sgn, if_neg Bool.false_ne_true, one_mul]; rfl

/-- A finite exact value within the range of a format is delivered as the nearest encoding (R51). -/
theorem deliver_nearest {m : FFmt} (h : m.Binary) {neg : Bool} {n k : Nat} {e : Int} (he : 0 ≤ e + k)
    (hk : 0 ≤ m.emin + k)
    (htop : (((FVal.num neg n e).units k).natAbs : Int) ≤ (m.decode m.maxCode).units k) :
    m.nearest k (m.deliver false (.num neg n e)).1 ((FVal.num neg n e).units k) := by
  have habs : ((FVal.num neg n e).units k).natAbs = n * 2 ^ (e + k).toNat := by
    rw [units_num, Int.natAbs_mul, Int.natAbs_natCast]; cases neg <;> exact Nat.one_mul _
  rw [habs, units_maxCode h hk] at htop
  rw [units_num]
  by_cases h0 : n = 0
  · subst h0
    rw [Nat.zero_mul]
    have hd : (m.deliver false (.num neg 0 e)).1 = m.pack neg 0 := by simp [FFmt.deliver, h.kind]
    rw [hd]
    refine nearest_of_mag h hk (infCode_pos h.toIeee) (fun c => ?_) neg
    have hz := m.worth_zero k
    have := (m.worth_strictMono k).lt_iff_lt (a := 0) (b := c)
    omega
  · obtain ⟨mag, hd, hmag, hN⟩ := deliverNum_nearest h h0 he hk (by exact_mod_cast htop) neg
    rw [FFmt.deliver, if_neg h0, hd]
    exact nearest_of_mag h hk hmag hN neg

/-! ## Exact sums and products -/

/-- A finite value that is a multiple of 2^-k. -/
def FVal.Exact (k : Nat) (v : FVal) : Prop := ∃ neg n e, v = .num neg n e ∧ 0 ≤ e + k

theorem exact_decode {m : FFmt} (h : m.Ieee) {k c : Nat} (hk : 0 ≤ m.emin + k) (hf : (m.decode c).isFinite = true) :
    (m.decode c).Exact k := by
  obtain ⟨neg, n, e, hv, he⟩ := decode_finite h hk hf
  exact ⟨neg, n, e, hv, he⟩

/-- The exact sum of two finite values. -/
theorem valAdd_exact {k : Nat} {x y : FVal} (hx : x.Exact k) (hy : y.Exact k) :
    (valAdd x y).1.Exact k ∧ (valAdd x y).1.units k = x.units k + y.units k := by
  obtain ⟨n1, m1, e1, rfl, h1⟩ := hx
  obtain ⟨n2, m2, e2, rfl, h2⟩ := hy
  have hk : 0 ≤ min e1 e2 + k := by omega
  have hu1 := units_eq_sm (neg := n1) (m := m1) (Int.min_le_left e1 e2) hk
  have hu2 := units_eq_sm (neg := n2) (m := m2) (Int.min_le_right e1 e2) hk
  have ha : (valAdd (.num n1 m1 e1) (.num n2 m2 e2)).1 = finAdd (.num n1 m1 e1) (.num n2 m2 e2) := rfl
  rw [ha, hu1, hu2, ← Int.add_mul]
  unfold finAdd
  dsimp only
  generalize (FVal.num n1 m1 e1).sm * _ + _ = t
  split
  · next h0 =>
    exact ⟨⟨_, _, _, rfl, by omega⟩, by rw [h0, units_num, Nat.zero_mul, Int.zero_mul, Nat.cast_zero, Int.mul_zero]⟩
  · exact ⟨⟨_, _, _, rfl, hk⟩, by rw [units_num, Nat.cast_mul, ← Int.mul_assoc, sgn_natAbs]⟩

/-- The exact product of two finite values. -/
theorem valMul_exact {k : Nat} {x y : FVal} (hx : x.Exact k) (hy : y.Exact k) :
    (valMul x y).1.Exact (2 * k) ∧ (valMul x y).1.units (2 * k) = x.units k * y.units k := by
  obtain ⟨n1, m1, e1, rfl, h1⟩ := hx
  obtain ⟨n2, m2, e2, rfl, h2⟩ := hy
  refine ⟨⟨_, _, _, rfl, by push_cast; omega⟩, ?_⟩
  have he : (e1 + e2 + ((2 * k : Nat) : Int)).toNat = (e1 + k).toNat + (e2 + k).toNat := by omega
  have hs : sgn (n1 != n2) = sgn n1 * sgn n2 := by cases n1 <;> cases n2 <;> rfl
  change (FVal.num (n1 != n2) (m1 * m2) (e1 + e2)).units (2 * k) = _
  rw [units_num, units_num, units_num, he, hs, Nat.pow_add]
  push_cast
  ring

/-- An exact value in units half as many places finer. -/
theorem units_double {k : Nat} {x : FVal} (hx : x.Exact k) : x.units (2 * k) = x.units k * 2 ^ k := by
  obtain ⟨n, m, e, rfl, h⟩ := hx
  have he : (e + ((2 * k : Nat) : Int)).toNat = (e + k).toNat + k := by omega
  rw [units_num, units_num, he, Nat.pow_add]
  push_cast
  ring

theorem FVal.Exact.mono {k j : Nat} {x : FVal} (hx : x.Exact k) (h : k ≤ j) : x.Exact j := by
  obtain ⟨n, m, e, rfl, he⟩ := hx
  exact ⟨n, m, e, rfl, by omega⟩

/-- An exact value within the range of a format, rounded by one operation, gives the nearest encoding. -/
theorem finish_nearest {m : FFmt} (h : m.Binary) {k : Nat} (hk : 0 ≤ m.emin + k) {r : FVal × FlagSet} {v : Int}
    (hr : r.1.Exact k ∧ r.1.units k = v) (htop : (v.natAbs : Int) ≤ (m.decode m.maxCode).units k) :
    m.nearest k (m.finish false r).1 v := by
  obtain ⟨⟨neg, n, e, hv, he⟩, rfl⟩ := hr
  rw [hv] at htop
  rw [FFmt.finish, hv]
  exact deliver_nearest h he hk htop

theorem flipSign_eq (m : FFmt) (c : Nat) : m.flipSign c = m.pack (!m.isNeg c) (m.mag c) := by
  rw [FFmt.flipSign, FFmt.sign, bitAt_eq_testBit, FFmt.isNeg, FFmt.mag, m.width_sub]

/-- Changing the sign bit negates a finite value. -/
theorem decode_flipSign {m : FFmt} (h : m.Ieee) {k c : Nat} (hk : 0 ≤ m.emin + k)
    (hf : (m.decode c).isFinite = true) :
    (m.decode (m.flipSign c)).Exact k ∧ (m.decode (m.flipSign c)).units k = -(m.decode c).units k := by
  have hl : m.mag c < 2 ^ (m.eb + m.fb) := by rw [FFmt.mag, m.width_sub]; exact Nat.mod_lt _ (Nat.two_pow_pos _)
  have hfin : (m.decode (m.flipSign c)).isFinite = true := by
    rw [← hf, isFinite_decode h, isFinite_decode h, flipSign_eq, mag_pack hl]
  refine ⟨exact_decode h hk hfin, ?_⟩
  have hneg : sgn (!m.isNeg c) = -sgn (m.isNeg c) := by cases m.isNeg c <;> rfl
  rw [units_decode h hk hfin, units_decode h hk hf, flipSign_eq, mag_pack hl, isNeg_pack hl, hneg, neg_mul]

/-- Settles O16: the exact sum or product is a multiple of 2^-k or 2^-2k (`valAdd_exact`, `valMul_exact`), and one
rounding of it gives the nearest encoding (`finish_nearest`). -/
theorem fpRoundsToNearest : Obligations.FpRoundsToNearest := by
  unfold Obligations.FpRoundsToNearest
  intro m hm a b c _ _ _ ha hb hc k v top
  obtain ⟨hB, hk⟩ : m.Binary ∧ 0 ≤ m.emin + k := by
    rcases hm with rfl | rfl
    · exact ⟨binary_fFP32, by decide⟩
    · exact ⟨binary_fFP64, by decide⟩
  have hk2 : 0 ≤ m.emin + (2 * k : Nat) := by omega
  have xa := exact_decode hB.toIeee hk ha
  have xb := exact_decode hB.toIeee hk hb
  have xc := exact_decode hB.toIeee hk hc
  have htop : (m.decode m.maxCode).units (2 * k) = top * 2 ^ k :=
    units_double (exact_decode hB.toIeee hk (by rcases hm with rfl | rfl <;> rfl))
  have hprod := valMul_exact xa xb
  refine ⟨fun ht => finish_nearest hB hk (valAdd_exact xa xb) ht, fun ht => ?_,
    fun ht => finish_nearest hB hk2 hprod (htop ▸ ht), fun ht => ?_⟩
  · obtain ⟨xn, hn⟩ := decode_flipSign hB.toIeee hk hb
    have hdiff := valAdd_exact xa xn
    rw [hn, ← sub_eq_add_neg] at hdiff
    exact finish_nearest hB hk hdiff ht
  · have hsum := valAdd_exact hprod.1 (xc.mono (show k ≤ 2 * k by omega))
    rw [hprod.2, units_double xc] at hsum
    exact finish_nearest hB hk2 hsum (htop ▸ ht)

end Sys2Proof.Machine
end

section
/-!
Integer operands and results of the Scalar Lane as bit vectors of the width W (R100, R111, R192).
-/

namespace Sys2Proof.Machine

theorem bitAt_toNat {n : Nat} (x : BitVec n) (i : Nat) : bitAt x.toNat i = x.getLsbD i := bitAt_eq_testBit _ _

theorem auxW_eq (aux : Byte) : auxW aux = if aux.getLsbD 0 then 64 else 32 := by rw [auxW, bitAt_toNat]

theorem auxW_cases {aux : Byte} {w : Nat} (hw : auxW aux = w) : w = 64 ∨ w = 32 := by
  subst hw
  rw [auxW_eq]
  split
  · exact .inl rfl
  · exact .inr rfl

theorem auxW_pos {aux : Byte} {w : Nat} (hw : auxW aux = w) : 0 < w := by
  rcases auxW_cases hw with rfl | rfl <;> decide

theorem gi_eq (c : TCtx) (w r : Nat) : c.gi w r = ((c.gr r).setWidth w).toNat := (BitVec.toNat_setWidth ..).symm

theorem sext_toNat {w : Nat} (hw : 0 < w) (v : BitVec w) : sext v.toNat w = v.toInt := by
  have hp : 2 ^ w = 2 * 2 ^ (w - 1) := by rw [← Nat.pow_succ', Nat.succ_eq_add_one, Nat.sub_add_cancel hw]
  rw [BitVec.toInt_eq_toNat_cond, sext, Nat.mod_eq_of_lt v.isLt]
  simp only [show v.toNat < 2 ^ (w - 1) ↔ 2 * v.toNat < 2 ^ w by omega]

/-- A W-bit result is sign-extended into its register (R100). -/
theorem gres_eq {aux : Byte} {w : Nat} (hw : auxW aux = w) (i : Int) :
    gres w i = (BitVec.ofInt w i).signExtend 64 := by
  rcases auxW_cases hw with rfl | rfl
  · rw [gres, if_pos rfl, BitVec.signExtend_eq]
  · have h : wrapN i 32 = (BitVec.ofInt 32 i).toNat := rfl
    rw [gres, if_neg (by decide), h, sext_toNat (by decide)]
    rfl

theorem ofInt_toNat {w : Nat} (a : BitVec w) : BitVec.ofInt w a.toNat = a := by
  rw [BitVec.ofInt_natCast, BitVec.ofNat_toNat, BitVec.setWidth_eq]

theorem ofInt_sub {w : Nat} (i j : Int) : BitVec.ofInt w (i - j) = BitVec.ofInt w i - BitVec.ofInt w j := by
  rw [Int.sub_eq_add_neg, BitVec.ofInt_add, BitVec.ofInt_neg, BitVec.sub_eq_add_neg]

/-- A result that is 0 or 1. -/
theorem gres_bool {aux : Byte} {w : Nat} (hw : auxW aux = w) (b : Bool) :
    gres w ((b2n b : Nat) : Int) = if b then 1 else 0 := by
  rcases auxW_cases hw with rfl | rfl <;> cases b <;> rfl

/-! ## Forms -/

section
variable {s : State} {t : TileNo} (hr : s.laneReady t.val)
include hr

/-- An instruction that writes one G register retires when its flags are not trapped. -/
theorem lane_outG {f : TCtx → LaneOut} {rd : RegNo} {v : DWord} {fl : FlagSet}
    (hf : f (s.issuing t.val) = outG rd.val v fl) (hq : fl &&& s.trapEn t.val = 0) :
    LaneRetires s (s.lane t.val f) t.val [.g rd.val v] fl ((s.tc t.val).pc + 8) := by
  have hl := lane_retires hr f
  rw [hf, outG, flUnion_single] at hl
  exact hl hq

variable (rd x y : RegNo) {aux : Byte} {w : Nat} (hw : auxW aux = w)
include hw

/-- A two-operand integer instruction, from what it computes of its operands' low W bits. -/
theorem int2_retires {f : Nat → Nat → Nat → Int × FlagSet} {i : Int} {fl : FlagSet} {v : DWord}
    (hf : f w (((s.tc t.val).gr x.val).setWidth w).toNat (((s.tc t.val).gr y.val).setWidth w).toNat = (i, fl))
    (hv : gres w i = v) (hq : fl &&& s.trapEn t.val = 0) :
    LaneRetires s (s.int2 t rd x y aux f) t.val [.g rd.val v] fl ((s.tc t.val).pc + 8) := by
  subst hw hv
  refine lane_outG hr ?_ hq
  simp only [gi_eq]
  exact congrArg (fun p => outG rd.val (gres _ p.1) p.2) hf

/-- A one-operand integer instruction, from what it computes of its operand's low W bits. -/
theorem int1_retires {f : Nat → Nat → Int × FlagSet} {i : Int} {fl : FlagSet} {v : DWord}
    (hf : f w (((s.tc t.val).gr x.val).setWidth w).toNat = (i, fl))
    (hv : gres w i = v) (hq : fl &&& s.trapEn t.val = 0) :
    LaneRetires s (s.int1 t rd x aux f) t.val [.g rd.val v] fl ((s.tc t.val).pc + 8) := by
  subst hw hv
  refine lane_outG hr ?_ hq
  simp only [gi_eq]
  exact congrArg (fun p => outG rd.val (gres _ p.1) p.2) hf

end

/-! ## Results that wrap or clamp (R111) -/

/-- Saturation to the signed range of W bits. -/
theorem satS_eq (w : Nat) (i : Int) : satS w i = max (-2 ^ (w - 1)) (min (2 ^ (w - 1) - 1) i) := by
  have hp : (0 : Int) < 2 ^ (w - 1) := pow_pos (by decide) _
  rw [satS, clampI, Nat.cast_pow, Nat.cast_ofNat]
  split_ifs <;> omega

/-- A clamp sets SATURATED and INEXACT. -/
theorem satRes_eq (w : Nat) (i : Int) : satRes w i = (satS w i, if satS w i = i then 0 else 0x18) := by
  unfold satRes
  by_cases h : satS w i = i
  · rw [if_pos h, h, bne_self_eq_false]; rfl
  · rw [if_neg h, bne_iff_ne.2 h]; rfl

theorem gres_satS {aux : Byte} {w : Nat} (hw : auxW aux = w) (i : Int) :
    gres w (satS w i) = BitVec.ofInt 64 (satS w i) := by
  have hp : (0 : Int) < 2 ^ (w - 1) := pow_pos (by decide) _
  rw [gres_of_range (auxW_cases hw)] <;> rw [satS_eq] <;> omega

/-- Settles O9: sums, differences and products are those of the W-bit operands (`int2_retires`, `gres_eq`), and the
saturating forms clamp them (`satRes_eq`). -/
theorem laneIntegerResults : Obligations.LaneIntegerResults := by
  unfold Obligations.LaneIntegerResults
  constructor
  · intro s t rd x y aux imm hr w a b
    have hw : auxW aux = w := auxW_eq aux
    have wraps {i : Int} {r : BitVec w} (h : BitVec.ofInt w i = r) : gres w i = r.signExtend 64 :=
      (gres_eq hw i).trans (congrArg _ h)
    have hadd : BitVec.ofInt w (a.toNat + b.toNat : Nat) = a + b := by
      rw [Nat.cast_add, BitVec.ofInt_add, ofInt_toNat, ofInt_toNat]
    have hsub : BitVec.ofInt w ((a.toNat : Int) - b.toNat) = a - b := by
      rw [ofInt_sub, ofInt_toNat, ofInt_toNat]
    have hneg : BitVec.ofInt w (-(a.toNat : Int)) = -a := by rw [BitVec.ofInt_neg, ofInt_toNat]
    have himm : BitVec.ofInt w ((a.toNat : Int) + imm.toInt) = a + imm.signExtend w := by
      rw [BitVec.ofInt_add, ofInt_toNat]; rfl
    have hmul : BitVec.ofInt w (a.toNat * b.toNat : Nat) = a * b := by
      rw [Nat.cast_mul, BitVec.ofInt_mul, ofInt_toNat, ofInt_toNat]
    exact ⟨⟨_, rfl, int2_retires hr rd x y hw rfl (wraps hadd) BitVec.zero_and⟩,
      ⟨_, rfl, int2_retires hr rd x y hw rfl (wraps hsub) BitVec.zero_and⟩,
      ⟨_, rfl, int1_retires hr rd x hw rfl (wraps hneg) BitVec.zero_and⟩,
      ⟨_, rfl, int1_retires hr rd x hw rfl (wraps himm) BitVec.zero_and⟩,
      ⟨_, rfl, int2_retires hr rd x y hw rfl (wraps hmul) BitVec.zero_and⟩⟩
  · intro s t rd x y aux hr w a b clamped hq
    have hw : auxW aux = w := auxW_eq aux
    have ha : sext _ w = a := sext_toNat (auxW_pos hw) _
    have hb : sext _ w = b := sext_toNat (auxW_pos hw) _
    have quiet (i : Int) : (if satS w i = i then 0 else 0x18 : FlagSet) &&& s.trapEn t.val = 0 := by
      split
      · exact BitVec.zero_and
      · exact hq
    have clamps {i j : Int} (h : i = j) : satRes w i = (satS w j, if satS w j = j then 0 else 0x18) :=
      h ▸ satRes_eq w i
    simp only [clamped, ← satS_eq]
    exact ⟨⟨_, rfl, int2_retires hr rd x y hw (clamps (by rw [ha, hb])) (gres_satS hw _) (quiet _)⟩,
      ⟨_, rfl, int2_retires hr rd x y hw (clamps (by rw [ha, hb])) (gres_satS hw _) (quiet _)⟩,
      ⟨_, rfl, int1_retires hr rd x hw (clamps (by rw [ha])) (gres_satS hw _) (quiet _)⟩⟩

end Sys2Proof.Machine
end

section
/-!
Logic and moves of the Scalar Lane (R104, R108, R111, R192).
-/

namespace Sys2Proof.Machine

/-- Leading zeros in the width W (R108). -/
theorem clz_spec {w a : Nat} (h : a < 2 ^ w) :
    let n := w - bitLen a
    n ≤ w ∧ a < 2 ^ (w - n) ∧ (n < w → 2 ^ (w - n - 1) ≤ a) := by
  intro n
  have hl := bitLen_le h
  rw [show w - n = bitLen a by omega]
  rcases Nat.eq_zero_or_pos a with rfl | h0
  · exact ⟨Nat.sub_le _ _, Nat.two_pow_pos _, fun hn => absurd hn (Nat.lt_irrefl w)⟩
  · obtain ⟨-, hlo, hhi⟩ := bitLen_bounds h0.ne'
    exact ⟨Nat.sub_le _ _, hhi, fun _ => hlo⟩

/-- A small count is written as it is. -/
theorem gres_count {aux : Byte} {w n : Nat} (hw : auxW aux = w) (h : n ≤ w) : gres w n = BitVec.ofNat 64 n := by
  rw [gres_of_range (auxW_cases hw), BitVec.ofInt_natCast]
  all_goals rcases auxW_cases hw with rfl | rfl <;> omega

theorem movhi_value (imm : BitVec 16) : BitVec.ofInt 64 (imm.toInt * 65536) = imm.signExtend 64 <<< 16 := by
  rw [BitVec.shiftLeft_eq_mul_twoPow, BitVec.ofInt_mul]; rfl

/-! ## One lane of an F register -/

/-- Digit `j` of a number in base `b`, with what is below and above it, after it is replaced by `v`. -/
theorem digit_replaced (n v : Nat) {p b : Nat} (hp : 0 < p) (hb : 0 < b) :
    let n' := n - n / p % b * p + v % b * p
    n' % p = n % p ∧ n' / p % b = v % b ∧ n' / (p * b) = n / (p * b) := by
  intro n'
  have hsplit : n = n % p + p * (n / p % b) + p * b * (n / (p * b)) := by
    rw [← Nat.mod_mul, Nat.mod_add_div]
  have hn : n' = n % p + p * (v % b + b * (n / (p * b))) := by
    have h1 : n' = n - p * (n / p % b) + p * (v % b) := by rw [Nat.mul_comm p, Nat.mul_comm p]
    rw [h1, Nat.mul_add, ← Nat.mul_assoc]
    omega
  have hq : n' / p = v % b + b * (n / (p * b)) := by
    rw [hn, Nat.add_mul_div_left _ _ hp, Nat.div_eq_of_lt (Nat.mod_lt _ hp), Nat.zero_add]
  refine ⟨?_, ?_, ?_⟩
  · rw [hn, Nat.add_mul_mod_self_left, Nat.mod_mod]
  · rw [hq, Nat.add_mul_mod_self_left, Nat.mod_mod]
  · rw [← Nat.div_div_eq_div_mul, hq, Nat.add_mul_div_left _ _ hb, Nat.div_eq_of_lt (Nat.mod_lt _ hb), Nat.zero_add]

/-- Numbers that agree below digit `j` and above it have the same other digits. -/
theorem digit_congr {n n' j k : Nat} (hk : k ≠ j) (hlo : n' % 2 ^ (32 * j) = n % 2 ^ (32 * j))
    (hhi : n' / (2 ^ (32 * j) * 2 ^ 32) = n / (2 ^ (32 * j) * 2 ^ 32)) :
    n' / 2 ^ (32 * k) % 2 ^ 32 = n / 2 ^ (32 * k) % 2 ^ 32 := by
  rcases Nat.lt_or_gt_of_ne hk with h | h
  · have hd : 2 ^ (32 * k) * 2 ^ 32 ∣ 2 ^ (32 * j) := by rw [← Nat.pow_add]; exact Nat.pow_dvd_pow 2 (by omega)
    rw [← Nat.mod_mul_right_div_self, ← Nat.mod_mul_right_div_self, ← Nat.mod_mod_of_dvd n' hd, hlo,
      Nat.mod_mod_of_dvd n hd]
  · obtain ⟨i, rfl⟩ : ∃ i, k = j + 1 + i := ⟨k - j - 1, by omega⟩
    have hs : 2 ^ (32 * (j + 1 + i)) = 2 ^ (32 * j) * 2 ^ 32 * 2 ^ (32 * i) := by
      rw [← Nat.pow_add, ← Nat.pow_add]; congr 1; omega
    rw [hs, ← Nat.div_div_eq_div_mul _ _ (2 ^ (32 * i)), hhi, Nat.div_div_eq_div_mul]

theorem lane_ofNat (n : Nat) {k : Nat} (hk : k < 4) :
    (BitVec.ofNat 128 n).extractLsb' (32 * k) 32 = BitVec.ofNat 32 (n / 2 ^ (32 * k)) := by
  have hd : 2 ^ (32 * k + 32) ∣ 2 ^ 128 := Nat.pow_dvd_pow 2 (by omega)
  apply BitVec.eq_of_toNat_eq
  rw [BitVec.extractLsb'_toNat, BitVec.toNat_ofNat, BitVec.toNat_ofNat, Nat.shiftRight_eq_div_pow,
    ← Nat.mod_mul_right_div_self, ← Nat.mod_mul_right_div_self, ← Nat.pow_add, Nat.mod_mod_of_dvd _ hd]

/-- One lane of an F register is replaced, and the others keep their bits (R100). -/
theorem fsetLane_lanes (q : QWord) (v : Nat) {j : Nat} (hj : j < 4) :
    (fsetLane q j v).extractLsb' (32 * j) 32 = BitVec.ofNat 32 v
      ∧ ∀ k < 4, k ≠ j → (fsetLane q j v).extractLsb' (32 * k) 32 = q.extractLsb' (32 * k) 32 := by
  obtain ⟨hlo, hat, hhi⟩ := digit_replaced q.toNat v (Nat.two_pow_pos (32 * j)) (Nat.two_pow_pos 32)
  have hset : fsetLane q j v = BitVec.ofNat 128
      (q.toNat - q.toNat / 2 ^ (32 * j) % 2 ^ 32 * 2 ^ (32 * j) + v % 2 ^ 32 * 2 ^ (32 * j)) := by
    rw [← Nat.shiftRight_eq_div_pow]; rfl
  have hq : q = BitVec.ofNat 128 q.toNat := by rw [BitVec.ofNat_toNat, BitVec.setWidth_eq]
  refine ⟨?_, fun k hk hne => ?_⟩
  · rw [hset, lane_ofNat _ hj]
    exact BitVec.eq_of_toNat_eq hat
  · conv_rhs => rw [hq]
    rw [hset, lane_ofNat _ hk, lane_ofNat _ hk]
    exact BitVec.eq_of_toNat_eq (digit_congr hne hlo hhi)

/-- Settles O10: logic and moves write their value as it is (`lane_outG`), CLZ by `clz_spec`, and MVGF replaces the bits it
names (`fsetLane_lanes`, `fsetDbl_low`). -/
theorem laneLogicAndMoves : Obligations.LaneLogicAndMoves := by
  unfold Obligations.LaneLogicAndMoves
  constructor
  · intro s t rd x y aux imm hr a b w
    have hw : auxW aux = w := auxW_eq aux
    have writes {f : TCtx → LaneOut} {v : DWord} (hf : f (s.issuing t.val) = outG rd.val v flNone) :
        LaneWritesG s (s.lane t.val f) t.val rd v := lane_outG hr hf BitVec.zero_and
    have hclz := clz_spec (a.setWidth w).isLt
    refine ⟨⟨_, rfl, writes rfl⟩, ⟨_, rfl, writes rfl⟩, ⟨_, rfl, writes rfl⟩, ⟨_, rfl, writes rfl⟩, ⟨_, rfl, writes rfl⟩,
      ⟨_, rfl, ?_⟩, ⟨_, rfl, lane_retires hr _ BitVec.zero_and⟩, ⟨_, _, rfl, ?_, hclz⟩⟩
    · rw [← movhi_value]
      exact writes rfl
    · exact int1_retires hr rd x hw rfl (gres_count hw hclz.1) BitVec.zero_and
  · intro s t rd x aux hr c j
    have hj : j < 4 := Nat.mod_lt _ (by decide)
    refine ⟨⟨_, rfl, lane_retires hr _ BitVec.zero_and⟩, ⟨_, _, rfl, lane_retires hr _ BitVec.zero_and, ?_, ?_⟩,
      ⟨_, rfl, lane_outG hr ?_ BitVec.zero_and⟩⟩
    · intro hb
      rw [bitAt_toNat, hb, if_neg Bool.false_ne_true]
      obtain ⟨hlow, hhigh⟩ := fsetDbl_low (c.fr rd.val) (c.gr x.val).toNat
      exact ⟨hlow.trans (by rw [BitVec.ofNat_toNat, BitVec.setWidth_eq]), hhigh⟩
    · intro hb
      rw [bitAt_toNat, hb, if_pos rfl]
      obtain ⟨hlane, hrest⟩ := fsetLane_lanes (c.fr rd.val) (c.gr x.val).toNat hj
      exact ⟨hlane.trans (BitVec.ofNat_toNat ..), hrest⟩
    · dsimp only
      rw [bitAt_toNat, flane_eq, fdbl_eq, apply_ite (BitVec.ofNat 64), BitVec.ofNat_toNat, BitVec.ofNat_toNat,
        BitVec.setWidth_eq]
      rfl

end Sys2Proof.Machine
end

section
/-!
Shifts, comparisons and high products of the Scalar Lane (R111, R192).
-/

namespace Sys2Proof.Machine

/-- The amount of a shift: RS2, or the immediate, modulo W (R111, R192). -/
theorem shiftBy_eq (c : TCtx) (y : RegNo) {aux : Byte} {w : Nat} (hw : auxW aux = w) (imm : BitVec 16) :
    c.shiftBy y aux imm
      = (if aux.getLsbD 1 then imm.toNat else ((c.gr y.val).setWidth w).toNat) % w := by
  subst hw
  have himm : (imm.toInt % (auxW aux : Int)).toNat = imm.toNat % auxW aux := by
    rw [BitVec.toInt_eq_toNat_cond]
    rcases auxW_cases (aux := aux) rfl with h | h <;> rw [h] <;> split <;> omega
  rw [TCtx.shiftBy, bitAt_toNat, gi_eq]
  cases aux.getLsbD 1
  · rfl
  · exact himm

theorem ofInt_shiftLeft {w : Nat} (a : BitVec w) (n : Nat) : BitVec.ofInt w (a.toNat <<< n : Nat) = a <<< n := by
  rw [BitVec.ofInt_natCast]; rfl

theorem ofInt_shiftRight {w : Nat} (a : BitVec w) (n : Nat) : BitVec.ofInt w (a.toNat >>> n : Nat) = a >>> n := by
  rw [← BitVec.toNat_ushiftRight, ofInt_toNat]

theorem ofInt_sshiftRight {w : Nat} (a : BitVec w) (n : Nat) :
    BitVec.ofInt w (a.toInt.fdiv ((2 ^ n : Nat) : Int)) = a.sshiftRight n := by
  rw [Int.fdiv_eq_ediv_of_nonneg _ (Int.natCast_nonneg _), ← Int.shiftRight_eq_div_pow]; rfl

section
variable {s : State} {t : TileNo} (hr : s.laneReady t.val) (rd x y : RegNo) {aux : Byte} {w : Nat} (hw : auxW aux = w)
include hr hw

/-- A shift, from what it computes of its operand and its amount. -/
theorem shift_writesG (imm : BitVec 16) {f : Nat → Nat → Nat → Int} {r : BitVec w}
    (hf : let n := (if aux.getLsbD 1 then imm.toNat else (((s.tc t.val).gr y.val).setWidth w).toNat) % w
      BitVec.ofInt w (f w (((s.tc t.val).gr x.val).setWidth w).toNat n) = r) :
    LaneWritesG s (s.shift t rd x y aux imm f) t.val rd (r.signExtend 64) := by
  subst hf
  refine lane_outG hr ?_ BitVec.zero_and
  rw [shiftBy_eq _ _ hw, ← gres_eq hw]
  subst hw
  dsimp only
  rw [gi_eq]
  rfl

/-- A comparison writes 1 or 0. -/
theorem int2_bool {f : Nat → Nat → Nat → Int × FlagSet} {b : Bool} {p : Prop} [Decidable p]
    (hf : f w (((s.tc t.val).gr x.val).setWidth w).toNat (((s.tc t.val).gr y.val).setWidth w).toNat
      = (((b2n b : Nat) : Int), flNone)) (hb : b = true ↔ p) :
    LaneWritesG s (s.int2 t rd x y aux f) t.val rd (if p then 1 else 0) := by
  refine int2_retires hr rd x y hw hf ?_ BitVec.zero_and
  rw [gres_bool hw]
  exact if_congr hb rfl rfl

/-- MULX writes the high W bits of the product in its sign mode. -/
theorem mulx_writesG {p : Int} (hm : bitsOf aux.toNat 2 2 ≠ 3)
    (hp : mulxProduct (bitsOf aux.toNat 2 2) w (((s.tc t.val).gr x.val).setWidth w).toNat
      (((s.tc t.val).gr y.val).setWidth w).toNat = p) :
    ∃ u, exec (.mulx t rd x y aux) s = .next u
      ∧ LaneWritesG s u t.val rd (BitVec.signExtend 64 (BitVec.ofInt w (p / 2 ^ w))) := by
  refine ⟨_, if_neg hm, int2_retires hr rd x y hw rfl ?_ BitVec.zero_and⟩
  rw [hp, gres_eq hw, Int.fdiv_eq_ediv_of_nonneg _ (Int.natCast_nonneg _), Nat.cast_pow]; rfl

end

/-- The sign mode of MULX is AUX[3:2]. -/
theorem mulxMode_eq (aux : Byte) : bitsOf aux.toNat 2 2 = b2n (aux.getLsbD 2) + 2 * b2n (aux.getLsbD 3) := by
  have bit (i : Nat) : b2n (aux.getLsbD i) = aux.toNat / 2 ^ i % 2 := by
    rw [← BitVec.testBit_toNat, Nat.testBit_eq_decide_div_mod_eq, b2n]
    rcases Nat.mod_two_eq_zero_or_one (aux.toNat / 2 ^ i) with h | h <;> rw [h] <;> rfl
  rw [bit, bit, bitsOf, Nat.shiftRight_eq_div_pow]
  omega

/-- Settles O11: shifts by `shift_writesG`, comparisons by `int2_bool`, and MULX by `mulx_writesG`. -/
theorem laneShiftsComparesAndHighProducts : Obligations.LaneShiftsComparesAndHighProducts := by
  unfold Obligations.LaneShiftsComparesAndHighProducts
  intro s t rd x y aux imm hr w a b n high
  have hw : auxW aux = w := auxW_eq aux
  have ha : sext a.toNat w = a.toInt := sext_toNat (auxW_pos hw) _
  have hb : sext b.toNat w = b.toInt := sext_toNat (auxW_pos hw) _
  have hmode := mulxMode_eq aux
  refine ⟨⟨_, rfl, shift_writesG hr rd x y hw imm (ofInt_shiftLeft a n)⟩,
    ⟨_, rfl, shift_writesG hr rd x y hw imm (ofInt_shiftRight a n)⟩,
    ⟨_, rfl, shift_writesG hr rd x y hw imm ?_⟩, ⟨_, rfl, int2_bool hr rd x y hw rfl ?_⟩,
    ⟨_, rfl, int2_bool hr rd x y hw rfl ?_⟩, fun h2 h3 => ?_, fun h2 h3 => ?_, fun h2 h3 => ?_, fun h2 h3 => ?_⟩
  · exact (congrArg (fun i : Int => BitVec.ofInt w (i.fdiv ((2 ^ n : Nat) : Int))) ha).trans (ofInt_sshiftRight a n)
  · rw [beq_iff_eq]; exact BitVec.toNat_inj
  · rw [bitAt_toNat]
    cases aux.getLsbD 2
    · exact iff_of_eq (congrArg (· = true) (congrArg₂ (fun i j : Int => decide (i < j)) ha hb))
    · rfl
  all_goals rw [h2, h3] at hmode
  · exact mulx_writesG hr rd x y hw (by rw [hmode]; decide) (by rw [hmode]; exact congrArg₂ (· * ·) ha hb)
  · exact mulx_writesG hr rd x y hw (by rw [hmode]; decide) (by rw [hmode]; rfl)
  · exact mulx_writesG hr rd x y hw (by rw [hmode]; decide) (by rw [hmode]; exact congrArg (· * _) ha)
  · exact if_pos hmode

end Sys2Proof.Machine
end

section
/-!
Integer division on the V pipe (R102, R108, R111, R112).
-/

namespace Sys2Proof.Machine

/-! ## The V pipe -/

/-- A change of the lane's context by an instruction of a ready lane, with the records of its run. -/
theorem laneDo_recorded {s : State} {t : Nat} (hr : s.laneReady t) (g : TCtx → TCtx) :
    Recorded (s.setTc t (g (s.issuing t))) (s.laneDo t (fun s => s.modTc t g)) := by
  have h := (laneIds_recorded (s.takeStamp t) t).setTc t g
  rw [takeStamp_tc, takeStamp_setTc] at h
  rw [laneDo_ready hr]
  exact h

/-- A change of the lane's context by an instruction of a ready lane, from what it leaves. -/
theorem laneDo_leaves {s : State} {t : Nat} (hr : s.laneReady t) {g : TCtx → TCtx} {y : TCtx}
    (hg : g (s.issuing t) = y) : Recorded (s.setTc t y) (s.laneDo t (fun s => s.modTc t g)) :=
  hg ▸ laneDo_recorded hr g

/-- A V instruction enters the V pipe. -/
theorem laneV_starts {s : State} {t : Nat} (hr : s.laneReady t) {f : TCtx → LaneOut × Nat} {wr : RegWrite}
    {fl : FlagSet} {k : Nat} (hf : f (s.issuing t) = (⟨[wr], [fl]⟩, k)) :
    LaneStartsV s (s.laneV t f) t wr fl k := by
  have h := laneDo_recorded hr (fun c => { c with
    vpipe := some ⟨(f c).1, (f c).2, c.pc⟩
    pc := c.pc + 8
    work := c.work ++ [(c.nextSeq, 7)]
    nextSeq := c.nextSeq + 1 })
  rw [hf] at h
  exact h

/-! ## Cycles (R108) -/

theorem bitLen_eq_size (n : Nat) : bitLen n = Nat.size n := by
  apply Nat.le_antisymm
  · exact bitLen_le (Nat.lt_size_self n)
  · refine Nat.size_le.2 ?_
    rcases Nat.eq_zero_or_pos n with rfl | h
    · exact Nat.two_pow_pos _
    · exact (bitLen_bounds h.ne').2.2

/-- The magnitude of an operand of a division. -/
def divMag {w : Nat} (uns : Bool) (v : BitVec w) : Nat := if uns then v.toNat else v.toInt.natAbs

/-- The signed quotient that overflows (R111). -/
abbrev DivOverflow {w : Nat} (uns : Bool) (a b : BitVec w) : Prop :=
  uns = false ∧ a = BitVec.intMin w ∧ b = BitVec.allOnes w

theorem divMag_size_le {w : Nat} (hw : 0 < w) (uns : Bool) (v : BitVec w) : Nat.size (divMag uns v) ≤ w := by
  rw [Nat.size_le, divMag]
  have hp : 2 ^ w = 2 * 2 ^ (w - 1) := by rw [← Nat.pow_succ', Nat.succ_eq_add_one, Nat.sub_add_cancel hw]
  split
  · exact v.isLt
  · rw [BitVec.toInt_eq_toNat_cond]
    have := v.isLt
    split <;> omega

theorem toNat_eq_zero_iff {w : Nat} (v : BitVec w) : v.toNat = 0 ↔ v = 0 := by
  rw [← BitVec.toNat_inj]; simp

theorem toNat_eq_intMin_iff {w : Nat} (hw : 0 < w) (v : BitVec w) : v.toNat = 2 ^ (w - 1) ↔ v = BitVec.intMin w := by
  rw [← BitVec.toNat_inj, BitVec.toNat_intMin, Nat.mod_eq_of_lt (Nat.pow_lt_pow_right (by decide) (by omega))]

theorem toNat_eq_allOnes_iff {w : Nat} (v : BitVec w) : v.toNat = 2 ^ w - 1 ↔ v = BitVec.allOnes w := by
  rw [← BitVec.toNat_inj, BitVec.toNat_allOnes]

theorem divOverflow_iff {w : Nat} (hw : 0 < w) (uns : Bool) (a b : BitVec w) :
    (uns = false ∧ a.toNat = 2 ^ (w - 1) ∧ b.toNat = 2 ^ w - 1) ↔ DivOverflow uns a b := by
  rw [toNat_eq_intMin_iff hw, toNat_eq_allOnes_iff]

/-- The cycles of a division, by the sizes of its operands' magnitudes (R108). -/
theorem divCycles_eq {w : Nat} (hw : 0 < w) (uns : Bool) (a b : BitVec w) :
    divCycles w uns a.toNat b.toNat = if b = 0 ∨ DivOverflow uns a b then 3
      else 3 + (Nat.size (divMag uns a) + 1 - Nat.size (divMag uns b)) := by
  have ha := divMag_size_le hw uns a
  have hb := divMag_size_le hw uns b
  rw [divCycles]
  simp only [sext_toNat hw, bitLen_eq_size]
  refine if_congr (or_congr (toNat_eq_zero_iff b) (divOverflow_iff hw uns a b)) rfl ?_
  change 3 + (w - Nat.size (divMag uns b) + 1 - (w - Nat.size (divMag uns a))) = _
  omega

/-! ## Quotients and remainders (R111) -/

/-- A result, in W bits, and its flags. -/
def Gives {w : Nat} (r : Int × FlagSet) (v : BitVec w) (f : FlagSet) : Prop := BitVec.ofInt w r.1 = v ∧ r.2 = f

/-- A division enters the V pipe with its result. -/
theorem intDiv_starts {s : State} {t : TileNo} (hr : s.laneReady t.val) (rd x y : RegNo) {aux : Byte} {w : Nat}
    (hw : auxW aux = w) {f : Nat → Bool → Nat → Nat → Int × FlagSet} {v : BitVec w} {fl : FlagSet} {k : Nat}
    (hf : Gives (f w (aux.getLsbD 2) (((s.tc t.val).gr x.val).setWidth w).toNat
      (((s.tc t.val).gr y.val).setWidth w).toNat) v fl)
    (hk : divCycles w (aux.getLsbD 2) (((s.tc t.val).gr x.val).setWidth w).toNat
      (((s.tc t.val).gr y.val).setWidth w).toNat = k) :
    LaneStartsV s (s.intDiv t rd x y aux f) t.val (.g rd.val (v.signExtend 64)) fl k := by
  obtain ⟨rfl, rfl⟩ := hf
  subst hk
  refine laneV_starts hr ?_
  dsimp only
  rw [hw, gi_eq, gi_eq, bitAt_toNat, gres_eq hw]
  rfl

section
variable {w : Nat} (hw : 0 < w) (a : BitVec w) {b : BitVec w}

theorem quoRes_zero_unsigned (hb : b = 0) : Gives (quoRes w true a.toNat b.toNat) (BitVec.allOnes w) 0x80 := by
  rw [quoRes, if_pos ((toNat_eq_zero_iff b).2 hb)]
  exact ⟨by rw [if_pos rfl, ← BitVec.toNat_allOnes, ofInt_toNat], rfl⟩

include hw in
theorem quoRes_zero_signed (hb : b = 0) : Gives (quoRes w false a.toNat b.toNat)
    (if a = 0 then 0 else if a.msb then BitVec.intMin w else BitVec.intMax w) 0x80 := by
  rw [quoRes, if_pos ((toNat_eq_zero_iff b).2 hb), if_neg Bool.false_ne_true, sext_toNat hw]
  refine ⟨?_, rfl⟩
  dsimp only
  have h0 : a.toInt = 0 ↔ a = 0 := by rw [← BitVec.toInt_zero (w := w), BitVec.toInt_inj]; rfl
  have hmin : BitVec.ofInt w (-((2 ^ (w - 1) : Nat) : Int)) = BitVec.intMin w := by
    rw [BitVec.ofInt_neg, ← (toNat_eq_intMin_iff hw _).2 rfl, ofInt_toNat, BitVec.neg_intMin]
  rw [BitVec.msb_eq_toInt]
  rcases lt_trichotomy a.toInt 0 with h | h | h
  · rw [if_neg (by omega), if_pos h, if_neg (by rw [← h0]; omega), if_pos (decide_eq_true h), hmin]
  · rw [if_neg (by omega), if_neg (by omega), if_pos (h0.1 h)]; rfl
  · rw [if_pos h, if_neg (by rw [← h0]; omega), if_neg (by simp; omega), ← BitVec.toNat_intMax, ofInt_toNat]

include hw in
theorem quoRes_overflow {uns : Bool} (h : DivOverflow uns a b) : Gives (quoRes w uns a.toNat b.toNat) a 0x100 := by
  have hb : b.toNat ≠ 0 := by
    rw [h.2.2, BitVec.toNat_allOnes]
    have := Nat.one_lt_two_pow hw.ne'
    omega
  obtain ⟨rfl, hab⟩ := (divOverflow_iff hw uns a b).2 h
  rw [quoRes, if_neg hb, if_neg Bool.false_ne_true, if_pos hab, sext_toNat hw]
  exact ⟨BitVec.ofInt_toInt, rfl⟩

include hw in
theorem quoRes_ordinary {uns : Bool} (hb : b ≠ 0) (h : ¬ DivOverflow uns a b) :
    Gives (quoRes w uns a.toNat b.toNat) (if uns then a / b else a.sdiv b) 0 := by
  rw [quoRes, if_neg (mt (toNat_eq_zero_iff b).1 hb)]
  cases uns
  · have hab : ¬ (a.toNat = 2 ^ (w - 1) ∧ b.toNat = 2 ^ w - 1) := fun hab =>
      h ((divOverflow_iff hw false a b).1 ⟨rfl, hab⟩)
    rw [if_neg Bool.false_ne_true, if_neg hab, if_neg Bool.false_ne_true, sext_toNat hw, sext_toNat hw]
    exact ⟨BitVec.eq_of_toInt_eq (by rw [BitVec.toInt_ofInt, BitVec.toInt_sdiv]), rfl⟩
  · exact ⟨by rw [if_pos rfl, if_pos rfl, ← BitVec.toNat_udiv, ofInt_toNat], rfl⟩

include hw in
theorem rmdRes_zero (uns : Bool) (hb : b = 0) : Gives (rmdRes w uns a.toNat b.toNat) a 0x80 := by
  rw [rmdRes, if_pos ((toNat_eq_zero_iff b).2 hb), sext_toNat hw]
  cases uns
  · exact ⟨BitVec.ofInt_toInt, rfl⟩
  · exact ⟨ofInt_toNat a, rfl⟩

include hw in
theorem rmdRes_ordinary (uns : Bool) (hb : b ≠ 0) :
    Gives (rmdRes w uns a.toNat b.toNat) (if uns then a % b else a.srem b) 0 := by
  rw [rmdRes, if_neg (mt (toNat_eq_zero_iff b).1 hb), sext_toNat hw, sext_toNat hw]
  cases uns
  · exact ⟨by rw [if_neg Bool.false_ne_true, if_neg Bool.false_ne_true, ← BitVec.toInt_srem, BitVec.ofInt_toInt], rfl⟩
  · exact ⟨by rw [if_pos rfl, if_pos rfl, ← BitVec.toNat_umod, ofInt_toNat], rfl⟩

end

/-- Settles O12: a division enters the V pipe with its result (`intDiv_starts`), for its cycles (`divCycles_eq`). -/
theorem laneDivision : Obligations.LaneDivision := by
  unfold Obligations.LaneDivision
  intro s t rd x y aux hr w a b unsigned mag overflow k starts
  have hw : auxW aux = w := auxW_eq aux
  have hp := auxW_pos hw
  have hk : divCycles w unsigned a.toNat b.toNat = k := divCycles_eq hp unsigned a b
  refine ⟨⟨_, rfl, fun hb hu => ?_, fun hb hu => ?_, fun ho => ?_, fun hb ho => ?_⟩, ⟨_, rfl, fun hb => ?_, fun hb => ?_⟩⟩
  · exact intDiv_starts hr rd x y hw (show Gives (quoRes w unsigned _ _) _ _ from hu ▸ quoRes_zero_unsigned a hb) hk
  · exact intDiv_starts hr rd x y hw (show Gives (quoRes w unsigned _ _) _ _ from hu ▸ quoRes_zero_signed hp a hb) hk
  · exact intDiv_starts hr rd x y hw (quoRes_overflow hp a ho) hk
  · exact intDiv_starts hr rd x y hw (quoRes_ordinary hp a hb ho) hk
  · exact intDiv_starts hr rd x y hw (rmdRes_zero hp a _ hb) hk
  · exact intDiv_starts hr rd x y hw (rmdRes_ordinary hp a _ hb) hk

end Sys2Proof.Machine
end

section
/-!
Floating arithmetic of the Scalar Lane (R100, R103).
-/

namespace Sys2Proof.Machine

/-- A floating operation in the form of AUX retires with its lanes' results and flags, when these are not trapped. -/
theorem fpLane_retires {s : State} {t : TileNo} (hr : s.laneReady t.val) (rd : RegNo) {aux : Byte}
    (haux : aux.toNat % 4 ≠ 3) {g : FFmt → (Nat → Nat) → Nat × FlagSet} {h : FFmt → (RegNo → Nat) → Nat × FlagSet}
    (hg : ∀ m : FFmt, m.Ieee → ∀ r : Nat → Nat, g m r = h m (fun n => r n.val))
    (hq : fpFlags (fpLanes (s.tc t.val) aux h) &&& s.trapEn t.val = 0) :
    FpRetires s (s.lane t.val (fun c => c.fpApply aux rd.val g)) t.val rd aux h := by
  obtain ⟨q, hd, he⟩ := fpApply_dest (c := s.issuing t.val) haux rd (g := g) (h := h)
    (fun j => by rw [hg _ ieee_fFP32]; simp only [flane_eq]) (by rw [hg _ ieee_fFP64]; simp only [fdbl_eq])
  have hl := lane_retires hr (fun c => c.fpApply aux rd.val g)
  rw [he, flUnion_lanes] at hl
  exact ⟨q, hd, hl hq⟩

/-- Settles O15: each is one operation in the form of AUX (`fpLane_retires`). -/
theorem fpArithmetic : Obligations.FpArithmetic := by
  unfold Obligations.FpArithmetic
  intro s t rd x y z aux hr haux fl quiet add sub mul fma
  exact ⟨fun hq => ⟨_, rfl, fpLane_retires hr rd haux (fun _ _ _ => rfl) hq⟩,
    fun hq => ⟨_, rfl, fpLane_retires hr rd haux (fun _ _ _ => rfl) hq⟩,
    fun hq => ⟨_, rfl, fpLane_retires hr rd haux (fun _ _ _ => rfl) hq⟩,
    fun hq => ⟨_, rfl, fpLane_retires hr rd haux (fun _ _ _ => rfl) hq⟩,
    fun hq => ⟨_, rfl, fpLane_retires hr rd haux (fun _ _ _ => rfl) hq⟩⟩

end Sys2Proof.Machine
end

section
/-!
Floating comparisons and signs (R41, R66, R104, R106).
-/

namespace Sys2Proof.Machine

/-! ## Comparisons -/

theorem ord_eq (m : FFmt) (c : Nat) : m.ord c = sgn (m.isNeg c) * (m.mag c : Int) := by
  rw [FFmt.ord, FFmt.isNeg, FFmt.mag]
  cases c.testBit (m.width - 1) <;> simp [sgn]

section
variable {m : FFmt} (h : m.Ieee) {a b : Nat} (ha : m.nanBits a = false) (hb : m.nanBits b = false)
include h ha hb

/-- Values compare as their encodings, −0 equal to +0. -/
theorem valLt_ord : valLt (m.decode a) (m.decode b) = decide (m.ord a < m.ord b) := by
  rw [Bool.eq_iff_iff, valLt_decode h ha hb, decide_eq_true_iff, ord_eq, ord_eq]
  have h1 := m.mant_lt_iff (m.mag a) (m.mag b)
  have h2 := m.mant_lt_iff (m.mag b) (m.mag a)
  have h3 := m.mant_lt_iff 0 (m.mag a)
  have h4 := m.mant_lt_iff 0 (m.mag b)
  rw [m.mant_zero] at h3 h4
  cases m.isNeg a <;> cases m.isNeg b <;> simp only [sgn, if_true, if_false, Bool.false_eq_true] <;> omega

theorem valEq_ord : valEq (m.decode a) (m.decode b) = decide (m.ord a = m.ord b) := by
  rw [valEq, isNan_decode h, isNan_decode h, ha, hb, valLt_ord h ha hb, valLt_ord h hb ha, Bool.eq_iff_iff]
  simp only [Bool.not_false, Bool.true_and, Bool.and_eq_true, Bool.not_eq_true', decide_eq_false_iff_not,
    decide_eq_true_iff]
  omega

theorem valLe_ord :
    (valLt (m.decode a) (m.decode b) || valEq (m.decode a) (m.decode b)) = decide (m.ord a ≤ m.ord b) := by
  rw [valLt_ord h ha hb, valEq_ord h ha hb, Bool.eq_iff_iff]
  simp only [Bool.or_eq_true, decide_eq_true_iff]
  omega

end

/-- A relation of two encodings with its flags, from the order of values; `all`: INVALID for any NaN (R106). -/
def FFmt.compared (all : Bool) (p : Int → Int → Bool) (m : FFmt) (a b : Nat) : Option Bool × FlagSet :=
  (if m.nanBits a || m.nanBits b then none else some (p (m.ord a) (m.ord b)),
    if (all && (m.nanBits a || m.nanBits b)) || m.snanBits a || m.snanBits b then 1 else 0)

/-- A signalling NaN is a NaN. -/
theorem nan_or_snan (m : FFmt) (a b : Nat) :
    (m.nanBits a || m.nanBits b || m.snanBits a || m.snanBits b) = (m.nanBits a || m.nanBits b) := by
  unfold FFmt.snanBits
  cases m.nanBits a <;> cases m.nanBits b <;> rfl

/-- A relation of values is that of their order, with subnormals kept. -/
theorem rel_compared {m : FFmt} (h : m.Ieee) (all : Bool) {f : FVal → FVal → Bool} {p : Int → Int → Bool} {a b : Nat}
    (hf : m.nanBits a = false → m.nanBits b = false → f (m.decode a) (m.decode b) = p (m.ord a) (m.ord b)) :
    FFmt.rel all f m false a b = m.compared all p a b := by
  simp only [FFmt.rel, FFmt.compared, load_kept, isNan_decode h, snanFlag_decode h, or_snan, flNone]
  congr 1
  · by_cases hn : m.nanBits a || m.nanBits b
    · rw [if_pos hn, if_pos hn]
    · rw [if_neg hn, if_neg hn]
      simp only [Bool.or_eq_true, not_or, Bool.not_eq_true] at hn
      rw [hf hn.1 hn.2]
  · cases all
    · exact (BitVec.zero_or).trans (by rw [if_neg Bool.false_ne_true, Bool.false_and, Bool.false_or])
    · rw [Bool.true_and, nan_or_snan]
      exact (BitVec.zero_or).trans (Bool.cond_eq_ite ..)

/-- The lanes of a comparison in the form of AUX. -/
def cmpLanes (c : TCtx) (aux : Byte) (h : FFmt → (RegNo → Nat) → Option Bool × FlagSet) : List (Option Bool × FlagSet) :=
  let lane (j : Nat) := h fFP32 (fun r => ((c.fr r.val).extractLsb' (32 * j) 32).toNat)
  if aux.toNat % 4 = 0 then [lane 0]
  else if aux.toNat % 4 = 1 then [lane 0, lane 1, lane 2, lane 3]
  else [h fFP64 (fun r => ((c.fr r.val).extractLsb' 0 64).toNat)]

theorem cmpLanes_map (c : TCtx) (aux : Byte) (h : FFmt → (RegNo → Nat) → Option Bool × FlagSet)
    (φ : Option Bool × FlagSet → Nat × FlagSet) :
    fpLanes c aux (fun m r => φ (h m r)) = (cmpLanes c aux h).map φ := by
  unfold fpLanes cmpLanes
  split_ifs <;> rfl

theorem cmpLanes_ne_nil (c : TCtx) (aux : Byte) (h : FFmt → (RegNo → Nat) → Option Bool × FlagSet) :
    cmpLanes c aux h ≠ [] := by
  unfold cmpLanes
  split_ifs <;> exact List.cons_ne_nil _ _

theorem cmpLanes_single (c : TCtx) {aux : Byte} (haux : aux.toNat % 4 ≠ 1)
    (h : FFmt → (RegNo → Nat) → Option Bool × FlagSet) : ∃ r, cmpLanes c aux h = [r] := by
  unfold cmpLanes
  split_ifs
  · exact ⟨_, rfl⟩
  · exact ⟨_, rfl⟩

/-- A comparison writes the word of its lanes and raises their flags. -/
theorem fpCompare_lanes {c : TCtx} {aux : Byte} (rd : Nat) (free : DWord)
    {g : FFmt → (Nat → Nat) → Option Bool × FlagSet} {h : FFmt → (RegNo → Nat) → Option Bool × FlagSet}
    (hg : ∀ m : FFmt, m.Ieee → ∀ r : Nat → Nat, g m r = h m (fun n => r n.val)) :
    c.fpCompare aux rd free g
      = ⟨[.g rd (cmpWord free ((cmpLanes c aux h).map Prod.fst))], (cmpLanes c aux h).map Prod.snd⟩ := by
  have h32 (j : Nat) := hg _ ieee_fFP32 (fun n => flane (c.fr n) j)
  have h64 := hg _ ieee_fFP64 (fun n => fdbl (c.fr n))
  simp only [flane_eq, fdbl_eq] at h32 h64
  unfold TCtx.fpCompare fpForm cmpLanes
  rcases (show aux.toNat % 4 = 0 ∨ aux.toNat % 4 = 1 ∨ (aux.toNat % 4 = 2 ∨ aux.toNat % 4 = 3) by omega)
    with ha | ha | ha
  · rw [if_pos ha, ha]
    simp only [flane_eq, h32]
  · rw [if_neg (by omega), if_pos ha, ha]
    simp only [flane_eq, h32]
    rfl
  · rw [if_neg (by omega), if_neg (by omega)]
    rcases ha with ha | ha <;> rw [ha] <;> simp only [fdbl_eq, h64]

/-! The word of a comparison (R106). -/

theorem cmpWord_none (free : DWord) {l : List (Option Bool)} (h : none ∈ l) : cmpWord free l = 0 :=
  if_pos (List.contains_iff_mem.2 h)

theorem cmpWord_all (free : DWord) {l : List (Option Bool)} (h : ∀ o ∈ l, o = some true) : cmpWord free l = 1 := by
  have hn : l.contains none = false := by
    rw [Bool.eq_false_iff, Ne, List.contains_iff_mem]
    exact fun hm => absurd (h _ hm) (by decide)
  rw [cmpWord, hn, if_neg Bool.false_ne_true, if_pos (List.all_eq_true.2 fun o ho => beq_iff_eq.2 (h o ho))]

theorem cmpWord_none_holds (free : DWord) {l : List (Option Bool)} (hl : l ≠ []) (h : ∀ o ∈ l, o ≠ some true) :
    cmpWord free l = 0 := by
  obtain ⟨o, ho⟩ := List.exists_mem_of_ne_nil l hl
  have ha : ¬ l.all (· == some true) = true := fun ha => h o ho (beq_iff_eq.1 (List.all_eq_true.1 ha o ho))
  have hc : ¬ l.contains (some true) = true := fun hc => h _ (List.contains_iff_mem.1 hc) rfl
  unfold cmpWord
  rw [if_neg ha, if_neg hc, ite_self]

/-- A lane's result as the statements give it: 1 when the relation holds. -/
def cmpBit (r : Option Bool × FlagSet) : Nat × FlagSet := (if r.1 = some true then 1 else 0, r.2)

theorem cmpBit_compared (all : Bool) (p : Int → Int → Bool) (m : FFmt) (a b : Nat) :
    cmpBit (m.compared all p a b) = (if !(m.nanBits a || m.nanBits b) && p (m.ord a) (m.ord b) then 1 else 0,
      if (all && (m.nanBits a || m.nanBits b)) || m.snanBits a || m.snanBits b then 1 else 0) := by
  unfold cmpBit FFmt.compared
  cases m.nanBits a || m.nanBits b <;> cases p (m.ord a) (m.ord b) <;> rfl

/-- Whether a lane has a NaN operand. -/
def cmpNan (r : Option Bool × FlagSet) : Nat × FlagSet := (if r.1 = none then 1 else 0, 0)

theorem cmpNan_compared (all : Bool) (p : Int → Int → Bool) (m : FFmt) (a b : Nat) :
    cmpNan (m.compared all p a b) = (if m.nanBits a || m.nanBits b then 1 else 0, 0) := by
  unfold cmpNan FFmt.compared
  cases m.nanBits a || m.nanBits b <;> rfl

section
variable (free : DWord) {l : List (Option Bool × FlagSet)}

theorem cmpWord_of_holds (h : ∀ r ∈ l.map cmpBit, r.1 = 1) : cmpWord free (l.map Prod.fst) = 1 := by
  refine cmpWord_all _ fun o ho => ?_
  obtain ⟨r, hr, rfl⟩ := List.mem_map.1 ho
  by_contra ht
  exact absurd (h _ (List.mem_map_of_mem hr)) (by rw [cmpBit, if_neg ht]; exact Nat.zero_ne_one)

theorem cmpWord_of_fails (hl : l ≠ []) (h : ∀ r ∈ l.map cmpBit, r.1 = 0) : cmpWord free (l.map Prod.fst) = 0 := by
  refine cmpWord_none_holds _ (mt List.map_eq_nil_iff.1 hl) fun o ho ht => ?_
  obtain ⟨r, hr, rfl⟩ := List.mem_map.1 ho
  exact absurd (h _ (List.mem_map_of_mem hr)) (by rw [cmpBit, if_pos ht]; exact Nat.one_ne_zero)

theorem cmpWord_of_nan (h : ∃ r ∈ l.map cmpNan, r.1 = 1) : cmpWord free (l.map Prod.fst) = 0 := by
  obtain ⟨q, hq, h1⟩ := h
  obtain ⟨r, hr, rfl⟩ := List.mem_map.1 hq
  have hn : r.1 = none := by
    by_contra hn
    rw [cmpNan, if_neg hn] at h1
    cases h1
  exact cmpWord_none _ (hn ▸ List.mem_map_of_mem hr)

theorem cmpWord_single (r : Option Bool × FlagSet) :
    cmpWord free ([r].map Prod.fst) = BitVec.ofNat 64 (cmpBit r).1 := by
  obtain ⟨o, f⟩ := r
  rcases o with _ | _ | _ <;> rfl

end

/-- A comparison whose flags are not trapped retires with the word of its lanes (R106). -/
theorem fpCmp_retires {s : State} {t : TileNo} (hr : s.laneReady t.val) (rd x y : RegNo) {aux : Byte}
    (hfl : s.flushOn t.val = false) (all : Bool) {f : FVal → FVal → Bool} {p : Int → Int → Bool}
    (hf : ∀ m : FFmt, m.Ieee → ∀ a b, m.nanBits a = false → m.nanBits b = false →
      f (m.decode a) (m.decode b) = p (m.ord a) (m.ord b))
    (hq : fpFlags (fpLanes (s.tc t.val) aux fun m r => cmpBit (m.compared all p (r x) (r y))) &&& s.trapEn t.val = 0) :
    let l := cmpLanes (s.tc t.val) aux fun m r => m.compared all p (r x) (r y)
    LaneRetires { s with fresh := s.fresh + 1 } (s.fpCmp t rd x y aux (FFmt.rel all f)) t.val
      [.g rd.val (cmpWord (Config.quadCompare s.fresh) (l.map Prod.fst))] (fpFlags (l.map cmpBit))
      ((s.tc t.val).pc + 8) := by
  intro l
  have hready : ({ s with fresh := s.fresh + 1 } : State).laneReady t.val := hr
  have hl := lane_retires hready (fun c => c.fpCompare aux rd.val (Config.quadCompare s.fresh)
    (fun m r => FFmt.rel all f m (s.flushOn t.val) (r x.val) (r y.val)))
  rw [fpCompare_lanes (h := fun m r => m.compared all p (r x) (r y)) _ _
    (fun m hm r => by rw [hfl, rel_compared hm all (hf m hm _ _)])] at hl
  have hflags : flUnion (l.map Prod.snd) = fpFlags (l.map cmpBit) := by
    rw [← flUnion_lanes, List.map_map]; rfl
  rw [cmpLanes_map] at hq
  rw [← hflags] at hq ⊢
  exact hl hq

/-- What a comparison in the form of AUX writes, lane by lane (R106). -/
theorem fpCmp_compares {s : State} {t : TileNo} (hr : s.laneReady t.val) (rd x y : RegNo) {aux : Byte}
    (hfl : s.flushOn t.val = false) (all : Bool) {f : FVal → FVal → Bool} {p : Int → Int → Bool}
    (hf : ∀ m : FFmt, m.Ieee → ∀ a b, m.nanBits a = false → m.nanBits b = false →
      f (m.decode a) (m.decode b) = p (m.ord a) (m.ord b))
    {h nans : FFmt → (RegNo → Nat) → Nat × FlagSet} (hh : h = fun m r => cmpBit (m.compared all p (r x) (r y)))
    (hn : nans = fun m r => cmpNan (m.compared all p (r x) (r y)))
    (hq : fpFlags (fpLanes (s.tc t.val) aux h) &&& s.trapEn t.val = 0) :
    let l := fpLanes (s.tc t.val) aux h
    ∃ v, LaneRetires { s with fresh := s.fresh + 1 } (s.fpCmp t rd x y aux (FFmt.rel all f)) t.val [.g rd.val v]
        (fpFlags l) ((s.tc t.val).pc + 8)
      ∧ (aux.toNat % 4 ≠ 1 → ∀ r ∈ l, v = BitVec.ofNat 64 r.1)
      ∧ ((∀ r ∈ l, r.1 = 0) → v = 0) ∧ ((∀ r ∈ l, r.1 = 1) → v = 1)
      ∧ ((∃ r ∈ fpLanes (s.tc t.val) aux nans, r.1 = 1) → v = 0) := by
  subst hh hn
  have hret := fpCmp_retires hr rd x y hfl all hf hq
  have hne := cmpLanes_ne_nil (s.tc t.val) aux fun m r => m.compared all p (r x) (r y)
  have hone := fun h1 => cmpLanes_single (s.tc t.val) (aux := aux) h1 fun m r => m.compared all p (r x) (r y)
  simp only [cmpLanes_map]
  generalize cmpLanes (s.tc t.val) aux (fun m r => m.compared all p (r x) (r y)) = l at *
  refine ⟨_, hret, fun h1 => ?_, cmpWord_of_fails _ hne, cmpWord_of_holds _, cmpWord_of_nan _⟩
  obtain ⟨r, rfl⟩ := hone h1
  intro q hq
  rw [List.mem_singleton.1 hq]
  exact cmpWord_single _ r

/-! ## Signs -/

/-- The magnitude of `a` with a sign; a NaN operand delivers the canonical NaN, a signalling one with INVALID (R104). -/
def FFmt.signed (m : FFmt) (a b : Nat) (neg : Bool) : Nat × FlagSet :=
  (if m.nanBits a || m.nanBits b then m.nanCode
   else a % 2 ^ (m.width - 1) + (if neg then 2 ^ (m.width - 1) else 0),
   if m.snanBits a || m.snanBits b then 1 else 0)

theorem sign_eq (m : FFmt) (c : Nat) : m.sign c = m.isNeg c := by
  rw [FFmt.sign, bitAt_eq_testBit, FFmt.isNeg, m.width_sub]

theorem pack_mod (m : FFmt) (neg : Bool) (a : Nat) : m.pack neg (a % 2 ^ (m.eb + m.fb))
    = a % 2 ^ (m.width - 1) + (if neg then 2 ^ (m.width - 1) else 0) := by
  rw [FFmt.pack, m.width_sub, Nat.add_comm]
  cases neg <;> rfl

theorem not_nan_zero (m : FFmt) : m.nanBits 0 = false ∧ m.snanBits 0 = false := by
  have h : m.nanBits 0 = false := decide_eq_false (by rw [Nat.zero_mod]; exact Nat.not_lt_zero _)
  exact ⟨h, by rw [FFmt.snanBits, h]; rfl⟩

/-- An encoding with the sign given. -/
theorem withSign_signed {m : FFmt} (h : m.Ieee) (a : Nat) (g : Bool → Bool) :
    m.withSign false a g = m.signed a 0 (g (m.isNeg a)) := by
  obtain ⟨hn, hs⟩ := not_nan_zero m
  unfold FFmt.withSign FFmt.flushIn FFmt.signed
  simp only [Bool.false_and, Bool.false_eq_true, if_false, isNan_decode h, snanFlag_decode h, hn, hs, Bool.or_false,
    sign_eq, pack_mod]
  cases ha : m.nanBits a with
  | true => simp [flNone]
  | false => simp [FFmt.snanBits, ha, flNone]

/-- The first operand with the sign of the second. -/
theorem copySign_signed {m : FFmt} (h : m.Ieee) (a b : Nat) : m.copySign false a b = m.signed a b (m.isNeg b) := by
  obtain ⟨hn, hs⟩ := not_nan_zero m
  unfold FFmt.copySign FFmt.flushIn
  simp only [Bool.false_and, Bool.false_eq_true, if_false, withSign_signed h, isNan_decode h, snanFlag_decode h, sign_eq]
  unfold FFmt.signed
  rw [hn, hs, Bool.or_false, Bool.or_false]
  refine Prod.ext ?_ ((congrArg (· ||| _) BitVec.or_zero).trans (or_snan _ _))
  cases m.nanBits b <;> cases m.nanBits a <;> rfl

/-- Settles O18: a comparison writes the word of its lanes' relations (`fpCmp_compares`), which are those of the order of
encodings (`valLt_ord`, `valEq_ord`), and signs are set by `withSign_signed` and `copySign_signed`. -/
theorem fpComparisonsAndSigns : Obligations.FpComparisonsAndSigns := by
  unfold Obligations.FpComparisonsAndSigns
  constructor
  · intro s t rd x y aux hr haux hfl rel nans compares quiet eq lt le
    have hrel (all : Bool) (p : Int → Int → Bool) : rel all p = fun m r => cmpBit (m.compared all p (r x) (r y)) :=
      funext₂ fun m r => (cmpBit_compared all p m (r x) (r y)).symm
    have hnan (all : Bool) (p : Int → Int → Bool) :
        (fun (m : FFmt) (r : RegNo → Nat) => ((if m.nanBits (r x) || m.nanBits (r y) then 1 else 0 : Nat), (0 : FlagSet)))
          = fun m r => cmpNan (m.compared all p (r x) (r y)) :=
      funext₂ fun m r => (cmpNan_compared all p m (r x) (r y)).symm
    exact ⟨fun hq => ⟨_, rfl, fpCmp_compares hr rd x y hfl _ (fun m hm a b => valEq_ord hm)
        (hrel false fun a b => decide (a = b)) (hnan _ _) hq⟩,
      fun hq => ⟨_, rfl, fpCmp_compares hr rd x y hfl _ (fun m hm a b => valLt_ord hm)
        (hrel true fun a b => decide (a < b)) (hnan _ _) hq⟩,
      fun hq => ⟨_, rfl, fpCmp_compares hr rd x y hfl _ (fun m hm a b => valLe_ord hm)
        (hrel true fun a b => decide (a ≤ b)) (hnan _ _) hq⟩⟩
  · intro s t rd x y aux hr haux hfl signed neg abs copy quiet
    refine ⟨fun hq => ⟨_, rfl, fpLane_retires hr rd haux (fun m hm r => ?_) hq⟩,
      fun hq => ⟨_, rfl, fpLane_retires hr rd haux (fun m hm r => ?_) hq⟩,
      fun hq => ⟨_, rfl, fpLane_retires hr rd haux (fun m hm r => ?_) hq⟩⟩
    · rw [hfl]; exact withSign_signed hm _ _
    · rw [hfl]; exact withSign_signed hm _ _
    · rw [hfl]; exact copySign_signed hm _ _

end Sys2Proof.Machine
end

section
/-!
Floating division and square root on the V pipe (R61, R103, R105, R109).
-/

namespace Sys2Proof.Machine

/-! ## Operands behind the input flush (R61) -/

/-- An encoding is a subnormal; it counts as a zero; it takes the special path of R109. -/
def FFmt.subBits (m : FFmt) (c : Nat) : Bool :=
  decide (0 < c % 2 ^ (m.width - 1)) && decide (c % 2 ^ (m.width - 1) < 2 ^ m.fb)
def FFmt.zeroBits (m : FFmt) (fl : Bool) (c : Nat) : Bool := c % 2 ^ (m.width - 1) == 0 || (fl && m.subBits c)
def FFmt.specialBits (m : FFmt) (fl : Bool) (c : Nat) : Bool :=
  m.zeroBits fl c || decide (m.infCode ≤ c % 2 ^ (m.width - 1))

section
variable {m : FFmt} (h : m.Ieee) {fl : Bool} {c : Nat}
include h

theorem isSubnormal_eq (c : Nat) : m.isSubnormal c = m.subBits c := by
  have hne : (m.mag c != 0) = decide (0 < m.mag c) := by
    rw [Bool.eq_iff_iff, bne_iff_ne, decide_eq_true_iff]; omega
  rw [FFmt.mag, m.width_sub] at hne
  rw [FFmt.isSubnormal, FFmt.subBits, h.kind, beq_self_eq_true, Bool.true_and, m.width_sub, hne]

/-- An operand that counts as a zero keeps its sign; one that is flushed sets FLUSHED. -/
theorem load_zero (hc : m.zeroBits fl c = true) :
    ∃ e, m.load fl c = (.num (m.isNeg c) 0 e, if fl && m.subBits c then 0x20 else 0) := by
  have hl : (0 : Nat) < 2 ^ (m.eb + m.fb) := Nat.two_pow_pos _
  rw [FFmt.load, FFmt.flushIn, isSubnormal_eq h]
  by_cases hs : fl && m.subBits c
  · obtain ⟨n, e, hv, -, hn⟩ := finVal_num m (m.isNeg c) 0
    refine ⟨e, ?_⟩
    rw [if_pos hs, if_pos hs, decode_fin h (by rw [mag_pack hl]; exact infCode_pos h), mag_pack hl, isNeg_pack hl, sign_eq,
      hv, hn.2 rfl]
    rfl
  · rw [FFmt.zeroBits, Bool.eq_false_iff.2 hs, Bool.or_false, beq_iff_eq] at hc
    have hz : m.mag c = 0 := hc
    obtain ⟨n, e, hv, -, hn⟩ := finVal_num m (m.isNeg c) 0
    refine ⟨e, ?_⟩
    rw [if_neg hs, if_neg hs, decode_fin h (by rw [hz]; exact infCode_pos h), hz, hv, hn.2 rfl]
    rfl

/-- A finite operand that does not count as a zero is what its encoding denotes. -/
theorem load_finite (hz : m.zeroBits fl c = false) (hc : m.mag c < m.infCode) :
    ∃ n e, n ≠ 0 ∧ m.load fl c = (.num (m.isNeg c) n e, 0) := by
  rw [FFmt.zeroBits, Bool.or_eq_false_iff, beq_eq_false_iff_ne] at hz
  obtain ⟨n, e, hv, -, hn⟩ := finVal_num m (m.isNeg c) (m.mag c)
  refine ⟨n, e, mt hn.1 hz.1, ?_⟩
  rw [FFmt.load, FFmt.flushIn, isSubnormal_eq h, hz.2, if_neg Bool.false_ne_true, decode_fin h hc, hv]
  rfl

theorem special_eq (fl : Bool) (c : Nat) : m.special fl c = m.specialBits fl c := by
  unfold FFmt.special FFmt.specialBits
  by_cases hc : m.infCode ≤ m.mag c
  · have hd : m.load fl c = (m.decode c, flNone) := load_special h fl hc
    have hi : decide (m.infCode ≤ c % 2 ^ (m.width - 1)) = true := decide_eq_true hc
    have hf : (m.decode c).isFinite = false := by rw [isFinite_decode h, decide_eq_false hc.not_gt]
    rw [hd, hi, Bool.or_true]
    dsimp only
    rw [hf, Bool.not_false, Bool.or_true]
  · have hi : decide (m.infCode ≤ c % 2 ^ (m.width - 1)) = false := decide_eq_false hc
    rw [hi, Bool.or_false]
    cases hz : m.zeroBits fl c
    · obtain ⟨n, e, hn, hl⟩ := load_finite h hz (Nat.lt_of_not_le hc)
      rw [hl]
      simp [FVal.isNan, FVal.isZero, FVal.isFinite, hn]
    · obtain ⟨e, hl⟩ := load_zero h hz
      rw [hl]; rfl

theorem subCost_eq (fl : Bool) (c : Nat) : m.subCost fl c = if !fl && m.subBits c then 1 else 0 := by
  rw [FFmt.subCost, isSubnormal_eq h]
  exact Bool.cond_eq_ite ..

/-! ## Cycles (R109) -/

theorem fdivCycles_eq (fl : Bool) (a b : Nat) : fdivCycles m fl a b =
    if m.specialBits fl a || m.specialBits fl b then 4
    else 4 + (if !fl && m.subBits a then 1 else 0) + (if !fl && m.subBits b then 1 else 0) + (m.fb + 3) := by
  rw [fdivCycles, special_eq h, special_eq h, subCost_eq h, subCost_eq h]

theorem fsqrtCycles_eq (fl : Bool) (a : Nat) : fsqrtCycles m fl a =
    if m.specialBits fl a || m.isNeg a then 4 else 4 + (if !fl && m.subBits a then 1 else 0) + (m.fb + 3) := by
  rw [fsqrtCycles, special_eq h, subCost_eq h, sign_eq]

/-! ## Results (R105) -/

omit h in
theorem pack_bne (m : FFmt) (p q : Bool) (mag : Nat) :
    m.pack (p != q) mag = (if p = q then 0 else 2 ^ (m.width - 1)) + mag := by
  rw [FFmt.pack, m.width_sub]
  cases p <;> cases q <;> rfl

/-- A finite nonzero dividend over zero is an infinity, with DIVZ. -/
theorem div_by_zero {a b : Nat} (ha : m.specialBits fl a = false) (hb : m.zeroBits fl b = true) :
    m.div fl a b = (m.pack (m.isNeg a != m.isNeg b) m.infCode,
      if (fl && m.subBits a) || (fl && m.subBits b) then 0xA0 else 0x80) := by
  rw [FFmt.specialBits, Bool.or_eq_false_iff, decide_eq_false_iff_not] at ha
  obtain ⟨n, e, hn, hl⟩ := load_finite h ha.1 (Nat.lt_of_not_le ha.2)
  obtain ⟨e', hl'⟩ := load_zero h hb
  have hza := ha.1
  rw [FFmt.zeroBits, Bool.or_eq_false_iff] at hza
  rw [FFmt.div, hl, hl', hza.2, Bool.false_or]
  simp only [valDiv, if_true, if_neg hn, FFmt.finish, FFmt.deliver, h.kind]
  cases fl && m.subBits b <;> rfl

/-- The root of a negative number, and of a NaN with its sign bit set, is the canonical NaN. -/
theorem sqrt_negative {a : Nat} (hs : m.isNeg a = true) (hz : m.zeroBits fl a = false) :
    (m.sqrt fl a).1 = m.nanCode := by
  have nan_of {v : FVal} (hv : (valSqrt (m.fb + 1) v).1 = .nan false) :
      (m.finish fl (valSqrt (m.fb + 1) v)).1 = m.nanCode := by rw [FFmt.finish, hv]; rfl
  refine nan_of ?_
  by_cases hc : m.mag a < m.infCode
  · obtain ⟨n, e, hn, hl⟩ := load_finite h hz hc
    rw [hl, hs]
    simp [valSqrt, hn]
  · rw [load_special h fl (Nat.le_of_not_lt hc), decode_ieee h, if_neg hc, hs]
    split <;> rfl

end

/-! ## The V pipe -/

theorem toNat_low {q : QWord} {w r : Nat} (h : q.extractLsb' 0 w = BitVec.ofNat w r) :
    q.toNat % 2 ^ w = r % 2 ^ w := by
  have := congrArg BitVec.toNat h
  rwa [BitVec.extractLsb'_toNat, BitVec.toNat_ofNat, Nat.shiftRight_zero] at this

/-- The encoding that a scalar form reads. -/
theorem fpReg_eq (c : TCtx) (aux : Byte) (r : Nat) : c.fpReg aux r = (c.fr r).toNat % 2 ^ (fpFmt aux).width := by
  unfold TCtx.fpReg fpFmt
  split <;> rfl

theorem ieee_fpFmt (aux : Byte) : (fpFmt aux).Ieee := by
  unfold fpFmt
  split
  · exact ieee_fFP64
  · exact ieee_fFP32

theorem nanCode_lt (aux : Byte) : (fpFmt aux).nanCode < 2 ^ (fpFmt aux).width := by
  unfold fpFmt
  split <;> decide

/-- A scalar floating operation replaces the low bits of its register (R100). -/
theorem fpApply_scalar (c : TCtx) {aux : Byte} (ha : aux.toNat % 4 = 0 ∨ aux.toNat % 4 = 2) (rd : Nat)
    (g : FFmt → (Nat → Nat) → Nat × FlagSet) :
    let m := fpFmt aux
    let r := g m (c.fpReg aux)
    ∃ q, c.fpApply aux rd g = ⟨[.f rd q], [r.2]⟩ ∧ q.toNat % 2 ^ m.width = r.1 % 2 ^ m.width
      ∧ q >>> m.width = c.fr rd >>> m.width := by
  unfold TCtx.fpApply fpFmt TCtx.fpReg fpForm
  rcases ha with ha | ha <;> rw [ha]
  · obtain ⟨hl, hh⟩ := fsetLane_zero (c.fr rd) (g fFP32 (fun n => flane (c.fr n) 0)).1
    exact ⟨_, rfl, toNat_low hl, hh⟩
  · obtain ⟨hl, hh⟩ := fsetDbl_low (c.fr rd) (g fFP64 (fun n => fdbl (c.fr n))).1
    exact ⟨_, rfl, toNat_low hl, hh⟩

/-- A scalar floating operation starts in the V pipe. -/
theorem fpV_starts {s : State} {t : TileNo} (hr : s.laneReady t.val) (rd : RegNo) {aux : Byte}
    (ha : aux.toNat % 4 = 0 ∨ aux.toNat % 4 = 2) {g : FFmt → (Nat → Nat) → Nat × FlagSet} {r : Nat × FlagSet}
    (hg : g (fpFmt aux) ((s.tc t.val).fpReg aux) = r) {cycles : TCtx → Nat} {k : Nat}
    (hk : cycles (s.issuing t.val) = k) :
    let m := fpFmt aux
    ∃ q, LaneStartsV s (s.laneV t.val (fun c => (c.fpApply aux rd.val g, cycles c))) t.val (.f rd.val q) r.2 k
      ∧ q.toNat % 2 ^ m.width = r.1 % 2 ^ m.width ∧ q >>> m.width = (s.tc t.val).fr rd.val >>> m.width := by
  subst hg hk
  obtain ⟨q, he, hq⟩ := fpApply_scalar (s.issuing t.val) ha rd.val g
  exact ⟨q, laneV_starts hr (by rw [he]; rfl), hq⟩

/-- Settles O19: the result waits in the V pipe (`fpV_starts`) for cycles that depend on its operands (`special_eq`,
`subCost_eq`); `div_by_zero` and `sqrt_negative` give the values named. -/
theorem fpDivisionAndRoot : Obligations.FpDivisionAndRoot := by
  unfold Obligations.FpDivisionAndRoot
  intro s t rd x y aux hr wide m w fl code a b sub zero special slow starts
  have hm : m.Ieee := ieee_fpFmt aux
  have hreg (r : RegNo) : (s.tc t.val).fpReg aux r.val = code r := fpReg_eq _ _ _
  have hform (h : aux.toNat % 4 = 0 ∨ wide) : fpForm aux ≠ 1 := by
    have : fpForm aux = aux.toNat % 4 := rfl
    rcases h with h | (h : aux.toNat % 4 = 2) <;> omega
  have hdiv (ha : aux.toNat % 4 = 0 ∨ wide) := fpV_starts hr rd ha
    (g := fun m r => m.div fl (r x.val) (r y.val)) (r := m.div fl a b) (by rw [hreg, hreg]; rfl)
    (cycles := fun c => fdivCycles (fpFmt aux) fl (c.fpReg aux x.val) (c.fpReg aux y.val))
    ((congrArg₂ (fdivCycles m fl) (hreg x) (hreg y)).trans (fdivCycles_eq hm fl a b))
  have hsqrt (ha : aux.toNat % 4 = 0 ∨ wide) := fpV_starts hr rd ha
    (g := fun m r => m.sqrt fl (r x.val)) (r := m.sqrt fl a) (by rw [hreg]; rfl)
    (cycles := fun c => fsqrtCycles (fpFmt aux) fl (c.fpReg aux x.val))
    ((congrArg (fsqrtCycles m fl) (hreg x)).trans (fsqrtCycles_eq hm fl a))
  refine ⟨fun ha => ⟨_, if_neg (hform ha), ?_, fun hsa hzb => ?_⟩, fun ha => ?_, fun ha => ⟨if_pos ha, if_pos ha⟩⟩
  · obtain ⟨q, hv, hq⟩ := hdiv ha
    exact ⟨_, _, q, hv, hq⟩
  · obtain ⟨q, hv, hq⟩ := hdiv ha
    have hsb : m.specialBits fl b = true := by rw [FFmt.specialBits, show m.zeroBits fl b = true from hzb, Bool.true_or]
    rw [div_by_zero hm hsa hzb, hsb, Bool.or_true, if_pos rfl] at hv
    rw [div_by_zero hm hsa hzb] at hq
    refine ⟨q, hv, hq.1.trans ?_, hq.2⟩
    exact (Nat.mod_eq_of_lt (pack_lt (infCode_lt m))).trans (pack_bne ..)
  · obtain ⟨q, hv, hq⟩ := hsqrt ha
    refine ⟨_, _, _, if_neg (hform ha), ⟨q, hv, hq⟩, fun hs hz => ?_⟩
    rw [sqrt_negative hm hs hz]
    exact Nat.mod_eq_of_lt (nanCode_lt aux)

end Sys2Proof.Machine
end

section
/-!
What the lane leaves when an instruction of it starts, and a fault of its context (R312).
-/

namespace Sys2Proof.Machine

/-! ## An instruction starts -/

/-- `u` is `s` with work of tiles' lanes done: no tile has changed its context, no fault is reported, no register has
changed that records do not change, and with no stream enabled data space keeps its contents. -/
structure LaneKeeps (s u : State) : Prop where
  ctx : ∀ k, u.ctxOn k = s.ctxOn k
  faults : u.faults = s.faults
  now : u.now = s.now
  regs : ∀ a, obsReg a = false → u.rget a = s.rget a
  quiet : s.streamsOff = true → u.mem = s.mem

theorem LaneKeeps.refl (s : State) : LaneKeeps s s := ⟨fun _ => rfl, rfl, rfl, fun _ _ => rfl, fun _ => rfl⟩

theorem LaneKeeps.streamsOff {s u : State} (h : LaneKeeps s u) : u.streamsOff = s.streamsOff := by
  unfold State.streamsOff
  simp only [streamOn_congr (h.regs _ obsReg_enable)]

theorem ctxOn_modTc (s : State) (t : Nat) (f : TCtx → TCtx) (k : Nat) : (s.modTc t f).ctxOn k = s.ctxOn k := by
  have h : ∃ y : TCtx, (s.modTc t f).tile k = { s.tile k with tc := y } := by
    by_cases hk : k = t
    · subst hk; exact ⟨_, State.tile_setTile _ _ _⟩
    · exact ⟨(s.tile k).tc, State.tile_setTile_ne _ _ hk⟩
  obtain ⟨y, hy⟩ := h
  rw [State.ctxOn, hy]; rfl

theorem LaneKeeps.modTc {s u : State} (h : LaneKeeps s u) (t : Nat) (f : TCtx → TCtx) : LaneKeeps s (u.modTc t f) where
  ctx k := (ctxOn_modTc u t f k).trans (h.ctx k)
  faults := h.faults
  now := h.now
  regs := h.regs
  quiet := h.quiet

theorem LaneKeeps.trans {s u v : State} (h : LaneKeeps s u) (k : LaneKeeps u v) : LaneKeeps s v where
  ctx j := (k.ctx j).trans (h.ctx j)
  faults := k.faults.trans h.faults
  now := k.now.trans h.now
  regs a ha := (k.regs a ha).trans (h.regs a ha)
  quiet q := (k.quiet (h.streamsOff.trans q)).trans (h.quiet q)

theorem tc_modTc (s : State) (t : Nat) (f : TCtx → TCtx) (k : Nat) :
    (s.modTc t f).tc k = if k = t then f (s.tc k) else s.tc k := by
  by_cases hk : k = t
  · rw [if_pos hk, hk]; exact State.tc_setTc _ _ _
  · rw [if_neg hk]; exact State.tc_setTc_ne _ _ hk

theorem LaneKeeps.recorded {s u v : State} (h : LaneKeeps s u) (k : Recorded u v) : LaneKeeps s v where
  ctx j := (k.ctxOn j).trans (h.ctx j)
  faults := by rw [k.rest]; exact h.faults
  now := by rw [k.rest]; exact h.now
  regs a ha := (k.regs a ha).trans (h.regs a ha)
  quiet q := (k.quiet (h.streamsOff.trans q)).1.trans (h.quiet q)

theorem LaneKeeps.observed {s u v : State} (h : LaneKeeps s u) (k : Observed u v) : LaneKeeps s v :=
  h.recorded k.recorded

theorem LaneKeeps.mget {s u : State} (h : LaneKeeps s u) (hq : s.streamsOff = true) (a : Nat) :
    u.mget a = s.mget a := mget_of_mem (h.quiet hq) a

/-- The state in which an instruction of the lane acts. -/
def State.laneStart (s : State) (t : Nat) : State := (s.takeStamp t).laneIds t

theorem laneStart_recorded (s : State) (t : Nat) : Recorded (s.takeStamp t) (s.laneStart t) := laneIds_recorded _ _

theorem laneStart_tc (s : State) (t : Nat) : (s.laneStart t).tc t = s.issuing t := by
  rw [(laneStart_recorded s t).tc, takeStamp_tc]

theorem takeStamp_cases (s : State) (t : Nat) : s.takeStamp t = s ∨ ∃ f, s.takeStamp t = s.modTc t f := by
  unfold State.takeStamp
  split
  · split
    · exact .inr ⟨_, rfl⟩
    · exact .inl rfl
  · exact .inl rfl

theorem laneStart_tc_ne (s : State) {t k : Nat} (hk : k ≠ t) : (s.laneStart t).tc k = s.tc k := by
  rw [(laneStart_recorded s t).tc]
  rcases takeStamp_cases s t with h | ⟨f, h⟩ <;> rw [h]
  exact State.tc_setTc_ne _ _ hk

theorem laneStart_keeps (s : State) (t : Nat) : LaneKeeps s (s.laneStart t) := by
  refine LaneKeeps.recorded ?_ (laneStart_recorded s t)
  rcases takeStamp_cases s t with h | ⟨f, h⟩ <;> rw [h]
  · exact .refl s
  · exact (LaneKeeps.refl s).modTc t f

theorem laneStart_trapEn (s : State) (t : Nat) : (s.laneStart t).trapEn t = s.trapEn t := by
  rw [(laneStart_recorded s t).trapEn, takeStamp_trapEn]

/-- The heat whose program issues, on the lane that an instruction of it leaves. -/
theorem issuing_curHeat {s : State} {t : Nat} {h : Heat} (hc : (s.tc t).curHeat = some h) :
    (s.issuing t).curHeat = some (s.stamped h) := by
  unfold TCtx.curHeat
  rw [issuing_last hc]
  exact if_neg (Bool.eq_false_iff.1 (curHeat_last hc).2)

/-- A lane whose instruction issues has no fault of its context waiting (R313). -/
theorem no_fault_of_ready {s : State} {t : Nat} (hr : s.laneReady t) : s.hasFault (s.ctxOn t) = false := by
  have hw := working_of_ready hr
  unfold State.working at hw
  simp only [Bool.and_eq_true, Bool.not_eq_true'] at hw
  exact hw.1.2

/-! ## A fault of the context (R312) -/

/-- The context on a tile has a fault recorded, and its flag raised; with no stream enabled data space keeps its
contents. -/
structure FaultKept (s u : State) (t cause : Nat) : Prop where
  waits : u.hasFault (s.ctxOn t) = true
  cause : u.rfld (ctxA (s.ctxOn t) 0x3C) 24 8 = cause
  unit : u.rfld (ctxA (s.ctxOn t) 0x3C) 16 8 = t
  flag : u.rbit (ctxA (s.ctxOn t) 0x34) 6 = true
  enable : u.rget (mshA 0x3000) = s.rget (mshA 0x3000)
  quiet : s.streamsOff = true → u.mem = s.mem

theorem obsReg_ctxA {c off : Nat} (hc : c < 64) (ho : off < 0x40) : obsReg (ctxA c off) = false :=
  obsReg_dsp (by unfold ctxA; omega) (by unfold ctxA; omega)

theorem FaultKept.observed {s u v : State} {t cause : Nat} (h : FaultKept s u t cause) (k : Observed u v) :
    FaultKept s v t cause where
  waits := by
    have hf : v.faults = u.faults := by rw [k.rest]
    rw [State.hasFault, hf]; exact h.waits
  cause := (rfld_congr (k.regs _ (obsReg_ctxA (ctxOn_lt s t) (by decide))) _ _).trans h.cause
  unit := (rfld_congr (k.regs _ (obsReg_ctxA (ctxOn_lt s t) (by decide))) _ _).trans h.unit
  flag := (rbit_congr (k.regs _ (obsReg_ctxA (ctxOn_lt s t) (by decide))) _).trans h.flag
  enable := (k.regs _ obsReg_enable).trans h.enable
  quiet q := by
    have ho : u.streamsOff = true := by
      rw [← q]
      unfold State.streamsOff
      simp only [streamOn_congr h.enable]
    exact (k.quiet ho).1.trans (h.quiet q)

/-- The fields of DSP_CTX_c_FAULT (R322). -/
theorem faultWord_fields {cause t heat : Nat} (hc : cause < 256) (ht : t < 256) :
    let w : Word := BitVec.ofNat 32 (cause * 2 ^ 24 + t * 2 ^ 16 + heat % 2 ^ 16)
    fget w 24 8 = cause ∧ fget w 16 8 = t := by
  intro w
  have hw : w.toNat = cause * 2 ^ 24 + t * 2 ^ 16 + heat % 2 ^ 16 := by
    rw [BitVec.toNat_ofNat]; omega
  rw [fget_div, fget_div, hw]
  omega

theorem ctxA_ne_partA {c p off : Nat} (hp : p < 16) (ho : off < 0x40) : ctxA c off ≠ partA p 0x1C := by
  unfold ctxA partA; omega

/-- The fault word and the fault flag of a context. -/
def State.faultFlagged (s : State) (c : Nat) (w : Word) : State :=
  (s.rset (ctxA c 0x3C) w).rbitSet (ctxA c 0x34) 6 true

/-- The registers that record a fault: the context's fault word and flag, and the partition's count. -/
def State.faultRegs (s : State) (c : Nat) (w : Word) : State :=
  (s.faultFlagged c w).rcount (partA ((s.faultFlagged c w).ctxPart c) 0x1C) 0 8 1

theorem ctxPart_lt (s : State) (c : Nat) : s.ctxPart c < 16 := fget_lt _ 16 4

theorem faultRegs_tiles (s : State) (c : Nat) (w : Word) : (s.faultRegs c w).tiles = s.tiles := rfl
theorem faultRegs_mem (s : State) (c : Nat) (w : Word) : (s.faultRegs c w).mem = s.mem := rfl
theorem faultRegs_faults (s : State) (c : Nat) (w : Word) : (s.faultRegs c w).faults = s.faults := rfl

/-- A register that is neither of the context's two nor of a partition's state is kept. -/
theorem rget_faultRegs_ne (s : State) (c : Nat) (w : Word) {a : Nat} (h1 : a ≠ ctxA c 0x3C) (h2 : a ≠ ctxA c 0x34)
    (h3 : ∀ p < 16, a ≠ partA p 0x1C) : (s.faultRegs c w).rget a = s.rget a := by
  unfold State.faultRegs
  rw [rget_rcount_ne _ _ _ _ (h3 _ (ctxPart_lt _ _)), State.faultFlagged, rget_rbitSet_ne _ _ _ h2, rget_rset_ne _ _ h1]

theorem ctxA_inj_off (c : Nat) {x y : Nat} (h : x ≠ y) : ctxA c x ≠ ctxA c y := by unfold ctxA; omega

theorem rget_faultRegs_word (s : State) (c : Nat) (w : Word) : (s.faultRegs c w).rget (ctxA c 0x3C) = w := by
  unfold State.faultRegs
  rw [rget_rcount_ne _ _ _ _ (ctxA_ne_partA (ctxPart_lt _ _) (by decide)), State.faultFlagged,
    rget_rbitSet_ne _ _ _ (ctxA_inj_off c (by decide)), rget_rset_self]

theorem rbit_faultRegs_flag (s : State) (c : Nat) (w : Word) : (s.faultRegs c w).rbit (ctxA c 0x34) 6 = true := by
  unfold State.faultRegs
  rw [rbit_congr (rget_rcount_ne _ _ _ _ (ctxA_ne_partA (ctxPart_lt _ _) (by decide))), State.faultFlagged,
    rbit_rbitSet_self _ _ _ _ (by decide)]

/-- The word of a fault (R322). -/
def State.faultWord (s : State) (cause c t : Nat) : Word :=
  BitVec.ofNat 32 (cause * 2 ^ 24 + t * 2 ^ 16 + s.faultHeat c t % 2 ^ 16)

/-- What a fault does, with its registers named. -/
theorem reportFault_regs (s : State) (cause c t cls : Nat) :
    s.reportFault cause c t cls =
      let u := (s.acct c (fun a => { a with faults := a.faults + 1 })).faultRegs c (s.faultWord cause c t)
      if u.ctxState c = 3 || (u.hasFault c && (decide (cause < 7) || u.hasShared c)) then u
      else { u with faults := u.faults ++ [⟨c, cause, t, cls, u.now⟩] } := rfl

/-- `s` with other faults waiting. -/
def State.withFaults (s : State) (l : List CtxFault) : State := { s with faults := l }

theorem rget_withFaults (s : State) (l : List CtxFault) (a : Nat) : (s.withFaults l).rget a = s.rget a := rfl
theorem withFaults_mem (s : State) (l : List CtxFault) : (s.withFaults l).mem = s.mem := rfl
theorem withFaults_tiles (s : State) (l : List CtxFault) : (s.withFaults l).tiles = s.tiles := rfl
theorem withFaults_faults (s : State) (l : List CtxFault) : (s.withFaults l).faults = l := rfl

/-- The fault of a context that is not torn down and has no fault waiting. -/
theorem reportFault_eq {v : State} {c : Nat} (cause t cls : Nat) (hf : v.hasFault c = false) (hd : v.ctxState c ≠ 3) :
    ∃ (a : Tab Acct) (f : CtxFault), v.reportFault cause c t cls = ((v.withAcct a).faultRegs c (v.faultWord cause c t)).withFaults
      (v.faults ++ [f]) ∧ f.ctx = c := by
  obtain ⟨a, ha⟩ := acct_eq v c (fun a => { a with faults := a.faults + 1 })
  rw [reportFault_regs, ha]
  generalize v.faultWord cause c t = w
  have hstate : ((v.withAcct a).faultRegs c w).ctxState c = v.ctxState c :=
    rfld_congr (rget_faultRegs_ne _ c w (ctxA_inj_off c (by decide)) (ctxA_inj_off c (by decide))
      fun p hp => ctxA_ne_partA hp (by decide)) 29 3
  have hwaits : ((v.withAcct a).faultRegs c w).hasFault c = false := by
    rw [State.hasFault, faultRegs_faults]; exact hf
  dsimp only
  rw [hstate, hwaits, Bool.false_and, Bool.or_false, if_neg (by simpa using hd), faultRegs_faults]
  exact ⟨a, _, rfl, rfl⟩

/-- The registers and the list of faults behind it. -/
theorem reportFault_view {v : State} {c : Nat} (hc : c < 64) (cause t cls : Nat) (hf : v.hasFault c = false)
    (hd : v.ctxState c ≠ 3) :
    let u := v.reportFault cause c t cls
    u.hasFault c = true ∧ u.rget (ctxA c 0x3C) = v.faultWord cause c t ∧ u.rbit (ctxA c 0x34) 6 = true
      ∧ u.rget (mshA 0x3000) = v.rget (mshA 0x3000) ∧ u.mem = v.mem ∧ u.tiles = v.tiles := by
  obtain ⟨a, f, hu, hfc⟩ := reportFault_eq cause t cls hf hd
  have hen : mshA 0x3000 ≠ ctxA c 0x3C ∧ mshA 0x3000 ≠ ctxA c 0x34 ∧ ∀ p < 16, mshA 0x3000 ≠ partA p 0x1C := by
    unfold mshA ctxA partA
    exact ⟨by omega, by omega, fun p hp => by omega⟩
  rw [hu]
  refine ⟨?_, ?_, ?_, ?_, ?_, ?_⟩
  · rw [State.hasFault, withFaults_faults, List.any_append, List.any_cons, hfc, beq_self_eq_true, Bool.true_or,
      Bool.or_true]
  · rw [rget_withFaults, rget_faultRegs_word]
  · rw [rbit_congr (rget_withFaults _ _ _), rbit_faultRegs_flag]
  · rw [rget_withFaults, rget_faultRegs_ne _ _ _ hen.1 hen.2.1 hen.2.2]; rfl
  · rw [withFaults_mem, faultRegs_mem]; rfl
  · rw [withFaults_tiles, faultRegs_tiles]; rfl

/-- The event of a fault, and a second one for FALSE_START (R467). -/
theorem faultTile_observed (s : State) {t : Nat} (ht : t < 64) (c cause cls : Nat) (ids : Option CmdIds) :
    Observed (s.reportFault cause c t cls) (s.faultTile t c cause cls ids) := by
  have h := eventTile_observed t 0x06 cause t ids ht (Observed.refl (s.reportFault cause c t cls))
  unfold State.faultTile
  dsimp only
  split
  · exact eventTile_observed _ _ _ _ _ ht h
  · exact h

/-- A fault from a tile whose context is not torn down and has no fault waiting (R312). -/
theorem faultTile_kept {s v : State} {t : Nat} (hv : LaneKeeps s v) (ht : t < 64)
    (hf : s.hasFault (s.ctxOn t) = false) (hd : s.ctxState (s.ctxOn t) ≠ 3) {cause : Nat} (hc : cause < 256) :
    FaultKept s (v.faultTile t (v.ctxOn t) cause) t cause ∧ ∀ k, (v.faultTile t (v.ctxOn t) cause).tc k = v.tc k := by
  rw [hv.ctx t]
  have hlt := ctxOn_lt s t
  have hfv : v.hasFault (s.ctxOn t) = false := by rw [State.hasFault, hv.faults]; exact hf
  have hdv : v.ctxState (s.ctxOn t) ≠ 3 :=
    fun he => hd ((rfld_congr (hv.regs _ (obsReg_ctxA hlt (by decide))) 29 3).symm.trans he)
  have ho := faultTile_observed v ht (s.ctxOn t) cause 1 none
  obtain ⟨hwaits, hword, hflag, hen, hmem, htiles⟩ := reportFault_view hlt cause t 1 hfv hdv
  obtain ⟨hcause, hunit⟩ := faultWord_fields (heat := v.faultHeat (s.ctxOn t) t) hc (show t < 256 by omega)
  refine ⟨FaultKept.observed ⟨hwaits, ?_, ?_, hflag, hen.trans (hv.regs _ obsReg_enable),
    fun q => hmem.trans (hv.quiet q)⟩ ho, fun k => (ho.recorded.tc k).trans ?_⟩
  · rw [State.rfld, hword, State.faultWord, hcause]
  · rw [State.rfld, hword, State.faultWord, hunit]
  · rw [State.tc, State.tile, htiles]; rfl

/-- A context faults as the statements say it, where no other tile has changed. -/
theorem FaultKept.contextFaults {s u : State} {t cause : Nat} (h : FaultKept s u t cause)
    (hk : ∀ k, k ≠ t → u.tc k = s.tc k) : ContextFaults s u t cause :=
  ⟨h.waits, h.cause, h.unit, h.flag, fun q => mget_of_mem (h.quiet q), hk⟩

end Sys2Proof.Machine
end

section
/-!
The other lanes of a gang stop and go on (R118), and V_PIPE_RESULT, FLAGRD, FLAGCLR, TRAPEN and SRET (R102, R110,
R114, R115, R117, R118).
-/

namespace Sys2Proof.Machine

/-! ## The gang (R118) -/

/-- A lane that its gang stops at the end of the cycle, or lets go on. -/
def TCtx.stopping (stop : Bool) (now : Nat) (x : TCtx) : TCtx :=
  { x with stopped := stop, stopAt := if stop && !x.stopped then some now else x.stopAt }

theorem stopping_stopping (stop : Bool) (now : Nat) (x : TCtx) :
    (x.stopping stop now).stopping stop now = x.stopping stop now := by
  cases stop <;> rfl

/-- Lanes of several tiles stop or go on. -/
theorem each_stopping (l : List Nat) (stop : Bool) (s : State) :
    let u := s.each l (fun s u => s.modTc u (fun x => x.stopping stop s.now))
    LaneKeeps s u ∧ ∀ k, u.tc k = if k ∈ l then (s.tc k).stopping stop s.now else s.tc k := by
  induction l generalizing s with
  | nil => exact ⟨.refl s, fun k => (if_neg List.not_mem_nil).symm⟩
  | cons j l ih =>
    obtain ⟨hk, ht⟩ := ih (s.modTc j (fun x => x.stopping stop s.now))
    refine ⟨((LaneKeeps.refl s).modTc j _).trans hk, fun k => (ht k).trans ?_⟩
    rw [tc_modTc]
    by_cases hj : k = j
    · rw [if_pos hj, if_pos (List.mem_cons.2 (.inl hj))]
      split
      · exact stopping_stopping _ _ _
      · rfl
    · rw [if_neg hj]
      exact if_congr (by rw [List.mem_cons, or_iff_right hj]) rfl rfl

/-- The partners of a tile stop or go on, and nothing else changes. -/
theorem stopPartners_view {s : State} {t : Nat} {h : Heat} (hc : (s.tc t).curHeat = some h) (stop : Bool) :
    LaneKeeps s (s.stopPartners t stop)
      ∧ ∀ k, (s.stopPartners t stop).tc k
        = if k ∈ h.tiles ∧ k ≠ t then (s.tc k).stopping stop s.now else s.tc k := by
  obtain ⟨hk, ht⟩ := each_stopping (h.tiles.filter (· ≠ t)) stop s
  have hs : s.stopPartners t stop
      = s.each (h.tiles.filter (· ≠ t)) (fun s u => s.modTc u (fun x => x.stopping stop s.now)) := by
    unfold State.stopPartners
    rw [hc]
    rfl
  rw [hs]
  refine ⟨hk, fun k => (ht k).trans (if_congr ?_ rfl rfl)⟩
  rw [List.mem_filter, decide_eq_true_iff]

/-! ## V_PIPE_RESULT (R102, R110, R114) -/

theorem trapEn_setTc (s : State) (t : Nat) (x : TCtx) (hx : x.strapEn = (s.tc t).strapEn) :
    (s.setTc t x).trapEn t = s.trapEn t := by
  have hon : (s.setTc t x).ctxOn t = s.ctxOn t := ctxOn_modTc s t (fun _ => x) t
  rw [State.trapEn, State.trapEn, hon, State.tc_setTc, hx]
  rfl

/-- A lane whose V instruction has delivered its result. -/
def TCtx.delivered (c : TCtx) (w : RegWrite) (f : FlagSet) : TCtx :=
  { c.wr w with sflag := c.sflag ||| f, vpipe := none, work := c.work.filter (fun p => p.2 ≠ 7) }

theorem delivered_atRest {c : TCtx} (h : c.atRest) (w : RegWrite) (f : FlagSet) : (c.delivered w f).atRest := by
  cases w <;> exact h

/-- A working tile that is given a context at rest stays as it is. -/
theorem kick_setTc_atRest {s : State} {t : Nat} {x : TCtx} (hw : s.working t = true) (hx : x.atRest) :
    (s.setTc t x).kick t = s.setTc t x := by
  have hv := State.tc_setTc s t x
  rw [kick_quiet (by rw [working_setTc]; exact hw) (hv.symm ▸ hx.quiet) (hv.symm ▸ hx.recorded), hv,
    fenceDone_none hx.hold, State.setTc_setTc]

/-- The result in the V pipe retires, with its writes and flags, as any other (R102). -/
theorem retire_delivered {s : State} {t : Nat} (w : RegWrite) {f : FlagSet} (pc : Nat) (hq : f &&& s.trapEn t = 0) :
    let u := s.modTc t (fun c => { c.laneDone with vpipe := none })
    u.retire t pc (u.tc t).pc ⟨[w], [f]⟩ = s.setTc t ((s.tc t).delivered w f) := by
  intro u
  have hen : u.trapEn t = s.trapEn t := trapEn_setTc _ _ _ rfl
  have htc : u.tc t = { (s.tc t).laneDone with vpipe := none } := State.tc_setTc _ _ _
  rw [State.retire, flUnion_single, hen]
  dsimp only
  rw [if_pos hq, htc]
  exact (State.setTc_setTc _ _ _ _).trans (congrArg _ (by cases w <;> rfl))

/-- A V instruction at a tile on which nothing else waits retires, and the tile stays as it is. -/
theorem drainV_rest {s : State} {t : Nat} {w : RegWrite} {f : FlagSet} {cycles pc : Nat}
    (hv : (s.tc t).vpipe = some ⟨⟨[w], [f]⟩, cycles, pc⟩) (ha : (s.tc t).atRest) (hw : s.working t = true)
    (hq : f &&& s.trapEn t = 0) : s.drainV t = s.setTc t ((s.tc t).delivered w f) := by
  rw [State.drainV, hv]
  exact (congrArg (State.kick · t) (retire_delivered w pc hq)).trans (kick_setTc_atRest hw (delivered_atRest ha w f))

/-! ## SRET (R117, R118) -/

/-- The lane behind its handler. -/
def TCtx.trapReturn (c : TCtx) : TCtx := { c with inTrap := false, pc := c.strapPc.toNat + 8 }

/-- The tiles when SRET has ended the handler of its lane. -/
def State.trapEnds (s : State) (t : Nat) : State := (s.laneStart t).modTc t TCtx.trapReturn

theorem trapEnds_keeps (s : State) (t : Nat) : LaneKeeps s (s.trapEnds t) := (laneStart_keeps s t).modTc t _

theorem trapEnds_tc (s : State) (t : Nat) : (s.trapEnds t).tc t = (s.issuing t).trapReturn := by
  rw [State.trapEnds, tc_modTc, if_pos rfl, laneStart_tc]

theorem trapEnds_tc_ne (s : State) {t k : Nat} (hk : k ≠ t) : (s.trapEnds t).tc k = s.tc k := by
  rw [State.trapEnds, tc_modTc, if_neg hk, laneStart_tc_ne s hk]

theorem trapEnds_curHeat {s : State} {t : Nat} {h : Heat} (hc : (s.tc t).curHeat = some h) :
    ((s.trapEnds t).tc t).curHeat = some (s.stamped h) := by
  rw [trapEnds_tc]; exact issuing_curHeat hc

/-- SRET in a handler, with its gang given. -/
theorem sret_inTrap {s : State} {t : TileNo} (hr : s.laneReady t.val) {h : Heat} (hi : (s.tc t.val).inTrap = true)
    (hc : (s.tc t.val).curHeat = some h) :
    let u := s.trapEnds t.val
    exec (.sret t) s = .next (if h.tiles.any (fun k => (u.tc k).inTrap) then
      u.modTc t.val (fun c => { c with stopped := true, stopAt := none })
      else (u.stopPartners t.val false).modTc t.val (fun c => { c with stopped := false })) := by
  intro u
  have htrap : ((s.laneStart t.val).tc t.val).inTrap = true := by rw [laneStart_tc]; exact hi
  refine congrArg Host.Outcome.next ((laneDo_ready hr _).trans ((if_pos htrap).trans ?_))
  change (if (match (u.tc t.val).curHeat with
    | some h => h.tiles
    | none => []).any (fun k => (u.tc k).inTrap) then _ else _) = _
  rw [trapEnds_curHeat hc]
  rfl

/-- Whether a tile of the gang is still in its handler, behind SRET. -/
theorem gang_inTrap (s : State) (t : Nat) (l : List Nat) :
    l.any (fun k => ((s.trapEnds t).tc k).inTrap) = true ↔ ∃ k ∈ l, k ≠ t ∧ (s.tc k).inTrap = true := by
  rw [List.any_eq_true]
  refine exists_congr fun k => and_congr_right fun _ => ?_
  by_cases hk : k = t
  · rw [hk, trapEnds_tc]
    exact iff_of_false (fun h => absurd h Bool.false_ne_true) fun h => h.1 rfl
  · rw [trapEnds_tc_ne s hk]
    exact (and_iff_right hk).symm

/-- The gang goes on when the last of its handlers has ended (R118). -/
theorem sret_lets_go {s : State} {t : TileNo} (hr : s.laneReady t.val) {h : Heat} (hi : (s.tc t.val).inTrap = true)
    (hc : (s.tc t.val).curHeat = some h) (hg : ∀ k ∈ h.tiles, k ≠ t.val → (s.tc k).inTrap = false) :
    ∃ u, exec (.sret t) s = .next u ∧ LaneKeeps s u
      ∧ u.tc t.val = { (s.issuing t.val).trapReturn with stopped := false }
      ∧ ∀ k, k ≠ t.val → u.tc k = { s.tc k with stopped := (s.tc k).stopped && !h.tiles.contains k } := by
  obtain ⟨hk, htc⟩ := stopPartners_view (trapEnds_curHeat hc) false
  have hany : ¬ h.tiles.any (fun k => ((s.trapEnds t.val).tc k).inTrap) = true := fun ha => by
    obtain ⟨k, hm, hne, hin⟩ := (gang_inTrap s t.val h.tiles).1 ha
    rw [hg k hm hne] at hin
    cases hin
  refine ⟨_, (sret_inTrap hr hi hc).trans (congrArg Host.Outcome.next (if_neg hany)),
    ((trapEnds_keeps s t.val).trans hk).modTc _ _, ?_, fun k hne => ?_⟩
  · rw [tc_modTc, if_pos rfl, htc, if_neg fun h => h.2 rfl, trapEnds_tc]
  · rw [tc_modTc, if_neg hne, htc, trapEnds_tc_ne s hne]
    by_cases hm : k ∈ h.tiles
    · rw [if_pos ⟨hm, hne⟩, List.contains_iff_mem.2 hm, Bool.not_true, Bool.and_false]; rfl
    · rw [if_neg fun h => hm h.1, Bool.eq_false_iff.2 (mt List.contains_iff_mem.1 hm), Bool.not_false, Bool.and_true]

/-- The lane waits stopped while a partner is in its handler (R118). -/
theorem sret_waits {s : State} {t : TileNo} (hr : s.laneReady t.val) {h : Heat} (hi : (s.tc t.val).inTrap = true)
    (hc : (s.tc t.val).curHeat = some h) (hg : ∃ k ∈ h.tiles, k ≠ t.val ∧ (s.tc k).inTrap = true) :
    ∃ u, exec (.sret t) s = .next u ∧ LaneKeeps s u
      ∧ u.tc t.val = { (s.issuing t.val).trapReturn with stopped := true, stopAt := none }
      ∧ ∀ k, k ≠ t.val → u.tc k = s.tc k := by
  refine ⟨_, (sret_inTrap hr hi hc).trans (congrArg Host.Outcome.next (if_pos ((gang_inTrap s t.val h.tiles).2 hg))),
    (trapEnds_keeps s t.val).modTc _ _, ?_, fun k hne => ?_⟩
  · rw [tc_modTc, if_pos rfl, trapEnds_tc]
  · rw [tc_modTc, if_neg hne, trapEnds_tc_ne s hne]

/-- SRET outside a handler is a fault and a false start, and leaves the lane (R117). -/
theorem sret_stray {s : State} {t : TileNo} (hr : s.laneReady t.val) (hi : (s.tc t.val).inTrap = false)
    (hd : s.ctxState (s.ctxOn t.val) ≠ 3) :
    ∃ u, exec (.sret t) s = .next u ∧ u.tc t.val = s.issuing t.val ∧ ContextFaults s u t.val 3 := by
  have ht : t.val < 64 := by omega
  have htrap : ¬ ((s.laneStart t.val).tc t.val).inTrap = true := by
    rw [laneStart_tc]; exact Bool.eq_false_iff.1 hi
  obtain ⟨hf, htc⟩ := faultTile_kept (laneStart_keeps s t.val) ht (no_fault_of_ready hr) hd (cause := 3) (by decide)
  have ho := eventTile_observed t.val 0x0C t.val 3 none ht
    (Observed.refl ((s.laneStart t.val).faultTile t.val ((s.laneStart t.val).ctxOn t.val) 3))
  have hsame (k : Nat) := (ho.recorded.tc k).trans (htc k)
  refine ⟨_, congrArg Host.Outcome.next ((laneDo_ready hr _).trans (if_neg htrap)), (hsame _).trans (laneStart_tc _ _),
    (hf.observed ho).contextFaults fun k hk => (hsame k).trans (laneStart_tc_ne s hk)⟩

/-- Settles O13: a V instruction retires by `drainV_rest`, the flag instructions by `lane_outG` and `laneDo_leaves`; SRET
lets the gang go on (`sret_lets_go`), waits (`sret_waits`) or faults (`sret_stray`). -/
theorem laneFlagsAndTrapReturn : Obligations.LaneFlagsAndTrapReturn := by
  unfold Obligations.LaneFlagsAndTrapReturn
  constructor
  · intro s t w f cycles pc hv ha
    refine ⟨fun hu hq => ?_, fun hu => congrArg Host.Outcome.next (if_neg (by rw [hu]; exact Bool.false_ne_true))⟩
    have hw : s.working t.val = true := by
      unfold State.unitRuns at hu
      exact (Bool.and_eq_true_iff.1 hu).1
    exact congrArg Host.Outcome.next ((if_pos hu).trans (drainV_rest hv ha hw hq))
  · intro s t rd x hr c
    refine ⟨⟨_, rfl, lane_outG hr (congrArg (outG rd.val · 0) (BitVec.ofNat_toNat ..)) BitVec.zero_and⟩,
      ⟨_, rfl, laneDo_leaves hr ?_⟩, ⟨_, rfl, laneDo_leaves hr ?_⟩, fun h hi hc hg => ?_, fun h hi hc hg => ?_,
      fun hi hd => sret_stray hr hi hd⟩
    · dsimp only
      rw [BitVec.ofNat_toNat]
      rfl
    · dsimp only
      rw [BitVec.ofNat_toNat]
      rfl
    · obtain ⟨u, hu, hk, htc, hother⟩ := sret_lets_go hr hi hc hg
      exact ⟨u, hu, htc, hother, hk.mget, hk.faults⟩
    · obtain ⟨u, hu, hk, htc, hother⟩ := sret_waits hr hi hc hg
      exact ⟨u, hu, htc, hother, hk.mget, hk.faults⟩

end Sys2Proof.Machine
end

section
/-!
Traps of the Scalar Lane (R115-R118), and branches (R194).
-/

namespace Sys2Proof.Machine

/-! ## The trap of a lane (R116) -/

/-- The handler is the word that STRAP_VEC lies in (R119). -/
theorem handler_eq (c : TCtx) : c.handler = c.strapVec.toNat / 4 * 4 := by
  refine Nat.eq_of_testBit_eq fun i => ?_
  have hm : (0xFFFFFFFC : Word).toNat = (2 ^ 30 - 1) * 2 ^ 2 := rfl
  have hd : c.strapVec.toNat / 4 * 4 = c.strapVec.toNat / 2 ^ 2 * 2 ^ 2 := rfl
  rw [TCtx.handler, BitVec.toNat_and, hm, hd, Nat.testBit_and, Nat.testBit_mul_two_pow, Nat.testBit_mul_two_pow,
    Nat.testBit_two_pow_sub_one, Nat.testBit_div_two_pow]
  by_cases h2 : 2 ≤ i
  · rw [Nat.sub_add_cancel h2]
    by_cases h30 : i - 2 < 30
    · simp [h2, h30]
    · rw [Nat.testBit_lt_two_pow (c.strapVec.isLt.trans_le (Nat.pow_le_pow_right (by decide) (by omega)))]
      simp
  · simp [h2]

/-- The cause word of an instruction of one lane. -/
theorem causeWord_single {en fl : FlagSet} (h : fl &&& en ≠ 0) :
    causeWord en [fl] = BitVec.ofNat 32 (1 * 2 ^ 28 + (fl &&& en).toNat * 2 ^ 16 + fl.toNat) := by
  have hl : lanesMask en [fl] = 1 := by rw [lanesMask, bne_iff_ne.2 h]; rfl
  rw [causeWord, hl, flUnion_single]

/-- A trap with its gang stopped, before it is known whether there is a handler. -/
def State.trapped (s : State) (t pc : Nat) (raised : List FlagSet) : State :=
  ((s.modTc t (fun c => c.trap pc (s.trapEn t) raised)).eventTile t 0x05 (causeWord (s.trapEn t) raised).toNat
    pc).stopPartners t true

theorem takeTrap_eq (s : State) (t pc : Nat) (raised : List FlagSet) : s.takeTrap t pc raised =
    if ((s.trapped t pc raised).tc t).handler = 0 then
      (s.trapped t pc raised).faultTile t ((s.trapped t pc raised).ctxOn t) 3
    else s.trapped t pc raised := rfl

/-- A lane that its gang stops. -/
theorem stopping_true (now : Nat) (x : TCtx) :
    x.stopping true now = if x.stopped then x else { x with stopped := true, stopAt := some now } := by
  cases h : x.stopped
  · simp [TCtx.stopping, h]
  · rw [if_pos rfl, TCtx.stopping, h]
    cases x
    cases h
    rfl

theorem trapped_view {s : State} {t : Nat} {h : Heat} (hc : (s.tc t).curHeat = some h) (ht : t < 64) (pc : Nat)
    (raised : List FlagSet) :
    LaneKeeps s (s.trapped t pc raised)
      ∧ (s.trapped t pc raised).tc t = (s.tc t).trap pc (s.trapEn t) raised
      ∧ ∀ k, k ≠ t → (s.trapped t pc raised).tc k
        = if k ∈ h.tiles then (s.tc k).stopping true s.now else s.tc k := by
  have ho := eventTile_observed t 0x05 (causeWord (s.trapEn t) raised).toNat pc none ht
    (Observed.refl (s.modTc t (fun c => c.trap pc (s.trapEn t) raised)))
  have hk1 := ((LaneKeeps.refl s).modTc t (fun c => c.trap pc (s.trapEn t) raised)).observed ho
  have htc1 (k : Nat) := (ho.recorded.tc k).trans (tc_modTc s t _ k)
  obtain ⟨hk2, htc2⟩ := stopPartners_view (h := h) (by rw [htc1, if_pos rfl]; exact hc) true
  refine ⟨hk1.trans hk2, ?_, fun k hne => ?_⟩
  · rw [State.trapped, htc2, if_neg fun h => h.2 rfl, htc1, if_pos rfl]
  · rw [State.trapped, htc2, htc1, if_neg hne, hk1.now]
    exact if_congr (and_iff_left hne) rfl rfl

/-- The tiles behind the trap: the lane records it, and its partners stop. -/
theorem lane_trapped {s : State} {t : Nat} {h : Heat} (hc : (s.tc t).curHeat = some h) (ht : t < 64)
    (fl : FlagSet) :
    let u := (s.laneStart t).trapped t (s.tc t).pc [fl]
    LaneKeeps s u ∧ u.tc t = (s.issuing t).trap (s.tc t).pc (s.trapEn t) [fl]
      ∧ ∀ k, k ≠ t → u.tc k = if h.tiles.contains k && !(s.tc k).stopped then
        { s.tc k with stopped := true, stopAt := some s.now } else s.tc k := by
  have hcur : ((s.laneStart t).tc t).curHeat = some (s.stamped h) := by rw [laneStart_tc]; exact issuing_curHeat hc
  obtain ⟨hk, htc, hother⟩ := trapped_view hcur ht (s.tc t).pc [fl]
  refine ⟨(laneStart_keeps s t).trans hk, by rw [htc, laneStart_tc, laneStart_trapEn], fun k hne => ?_⟩
  rw [hother k hne, laneStart_tc_ne s hne, (laneStart_keeps s t).now, stopping_true]
  by_cases hm : k ∈ h.tiles
  · rw [if_pos (show k ∈ (s.stamped h).tiles from hm), List.contains_iff_mem.2 hm]
    cases (s.tc k).stopped <;> rfl
  · rw [if_neg (show k ∉ (s.stamped h).tiles from hm), Bool.eq_false_iff.2 (mt List.contains_iff_mem.1 hm)]
    rfl

/-! ## An instruction that raises an enabled exception (R115-R117) -/

section
variable {s : State} {t : Nat} (hr : s.laneReady t) {f : TCtx → LaneOut} {ws : List RegWrite} {fl : FlagSet}
  (hf : f (s.issuing t) = ⟨ws, [fl]⟩) (hq : fl &&& s.trapEn t ≠ 0)
include hq

/-- The lane that a trap leaves. -/
theorem issuing_trap :
    (s.issuing t).trap (s.tc t).pc (s.trapEn t) [fl] = { s.issuing t with
      sflag := (s.tc t).sflag ||| fl
      strapPc := BitVec.ofNat 32 (s.tc t).pc
      strapCause := BitVec.ofNat 32 (1 * 2 ^ 28 + (fl &&& s.trapEn t).toNat * 2 ^ 16 + fl.toNat)
      inTrap := true
      pc := if (s.tc t).handler = 0 then (s.tc t).pc else (s.tc t).handler } := by
  rw [TCtx.trap, flUnion_single, causeWord_single hq]
  rfl

include hr hf

/-- Outside a handler it traps. -/
theorem lane_takesTrap (hi : (s.tc t).inTrap = false) :
    s.lane t f = (s.laneStart t).takeTrap t (s.tc t).pc [fl] := by
  have hn : ¬ flUnion [fl] &&& (s.laneStart t).trapEn t = 0 := by rw [flUnion_single, laneStart_trapEn]; exact hq
  have hi' : ¬ (s.issuing t).inTrap = true := Bool.eq_false_iff.1 hi
  unfold State.lane
  rw [laneDo_ready hr]
  change (s.laneStart t).retire t ((s.laneStart t).tc t).pc (((s.laneStart t).tc t).pc + 8) (f ((s.laneStart t).tc t)) = _
  rw [laneStart_tc, hf, State.retire]
  dsimp only
  rw [if_neg hn, laneStart_tc, if_neg hi']
  rfl

/-- Inside a handler it records its flags and is a fault. -/
theorem lane_faultsInTrap (hi : (s.tc t).inTrap = true) :
    s.lane t f = ((s.laneStart t).modTc t (fun c => { c with sflag := c.sflag ||| fl, pc := c.pc + 8 })).faultTile t
      ((s.laneStart t).ctxOn t) 3 := by
  have hn : ¬ flUnion [fl] &&& (s.laneStart t).trapEn t = 0 := by rw [flUnion_single, laneStart_trapEn]; exact hq
  have hi' : (s.issuing t).inTrap = true := hi
  unfold State.lane
  rw [laneDo_ready hr]
  change (s.laneStart t).retire t ((s.laneStart t).tc t).pc (((s.laneStart t).tc t).pc + 8) (f ((s.laneStart t).tc t)) = _
  rw [laneStart_tc, hf, State.retire]
  dsimp only
  rw [if_neg hn, laneStart_tc, if_pos hi', flUnion_single, State.modTc, laneStart_tc]

/-- With a handler, the lane goes on there (R116). -/
theorem lane_traps {h : Heat} (hc : (s.tc t).curHeat = some h) (ht : t < 64) (hi : (s.tc t).inTrap = false)
    (hv : 4 ≤ (s.tc t).strapVec.toNat) : LaneTraps s (s.lane t f) t h.tiles 1 fl := by
  obtain ⟨hk, htc, hother⟩ := lane_trapped hc ht fl
  have hh : (s.tc t).handler ≠ 0 := by rw [handler_eq]; omega
  have hu : s.lane t f = (s.laneStart t).trapped t (s.tc t).pc [fl] := by
    rw [lane_takesTrap hr hf hq hi, takeTrap_eq, if_neg (by rw [htc]; exact hh)]
  rw [hu]
  refine ⟨?_, hother, hk.mget, hk.faults⟩
  rw [htc, issuing_trap hq, if_neg hh, handler_eq]

/-- Without one, the trap is a fault of the context (R116). -/
theorem lane_trapFaults {h : Heat} (hc : (s.tc t).curHeat = some h) (ht : t < 64) (hi : (s.tc t).inTrap = false)
    (hv : (s.tc t).strapVec.toNat < 4) (hd : s.ctxState (s.ctxOn t) ≠ 3) :
    FaultKept s (s.lane t f) t 3 ∧ (s.lane t f).tc t = { s.issuing t with
      sflag := (s.tc t).sflag ||| fl
      strapPc := BitVec.ofNat 32 (s.tc t).pc
      strapCause := BitVec.ofNat 32 (1 * 2 ^ 28 + (fl &&& s.trapEn t).toNat * 2 ^ 16 + fl.toNat)
      inTrap := true } := by
  obtain ⟨hk, htc, -⟩ := lane_trapped hc ht fl
  have hh : (s.tc t).handler = 0 := by rw [handler_eq]; omega
  obtain ⟨hfault, hsame⟩ := faultTile_kept hk ht (no_fault_of_ready hr) hd (cause := 3) (by decide)
  rw [lane_takesTrap hr hf hq hi, takeTrap_eq, if_pos (by rw [htc]; exact hh)]
  refine ⟨hfault, (hsame t).trans ?_⟩
  rw [htc, issuing_trap hq, if_pos hh]
  rfl

/-- In a handler it is a fault of the context, and no trap (R117). -/
theorem lane_faults (ht : t < 64) (hi : (s.tc t).inTrap = true) (hd : s.ctxState (s.ctxOn t) ≠ 3) :
    (s.lane t f).tc t = { s.issuing t with sflag := (s.tc t).sflag ||| fl, pc := (s.tc t).pc + 8 }
      ∧ ContextFaults s (s.lane t f) t 3 := by
  have hk := (laneStart_keeps s t).modTc t (fun c => { c with sflag := c.sflag ||| fl, pc := c.pc + 8 })
  obtain ⟨hfault, hsame⟩ := faultTile_kept hk ht (no_fault_of_ready hr) hd (cause := 3) (by decide)
  rw [ctxOn_modTc, ← lane_faultsInTrap hr hf hq hi] at hfault hsame
  refine ⟨(hsame t).trans ?_, hfault.contextFaults fun k hne => (hsame k).trans ?_⟩
  · rw [tc_modTc, if_pos rfl, laneStart_tc]
    rfl
  · rw [tc_modTc, if_neg hne, laneStart_tc_ne s hne]

end

/-! ## Branches (R194) -/

/-- A taken branch adds eight times its signed immediate to its own program address, modulo 2^32. -/
theorem branch_target (pc : Nat) (imm : BitVec 16) :
    wrapN ((pc : Int) + 8 * imm.toInt) 32 = (BitVec.ofNat 32 pc + 8 * imm.signExtend 32).toNat := by
  have h : BitVec.ofInt 32 ((pc : Int) + 8 * imm.toInt) = BitVec.ofNat 32 pc + 8 * imm.signExtend 32 := by
    rw [BitVec.ofInt_add, BitVec.ofInt_mul, BitVec.ofInt_natCast]; rfl
  rw [← h]; rfl

/-- A control entry of the sequencer moves its lane's program address, and nothing else. -/
theorem jump_goes {s : State} {t : Nat} (hr : s.laneReady t) (imm : BitVec 16) {taken : TCtx → Bool} {b : Bool}
    (hb : taken (s.issuing t) = b) : LaneRetires s (s.jump t imm taken) t [] 0
      (if b then (BitVec.ofNat 32 (s.tc t).pc + 8 * imm.signExtend 32).toNat else (s.tc t).pc + 8) := by
  subst hb
  have h0 : (s.tc t).sflag ||| (0 : FlagSet) = (s.tc t).sflag := BitVec.or_zero
  unfold State.jump
  rw [issueDo_ready hr, State.modTc, takeStamp_tc, takeStamp_setTc, LaneRetires, h0, ← branch_target]
  exact .refl _

/-- What ADDS delivers. -/
def addsOut (rd x y : RegNo) (aux : Byte) (c : TCtx) : LaneOut :=
  let r := satRes (auxW aux) (sext (c.gi (auxW aux) x.val) (auxW aux) + sext (c.gi (auxW aux) y.val) (auxW aux))
  outG rd.val (gres (auxW aux) r.1) r.2

theorem exec_adds (t : TileNo) (rd x y : RegNo) (aux : Byte) (s : State) :
    exec (.adds t rd x y aux) s = .next (s.lane t.val (addsOut rd x y aux)) := rfl

theorem satS_ne {w : Nat} {i : Int} (h : i < -2 ^ (w - 1) ∨ 2 ^ (w - 1) ≤ i) : satS w i ≠ i := by
  have hp : (0 : Int) < 2 ^ (w - 1) := pow_pos (by decide) _
  rw [satS_eq]
  omega

/-- A sum out of range sets SATURATED and INEXACT. -/
theorem addsOut_clamps {rd x y : RegNo} {aux : Byte} {c : TCtx} {w : Nat} (hw : auxW aux = w)
    (hv : ((c.gr x.val).setWidth w).toInt + ((c.gr y.val).setWidth w).toInt < -2 ^ (w - 1)
      ∨ 2 ^ (w - 1) ≤ ((c.gr x.val).setWidth w).toInt + ((c.gr y.val).setWidth w).toInt) :
    ∃ ws, addsOut rd x y aux c = ⟨ws, [0x18]⟩ := by
  simp only [addsOut, hw, gi_eq, sext_toNat (auxW_pos hw), satRes_eq, if_neg (satS_ne hv)]
  exact ⟨_, rfl⟩

/-- Settles O14: a clamp that is trapped enters the handler (`lane_traps`), faults without one (`lane_trapFaults`) and in
one (`lane_faults`), and branches move the program address (`jump_goes`). -/
theorem trapsAndBranches : Obligations.TrapsAndBranches := by
  unfold Obligations.TrapsAndBranches
  constructor
  · intro s t rd x y aux h hr hc c w v hv hq
    have ht : t.val < 64 := by omega
    have hs : ∃ ws, addsOut rd x y aux (s.issuing t.val) = ⟨ws, [0x18]⟩ := addsOut_clamps (auxW_eq aux) hv
    obtain ⟨ws, hf⟩ := hs
    rw [exec_adds]
    refine ⟨fun hi hvec => ⟨_, rfl, lane_traps hr hf hq hc ht hi hvec⟩, fun hi hvec hd => ⟨_, rfl, ?_⟩,
      fun hi hd => ⟨_, rfl, lane_faults hr hf hq ht hi hd⟩⟩
    obtain ⟨hfault, htc⟩ := lane_trapFaults hr hf hq hc ht hi hvec hd
    refine ⟨hfault.waits, hfault.cause, htc⟩
  · intro s t x imm hr c v goes
    exact ⟨⟨_, rfl, jump_goes hr imm rfl⟩, ⟨_, rfl, jump_goes hr imm rfl⟩, ⟨_, rfl, jump_goes hr imm rfl⟩,
      ⟨_, rfl, jump_goes hr imm BitVec.msb_eq_toInt.symm⟩,
      ⟨_, rfl, jump_goes hr imm (by
        rw [BitVec.msb_eq_toInt, ← decide_not]; exact decide_eq_decide.2 not_lt.symm)⟩⟩

end Sys2Proof.Machine
end

section
/-!
The handoff of a problem that stands in two slots of its tile: the copy behind it, which waits for the Tensor stage,
takes the problem back to the stage that it has just left.
-/

namespace Sys2Proof.Machine

/-- A SOLVE of one problem, which has left Assemble. -/
def oneSolve : SolveRun := { doneSolve with count := 1, next := 1, left := [1, 0, 0, 0, 0, 0] }

/-- Heat 1 of tile 0, with that SOLVE. -/
def oneHeat : Heat := { loneHeat [0] with solve := some oneSolve }

/-- Its problem, at work in the Tensor stage. -/
def inTensor : Slot := { blankSlot 1 0 0 0 with stage := .tensor }

/-- Problem 0 of heat 1 stands in slot 0, in the Tensor stage, and again in slot 1, waiting for that stage. -/
def twinSlots : State :=
  { tiles := [(0, { ctx := some 0, seq := .running, tc := {
      heats := [oneHeat]
      slots := [(0, some inTensor), (1, some { inTensor with waiting := true })] } })] }

/-- The stage that slot 0 of tile 0 shows after a command. -/
def stageInSlot0 (o : Out) : Option StageName :=
  match o with
  | .next u => ((u.tc 0).slotAt 0).map Slot.stage
  | _ => none

theorem twinSlots_heat : (twinSlots.tc 0).heat? oneHeat.num = some oneHeat
    ∧ ∀ g ∈ (twinSlots.tc 0).heats, g.tiles = [0] := by
  decide

/-- The problem of slot 0 may leave the Tensor stage, and no dump holds it. -/
theorem twinSlots_ready : twinSlots.dumpsOff ∧ (twinSlots.tc 0).slotOf 1 0 = some (0, inTensor)
    ∧ twinSlots.rankDone (twinSlots.ctxOn 0) 1 0 .tensor 0 = true := by
  unfold State.dumpsOff
  decide +kernel

/-- It enters Factor, and then the twin takes it into Tensor again. -/
theorem twinSlots_returns : stageInSlot0 (exec (.stageHandoff 0 0) twinSlots) = some .tensor := by
  decide +kernel

/-- Refutes O26: its clause on STAGE_HANDOFF moves a problem to a later stage, but a problem that stands in two slots
(which only the clause on EMIT_COMMIT rules out) is back in the stage it left (`twinSlots`). -/
theorem not_problemsFlow : ¬ Obligations.ProblemsFlow := by
  unfold Obligations.ProblemsFlow
  intro h
  obtain ⟨hheat, htiles⟩ := twinSlots_heat
  obtain ⟨hdumps, hslot, hdone⟩ := twinSlots_ready
  obtain ⟨-, hhandoff, -⟩ := h twinSlots 0 oneHeat oneSolve hheat htiles rfl rfl
  obtain ⟨u, sl, hu, hat, -, -, hlater, -⟩ := hhandoff 0 inTensor hdumps rfl rfl rfl hslot rfl hdone
  have hstage := twinSlots_returns
  rw [hu, stageInSlot0] at hstage
  obtain ⟨y, hy, htensor⟩ := Option.map_eq_some_iff.1 hstage
  obtain rfl : sl = y := Option.some.inj (hat.symm.trans hy)
  rw [htensor] at hlater
  exact absurd hlater (by decide)

end Sys2Proof.Machine
end

section
/-!
# Heats end and set-points arrive (O27)

HEAT_COMPLETE for the only heat of a tile at rest (R184, R201): the heat leaves its tile (`heatLeaves_only`), the
Dispatcher counts it (`heatCounted_rest`), and the tile, at a heat boundary, goes to what it serves next
(`settle_boundary`).  A set-point reaches its loop, or is refused with a flag (R24, R171, R228).
-/

namespace Sys2Proof.Machine

/-! ## A tile at a heat boundary (R205, R208) -/

/-- `y` is `x` with its power and what a save sets moved: the heat it served last and its registers stay. -/
structure Tile.Settles (x y : Tile) : Prop where
  last : y.lastHeat = x.lastHeat
  heats : y.tc.heats = x.tc.heats
  g : y.tc.g = x.tc.g
  f : y.tc.f = x.tc.f

/-- A tile listed anew as it stands. -/
theorem sameTiles_setTile_self (s : State) (t : Nat) : SameTiles (s.setTile t (s.tile t)) s where
  rest := rfl
  tile k := by
    by_cases hk : k = t
    · subst hk; exact (State.tile_setTile _ _ _).symm
    · exact (State.tile_setTile_ne _ _ hk).symm

/-- A tile in RUN that holds a context and no heat is gated, saved or left: nothing else changes. -/
theorem settle_boundary {s : State} {t d : Nat} (hc : (s.tile t).ctx = some d) (hp : (s.tile t).power = .run)
    (hb : (s.tc t).heats = []) : ∃ y, (s.tile t).Settles y ∧ SameTiles (s.setTile t y) (s.settle t) := by
  have hbound : s.atBoundary t = true := by rw [State.atBoundary, hb]; rfl
  have left : ∃ y, (s.tile t).Settles y ∧ SameTiles (s.setTile t y) s :=
    ⟨_, ⟨rfl, rfl, rfl, rfl⟩, sameTiles_setTile_self s t⟩
  have becomes {y : Tile} (h : (s.tile t).Settles y) :
      ∃ z, (s.tile t).Settles z ∧ SameTiles (s.setTile t z) (s.setTile t y) := ⟨y, h, .refl _⟩
  unfold State.settle
  dsimp only
  split
  · exact left
  · cases s.wants t with
    | none =>
      dsimp only
      split_ifs with _ _ hidle
      · exact becomes ⟨rfl, rfl, rfl, rfl⟩
      · exact becomes ⟨rfl, rfl, rfl, rfl⟩
      · rw [hp] at hidle
        exact absurd hidle.1 (by decide)
      · exact left
    | some c =>
      simp only [hc]
      split_ifs
      · exact left
      · exact left
      · exact becomes ⟨rfl, rfl, rfl, rfl⟩

/-! ## The heat leaves its tile (R184, R201) -/

theorem Recorded.setTile {s u : State} (h : Recorded s u) (t : Nat) (x : Tile) :
    Recorded (s.setTile t x) (u.setTile t x) where
  rest := by rw [h.rest]; rfl
  regs := h.regs
  quiet := h.quiet

/-- `s` with another state of the Dispatcher. -/
def State.withDsp (s : State) (d : Dsp) : State := { s with dsp := d }

theorem Recorded.withDsp {s u : State} (h : Recorded s u) (d : Dsp) : Recorded (s.withDsp d) (u.withDsp d) where
  rest := by rw [h.rest]; rfl
  regs := h.regs
  quiet := h.quiet

theorem Recorded.dsp {s u : State} (h : Recorded s u) : u.dsp = s.dsp := by rw [h.rest]

/-- What a tile shows when the only heat on it has ended. -/
def Tile.heatOff (x : Tile) (h : Heat) : Tile :=
  { x with
    lastHeat := h.num, served := (h.solve.map (fun r => (h.ctx, r.tmpl))).or x.served
    tc := { x.tc with heats := [] } }

/-- The step of `State.endHeat` on one tile. -/
def State.heatLeaves (s : State) (h : Heat) (u : Nat) : State :=
  match (s.tc u).heat? h.num with
  | some x =>
    let held := (s.tc u).third
    let s := (s.eventCtx u 0x02 h.ctx h.num x.layer x.oper x.worst x.nfb).cmdEnd u 8 h.num
    let s := s.modTc u (fun y => { y with heats := y.heats.filter (fun z => z.num != h.num) })
    let s := s.modTile u (fun y => { y with
      lastHeat := h.num, served := (x.solve.map (fun r => (h.ctx, r.tmpl))).or y.served })
    if held && !(s.tc u).third then s.resnap u h.ctx else s
  | none => s

/-- The only heat of a tile leaves it, with its event and the end of its record. -/
theorem heatLeaves_only {s : State} {t : Nat} {h : Heat} (ht : t < 64) (hh : (s.tc t).heats = [h]) :
    Recorded (s.setTile t ((s.tile t).heatOff h)) (s.heatLeaves h t) := by
  have hfind : (s.tc t).heat? h.num = some h := by rw [TCtx.heat?, hh, List.find?_cons, beq_self_eq_true]
  have hthird : (s.tc t).third = false := by simp [TCtx.third, hh]
  have hrec : Recorded s ((s.eventCtx t 0x02 h.ctx h.num h.layer h.oper h.worst h.nfb).cmdEnd t 8 h.num) :=
    cmdEnd_recorded _ _ _ (eventCtx_observed _ _ _ _ _ _ _ _ ht (Observed.refl s)).recorded
  unfold State.heatLeaves
  rw [hfind]
  dsimp only
  rw [hthird, Bool.false_and, if_neg Bool.false_ne_true]
  generalize (s.eventCtx t 0x02 h.ctx h.num h.layer h.oper h.worst h.nfb).cmdEnd t 8 h.num = v at hrec ⊢
  have htile : v.tile t = s.tile t := hrec.tile t
  have hnone : (v.tc t).heats.filter (fun z => z.num != h.num) = [] := by
    rw [hrec.tc, hh]; simp
  simp only [State.modTile, State.modTc, State.setTc, hnone, State.tile_setTile, State.setTile_setTile]
  rw [State.tc, htile]
  exact hrec.setTile t _

/-! ## The Dispatcher counts the heat (R179, R317) -/

/-- Whether a lookahead entry is the running one of a heat. -/
def LookEntry.runs (e : LookEntry) (h : Heat) : Bool := e.state == .running && e.ctx == h.ctx && e.heat == h.num

/-- The Dispatcher when a heat has ended, with no BE heat placed: the context's account, the count of committed
problems, and the lookahead. -/
def Dsp.heatEnded (d : Dsp) (h : Heat) (serves : Bool) : Dsp :=
  { d with
    acct := if serves then tput d.acct h.ctx { tget {} d.acct h.ctx with heats := (tget {} d.acct h.ctx).heats + 1 }
      else d.acct
    ended := tput d.ended (h.ctx * 2 ^ 32 + h.num) h.commits.length
    look := d.look.filter (fun e => !e.runs h) }

theorem heldTrigger_none {s : State} (h : s.dsp.heldTrig = []) (i : Nat) : s.heldTrigger i = s := by
  rw [State.heldTrigger, h]
  exact if_neg Bool.false_ne_true

theorem acct_dsp (s : State) (c : Nat) (f : Acct → Acct) : s.acct c f = s.withDsp { s.dsp with
    acct := if s.serves c then tput s.dsp.acct c (f (tget {} s.dsp.acct c)) else s.dsp.acct } := by
  unfold State.acct
  cases s.serves c <;> rfl

/-- The part of `State.endHeat` behind the tiles that the heat leaves. -/
def State.heatCounted (s : State) (h : Heat) : State :=
  let s := s.acct h.ctx (fun a => { a with heats := a.heats + 1 })
  let d := tput s.dsp.ended (h.ctx * 2 ^ 32 + h.num) h.commits.length
  let s := { s with dsp := { s.dsp with ended := d } }
  let ev := s.dsp.look.find? (fun e => e.runs h)
  let mine (r : BeRun) : Bool := r.ctx == h.ctx && r.heat == h.num
  let be := s.dsp.be.any mine
  let s := s.withDsp { s.dsp with
    look := s.dsp.look.filter (fun e => !e.runs h), be := s.dsp.be.filter (fun r => !mine r) }
  let s := if be then s.endLoans h.ctx h.tiles else s
  let s := if be then s.tilesDo h.tiles (fun u s => s.modTile u (fun x => { x with preDue := none })) else s
  let s := ((s.kickAll h.tiles).settleAll h.tiles).beginBe
  match ev with
  | some e => if e.evt then s.heldTrigger e.idx else s
  | none => s

theorem endHeat_steps (s : State) (h : Heat) : s.endHeat h =
    ((s.each (h.tiles.take 1) State.recordHeats).tilesDo h.tiles (fun u s => s.heatLeaves h u)).heatCounted h := rfl

/-- With no BE heat placed and no trigger held, the Dispatcher counts the heat and its tiles, at rest, settle. -/
theorem heatCounted_rest {s : State} {h : Heat} (hbe : s.dsp.be = []) (htrig : s.dsp.heldTrig = [])
    (hq : ∀ u ∈ h.tiles, (s.tc u).atRest) :
    ∃ v, SameTiles (s.withDsp (s.dsp.heatEnded h (s.serves h.ctx))) v ∧ s.heatCounted h = v.settleAll h.tiles := by
  have hsame : SameTiles (s.withDsp (s.dsp.heatEnded h (s.serves h.ctx)))
      ((s.withDsp (s.dsp.heatEnded h (s.serves h.ctx))).kickAll h.tiles) := kickAll_atRest hq
  have hdsp : ((s.withDsp (s.dsp.heatEnded h (s.serves h.ctx))).kickAll h.tiles).dsp
      = s.dsp.heatEnded h (s.serves h.ctx) := by rw [hsame.rest]; rfl
  refine ⟨_, hsame, ?_⟩
  have hset := (TilesMoved.settleAll ((s.withDsp (s.dsp.heatEnded h (s.serves h.ctx))).kickAll h.tiles) h.tiles).dsp
  rw [hdsp] at hset
  have hb := beginBe_none (congrArg Dsp.be hset |>.trans hbe)
  have ht := heldTrigger_none (congrArg Dsp.heldTrig hset |>.trans htrig)
  have hbe' : (s.dsp.heatEnded h (s.serves h.ctx)) = { s.dsp.heatEnded h (s.serves h.ctx) with be := [] } := by
    rw [← hbe]; rfl
  rw [hbe'] at hb ht ⊢
  unfold State.heatCounted
  rw [acct_dsp]
  dsimp only [State.withDsp, Dsp.heatEnded] at hb ht ⊢
  simp only [hbe, List.any_nil, List.filter_nil, Bool.false_eq_true, if_false, hb, ht, ite_self]
  split <;> rfl

/-! ## HEAT_COMPLETE -/

theorem SameTiles.setTile {s u : State} (h : SameTiles s u) (t : Nat) (y : Tile) :
    SameTiles (s.setTile t y) (u.setTile t y) where
  rest := by rw [h.rest]; rfl
  tile k := by
    by_cases hk : k = t
    · subst hk; rw [State.tile_setTile, State.tile_setTile]
    · rw [State.tile_setTile_ne _ _ hk, State.tile_setTile_ne _ _ hk, h.tile]

/-- HEAT_COMPLETE looks at the only heat of its tile. -/
theorem heatComplete_only {s : State} {t : TileNo} {h : Heat} (hh : (s.tc t.val).heats = [h])
    (ht : h.tiles = [t.val]) :
    exec (.heatComplete t) s = .next (if s.heatDone t.val h then s.endHeat h else s) := by
  show execHeatComplete t s = _
  rw [execHeatComplete, hh, List.find?_cons, ht]
  simp only [List.all_cons, List.all_nil, Bool.and_true, List.find?_nil]
  cases s.heatDone t.val h <;> rfl

/-- The only heat of a tile at rest ends (R184, R201): it leaves its tile, which settles, and the Dispatcher counts
it. -/
theorem endHeat_only {s : State} {t : Nat} {h : Heat} (h32 : t < 64) (hh : (s.tc t).heats = [h]) (ht : h.tiles = [t])
    (hc : (s.tile t).ctx = some h.ctx) (hp : (s.tile t).power = .run) (hrest : (s.tc t).atRest)
    (hbe : s.dsp.be = []) (htrig : s.dsp.heldTrig = []) :
    ∃ v y, Recorded (s.setTile t ((s.tile t).heatOff h)) v ∧ ((s.tile t).heatOff h).Settles y
      ∧ SameTiles ((v.withDsp (v.dsp.heatEnded h (v.serves h.ctx))).setTile t y) (s.endHeat h) := by
  have hrec := heatLeaves_only h32 hh
  have htile : (s.heatLeaves h t).tile t = (s.tile t).heatOff h := (hrec.tile t).trans (State.tile_setTile _ _ _)
  have hdsp : (s.heatLeaves h t).dsp = s.dsp := hrec.dsp
  have hq : ((s.heatLeaves h t).tc t).atRest := by
    obtain ⟨hslots, hqa, hqt, hqc, hqb, horder, hhold, -⟩ := hrest
    rw [State.tc, htile]
    exact ⟨hslots, hqa, hqt, hqc, hqb, horder, hhold, fun _ hx => absurd hx List.not_mem_nil⟩
  obtain ⟨v, hsame, hend⟩ := heatCounted_rest (h := h) (hdsp ▸ hbe) (hdsp ▸ htrig) (by
    rw [ht]; exact fun u hu => List.mem_singleton.1 hu ▸ hq)
  have hvt : v.tile t = (s.tile t).heatOff h := (hsame.tile t).trans htile
  obtain ⟨y, hy, hset⟩ := settle_boundary (s := v) (t := t) (d := h.ctx) (by rw [hvt]; exact hc)
    (by rw [hvt]; exact hp) (by rw [State.tc, hvt]; rfl)
  refine ⟨_, y, hrec, hvt ▸ hy, ?_⟩
  have hsteps : s.endHeat h = v.settle t := by
    rw [endHeat_steps, ht]
    show ((s.recordHeats t).heatLeaves h t).heatCounted h = _
    rw [recordHeats_recorded hrest.recorded, hend, ht]
    rfl
  rw [hsteps]
  exact (hsame.setTile t y).trans hset

/-- What HEAT_COMPLETE leaves of the only heat of a tile at rest. -/
theorem endHeat_leaves {s : State} {t : Nat} {h : Heat} (h32 : t < 64) (hh : (s.tc t).heats = [h])
    (ht : h.tiles = [t]) (hctx : h.ctx < 64) (hc : (s.tile t).ctx = some h.ctx) (hp : (s.tile t).power = .run)
    (hrest : (s.tc t).atRest) (hbe : s.dsp.be = []) (htrig : s.dsp.heldTrig = []) :
    ((s.tile t).heatOff h).Settles ((s.endHeat h).tile t)
      ∧ (s.endHeat h).dsp = s.dsp.heatEnded h (s.serves h.ctx)
      ∧ (∀ k, k ≠ t → (s.endHeat h).tile k = s.tile k)
      ∧ (s.endHeat h).loans = s.loans ∧ (s.endHeat h).faults = s.faults := by
  obtain ⟨v, y, hrec, hy, hsame⟩ := endHeat_only h32 hh ht hc hp hrest hbe htrig
  have hserves : v.serves h.ctx = s.serves h.ctx := hrec.serves hctx
  refine ⟨?_, ?_, fun k hk => ?_, ?_, ?_⟩
  · rw [hsame.tile, State.tile_setTile]; exact hy
  · rw [hsame.rest, ← hserves, ← show v.dsp = s.dsp from hrec.dsp]; rfl
  · rw [hsame.tile, State.tile_setTile_ne _ _ hk]
    exact (hrec.tile k).trans (State.tile_setTile_ne _ _ hk)
  · rw [hsame.rest]; show v.loans = _; rw [hrec.rest]; rfl
  · rw [hsame.rest]; show v.faults = _; rw [hrec.rest]; rfl

/-! ## The count, the account and the entry of an ended heat -/

theorem heatEnded_ended (d : Dsp) (h : Heat) (b : Bool) :
    tget 0 (d.heatEnded h b).ended (h.ctx * 2 ^ 32 + h.num) = h.commits.length := tget_tput_self _ _ _ _

theorem heatEnded_acct (d : Dsp) (h : Heat) :
    (tget {} (d.heatEnded h true).acct h.ctx).heats = (tget {} d.acct h.ctx).heats + 1 :=
  congrArg Acct.heats (tget_tput_self _ _ _ _)

theorem heatEnded_look {d : Dsp} {h : Heat} {b : Bool} {e : LookEntry} (he : e ∈ (d.heatEnded h b).look) :
    ¬ (e.state = .running ∧ e.ctx = h.ctx ∧ e.heat = h.num) := by
  have hr := (List.mem_filter.1 he).2
  rintro ⟨h1, h2, h3⟩
  rw [LookEntry.runs, h1, h2, h3] at hr
  simp at hr

/-! ## Set-points from Emit (R24, R171, R228) -/

/-- A set-point that its loop takes: TARGET changes, and the loop remembers the cycle. -/
def State.setpointTaken (s : State) (w : EmitWrite) : State :=
  (s.setTarget w.loop w.value).modLoop w.loop (fun x => { x with emitAt := some s.now })

theorem rget_setpointTaken (s : State) (w : EmitWrite) (a : Nat) :
    (s.setpointTaken w).rget a = (s.rset (loopA w.loop 0x4C) w.value).rget a :=
  (rget_setLoop _ _ _ _).trans (rget_setLoop _ _ _ _)

theorem setpointTaken_moved (s : State) (w : EmitWrite) : PortMoved s (s.setpointTaken w) :=
  ((PortMoved.rset s _ _).trans (.setLoop _ _ _)).trans (.setLoop _ _ _)

theorem loopFlags_eq_flagged (s : State) (n bit : Nat) : s.loopFlags n (2 ^ bit) = s.flagged n bit := rfl

/-- Whether a loop takes set-points of a context: it is enabled, in the context's partition, and the context is not
BE (R228). -/
def State.loopTakes (s : State) (w : EmitWrite) : Prop :=
  s.loopEn w.loop = true ∧ s.ctxBE w.ctx = false ∧ s.rfld (loopA w.loop 0x18) 0 4 = s.ctxPart w.ctx

/-- EMIT_SETPOINT_ARRIVAL on the state that has taken the oldest set-point from the way. -/
def State.setpointArrives (s : State) (w : EmitWrite) : State :=
  if (!(s.loopEn w.loop && !s.ctxBE w.ctx && s.rfld (loopA w.loop 0x18) 0 4 == s.ctxPart w.ctx)) = true then
    (s.loopFlags w.loop (2 ^ fEmref)).event 59 0x0C ⟨w.ctx, s.ctxBib w.ctx, 0, 0, 0⟩ w.loop fEmref
  else if (s.loop w.loop).hostAt = some s.now then s.loopFlags w.loop (2 ^ fTcoll)
  else s.setpointTaken w

theorem emitSetpointArrival_cons {s : State} {w : EmitWrite} {rest : List EmitWrite} (hq : s.emitQ = w :: rest) :
    exec .emitSetpointArrival s = .next (({ s with emitQ := rest } : State).setpointArrives w) := by
  show execEmitSetpointArrival s = _
  rw [execEmitSetpointArrival, hq]
  unfold State.setpointArrives State.setpointTaken
  dsimp only

/-- What becomes of a set-point that arrives: TARGET takes it, TCOLL, or EMREF with its event. -/
theorem setpointArrives_cases (s : State) (w : EmitWrite) :
    (s.loopTakes w → (s.loop w.loop).hostAt ≠ some s.now → s.setpointArrives w = s.setpointTaken w)
    ∧ (s.loopTakes w → (s.loop w.loop).hostAt = some s.now → s.setpointArrives w = s.flagged w.loop 12)
    ∧ (¬ s.loopTakes w → Observed (s.flagged w.loop 11) (s.setpointArrives w)) := by
  have hok : (!(s.loopEn w.loop && !s.ctxBE w.ctx && s.rfld (loopA w.loop 0x18) 0 4 == s.ctxPart w.ctx)) = true
      ↔ ¬ s.loopTakes w := by
    rw [Bool.not_eq_true', ← Bool.not_eq_true, not_iff_not]
    simp [State.loopTakes, and_assoc]
  unfold State.setpointArrives
  refine ⟨fun h hn => ?_, fun h hn => ?_, fun h => ?_⟩
  · rw [if_neg (fun k => hok.1 k h), if_neg hn]
  · rw [if_neg (fun k => hok.1 k h), if_pos hn]
    exact loopFlags_eq_flagged s w.loop 12
  · rw [if_pos (hok.2 h)]
    exact event_observed _ _ _ _ _ (by decide) (.refl _)

/-- Settles O27: `endHeat_leaves` for HEAT_COMPLETE, `setpointArrives_cases` for the set-points. -/
theorem heatsEndAndSetPointsArrive : Obligations.HeatsEndAndSetPointsArrive := by
  unfold Obligations.HeatsEndAndSetPointsArrive
  refine ⟨fun s t h hh ht hctx hc hp => ⟨fun hdone hrest hbe htrig => ?_, fun hdone => ?_⟩,
    fun s w rest hq _ => ?_⟩
  · obtain ⟨hy, hdsp, hother, hloans, hfaults⟩ :=
      endHeat_leaves (by omega) hh ht hctx hc hp hrest hbe htrig
    have hex : exec (.heatComplete t) s = .next (s.endHeat h) := by rw [heatComplete_only hh ht, if_pos hdone]
    refine ⟨s.endHeat h, hex, hy.heats, hy.last, hy.g, hy.f, ?_, fun hs => ?_, fun e he => ?_, hother, hloans,
      hfaults⟩
    · rw [hdsp]; exact heatEnded_ended _ _ _
    · rw [hdsp, hs]; exact heatEnded_acct _ _
    · rw [hdsp] at he; exact heatEnded_look he
  · rw [heatComplete_only hh ht, hdone]; rfl
  · obtain ⟨htaken, hcoll, href⟩ := setpointArrives_cases { s with emitQ := rest } w
    have hex := emitSetpointArrival_cons hq
    refine ⟨fun hok hn => ⟨_, hex.trans (congrArg _ (htaken hok hn)), ?_, fun a ha => ?_, ?_⟩,
      fun hok hn => hex.trans (congrArg _ (hcoll hok hn)), fun hok => ⟨_, hex, href hok⟩⟩
    · rw [rget_setpointTaken, rget_rset_self]
    · rw [rget_setpointTaken, rget_rset_ne _ _ ha]; rfl
    · exact (setpointTaken_moved _ w).eq

end Sys2Proof.Machine
end

section
/-!
What events, faults, reads and records of a tile's stages leave: the tiles, and the dumps under way.
-/

namespace Sys2Proof.Machine

/-! ## The tiles -/

theorem rsetWords_tiles (s : State) (a : Nat) (l : List Word) : (s.rsetWords a l).tiles = s.tiles := by
  induction l generalizing s a with
  | nil => rfl
  | cons w l ih => exact ih _ _

theorem streamRec_tiles (s : State) (k : Fin 4) (l pl : List Byte) : (s.streamRec k l pl).tiles = s.tiles := by
  rw [(streamRec_observed s k l pl).rest]

theorem event_tiles (s : State) (q code : Nat) (w : EvOf) (d0 d1 : Nat) : (s.event q code w d0 d1).tiles = s.tiles := by
  simp only [State.event, streamRec_tiles, State.rset_tiles, rsetWords_tiles]

theorem reportFault_tiles (s : State) (cause c t cls : Nat) : (s.reportFault cause c t cls).tiles = s.tiles := by
  have h : ((s.acct c (fun a => { a with faults := a.faults + 1 })).faultRegs c (s.faultWord cause c t)).tiles
      = s.tiles := (faultRegs_tiles _ _ _).trans (acct_tiles s c _)
  rw [reportFault_regs]
  simp only [apply_ite State.tiles, h, ite_self]

theorem faultTile_tiles (s : State) (t c cause cls : Nat) (ids : Option CmdIds) :
    (s.faultTile t c cause cls ids).tiles = s.tiles := by
  have h : ((s.reportFault cause c t cls).eventTile t 0x06 cause t ids).tiles = s.tiles :=
    (event_tiles _ _ _ _ _ _).trans (reportFault_tiles s cause c t cls)
  unfold State.faultTile
  dsimp only
  split
  · exact (event_tiles _ _ _ _ _ _).trans h
  · exact h

theorem eccCapture_tiles (s : State) (a : Nat) : (s.eccCapture a).tiles = s.tiles := by
  unfold State.eccCapture State.eccShow
  dsimp only
  split_ifs <;> rfl

theorem takePoison_tiles (s : State) (k : Nat) : (s.takePoison k).tiles = s.tiles := by
  unfold State.takePoison
  split
  · rfl
  · exact (event_tiles _ _ _ _ _ _).trans (eccCapture_tiles _ _)

theorem readUnits_tiles (s : State) (t c : Nat) (ids : Option CmdIds) (l : List Nat) :
    (s.readUnits t c ids l).tiles = s.tiles := by
  cases l with
  | nil => rfl
  | cons k l => exact (faultTile_tiles _ _ _ _ _ _).trans (foldl_keeps State.tiles takePoison_tiles _ _)

theorem stageReads_tiles (s : State) (t c : Nat) (l : List (Nat × Nat)) (ids : Option CmdIds) :
    (s.stageReads t c l ids).tiles = s.tiles := by
  unfold State.stageReads
  split
  · exact readUnits_tiles _ _ _ _ _
  · exact faultTile_tiles _ _ _ _ _ _

theorem portWrite_tiles (s : State) (t c a : Nat) (l : List Byte) (ids : Option CmdIds) :
    (s.portWrite t c a l ids).tiles = s.tiles := by
  unfold State.portWrite
  split
  · rfl
  · exact faultTile_tiles _ _ _ _ _ _

/-- What a stage reads for a problem changes no tile. -/
theorem slotRead_tiles (s : State) (t c heat prob : Nat) : (s.slotRead t c heat prob).tiles = s.tiles := by
  unfold State.slotRead
  split
  · split
    · rfl
    · dsimp only
      split
      · exact stageReads_tiles _ _ _ _ _
      · exact faultTile_tiles _ _ _ _ _ _
  · rfl

theorem tc_of_tiles {s u : State} (h : u.tiles = s.tiles) (t : Nat) : u.tc t = s.tc t := by
  unfold State.tc State.tile
  rw [h]

/-! ## The dumps under way -/

theorem ringPut_dumps (s : State) (k : Nat) (l : List Byte) : (s.ringPut k l).obs.dumps = s.obs.dumps := by
  unfold State.ringPut State.ringWrite
  dsimp only
  split <;> rfl

theorem obsDrain_dumps (s : State) (n : Nat) : (s.obsDrain n).obs.dumps = s.obs.dumps := by
  induction n generalizing s with
  | zero => rfl
  | succ n ih =>
    unfold State.obsDrain
    split
    · rfl
    · split
      · rfl
      · refine (ih _).trans ((ringPut_dumps _ _ _).trans ?_)
        split <;> rfl

theorem toMemory_dumps (s : State) (k : Fin 4) (l : List Byte) : (s.toMemory k l).obs.dumps = s.obs.dumps := by
  unfold State.toMemory
  split
  · split <;> rfl
  · split
    · rfl
    · exact obsDrain_dumps _ _

theorem sendFrame_dumps (s : State) (k : Nat) (b : List Byte) : (s.sendFrame k b).obs.dumps = s.obs.dumps := by
  unfold State.sendFrame
  split
  · simp only [State.rcount, State.rfldSet, State.rset_obs, State.out_obs]
  · rfl

theorem telemSend_dumps (s : State) (i : Nat) : (s.telemSend i).obs.dumps = s.obs.dumps := by
  unfold State.telemSend
  split
  · rfl
  · dsimp only
    split_ifs
    · rfl
    · rfl
    · exact sendFrame_dumps _ _ _

theorem toPort_dumps (s : State) (k : Nat) (l : List Byte) (i : Nat) : (s.toPort k l i).obs.dumps = s.obs.dumps := by
  unfold State.toPort
  split
  · rfl
  · split_ifs
    · rfl
    · rfl
    · exact foldl_keeps (fun s => s.obs.dumps) (fun s _ => telemSend_dumps s i) _ _

/-- A record of a stream neither begins nor ends a dump. -/
theorem streamRec_dumps (s : State) (k : Fin 4) (l pl : List Byte) : (s.streamRec k l pl).obs.dumps = s.obs.dumps := by
  unfold State.streamRec
  split
  · exact (foldl_keeps (fun s => s.obs.dumps) (fun s i => toPort_dumps s k.val pl i) _ _).trans (toMemory_dumps s k l)
  · split <;> rfl

theorem cmdRecord_dumps (s : State) (t u : Nat) (k : UnitCmd) (b : Bool) :
    (s.cmdRecord t u k b).obs.dumps = s.obs.dumps := by
  unfold State.cmdRecord
  split
  · exact streamRec_dumps _ _ _ _
  · rfl

theorem cmdEnd_dumps (s : State) (t u seq : Nat) : (s.cmdEnd t u seq).obs.dumps = s.obs.dumps := by
  unfold State.cmdEnd
  split
  · rfl
  · exact cmdRecord_dumps _ _ _ _ _

end Sys2Proof.Machine
end

section
/-!
# One problem on a tile

A problem that is alone in a tile's slots, with nothing in the queues (`TCtx.Alone`).  Where stages take it and no dump
holds it (`State.Lone`), it leaves for Emit or for Solve as it is marked, and enters when its tile proceeds
(`Lone.kick`).
-/

namespace Sys2Proof.Machine

/-! ## Heats by number -/

theorem heat?_modHeatNum (c : TCtx) (m n : Nat) {f : Heat → Heat} (hf : ∀ h, (f h).num = h.num) :
    (c.modHeatNum m f).heat? n = (c.heat? n).map (fun h => if h.num = m then f h else h) := by
  have hp : (fun h : Heat => h.num == n) ∘ (fun h => if h.num = m then f h else h) = fun h => h.num == n := by
    funext h
    simp only [Function.comp_apply]
    split
    · rw [hf]
    · rfl
  rw [TCtx.heat?, TCtx.modHeatNum, List.find?_map, hp, TCtx.heat?]

theorem heat?_modHeatNum_isSome (c : TCtx) (m n : Nat) {f : Heat → Heat} (hf : ∀ h, (f h).num = h.num) :
    ((c.modHeatNum m f).heat? n).isSome = (c.heat? n).isSome := by
  rw [heat?_modHeatNum c m n hf, Option.isSome_map]

theorem heat?_modHeatNum_self {c : TCtx} {n : Nat} {h : Heat} (hh : c.heat? n = some h) {f : Heat → Heat}
    (hf : ∀ h, (f h).num = h.num) : (c.modHeatNum n f).heat? n = some (f h) := by
  have hn : h.num = n := beq_iff_eq.1 (List.find?_some (p := fun h : Heat => h.num == n) hh)
  rw [heat?_modHeatNum c n n hf, hh, Option.map_some, if_pos hn]

/-! ## The tile of the problem -/

/-- Slot `k` holds the only problem of a tile, and its queues hold no command. -/
structure TCtx.Alone (c : TCtx) (k : Nat) (sl : Slot) : Prop where
  slots : c.slots = [(k, some sl)]
  qa : c.qa = []
  qb : c.qb = []
  qc : c.qc = []
  qt : c.qt = []

namespace TCtx.Alone

variable {c : TCtx} {k : Nat} {sl : Slot} (h : c.Alone k sl)
include h

theorem live4 : c.live4 = [(k, sl)] := by rw [TCtx.live4, h.slots]; rfl

theorem slotAt : c.slotAt k = some sl := by
  rw [TCtx.slotAt, h.slots, tfind, if_pos rfl]
  rfl

theorem slotOf : c.slotOf sl.heat sl.prob = some (k, sl) := by
  rw [TCtx.slotOf, h.live4, List.find?_cons, beq_self_eq_true, beq_self_eq_true]
  rfl

theorem setSlot (y : Slot) : (c.setSlot k (some y)).Alone k y where
  slots := by rw [TCtx.setSlot, h.slots, tput, if_pos rfl]
  qa := h.qa
  qb := h.qb
  qc := h.qc
  qt := h.qt

theorem modHeatNum (n : Nat) (f : Heat → Heat) : (c.modHeatNum n f).Alone k sl :=
  ⟨h.slots, h.qa, h.qb, h.qc, h.qt⟩

theorem workDone (q u : Nat) : (c.workDone q u).Alone k sl := ⟨h.slots, h.qa, h.qb, h.qc, h.qt⟩

theorem tensorOrder : c.tensorOrder.Alone k sl := ⟨h.slots, h.qa, h.qb, h.qc, h.qt⟩

theorem tfFinal : c.tfFinal.Alone k sl := by
  obtain ⟨w, hw⟩ := tfFinal_fields c
  exact hw ▸ ⟨h.slots, h.qa, h.qb, h.qc, h.qt⟩

theorem fenceDone : c.fenceDone.Alone k sl := by
  obtain ⟨y, hy⟩ := fenceDone_fields c
  exact hy ▸ ⟨h.slots, h.qa, h.qb, h.qc, h.qt⟩

end TCtx.Alone

theorem alone_modTc {s : State} {t k : Nat} {sl : Slot} (h : (s.tc t).Alone k sl) (u : Nat) {g : TCtx → TCtx}
    (hg : ∀ c : TCtx, c.Alone k sl → (g c).Alone k sl) : ((s.modTc u g).tc t).Alone k sl := by
  rw [tc_modTc]
  split
  · exact hg _ h
  · exact h

/-! ## A tile whose problem is at work -/

section
variable {s : State} {t k : Nat} {sl : Slot} (h : (s.tc t).Alone k sl)
include h

/-- With its queues empty a tile starts no command. -/
theorem startHeads_alone (c : Nat) : s.startHeads t c = s := by
  rw [State.startHeads, h.qb]
  dsimp only
  rw [h.qt]
  dsimp only
  rw [h.qc]
  dsimp only
  rw [h.qa]

/-- A problem that waits for no stage stays where it is. -/
theorem advance_settled (hw : sl.waiting = false) (c n : Nat) : s.advance t c n = s := by
  cases n with
  | zero => rfl
  | succ n =>
    rw [State.advance, h.live4]
    dsimp only
    rw [List.filter_cons, hw]
    rfl

end

theorem kickN_settled {s : State} {t k : Nat} {sl : Slot} (h : (s.tc t).Alone k sl) (hw : sl.waiting = false)
    (n : Nat) : ((s.kickN t n).tc t).Alone k sl := by
  induction n generalizing s with
  | zero => exact h
  | succ n ih =>
    rw [State.kickN]
    split
    · have h1 := alone_modTc h t fun _ => TCtx.Alone.tensorOrder
      dsimp only
      rw [advance_settled h1 hw]
      have h2 := alone_modTc h1 t fun _ => TCtx.Alone.tensorOrder
      rw [startHeads_alone h2]
      exact ih (alone_modTc h2 t fun _ => TCtx.Alone.fenceDone)
    · exact h

/-- Heat records change no slot and no queue. -/
theorem recordHeats_alone {s : State} {t k : Nat} {sl : Slot} (h : (s.tc t).Alone k sl) (u : Nat) :
    ((s.recordHeats u).tc t).Alone k sl := by
  have record {v : State} (hv : (v.tc t).Alone k sl) (u : Nat) (x : Heat) (fl : FlagSet) :
      ((v.heatRecord u x fl).tc t).Alone k sl := by
    unfold State.heatRecord
    split
    · exact hv
    · refine alone_modTc ?_ u fun _ hc => hc.modHeatNum _ _
      rw [tc_of_tiles (portWrite_tiles _ _ _ _ _ _)]
      exact hv
  unfold State.recordHeats State.each
  refine List.foldlRecOn (motive := fun v : State => (v.tc t).Alone k sl) _ _ h fun v hv x _ => ?_
  refine List.foldlRecOn (motive := fun v : State => (v.tc t).Alone k sl) _ _ hv fun v hv u _ => ?_
  split
  · exact record hv _ _ _
  · exact hv

/-! ## A problem that a stage can take -/

/-- What of a tile decides whether its units take work. -/
def Tile.stance (x : Tile) : Option Nat × SeqState × Bool × List (Nat × Nat × Bool) × Option Nat :=
  (x.ctx, x.seq, x.inReset, x.stops, x.preq)

theorem unitTakes_congr {s u : State} {t : Nat} (hf : u.faults = s.faults)
    (ht : (u.tile t).stance = (s.tile t).stance) (j : Nat) : u.unitTakes t j = s.unitTakes t j := by
  simp only [Tile.stance, Prod.mk.injEq] at ht
  obtain ⟨hctx, hseq, hreset, hstops, hpreq⟩ := ht
  simp only [State.unitTakes, State.unitRuns, State.working, State.ctxOn, State.hasFault, hf, hctx, hseq, hreset,
    hstops, hpreq]

theorem stance_modTc (s : State) (t : Nat) (g : TCtx → TCtx) : ((s.modTc t g).tile t).stance = (s.tile t).stance := by
  rw [State.modTc, State.setTc, State.tile_setTile]
  rfl

/-- No stage but Tensor and Iterate asks more than to be free. -/
theorem admits_solve_or_emit {sl : Slot} (hst : sl.stage = .solve ∨ sl.stage = .emit) (s : State) (t c : Nat) :
    s.admits t c sl = true := by
  rcases hst with e | e <;> rw [State.admits, e]

/-- A problem does not stand before itself. -/
theorem before_irrefl (c : TCtx) (sl : Slot) : c.before sl sl = false := by
  simp only [TCtx.before, Nat.lt_irrefl, decide_false, Bool.and_false, Bool.or_false]

/-- The only problem of a tile, of a heat on it: Solve and Emit take work, and no dump is under way. -/
structure State.Lone (s : State) (t k : Nat) (sl : Slot) : Prop where
  alone : (s.tc t).Alone k sl
  heat : ((s.tc t).heat? sl.heat).isSome = true
  dumps : s.obs.dumps = []
  solve : s.unitTakes t 3 = true
  emit : s.unitTakes t 5 = true

namespace State.Lone

variable {s u : State} {t k : Nat} {sl y : Slot} (h : s.Lone t k sl)
include h

theorem moved (hd : u.obs.dumps = s.obs.dumps) (hf : u.faults = s.faults) (ht : (u.tile t).stance = (s.tile t).stance)
    (ha : (u.tc t).Alone k y) (hh : ((u.tc t).heat? y.heat).isSome = true) : u.Lone t k y where
  alone := ha
  heat := hh
  dumps := hd.trans h.dumps
  solve := (unitTakes_congr hf ht 3).trans h.solve
  emit := (unitTakes_congr hf ht 5).trans h.emit

theorem modTc {g : TCtx → TCtx} (ha : (g (s.tc t)).Alone k y) (hh : ((g (s.tc t)).heat? y.heat).isSome = true) :
    (s.modTc t g).Lone t k y := by
  have hc : (s.modTc t g).tc t = g (s.tc t) := State.tc_setTc _ _ _
  exact h.moved rfl rfl (stance_modTc s t g) (hc ▸ ha) (hc ▸ hh)

theorem modHeatNum (n : Nat) {f : Heat → Heat} (hf : ∀ h, (f h).num = h.num) :
    (s.modTc t (fun c => c.modHeatNum n f)).Lone t k sl :=
  h.modTc (h.alone.modHeatNum n f) ((heat?_modHeatNum_isSome _ _ _ hf).trans h.heat)

theorem modSolve (n : Nat) (f : SolveRun → SolveRun) : (s.modSolve t n f).Lone t k sl :=
  h.modHeatNum n fun _ => rfl

theorem recorded (hr : Recorded s u) (hd : u.obs.dumps = s.obs.dumps) : u.Lone t k sl :=
  h.moved hd (by rw [hr.rest]) (by rw [hr.tile]) (by rw [hr.tc]; exact h.alone) (by rw [hr.tc]; exact h.heat)

/-- The problem's slot is changed. -/
theorem modSlot {f : Slot → Slot} (hf : (f sl).heat = sl.heat) :
    (s.modSlot t sl.heat sl.prob f).Lone t k (f sl) := by
  refine h.modTc ?_ ?_
  · rw [h.alone.slotOf]
    exact h.alone.setSlot (f sl)
  · rw [h.alone.slotOf, hf]
    exact h.heat

/-- The problem leaves stages before Emit: its SOLVE's work there may end (R202). -/
theorem leave (c n : Nat) {l : List Nat} (hl : 5 ∉ l) : (s.leave t c n l).Lone t k sl := by
  unfold State.leave State.each
  have final {v : State} (hv : v.Lone t k sl) : (v.modTc t TCtx.tfFinal).Lone t k sl := by
    refine hv.modTc hv.alone.tfFinal ?_
    obtain ⟨w, hw⟩ := tfFinal_fields (v.tc t)
    rw [hw]
    exact hv.heat
  refine final (List.foldlRecOn (motive := fun v : State => v.Lone t k sl) _ _ h fun v hv u hu => ?_)
  have h1 := hv.modSolve n (fun r => { r with left := lset r.left u (lget 0 r.left u + 1) })
  dsimp only
  split
  · next r _ =>
    have h2 := h1.modTc (g := fun x => x.workDone r.seq u) (h1.alone.workDone r.seq u) h1.heat
    have h3 := h2.recorded (cmdEnd_recorded t u r.seq (.refl _)) (cmdEnd_dumps _ t u r.seq)
    split_ifs with _ h5
    · exact absurd (h5 ▸ hu) hl
    · exact h3
    · exact h1
  · exact h1

theorem leftSolve (c pf : Nat) : (s.leftSolve t c sl.heat pf).Lone t k sl := by
  unfold State.leftSolve
  have h1 := h.modSolve sl.heat (fun r => { r with solvDone := r.solvDone + 1, solvOr := r.solvOr ||| pf })
  dsimp only
  split
  · refine h1.moved rfl rfl ?_ ?_ ?_
    · rw [State.modTile, State.tile_setTile]
      split <;> rfl
    · rw [State.modTile, State.tc, State.tile_setTile]
      split <;> exact h1.alone
    · rw [State.modTile, State.tc, State.tile_setTile]
      split <;> exact h1.heat
  · exact h1

theorem quitSolve (c : Nat) : (s.quitSolve t c sl).Lone t k sl := by
  unfold State.quitSolve
  split
  · exact h.leftSolve c sl.pflag
  · exact h

/-- A marked problem waits for Emit (R172, R173). -/
theorem skipToEmit (c mark : Nat) : (s.skipToEmit t c sl.heat sl.prob mark).Lone t k
    { sl with stage := .emit, waiting := true, mark := mark, due := false } := by
  have hl : 5 ∉ (List.range 5).filter (fun u => decide (sl.stage.idx ≤ u)) :=
    fun hm => absurd (List.mem_range.1 (List.mem_filter.1 hm).1) (by decide)
  unfold State.skipToEmit
  rw [h.alone.slotOf]
  exact ((h.quitSolve c).modSlot rfl).leave c _ hl

/-- Missed in Factor, the problem waits for Emit (R172). -/
theorem leaveFactor_missed (hst : sl.stage = .factor) (hw : sl.waiting = false) (hm : sl.mark = 6) (c : Nat) :
    (s.leaveFactor t c sl.heat sl.prob).Lone t k
      { sl with stage := .emit, waiting := true, mark := 6, due := false } := by
  unfold State.leaveFactor
  rw [h.alone.slotOf]
  dsimp only
  rw [if_pos ⟨hst, hw, hm⟩]
  exact h.skipToEmit c 6

/-- On a stale factor, the problem waits for Solve (R172). -/
theorem leaveFactor_stale (hst : sl.stage = .factor) (hw : sl.waiting = false) (hm : sl.mark ≠ 6)
    (hs : sl.staleFac = true) (c : Nat) :
    (s.leaveFactor t c sl.heat sl.prob).Lone t k { sl with stage := .solve, waiting := true } := by
  unfold State.leaveFactor
  rw [h.alone.slotOf]
  dsimp only
  rw [if_neg (fun e => hm e.2.2), if_pos ⟨hst, hw, hs⟩]
  exact (h.modSlot rfl).leave c _ (by decide)

theorem leaveFactor_other (hst : sl.stage ≠ .factor) (c : Nat) : s.leaveFactor t c sl.heat sl.prob = s := by
  unfold State.leaveFactor
  rw [h.alone.slotOf]
  dsimp only
  rw [if_neg (fun e => hst e.1), if_neg (fun e => hst e.1)]

theorem solveStart (c j n : Nat) (r : SolveRun) : (s.solveStart t j c n r).Lone t k sl := by
  unfold State.solveStart
  split
  · exact h
  · exact h.recorded (cmdStart_recorded _ _ _ _ _ (.refl s)) rfl

/-- The problem enters Solve or Emit. -/
theorem enterStage (hst : sl.stage = .solve ∨ sl.stage = .emit) (c : Nat) :
    (s.enterStage t c sl.heat sl.prob sl.stage).Lone t k { sl with waiting := false } := by
  obtain ⟨x, hx⟩ := Option.isSome_iff_exists.1 h.heat
  have enter {v : State} (hv : v.Lone t k sl) :
      (v.modTc t (fun c => c.setSlot k (some { sl with waiting := false }))).Lone t k { sl with waiting := false } :=
    hv.modTc (hv.alone.setSlot _) hv.heat
  unfold State.enterStage
  rw [h.alone.slotOf, hx]
  cases hs : x.solve with
  | none => rcases hst with e | e <;> simpa only [e, hs] using enter h
  | some r => rcases hst with e | e <;> simpa only [e, hs] using enter (h.solveStart c _ sl.heat r)

theorem takes (hst : sl.stage = .solve ∨ sl.stage = .emit) : s.unitTakes t sl.stage.idx = true := by
  rcases hst with e | e <;> rw [e]
  · exact h.solve
  · exact h.emit

theorem not_held (j : Nat) : s.probHeld t sl.heat sl.prob = false ∧ s.unitHeld t j = false := by
  rw [State.probHeld, State.unitHeld, h.dumps]
  exact ⟨rfl, rfl⟩

theorem not_busy (hw : sl.waiting = true) (st : StageName) : (s.tc t).busy st = false := by
  rw [TCtx.busy, h.alone.live4, List.any_cons, hw, Bool.not_true, Bool.and_false]
  rfl

/-- A problem that waits for Solve or Emit, which is free, enters. -/
theorem advance (hst : sl.stage = .solve ∨ sl.stage = .emit) (hw : sl.waiting = true) (c n : Nat) :
    ((s.advance t c (n + 1)).tc t).Alone k { sl with waiting := false } := by
  have hready : s.advance t c (n + 1)
      = ((s.enterStage t c sl.heat sl.prob sl.stage).slotRead t c sl.heat sl.prob).advance t c n := by
    obtain ⟨hprob, hunit⟩ := h.not_held sl.stage.idx
    rw [State.advance, h.alone.live4]
    dsimp only
    rw [List.filter_cons_of_pos (by
      simp only [hw, h.not_busy hw, hprob, hunit, h.takes hst, admits_solve_or_emit hst, before_irrefl, List.all_cons,
        List.all_nil, Bool.false_and, Bool.not_false, Bool.true_or, Bool.and_true])]
    dsimp only
    rw [(h.enterStage hst c).leaveFactor_other (by rcases hst with e | e <;> rw [e] <;> decide) c]
  have he := h.enterStage hst c
  rw [hready]
  have hr : (((s.enterStage t c sl.heat sl.prob sl.stage).slotRead t c sl.heat sl.prob).tc t).Alone k
      { sl with waiting := false } := by
    rw [tc_of_tiles (slotRead_tiles _ _ _ _ _)]
    exact he.alone
  rw [advance_settled hr rfl]
  exact hr

/-- A problem that waits for Solve or Emit enters when its tile proceeds. -/
theorem kick (hst : sl.stage = .solve ∨ sl.stage = .emit) (hw : sl.waiting = true) :
    ((s.kick t).tc t).Alone k { sl with waiting := false } := by
  have hwork : s.working t = true := by
    have hs := h.solve
    simp only [State.unitTakes, State.unitRuns, Bool.and_eq_true] at hs
    exact hs.1.1
  refine recordHeats_alone ?_ t
  rw [State.kickN, if_pos hwork]
  dsimp only
  have ho := h.modTc (g := TCtx.tensorOrder) h.alone.tensorOrder h.heat
  have h1 := alone_modTc (ho.advance hst hw (s.ctxOn t) 15) t fun _ => TCtx.Alone.tensorOrder
  rw [startHeads_alone h1]
  exact kickN_settled (alone_modTc h1 t fun _ => TCtx.Alone.fenceDone) rfl 4

end State.Lone

end Sys2Proof.Machine
end

section
/-!
# Cut points (O28)

C_fac and C_out act on the heat wherever it stands (`State.modHeatAny`), and at once on the tiles where it runs: for a
context on one tile, on that tile (`cutPointFac_one`, `cutPointOut_one`).  The problem that is alone there is marked and
leaves for Solve or Emit, which it enters when its tile proceeds.
-/

namespace Sys2Proof.Machine

/-! ## A heat changed wherever it stands (R175) -/

/-- The step of `State.modHeatAny` on one tile. -/
def State.modHeatOn (s : State) (c n : Nat) (f : Heat → Heat) (u : Nat) : State :=
  if (s.tile u).ctx = some c then s.modTc u (fun x => x.modHeatNum n f) else s

/-- A tile with a heat of its context changed, where its context is `c`. -/
def Tile.withHeat (x : Tile) (c n : Nat) (f : Heat → Heat) : Tile :=
  if x.ctx = some c then { x with tc := x.tc.modHeatNum n f } else x

theorem modHeatOn_tile (s : State) (c n : Nat) (f : Heat → Heat) (u j : Nat) :
    (s.modHeatOn c n f u).tile j = if j = u then (s.tile j).withHeat c n f else s.tile j := by
  unfold State.modHeatOn Tile.withHeat
  by_cases hj : j = u
  · subst hj
    rw [if_pos rfl]
    split
    · exact State.tile_setTile _ _ _
    · rfl
  · rw [if_neg hj]
    split
    · exact State.tile_setTile_ne _ _ hj
    · rfl

theorem modHeatOn_all (c n : Nat) (f : Heat → Heat) {l : List Nat} (hl : l.Nodup) (s : State) :
    let u := l.foldl (fun s u => s.modHeatOn c n f u) s
    u = { s with tiles := u.tiles } ∧ ∀ j, u.tile j = if j ∈ l then (s.tile j).withHeat c n f else s.tile j := by
  induction l generalizing s with
  | nil => exact ⟨rfl, fun _ => rfl⟩
  | cons a l ih =>
    obtain ⟨ha, hl⟩ := List.nodup_cons.1 hl
    obtain ⟨hrest, htile⟩ := ih hl (s.modHeatOn c n f a)
    have hstep : s.modHeatOn c n f a = { s with tiles := (s.modHeatOn c n f a).tiles } := by
      unfold State.modHeatOn
      split <;> rfl
    refine ⟨by rw [List.foldl_cons, hrest, hstep], fun j => ?_⟩
    rw [List.foldl_cons, htile, modHeatOn_tile]
    by_cases hj : j = a
    · subst hj
      rw [if_neg ha, if_pos rfl, if_pos List.mem_cons_self]
    · rw [if_neg hj]
      simp only [List.mem_cons, hj, false_or]

/-- `State.modHeatAny` on the tiles, and then on the saved contexts. -/
theorem modHeatAny_steps (s : State) (c n : Nat) (f : Heat → Heat) : ∃ sv, s.modHeatAny c n f =
    { (List.range 32).foldl (fun s u => s.modHeatOn c n f u) s with saved := sv } := by
  unfold State.modHeatAny State.tilesDo State.modHeatOn
  exact ⟨_, rfl⟩

theorem modHeatAny_rest (s : State) (c n : Nat) (f : Heat → Heat) :
    s.modHeatAny c n f = { s with tiles := (s.modHeatAny c n f).tiles, saved := (s.modHeatAny c n f).saved } := by
  obtain ⟨sv, h⟩ := modHeatAny_steps s c n f
  rw [h, (modHeatOn_all c n f (List.nodup_range (n := 32)) s).1]

theorem modHeatAny_tile (s : State) (c n : Nat) (f : Heat → Heat) {j : Nat} (hj : j < 32) :
    (s.modHeatAny c n f).tile j = (s.tile j).withHeat c n f := by
  obtain ⟨sv, h⟩ := modHeatAny_steps s c n f
  have ht := (modHeatOn_all c n f (List.nodup_range (n := 32)) s).2 j
  rw [if_pos (List.mem_range.2 hj)] at ht
  generalize (List.range 32).foldl (fun s u => s.modHeatOn c n f u) s = v at h ht
  rw [h]
  exact ht

theorem modHeatAny_tc {s : State} {t c : Nat} (ht : t < 32) (hc : (s.tile t).ctx = some c) (n : Nat)
    (f : Heat → Heat) : (s.modHeatAny c n f).tc t = (s.tc t).modHeatNum n f := by
  rw [State.tc, modHeatAny_tile s c n f ht, Tile.withHeat, if_pos hc]
  rfl

theorem stance_withHeat (x : Tile) (c n : Nat) (f : Heat → Heat) : (x.withHeat c n f).stance = x.stance := by
  unfold Tile.withHeat
  split <;> rfl

theorem State.Lone.modHeatAny {s : State} {t k c : Nat} {sl : Slot} (h : s.Lone t k sl) (ht : t < 32)
    (hc : (s.tile t).ctx = some c) (n : Nat) {f : Heat → Heat} (hf : ∀ h, (f h).num = h.num) :
    (s.modHeatAny c n f).Lone t k sl := by
  have hrest := modHeatAny_rest s c n f
  have htc := modHeatAny_tc ht hc n f
  refine h.moved (by rw [hrest]) (by rw [hrest]) ?_ ?_ ?_
  · rw [modHeatAny_tile s c n f ht, stance_withHeat]
  · exact htc ▸ h.alone.modHeatNum n f
  · rw [htc, heat?_modHeatNum_isSome _ _ _ hf]
    exact h.heat

/-! ## The tile of the heat -/

/-- A heat runs on the only tile of its context. -/
theorem presentOn_one {s : State} {t c n : Nat} (ht : t < 32) (hc : (s.tile t).ctx = some c)
    (hone : ∀ k, k ≠ t → (s.tile k).ctx ≠ some c) (hh : ((s.tc t).heat? n).isSome = true)
    (hw : s.working t = true) : s.presentOn c n = [t] := by
  have hp : ∀ j, ((s.tile j).ctx == some c && ((s.tc j).heat? n).isSome && s.working j) = (j == t) := by
    intro j
    by_cases hj : j = t
    · subst hj
      rw [hc, hh, hw, beq_self_eq_true, beq_self_eq_true]
      rfl
    · rw [beq_false_of_ne (hone j hj), beq_false_of_ne hj]
      rfl
  rw [State.presentOn, List.filter_congr fun j _ => hp j, List.filter_beq,
    List.count_eq_one_of_mem List.nodup_range (List.mem_range.2 ht)]
  rfl

/-- A heat with a deadline on a tile of its context. -/
theorem hasDeadline_of_heat {s : State} {t c n : Nat} {h : Heat} (ht : t < 32) (hc : (s.tile t).ctx = some c)
    (hh : (s.tc t).heat? n = some h) (hd : h.dead = true) : s.hasDeadline c n = true := by
  rw [State.hasDeadline, Bool.or_eq_true]
  refine .inl (List.any_eq_true.2 ⟨t, List.mem_range.2 ht, ?_⟩)
  dsimp only
  rw [hc, hh, beq_self_eq_true, Option.map_some, hd]
  rfl

/-! ## DEADLINE_TIME (R175) -/

/-- The heat is late on its tile. -/
theorem deadlineTime_late {s : State} {t c n : Nat} {h : Heat} (ht : t < 32) (hc : (s.tile t).ctx = some c)
    (hh : (s.tc t).heat? n = some h) :
    ((s.modHeatAny c n (fun h => { h with late := true })).tc t).heat? n = some { h with late := true } := by
  rw [modHeatAny_tc ht hc]
  exact heat?_modHeatNum_self hh fun _ => rfl

/-! ## C_fac (R172) -/

section
variable {s : State} {t c : Nat} {sl : Slot} (hpol : (s.tmpl t c sl.tmpl).fpol = 0)
include hpol

/-- At C_fac a problem that factors takes the committed bank of its structure as a stale factor. -/
theorem enterFactor_stale {b : Nat} (hb : (s.store (s.storeA t c sl.tmpl)).committed = some b)
    (htag : (s.store (s.storeA t c sl.tmpl)).tag = (s.tmpl t c sl.tmpl).stag) :
    ∃ p g, s.enterFactor t c true sl = { sl with
      pflag := p, staleFac := true, bank := some (s.storeA t c sl.tmpl, b), bankHeat := g, due := false } := by
  unfold State.enterFactor factorDue
  simp only [hpol, hb, htag, if_true, Option.isSome_some, and_self]
  exact ⟨_, _, rfl⟩

/-- Without a committed bank it misses. -/
theorem enterFactor_missed (hb : (s.store (s.storeA t c sl.tmpl)).committed = none) :
    ∃ p, s.enterFactor t c true sl = { sl with pflag := p, mark := 6, due := false } := by
  unfold State.enterFactor factorDue
  simp only [hpol, hb, if_true, Option.isSome_none, Bool.false_eq_true, and_false, if_false]
  exact ⟨_, rfl⟩

end

section
variable (s : State) (ts : Tab Tile) (sv : Tab TCtx) (t c : Nat)

theorem tmpl_withTiles (o : Nat) : ({ s with tiles := ts, saved := sv } : State).tmpl t c o = s.tmpl t c o := by
  unfold State.tmpl
  rw [tmplAt_of_mem (s := s) (t := { s with tiles := ts, saved := sv }) rfl]
  rfl

theorem storeA_withTiles (o : Nat) : ({ s with tiles := ts, saved := sv } : State).storeA t c o = s.storeA t c o := rfl

/-- What Factor does at C_fac does not rest on the tiles. -/
theorem enterFactor_withTiles (cut : Bool) (sl : Slot) :
    ({ s with tiles := ts, saved := sv } : State).enterFactor t c cut sl = s.enterFactor t c cut sl := by
  unfold State.enterFactor
  rw [tmpl_withTiles, storeA_withTiles]
  rfl

end

theorem tmpl_modHeatAny (s : State) (c n : Nat) (f : Heat → Heat) (t x o : Nat) :
    (s.modHeatAny c n f).tmpl t x o = s.tmpl t x o := by
  rw [modHeatAny_rest, tmpl_withTiles]

theorem enterFactor_modHeatAny (s : State) (c n : Nat) (f : Heat → Heat) (t x : Nat) (cut : Bool) (sl : Slot) :
    (s.modHeatAny c n f).enterFactor t x cut sl = s.enterFactor t x cut sl := by
  rw [modHeatAny_rest, enterFactor_withTiles]

/-- C_fac on a tile with one problem, which factors. -/
theorem cutFacTile_due {s : State} {t k : Nat} {sl : Slot} (h : s.Lone t k sl) (hst : sl.stage = .factor)
    (hw : sl.waiting = false) (hd : sl.due = true) (ho : sl.own = false) (c : Nat) :
    s.cutFacTile t c sl.heat =
      ((s.modTc t (fun x => x.modHeatNum sl.heat (fun h => { h with cutFac := true }))).modSlot t sl.heat sl.prob
        (fun _ => s.enterFactor t c true sl)).leaveFactor t c sl.heat sl.prob := by
  have h1 := (h.modHeatNum sl.heat (f := fun h => { h with cutFac := true }) fun _ => rfl).alone.live4
  unfold State.cutFacTile State.each
  dsimp only
  rw [h1, List.map_cons, List.map_nil, List.foldl_cons, List.foldl_nil, if_pos ⟨rfl, hst, hw, hd, ho⟩]
  have hf : (s.modTc t (fun x => x.modHeatNum sl.heat (fun h => { h with cutFac := true }))).enterFactor t c true sl
      = s.enterFactor t c true sl := enterFactor_withTiles s _ s.saved t c true sl
  rw [hf]

theorem cutFacTile_stale {s : State} {t k c a b p g : Nat} {sl : Slot} (h : s.Lone t k sl) (hst : sl.stage = .factor)
    (hw : sl.waiting = false) (hd : sl.due = true) (ho : sl.own = false) (hm : sl.mark ≠ 6)
    (hf : s.enterFactor t c true sl =
      { sl with pflag := p, staleFac := true, bank := some (a, b), bankHeat := g, due := false }) :
    (s.cutFacTile t c sl.heat).Lone t k { sl with
      pflag := p, staleFac := true, bank := some (a, b), bankHeat := g, due := false
      stage := .solve, waiting := true } := by
  rw [cutFacTile_due h hst hw hd ho, hf]
  have h1 := h.modHeatNum sl.heat (f := fun h => { h with cutFac := true }) fun _ => rfl
  exact (h1.modSlot (f := fun _ =>
    { sl with pflag := p, staleFac := true, bank := some (a, b), bankHeat := g, due := false }) rfl).leaveFactor_stale
    hst hw hm rfl c

theorem cutFacTile_missed {s : State} {t k c p : Nat} {sl : Slot} (h : s.Lone t k sl) (hst : sl.stage = .factor)
    (hw : sl.waiting = false) (hd : sl.due = true) (ho : sl.own = false)
    (hf : s.enterFactor t c true sl = { sl with pflag := p, mark := 6, due := false }) :
    (s.cutFacTile t c sl.heat).Lone t k { sl with
      pflag := p, mark := 6, due := false, stage := .emit, waiting := true } := by
  rw [cutFacTile_due h hst hw hd ho, hf]
  have h1 := h.modHeatNum sl.heat (f := fun h => { h with cutFac := true }) fun _ => rfl
  exact (h1.modSlot (f := fun _ => { sl with pflag := p, mark := 6, due := false }) rfl).leaveFactor_missed
    hst hw rfl c

/-! ## C_out (R173) -/

/-- C_out on a tile with one problem, not yet in Emit: it is marked by what it has done. -/
theorem cutOutTile_marks {s : State} {t k : Nat} {sl : Slot} (h : s.Lone t k sl) (hst : sl.stage ≠ .emit) (c : Nat) :
    (s.cutOutTile t c sl.heat).Lone t k { sl with
      stage := .emit, waiting := true, due := false
      mark := if sl.stage = .iterate ∧ sl.waiting = false ∧ 0 < sl.iter then
          (if sl.iter = (s.tmpl t c sl.tmpl).k then 0 else 3)
        else 7 } := by
  have h1 := h.modHeatNum sl.heat (f := fun h => { h with cutOut := true }) fun _ => rfl
  have ht : (s.modTc t (fun x => x.modHeatNum sl.heat (fun h => { h with cutOut := true }))).tmpl t c sl.tmpl
      = s.tmpl t c sl.tmpl := tmpl_withTiles s _ s.saved t c sl.tmpl
  unfold State.cutOutTile State.each
  dsimp only
  rw [h1.alone.live4, List.map_cons, List.map_nil, List.foldl_cons, List.foldl_nil,
    if_neg (fun e => e.elim (fun e => e rfl) hst), ht]
  split
  · exact h1.skipToEmit c _
  · exact h1.skipToEmit c 7

/-! ## A cut point on the only tile of a context -/

/-- A tile with a cut point behind it: the heat's mark is taken back, and the tile proceeds. -/
def State.cutDone (s : State) (t n : Nat) (done : Heat → Heat) : State :=
  (s.modTc t (fun x => x.modHeatNum n done)).kick t

/-- The problem that a cut point leaves waiting for Solve or Emit stands there. -/
theorem State.Lone.cutDone {s : State} {t k : Nat} {sl : Slot} (h : s.Lone t k sl) (n : Nat) {done : Heat → Heat}
    (hdone : ∀ h, (done h).num = h.num) (hst : sl.stage = .solve ∨ sl.stage = .emit) (hw : sl.waiting = true) :
    ((s.cutDone t n done).tc t).slotAt k = some { sl with waiting := false } :=
  ((h.modHeatNum n hdone).kick hst hw).slotAt

/-- Tile `t` is the only one of context `c`, and heat `n`, which has a deadline, runs there. -/
structure State.RunsOn (s : State) (t c n : Nat) : Prop where
  tile : t < 32
  ctx : (s.tile t).ctx = some c
  one : s.presentOn c n = [t]
  deadline : s.hasDeadline c n = true

theorem tilesDo_one (s : State) (t : Nat) (f : Nat → State → State) : s.tilesDo [t] f = f t s := rfl

theorem kickAll_one (s : State) (t : Nat) : s.kickAll [t] = s.kick t := rfl

theorem cutPointFac_one {s : State} {t n : Nat} {c : Fin 64} {heat : Word} (hn : heat.toNat = n)
    (h : s.RunsOn t c.val n) : exec (.cutPointFac c heat) s = .next
      (((s.modHeatAny c.val n (fun h => { h with pendFac := true })).cutFacTile t c.val n).cutDone t n
        (fun h => { h with pendFac := false })) := by
  show execCutPointFac c heat s = _
  rw [execCutPointFac, hn]
  dsimp only
  rw [if_pos h.deadline, h.one, kickAll_one, tilesDo_one, State.cutDone]

theorem cutPointOut_one {s : State} {t n : Nat} {c : Fin 64} {heat : Word} (hn : heat.toNat = n)
    (h : s.RunsOn t c.val n) : exec (.cutPointOut c heat) s = .next
      (((s.modHeatAny c.val n (fun h => { h with pendOut := true })).cutOutTile t c.val n).cutDone t n
        (fun h => { h with pendOut := false })) := by
  show execCutPointOut c heat s = _
  rw [execCutPointOut, hn]
  dsimp only
  rw [if_pos h.deadline, h.one, kickAll_one, tilesDo_one, State.cutDone]

section
variable {s : State} {t k n : Nat} {c : Fin 64} {heat : Word} {sl : Slot} (hn : heat.toNat = n)
  (hrun : s.RunsOn t c.val n) (h : s.Lone t k sl) (hh : sl.heat = n)
include hn hrun h hh

/-- C_fac with a committed bank of the same structure. -/
theorem cutPointFac_stale {b : Nat} (hst : sl.stage = .factor) (hw : sl.waiting = false) (hd : sl.due = true)
    (ho : sl.own = false) (hm : sl.mark ≠ 6) (hpol : (s.tmpl t c.val sl.tmpl).fpol = 0)
    (hb : (s.store (s.storeA t c.val sl.tmpl)).committed = some b)
    (htag : (s.store (s.storeA t c.val sl.tmpl)).tag = (s.tmpl t c.val sl.tmpl).stag) :
    ∃ u p g, exec (.cutPointFac c heat) s = .next u ∧ (u.tc t).slotAt k = some { sl with
      pflag := p, staleFac := true, bank := some (s.storeA t c.val sl.tmpl, b), bankHeat := g, due := false
      stage := .solve, waiting := false } := by
  subst hh
  obtain ⟨p, g, hf⟩ := enterFactor_stale hpol hb htag
  have h1 := h.modHeatAny hrun.tile hrun.ctx sl.heat (f := fun h => { h with pendFac := true }) fun _ => rfl
  rw [← enterFactor_modHeatAny s c.val sl.heat (fun h => { h with pendFac := true })] at hf
  exact ⟨_, p, g, cutPointFac_one hn hrun,
    (cutFacTile_stale h1 hst hw hd ho hm hf).cutDone _ (fun _ => rfl) (.inl rfl) rfl⟩

/-- C_fac with no committed bank. -/
theorem cutPointFac_missed (hst : sl.stage = .factor) (hw : sl.waiting = false) (hd : sl.due = true)
    (ho : sl.own = false) (hpol : (s.tmpl t c.val sl.tmpl).fpol = 0)
    (hb : (s.store (s.storeA t c.val sl.tmpl)).committed = none) :
    ∃ u p, exec (.cutPointFac c heat) s = .next u ∧ (u.tc t).slotAt k = some { sl with
      pflag := p, mark := 6, due := false, stage := .emit, waiting := false } := by
  subst hh
  obtain ⟨p, hf⟩ := enterFactor_missed hpol hb
  have h1 := h.modHeatAny hrun.tile hrun.ctx sl.heat (f := fun h => { h with pendFac := true }) fun _ => rfl
  rw [← enterFactor_modHeatAny s c.val sl.heat (fun h => { h with pendFac := true })] at hf
  exact ⟨_, p, cutPointFac_one hn hrun,
    (cutFacTile_missed h1 hst hw hd ho hf).cutDone _ (fun _ => rfl) (.inr rfl) rfl⟩

/-- C_out with a problem that is not in Emit. -/
theorem cutPointOut_marks (hst : sl.stage ≠ .emit) : ∃ u, exec (.cutPointOut c heat) s = .next u
    ∧ (u.tc t).slotAt k = some { sl with
        stage := .emit, waiting := false, due := false
        mark := if sl.stage = .iterate ∧ sl.waiting = false ∧ 0 < sl.iter then
            (if sl.iter = (s.tmpl t c.val sl.tmpl).k then 0 else 3)
          else 7 } := by
  subst hh
  have h1 := h.modHeatAny hrun.tile hrun.ctx sl.heat (f := fun h => { h with pendOut := true }) fun _ => rfl
  have hmark := cutOutTile_marks h1 hst c.val
  rw [tmpl_modHeatAny] at hmark
  exact ⟨_, cutPointOut_one hn hrun, hmark.cutDone _ (fun _ => rfl) (.inr rfl) rfl⟩

end

/-- A heat without a deadline has no cut points and is never late. -/
theorem no_deadline {s : State} {c : Fin 64} {heat : Word} (h : s.hasDeadline c.val heat.toNat = false) :
    exec (.cutPointFac c heat) s = .next s ∧ exec (.cutPointOut c heat) s = .next s
      ∧ exec (.deadlineTime c heat) s = .next s := by
  refine ⟨?_, ?_, ?_⟩
  · show execCutPointFac c heat s = _
    simp only [execCutPointFac, h, Bool.false_eq_true, if_false]
  · show execCutPointOut c heat s = _
    simp only [execCutPointOut, h, Bool.false_eq_true, if_false]
  · show execDeadlineTime c heat s = _
    simp only [execDeadlineTime, h, Bool.false_eq_true, if_false]

/-- Settles O28: C_fac by `cutPointFac_stale` and `cutPointFac_missed`, C_out by `cutPointOut_marks`. -/
theorem cutPoints : Obligations.CutPoints := by
  unfold Obligations.CutPoints
  intro s t x heat h
  dsimp only
  refine ⟨no_deadline, fun hctx hheat hdead => ?_⟩
  have hdl := hasDeadline_of_heat t.isLt hctx hheat hdead
  refine ⟨?_, ?_⟩
  · have hex : exec (.deadlineTime x heat) s
        = .next (s.modHeatAny x.val heat.toNat (fun h => { h with late := true })) := by
      show execDeadlineTime x heat s = _
      rw [execDeadlineTime, if_pos hdl]
    have hlate := deadlineTime_late t.isLt hctx hheat
    have hrest := modHeatAny_rest s x.val heat.toNat (fun h => { h with late := true })
    exact ⟨_, _, hex, hlate, rfl, hrest⟩
  · intro hwork hone hpreq hdumps hqa hqb hqc hqt k sl hslots hn hm h3 h5
    have takes {j : Nat} (hr : s.unitRuns t.val j = true) : s.unitTakes t.val j = true := by
      rw [State.unitTakes, hr, hpreq]; rfl
    have hsome : ((s.tc t.val).heat? heat.toNat).isSome = true := by rw [hheat]; rfl
    have hlone : s.Lone t.val k sl := ⟨⟨hslots, hqa, hqb, hqc, hqt⟩, hn ▸ hsome, hdumps, takes h3, takes h5⟩
    have hrun : s.RunsOn t.val x.val heat.toNat :=
      ⟨t.isLt, hctx, presentOn_one t.isLt hctx hone hsome hwork, hdl⟩
    have hm6 : sl.mark ≠ 6 := by rw [hm]; decide
    refine ⟨fun b hst hw hd ho hb htag hpol => ?_, fun hst hw hd ho hb hpol => ?_, fun hst hw hi hk => ?_,
      fun hst => ?_⟩
    · obtain ⟨u, p, g, hu, hat⟩ := cutPointFac_stale rfl hrun hlone hn hst hw hd ho hm6 hpol hb htag
      exact ⟨u, _, hu, hat, rfl, rfl, rfl, rfl, rfl⟩
    · obtain ⟨u, p, hu, hat⟩ := cutPointFac_missed rfl hrun hlone hn hst hw hd ho hpol hb
      exact ⟨u, _, hu, hat, rfl, rfl, rfl⟩
    · obtain ⟨u, hu, hat⟩ := cutPointOut_marks rfl hrun hlone hn (by rw [hst]; decide)
      rw [if_pos ⟨hst, hw, hi⟩, if_neg hk] at hat
      exact ⟨u, _, hu, hat, rfl, rfl, rfl, rfl⟩
    · obtain ⟨u, hu, hat⟩ := cutPointOut_marks rfl hrun hlone hn (by rw [hst]; decide)
      rw [if_neg (fun e => absurd (hst.symm.trans e.1) (by decide))] at hat
      exact ⟨u, _, hu, hat, rfl, rfl, rfl⟩

end Sys2Proof.Machine
end

section
/-!
A load behind a record that does not end in LPDDR5 (R462): the bytes that the lane reads are those that the record of
its last run has moved, through the buffer of R464, into the scratchpad.
-/

namespace Sys2Proof.Machine

/-! ## A record that leaves LPDDR5 (R462) -/

theorem ringPut_obs (s : State) (k : Nat) (l : List Byte) : (s.ringPut k l).obs = s.obs := by
  unfold State.ringPut State.ringWrite
  dsimp only
  split <;> rfl

theorem ringPut_poison {s : State} (h : s.poison = []) (k : Nat) (l : List Byte) : (s.ringPut k l).poison = [] := by
  unfold State.ringPut State.ringWrite State.mwrite
  dsimp only
  split <;> simp only [State.rset_poison, h, List.filter_nil]

/-- The registers of a ring of no bytes at address 0. -/
def State.sizeless (s : State) (k : Nat) : Prop :=
  s.rfld (obufA k 0) 0 20 = 0 ∧ s.rfld (obufA k 4) 0 16 = 0 ∧ (s.rget (obufA k 8)).toNat = 0

/-- Such a ring takes a record whole, from address 0 on. -/
theorem mget_ringPut_sizeless {s : State} {k i : Nat} {l : List Byte} (h : s.sizeless k) (hi : i < l.length) :
    (s.ringPut k l).mget i = l[i] := by
  obtain ⟨hbase, hsize, hoff⟩ := h
  have hw := mget_mwrite_of_inside (s.mwrite 0 []) 0 i l hi
  rw [Nat.zero_add] at hw
  unfold State.ringPut State.ringWrite
  simp only [hbase, hsize, hoff, Nat.zero_mul, State.mget_rset]
  rw [if_neg (by omega)]
  exact hw

/-- No held record is sent while the bucket is in debt (R464). -/
theorem obsDrain_of_debt {s : State} (h : s.obs.memTok < 0) (n : Nat) : s.obsDrain n = s := by
  cases n with
  | zero => rfl
  | succ n =>
    unfold State.obsDrain
    split
    · rfl
    · exact if_pos h

/-- The first held record, one of stream 3, reaches its ring and leaves the bucket in debt. -/
theorem obsDrain_first {s : State} {l : List Byte} {t : List (Fin 4 × List Byte)} (hbuf : s.obs.buf = (3, l) :: t)
    (htok : s.obs.memTok = 0) (hcap : 0 < s.obsCap) (hl : l ≠ []) (h : s.sizeless 3) (n : Nat) :
    ∃ v : State, v.sizeless 3 ∧ v.poison = s.poison ∧ s.obsDrain (n + 1) = v.ringPut 3 l := by
  have hlen := List.length_pos_iff.2 hl
  have hfree : obufA 3 0 ≠ mshA 0x3008 ∧ obufA 3 4 ≠ mshA 0x3008 ∧ obufA 3 8 ≠ mshA 0x3008 := by decide
  obtain ⟨hbase, hsize, hoff⟩ := h
  unfold State.obsDrain
  rw [hbuf]
  dsimp only
  rw [htok, if_neg (by decide), if_pos rfl, obsDrain_of_debt]
  · refine ⟨_, ⟨?_, ?_, ?_⟩, ?_, rfl⟩
    · exact (rfld_congr (rget_rfldSet_ne _ _ _ _ hfree.1) _ _).trans hbase
    · exact (rfld_congr (rget_rfldSet_ne _ _ _ _ hfree.2.1) _ _).trans hsize
    · exact (congrArg BitVec.toNat (rget_rfldSet_ne _ _ _ _ hfree.2.2)).trans hoff
    · rfl
  · rw [ringPut_obs]
    show max (0 - ((256 * l.length : Nat) : Int)) (-s.obsCap) < 0
    omega

/-- With no subscription, the record of a finished run goes to memory alone (R460). -/
theorem cmdRecord_toMemory {s : State} {u : Nat} (t : Nat) (k : UnitCmd) (b : Bool) (hu : s.unitOn u = true)
    (hon : (s.streamOn (0 : Fin 4).val && !s.coreHold) = true) (hsubs : s.obs.subs = []) :
    ∃ r : List Byte, r.length = 32 ∧ s.cmdRecord t u k b = s.toMemory 0 r := by
  unfold State.cmdRecord State.streamRec
  rw [if_pos hu]
  dsimp only
  rw [if_pos hon, hsubs]
  refine ⟨_, ?_, rfl⟩
  simp only [List.length_append, length_leBytes, List.length_cons, List.length_nil]

/-! ## A lane whose last run ends behind such a record -/

/-- A lane run of another heat, still in progress. -/
def oldRun : UnitCmd := { active := true, heat := 2 }

/-- 4 KiB of scratchpad for context 0; stream 0 and the records of the Scalar Lane on, with a ring of 64 KiB; a memory
bucket of 64 bytes; no ring of stream 3. -/
def recordingRegs : Tab Word :=
  [(ctxA 0 0x08, 0x00010000), (mshA 0x3000, 0x14000000), (mshA 0x3004, 1), (obufA 0 4, 1)]

/-- Tile 0 at the start of heat 1, its lane's last run still open, and a record `l` of stream 3 waiting for memory. -/
def recordingLane (l : List Byte) : State :=
  { ctl := recordingRegs
    obs := { cmds := [(7, [oldRun])], buf := [(3, l)] }
    tiles := [(0, { ctx := some 0, seq := .running, tc := { heats := [loneHeat [0]] } })] }

/-- The run has ended, its record still to be made. -/
def runEnded (l : List Byte) : State := (recordingLane l).setCmds 0 7 [{ oldRun with active := false }]

/-- Its record `r` stands behind the other in the buffer for memory (R464). -/
def recordsWait (l r : List Byte) : State :=
  { runEnded l with obs := { (runEnded l).obs with buf := [(3, l), (0, r)] } }

section
variable (l : List Byte)

theorem recordingLane_ready : (recordingLane l).laneReady 0 := ⟨rfl, rfl⟩

theorem recordingLane_rget (a : Nat) : (recordingLane l).rget a = tget (regReset a) recordingRegs a := rfl

/-- The share of context 0, the memory bucket, and the rings of streams 0 and 3. -/
theorem recordingLane_regs : (recordingLane l).ctxSpad 0 = (0, 0x1000) ∧ 0 < (recordingLane l).obsCap
    ∧ (recordingLane l).rfld (obufA (0 : Fin 4).val 4) 0 16 ≠ 0 ∧ (recordingLane l).sizeless 3 := by
  unfold State.sizeless State.ctxSpad State.obsCap State.rfld
  simp only [recordingLane_rget]
  decide

theorem recordingLane_admits : (recordingLane l).spadAdmits 0 0 0 1 = true := by
  unfold State.spadAdmits
  rw [(recordingLane_regs l).1]
  rfl

theorem recordingLane_mval (a : Nat) : (recordingLane l).mval a 1 = 0 := rfl

theorem recordingLane_endRun : (recordingLane l).endRun 0 = (runEnded l).cmdRecord 0 7 oldRun false := rfl

theorem runEnded_records : (runEnded l).unitOn 7 = true
    ∧ ((runEnded l).streamOn (0 : Fin 4).val && !(runEnded l).coreHold) = true := by
  show (recordingLane []).unitOn 7 = true
    ∧ ((recordingLane []).streamOn (0 : Fin 4).val && !(recordingLane []).coreHold) = true
  decide

/-- The record of the run drives the one before it to memory (R460, R464). -/
theorem recordingLane_start (hl : l ≠ []) :
    ((recordingLane l).laneStart 0).poison = []
      ∧ ∀ i, (hi : i < l.length) → ((recordingLane l).laneStart 0).mget i = l[i] := by
  obtain ⟨-, hcap, hring, hsizeless⟩ := recordingLane_regs l
  obtain ⟨hunit, hon⟩ := runEnded_records l
  obtain ⟨r, hr, hrec⟩ := cmdRecord_toMemory 0 oldRun false hunit hon rfl
  have hheld : (runEnded l).obsHeld = 0 := rfl
  have hput : ∃ v : State, v.sizeless 3 ∧ v.poison = [] ∧ (recordingLane l).endRun 0 = v.ringPut 3 l := by
    rw [recordingLane_endRun, hrec]
    unfold State.toMemory
    rw [if_neg (show ¬ (runEnded l).rfld _ _ _ = 0 from hring), hheld, hr, if_neg (by decide)]
    exact obsDrain_first (s := recordsWait l r) rfl rfl hcap hl hsizeless 1
  have hstart : ∃ o, (recordingLane l).laneStart 0 = { (recordingLane l).endRun 0 with obs := o } := by
    show ∃ o, (recordingLane l).laneIds 0 = _
    unfold State.laneIds
    extract_lets u
    split
    · exact ⟨_, rfl⟩
    · exact ⟨_, rfl⟩
  obtain ⟨v, hv, hvp, hput⟩ := hput
  obtain ⟨o, hstart⟩ := hstart
  rw [hstart, hput]
  exact ⟨ringPut_poison hvp 3 l, fun i hi => mget_ringPut_sizeless hv hi⟩

end

/-! ## A load of a byte -/

/-- An instruction that raises no flag retires. -/
theorem retire_unflagged (s : State) (t pc npc : Nat) (ws : List RegWrite) :
    s.retire t pc npc ⟨ws, [flNone]⟩ = s.setTc t { ws.foldl TCtx.wr (s.tc t) with
      sflag := (s.tc t).sflag ||| flUnion [flNone], pc := npc } := by
  have hnone : flUnion [flNone] &&& s.trapEn t = 0 := by simp [flUnion, flNone]
  unfold State.retire
  dsimp only
  rw [if_pos hnone]

/-- A load on a ready lane writes what the lane's start has left in the scratchpad, where it may reach and finds no
poison. -/
theorem execLd_loads {s v : State} {t : TileNo} (h : s.laneReady t.val) (hv : s.laneStart t.val = v) (rd rs1 : RegNo)
    {aux : Byte} {imm : BitVec 16} (hok : accOk aux = true)
    (hf : v.accFault t.val (v.ctxOn t.val) ((v.tc t.val).accOff rs1.val imm) (accSize aux) false = 0)
    {a : Nat} (ha : spadBase t.val + v.spadOff (v.ctxOn t.val) ((v.tc t.val).accOff rs1.val imm) = a)
    (hp : v.poisoned a (accSize aux) = false) :
    exec (.ld t rd rs1 aux imm) s = .next (({ v with fresh := v.fresh + 1 } : State).setTc t.val
      { (v.tc t.val).wr (loadWrite rd.val aux (Config.loadUpper v.fresh) (v.mval a (accSize aux))) with
        sflag := (v.tc t.val).sflag ||| flUnion [flNone], pc := (v.tc t.val).pc + 8 }) := by
  show execLd t rd rs1 aux imm s = _
  unfold execLd
  unfold State.laneStart at hv
  rw [hok, laneDo_ready h, hv]
  rw [if_neg (by decide)]
  dsimp only
  rw [hf, if_neg (by decide), ha, hp, if_neg Bool.false_ne_true, retire_unflagged,
    mval_of_mem (show ({ v with fresh := v.fresh + 1 } : State).mem = v.mem from rfl)]
  rfl

section
variable {l : List Byte}

/-- The lane's start leaves the share of context 0 and the access of a byte at its first byte. -/
theorem recordingLane_access {v : State} (hv : (recordingLane l).laneStart 0 = v) :
    v.accFault 0 (v.ctxOn 0) ((v.tc 0).accOff 0 0) (accSize 0) false = 0
      ∧ v.spadOff (v.ctxOn 0) ((v.tc 0).accOff 0 0) = 0 := by
  subst hv
  have hkeeps := laneStart_keeps (recordingLane l) 0
  have hctx : ((recordingLane l).laneStart 0).ctxOn 0 = 0 := hkeeps.ctx 0
  have hspad : ((recordingLane l).laneStart 0).ctxSpad 0 = (0, 0x1000) := by
    have hreg : ((recordingLane l).laneStart 0).rget (ctxA 0 0x08) = (recordingLane l).rget (ctxA 0 0x08) :=
      hkeeps.regs _ (by decide)
    rw [← (recordingLane_regs l).1]
    unfold State.ctxSpad
    rw [rfld_congr hreg, rfld_congr hreg]
  have hoff : (((recordingLane l).laneStart 0).tc 0).accOff 0 0 = 0 := by rw [laneStart_tc]; rfl
  rw [hctx, hoff]
  unfold State.accFault State.spadAdmits State.spadOff
  rw [hspad]
  exact ⟨rfl, rfl⟩

/-- A record that reaches the scratchpad of tile 0 reaches the load there. -/
theorem recordingLane_ld (hlen : spadBase 0 < l.length) (hbyte : l[spadBase 0] = 0xFF) :
    ∃ u, exec (.ld 0 1 0 0 0) (recordingLane l) = .next u ∧ (u.tc 0).gr 1 = 0xFF := by
  obtain ⟨hpoison, hmem⟩ := recordingLane_start l (List.length_pos_iff.1 (by omega))
  obtain ⟨v, hv⟩ : ∃ v, (recordingLane l).laneStart 0 = v := ⟨_, rfl⟩
  obtain ⟨hfault, hoff⟩ := recordingLane_access hv
  have hget := (hmem _ hlen).trans hbyte
  rw [hv] at hpoison hget
  have hval : v.mval (spadBase 0) (accSize 0) = 0xFF := by
    show ofLeBytes [v.mget (spadBase 0)] = 0xFF
    rw [hget]
    rfl
  have hmiss : v.poisoned (spadBase 0) (accSize 0) = false := by rw [State.poisoned, hpoison]; rfl
  have hexec := @execLd_loads (recordingLane l) v 0 (recordingLane_ready l) hv 1 0 0 0 rfl hfault (spadBase 0)
    (congrArg (spadBase 0 + ·) hoff) hmiss
  rw [hval] at hexec
  exact ⟨_, hexec, (congrArg (TCtx.gr · 1) (State.tc_setTc ..)).trans (tget_tput_self ..)⟩

end

/-- A record of 2^46 bytes: from address 0 it reaches the scratchpads, whose first byte is at 2^45 (R323). -/
@[irreducible] def longRecord : List Byte := List.replicate (2 ^ 46) 0xFF

theorem spadBase_lt_longRecord : spadBase 0 < longRecord.length := by
  unfold longRecord
  rw [List.length_replicate]
  decide

theorem longRecord_byte : longRecord[spadBase 0]'spadBase_lt_longRecord = 0xFF := by
  simp only [longRecord, List.getElem_replicate]

/-- Refutes O21: nothing asks that the records of R460 are off when a lane loads (the store's clause does), and nothing
bounds those that wait for memory (R464).  The load's own record drives one to memory that reaches from a ring at
address 0 into the scratchpad, and the load reads what it left, 0xFF, where the statement names the byte before, 0. -/
theorem not_loadsAndStores : ¬ Obligations.LoadsAndStores := by
  unfold Obligations.LoadsAndStores
  intro h
  obtain ⟨hld, -⟩ := h (recordingLane longRecord) 0 1 0 0 0 (recordingLane_ready _) (.inl (by decide))
  obtain ⟨u, hexec, hff⟩ := recordingLane_ld spadBase_lt_longRecord longRecord_byte
  obtain ⟨v, hexec', hzero, -⟩ := hld ⟨rfl, recordingLane_admits longRecord⟩ rfl
  obtain rfl := Host.Outcome.next.inj (hexec.symm.trans hexec')
  have hreads := (congrArg (TCtx.gr · 1) ((hzero rfl).tc 0)).trans
    ((congrArg (TCtx.gr · 1) (State.tc_setTc ..)).trans (tget_tput_self ..))
  have hbyte : (0xFF : BitVec 64) = 0 :=
    hff.symm.trans (hreads.trans (congrArg (BitVec.ofNat 64) (recordingLane_mval longRecord _)))
  exact absurd hbyte (by decide)

end Sys2Proof.Machine
end

section
/-!
# What a tile keeps while it proceeds (O29)

Whatever proceeds on the tiles of its own accord (problems, commands, copies, waits and cut points) leaves the context
that each tile serves, the registers of its lane, its pre-emption, what is saved and the BE heats: the state's `cores`.
-/

namespace Sys2Proof.Machine

/-! ## The core of a tile -/

/-- The registers of a lane that the header of a save area names, with the G and F registers (R210). -/
structure LaneRegs where
  g : Tab DWord
  f : Tab QWord
  pc : Nat
  sflag : FlagSet
  subn : Bool
  inTrap : Bool
  strapEn : FlagSet
  strapVec : Word

def TCtx.regs (c : TCtx) : LaneRegs := ⟨c.g, c.f, c.pc, c.sflag, c.subn, c.inTrap, c.strapEn, c.strapVec⟩

/-- Whom a tile serves, where its pre-emption stands, and the registers of its lane. -/
structure TileCore where
  ctx : Option Nat
  seq : SeqState
  preq : Option Nat
  preDue : Option Nat
  regs : LaneRegs

def Tile.core (x : Tile) : TileCore := ⟨x.ctx, x.seq, x.preq, x.preDue, x.tc.regs⟩

/-- The cores of all tiles, the saved contexts and the BE heats. -/
def State.cores (s : State) : (Nat → TileCore) × Tab TCtx × List BeRun :=
  (fun k => (s.tile k).core, s.saved, s.dsp.be)

theorem cores_congr {s u : State} (ht : ∀ k, (u.tile k).core = (s.tile k).core) (hs : u.saved = s.saved)
    (hb : u.dsp.be = s.dsp.be) : u.cores = s.cores := Prod.ext (funext ht) (Prod.ext hs hb)

theorem cores_of_same {s u : State} (ht : u.tiles = s.tiles) (hs : u.saved = s.saved) (hb : u.dsp.be = s.dsp.be) :
    u.cores = s.cores := cores_congr (fun k => by rw [State.tile, ht]; rfl) hs hb

theorem core_of_cores {s u : State} (h : u.cores = s.cores) (k : Nat) : (u.tile k).core = (s.tile k).core :=
  congrFun (congrArg Prod.fst h) k

theorem saved_of_cores {s u : State} (h : u.cores = s.cores) : u.saved = s.saved := congrArg (·.2.1) h

theorem be_of_cores {s u : State} (h : u.cores = s.cores) : u.dsp.be = s.dsp.be := congrArg (·.2.2) h

theorem cores_setTile {s : State} {t : Nat} {x : Tile} (h : x.core = (s.tile t).core) :
    (s.setTile t x).cores = s.cores := by
  refine cores_congr (fun k => ?_) rfl rfl
  by_cases hk : k = t
  · subst hk
    exact (congrArg Tile.core (State.tile_setTile ..)).trans h
  · exact congrArg Tile.core (State.tile_setTile_ne _ _ hk)

theorem cores_modTile (s : State) (t : Nat) {f : Tile → Tile}
    (hf : ∀ x, (f x).core = x.core := by exact fun _ => rfl) : (s.modTile t f).cores = s.cores := cores_setTile (hf _)

theorem cores_setTc {s : State} {t : Nat} {x : TCtx} (h : x.regs = (s.tc t).regs) : (s.setTc t x).cores = s.cores :=
  cores_setTile (x := { s.tile t with tc := x }) (congrArg (TileCore.mk _ _ _ _) h)

theorem cores_modTc (s : State) (t : Nat) {f : TCtx → TCtx}
    (hf : ∀ c, (f c).regs = c.regs := by exact fun _ => rfl) : (s.modTc t f).cores = s.cores := cores_setTc (hf _)

theorem cores_each {α : Type} {f : State → α → State} (h : ∀ s x, (f s x).cores = s.cores) (l : List α)
    (s : State) : (s.each l f).cores = s.cores := foldl_keeps State.cores h l s

theorem cores_observed {s u : State} (h : Observed s u) : u.cores = s.cores :=
  cores_of_same (by rw [h.rest]) (by rw [h.rest]) (by rw [h.rest])

/-! ## Events, faults and poison -/

@[simp] theorem cores_acct (s : State) (c : Nat) (f : Acct → Acct) : (s.acct c f).cores = s.cores := by
  unfold State.acct
  split
  · exact cores_of_same rfl rfl rfl
  · rfl

@[simp] theorem cores_rset (s : State) (a : Nat) (v : Word) : (s.rset a v).cores = s.cores := cores_of_same rfl rfl rfl

@[simp] theorem cores_rbitSet (s : State) (a i : Nat) (v : Bool) : (s.rbitSet a i v).cores = s.cores := by
  unfold State.rbitSet
  exact cores_rset _ _ _

@[simp] theorem cores_rcount (s : State) (a lo n k : Nat) : (s.rcount a lo n k).cores = s.cores := by
  unfold State.rcount State.rfldSet
  exact cores_rset _ _ _

@[simp] theorem cores_rsetWords (s : State) (a : Nat) (l : List Word) : (s.rsetWords a l).cores = s.cores := by
  induction l generalizing s a with
  | nil => rfl
  | cons w l ih => exact (ih _ _).trans (cores_rset _ _ _)

@[simp] theorem cores_event (s : State) (q code : Nat) (w : EvOf) (d0 d1 : Nat) :
    (s.event q code w d0 d1).cores = s.cores := by
  unfold State.event
  dsimp only
  rw [cores_observed (streamRec_observed _ _ _ _), cores_rset, cores_rsetWords]

@[simp] theorem cores_eventTile (s : State) (t code d0 d1 : Nat) (ids : Option CmdIds) :
    (s.eventTile t code d0 d1 ids).cores = s.cores := cores_event ..

theorem cores_faultRegs (s : State) (c : Nat) (w : Word) : (s.faultRegs c w).cores = s.cores := by
  unfold State.faultRegs State.faultFlagged
  rw [cores_rcount, cores_rbitSet, cores_rset]

theorem cores_withFaults (s : State) (l : List CtxFault) : (s.withFaults l).cores = s.cores :=
  cores_of_same rfl rfl rfl

theorem cores_reportFault (s : State) (cause c t cls : Nat) : (s.reportFault cause c t cls).cores = s.cores := by
  have h := (cores_faultRegs (s.acct c (fun a => { a with faults := a.faults + 1 })) c (s.faultWord cause c t)).trans
    (cores_acct _ _ _)
  rw [reportFault_regs]
  generalize State.faultRegs _ _ _ = u at h ⊢
  dsimp only
  split
  · exact h
  · exact (cores_withFaults u _).trans h

@[simp] theorem cores_faultTile (s : State) (t c cause cls : Nat) (ids : Option CmdIds) :
    (s.faultTile t c cause cls ids).cores = s.cores := by
  have h1 : ((s.reportFault cause c t cls).eventTile t 0x06 cause t ids).cores = s.cores :=
    (cores_eventTile _ _ _ _ _ _).trans (cores_reportFault _ _ _ _ _)
  unfold State.faultTile
  dsimp only
  split
  · exact (cores_eventTile _ _ _ _ _ _).trans h1
  · exact h1

@[simp] theorem cores_takePoison (s : State) (k : Nat) : (s.takePoison k).cores = s.cores := by
  have h : ∀ v : State, (v.eccCapture k).cores = v.cores := fun v => by
    unfold State.eccCapture State.eccShow
    dsimp only
    split_ifs <;> exact cores_of_same rfl rfl rfl
  unfold State.takePoison
  split
  · exact cores_of_same rfl rfl rfl
  · exact (cores_event _ _ _ _ _ _).trans ((h _).trans (cores_of_same rfl rfl rfl))

@[simp] theorem cores_readPoison (s : State) (a n : Nat) : (s.readPoison a n).cores = s.cores :=
  cores_each cores_takePoison _ _

@[simp] theorem cores_stagePoison (s : State) (t c : Nat) (l : List (Nat × Nat)) (ids : Option CmdIds) :
    (s.stagePoison t c l ids).cores = s.cores := by
  unfold State.stagePoison
  cases (l.flatMap (fun r => s.poisonedUnits r.1 r.2)).eraseDups with
  | nil => rfl
  | cons k l => exact (cores_faultTile _ _ _ _ _ _).trans (cores_each cores_takePoison _ _)

@[simp] theorem cores_stageReads (s : State) (t c : Nat) (l : List (Nat × Nat)) (ids : Option CmdIds) :
    (s.stageReads t c l ids).cores = s.cores := by
  unfold State.stageReads
  split
  · exact cores_stagePoison _ _ _ _ _
  · exact cores_faultTile _ _ _ _ _ _

@[simp] theorem cores_portWrite (s : State) (t c a : Nat) (l : List Byte) (ids : Option CmdIds) :
    (s.portWrite t c a l ids).cores = s.cores := by
  unfold State.portWrite
  split
  · exact cores_of_same rfl rfl rfl
  · exact cores_faultTile _ _ _ _ _ _

/-! ## Packets and copies (R206, R385) -/

theorem cores_freeBuf (s : State) (p : Pkt) : (s.freeBuf p).cores = s.cores := by
  unfold State.freeBuf
  split
  · split
    · exact cores_of_same rfl rfl rfl
    · rfl
  · rfl

@[simp] theorem cores_pump (s : State) (k n : Nat) : (s.pump k n).cores = s.cores := by
  induction n generalizing s with
  | zero => rfl
  | succ n ih =>
    unfold State.pump
    dsimp only
    split
    · rfl
    · split
      · rfl
      · exact (ih _).trans ((cores_freeBuf _ _).trans (cores_of_same rfl rfl rfl))

@[simp] theorem cores_queuePkt (s : State) (k : Nat) (p : Pkt) : (s.queuePkt k p).cores = s.cores :=
  cores_each (fun s _ => cores_pump s _ _) _ _

@[simp] theorem cores_pacedPkt (s : State) (c k : Nat) (p : Pkt) : (s.pacedPkt c k p).cores = s.cores := by
  unfold State.pacedPkt State.issuePkt State.chargeRly
  dsimp only
  split
  · exact (cores_queuePkt _ _ _).trans (cores_acct _ _ _)
  · rfl

theorem cores_request {s u : State} {c t d ty addr len : Nat} {data : List Byte} {poison : Bool} {kind : ReqKind}
    (h : s.request c t d ty addr len data poison kind = some u) : u.cores = s.cores := by
  unfold State.request at h
  split at h
  · cases h
  · cases h
    exact cores_pacedPkt _ _ _ _

theorem cores_remotePiece {s u : State} {c t src dst n : Nat} {rd : Nat → ReqKind} {wr : ReqKind}
    (h : s.remotePiece c t src dst n rd wr = some u) : u.cores = s.cores := by
  unfold State.remotePiece at h
  split at h
  · exact cores_request h
  · split at h
    · exact (cores_request h).trans (cores_readPoison _ _ _)
    · cases h

theorem cores_copyBlock (s : State) (t c n : Nat) : (s.copyBlock t c n).cores = s.cores := by
  induction n generalizing s with
  | zero => rfl
  | succ n ih =>
    unfold State.copyBlock
    split
    · rfl
    · split
      · rfl
      · dsimp only
        split
        · next he => exact (ih _).trans ((cores_modTc _ _).trans (cores_remotePiece he))
        · exact cores_modTc _ _

/-! ## Batons (R306-R308) -/

@[simp] theorem cores_sendBack (s : State) (dst : Nat) (p : Pkt) : (s.sendBack dst p).cores = s.cores := by
  unfold State.sendBack
  split
  · exact cores_queuePkt _ _ _
  · rfl

@[simp] theorem cores_releaseWait (s : State) (w : BWait) : (s.releaseWait w).cores = s.cores := by
  unfold State.releaseWait
  split
  · exact cores_modTc _ _
  · exact cores_sendBack _ _ _

theorem cores_serveSem (s : State) (b n : Nat) : (s.serveSem b n).cores = s.cores := by
  induction n generalizing s with
  | zero => rfl
  | succ n ih =>
    unfold State.serveSem
    split
    · rfl
    · split
      · exact (ih _).trans (cores_releaseWait _ _)
      · rfl

@[simp] theorem cores_serveBaton (s : State) (b : Nat) : (s.serveBaton b).cores = s.cores := by
  unfold State.serveBaton
  split
  · exact cores_serveSem _ _ _
  · exact cores_each cores_releaseWait _ _

@[simp] theorem cores_postLocal (s : State) (b arg : Nat) : (s.postLocal b arg).cores = s.cores := by
  have h : ∀ v : State, v.cores = s.cores → (v.serveBaton b).cores = s.cores :=
    fun v => (cores_serveBaton v b).trans
  unfold State.postLocal
  extract_lets sum s1 s2
  have h2 : s2.cores = s.cores := h s1 (by simp only [s1]; split_ifs <;> rfl)
  split
  · exact h2
  · exact h2

theorem cores_post {s : State} {c b arg : Nat} {fault : State → Nat → State}
    (hf : ∀ f, (fault s f).cores = s.cores) : (s.post c b arg fault).cores = s.cores := by
  unfold State.post
  split
  · exact hf 4
  · split
    · split
      · exact hf 1031
      · exact cores_pacedPkt _ _ _ _
    · exact cores_postLocal _ _ _

theorem cores_withdraw (s : State) (t : Nat) : (s.withdraw t).cores = s.cores := cores_each cores_serveBaton _ _

theorem cores_resumeWait (s : State) (t c : Nat) : (s.resumeWait t c).cores = s.cores := by
  unfold State.resumeWait
  split
  · split
    · rfl
    · exact cores_serveBaton _ _
  · rfl

end Sys2Proof.Machine
end

section
/-!
What the stages of a tile keep as problems, commands and heats proceed on it, and what a cut point keeps (O29).
-/

namespace Sys2Proof.Machine

/-! ## Commands and dumps (R453, R460, R469) -/

theorem TCtx.regs_tfRoll (c : TCtx) (heat : Nat) (final : Bool) : (c.tfRoll heat final).regs = c.regs := by
  unfold TCtx.tfRoll
  split <;> rfl

theorem TCtx.regs_tfFinal (c : TCtx) : c.tfFinal.regs = c.regs := by
  unfold TCtx.tfFinal
  split
  · split <;> rfl
  · rfl

theorem TCtx.regs_handover (c : TCtx) (slot heat : Nat) : (c.handover slot heat).regs = c.regs := by
  unfold TCtx.handover
  split <;> rfl

theorem TCtx.regs_fenceDone (c : TCtx) : c.fenceDone.regs = c.regs := by
  obtain ⟨y, hy⟩ := fenceDone_fields c
  rw [hy]
  rfl

theorem cores_templates (s : State) (x : Tab TmplSt) (q : List EmitWrite) :
    ({ s with tmpls := x, emitQ := q } : State).cores = s.cores := cores_of_same rfl rfl rfl

@[simp] theorem cores_cmdStart (s : State) (t u c seq : Nat) (i : CmdIds) :
    (s.cmdStart t u c seq i).cores = s.cores := cores_of_same rfl rfl rfl

@[simp] theorem cores_solveStart (s : State) (t u c heat : Nat) (r : SolveRun) :
    (s.solveStart t u c heat r).cores = s.cores := by
  unfold State.solveStart
  split
  · rfl
  · exact cores_cmdStart _ _ _ _ _ _

@[simp] theorem cores_cmdRecord (s : State) (t u : Nat) (k : UnitCmd) (b : Bool) :
    (s.cmdRecord t u k b).cores = s.cores := by
  unfold State.cmdRecord
  split
  · exact cores_observed (streamRec_observed _ _ _ _)
  · rfl

@[simp] theorem cores_setCmds (s : State) (t u : Nat) (l : List UnitCmd) : (s.setCmds t u l).cores = s.cores :=
  cores_of_same rfl rfl rfl

@[simp] theorem cores_cmdEnd (s : State) (t u seq : Nat) : (s.cmdEnd t u seq).cores = s.cores := by
  unfold State.cmdEnd
  split
  · rfl
  · exact (cores_cmdRecord _ _ _ _ _).trans (cores_setCmds _ _ _ _)

@[simp] theorem cores_dumpTake (s : State) (d : DumpReq) : (s.dumpTake d).cores = s.cores := by
  unfold State.dumpTake
  extract_lets o1 s1 s2
  have h1 : s1.cores = s.cores := by
    simp only [s1]
    split
    · exact cores_rbitSet _ _ _ _
    · rfl
  clear_value s1
  have h2 : s2.cores = s.cores := (cores_modTile _ _ (fun _ => by split <;> rfl)).trans h1
  clear_value s2
  split
  · exact cores_of_same rfl rfl rfl
  · exact Eq.trans (cores_of_same rfl rfl rfl) h2

@[simp] theorem cores_dumpGate (s : State) (t c u step seq prob layer oper heat : Nat) (solve : Bool) :
    (s.dumpGate t c u step seq prob layer oper heat solve).1.cores = s.cores := by
  unfold State.dumpGate
  extract_lets key pts s1 o s2
  have h1 : s1.cores = s.cores := by
    refine foldl_keeps State.cores (fun v i => ?_) pts s
    have hc : (v.dumpCount i).1.cores = v.cores := cores_of_same rfl rfl rfl
    dsimp only
    split
    · exact (cores_dumpTake _ _).trans hc
    · exact hc
  clear_value s1
  simp only [s2]
  split
  · exact h1
  · exact Eq.trans (cores_of_same rfl rfl rfl) h1

@[simp] theorem cores_modSolve (s : State) (t heat : Nat) (f : SolveRun → SolveRun) :
    (s.modSolve t heat f).cores = s.cores := cores_modTc _ _

@[simp] theorem cores_modSlot (s : State) (t heat prob : Nat) (f : Slot → Slot) :
    (s.modSlot t heat prob f).cores = s.cores := cores_modTc _ _ (fun _ => by split <;> rfl)

@[simp] theorem cores_leave (s : State) (t c heat : Nat) (l : List Nat) : (s.leave t c heat l).cores = s.cores := by
  refine (cores_modTc _ _ TCtx.regs_tfFinal).trans (cores_each (fun v u => ?_) l s)
  extract_lets v1
  have h1 : v1.cores = v.cores := cores_modSolve _ _ _ _
  clear_value v1
  split
  · next r _ =>
    split
    · have h2 : ((v1.modTc t (fun x => x.workDone r.seq u)).cmdEnd t u r.seq).cores = v.cores :=
        (cores_cmdEnd _ _ _ _).trans ((cores_modTc _ _).trans h1)
      dsimp only
      split
      · exact (cores_dumpGate _ _ _ _ _ _ _ _ _ _ _).trans h2
      · exact h2
    · exact h1
  · exact h1

/-! ## Problems (R120, R171, R202) -/

@[simp] theorem cores_slotRead (s : State) (t c heat prob : Nat) : (s.slotRead t c heat prob).cores = s.cores := by
  unfold State.slotRead
  split
  · split
    · rfl
    · dsimp only
      split
      · exact cores_stageReads _ _ _ _ _
      · exact cores_faultTile _ _ _ _ _ _
  · rfl

@[simp] theorem cores_enterStage (s : State) (t c heat prob : Nat) (st : StageName) :
    (s.enterStage t c heat prob st).cores = s.cores := by
  unfold State.enterStage
  split
  · next k sl h _ _ =>
    extract_lets s1 sl1
    have h1 : s1.cores = s.cores := by
      simp only [s1]
      split
      · exact cores_solveStart _ _ _ _ _ _
      · rfl
    clear_value s1
    have hs : ∀ x, (s1.modTc t (fun y => y.setSlot k (some x))).cores = s.cores :=
      fun x => Eq.trans (cores_modTc _ _) h1
    split
    · split
      · exact hs _
      · exact (cores_modTc _ _ fun _ => TCtx.regs_tfRoll _ _ _).trans (hs _)
    · exact hs _
    · split
      · exact (cores_modTile _ _).trans (hs _)
      · exact hs _
    · exact hs _
  · rfl

@[simp] theorem cores_quitSolve (s : State) (t c : Nat) (sl : Slot) : (s.quitSolve t c sl).cores = s.cores := by
  unfold State.quitSolve State.leftSolve
  split
  · dsimp only
    split
    · exact (cores_modTile _ _ (fun _ => by split <;> rfl)).trans (cores_modSolve _ _ _ _)
    · exact cores_modSolve _ _ _ _
  · rfl

@[simp] theorem cores_skipToEmit (s : State) (t c heat prob mark : Nat) :
    (s.skipToEmit t c heat prob mark).cores = s.cores := by
  unfold State.skipToEmit
  split
  · rfl
  · simp only [cores_leave, cores_modSlot, cores_quitSolve]

@[simp] theorem cores_leaveFactor (s : State) (t c heat prob : Nat) :
    (s.leaveFactor t c heat prob).cores = s.cores := by
  unfold State.leaveFactor
  split
  · split_ifs
    · exact cores_skipToEmit _ _ _ _ _ _
    · rw [cores_leave, cores_modSlot]
    · rfl
  · rfl

@[simp] theorem cores_advance (s : State) (t c n : Nat) : (s.advance t c n).cores = s.cores := by
  induction n generalizing s with
  | zero => rfl
  | succ n ih =>
    unfold State.advance
    dsimp only
    split
    · rfl
    · rw [ih, cores_slotRead, cores_leaveFactor, cores_enterStage]

theorem cores_writeOutputs (s : State) (t c : Nat) (e : Env) (fb : Bool) (prob : Nat) :
    (s.writeOutputs t c e fb prob).1.cores = s.cores := by
  have fold : ∀ {α β : Type} {f : State × β → α → State × β} (l : List α) (a : State × β),
      (∀ b x, (f b x).1.cores = b.1.cores) → (l.foldl f a).1.cores = a.1.cores := fun l => by
    induction l with
    | nil => exact fun _ _ => rfl
    | cons x l ih => exact fun a hf => (ih _ hf).trans (hf a x)
  unfold State.writeOutputs
  extract_lets od base
  refine fold _ _ fun b p => ?_
  split
  · rfl
  · dsimp only
    split <;> exact cores_portWrite _ _ _ _ _ _

@[simp] theorem cores_writeIterStore (s : State) (t c : Nat) (e : Env) (sl : Slot) (code : Nat) :
    (s.writeIterStore t c e sl code).cores = s.cores := by
  unfold State.writeIterStore
  extract_lets w m a word
  split_ifs
  · rfl
  · exact cores_portWrite _ _ _ _ _ _
  · exact cores_portWrite _ _ _ _ _ _

@[simp] theorem cores_commitTile (s : State) (t c : Nat) (h : Heat) (r : SolveRun) (sl : Slot) (pf : Nat)
    (first : Bool) : (s.commitTile t c h r sl pf first).cores = s.cores := by
  unfold State.commitTile
  extract_lets e0 code fx e pf1 fb w pf2 s1 late sfl lat s2 ts ew s3 s4 s5 s6 s7
  have hw : w.1.cores = s.cores := by
    simp only [w]
    split
    · rfl
    · exact cores_writeOutputs _ _ _ _ _ _
  clear_value w
  have h1 : s1.cores = s.cores := (cores_writeIterStore _ _ _ _ _ _).trans hw
  clear_value s1
  have h2 : s2.cores = s.cores := (cores_portWrite _ _ _ _ _ _).trans h1
  clear_value s2
  have h3 : s3.cores = s.cores := (cores_templates s2 _ _).trans h2
  clear_value s3
  have h4 : s4.cores = s.cores := (cores_modTile _ _).trans h3
  clear_value s4
  have h5 : s5.cores = s.cores := (cores_modTc _ _).trans h4
  clear_value s5
  have h6 : s6.cores = s.cores := (cores_modSolve _ _ _ _).trans h5
  clear_value s6
  have h7 : s7.cores = s.cores := (cores_modTc _ _ (fun _ => by split <;> rfl)).trans h6
  clear_value s7
  split
  · exact h7
  · exact (cores_event _ _ _ _ _ _).trans h7

@[simp] theorem cores_commitRank (s : State) (u c heat prob mark pf : Nat) (first : Bool) :
    (s.commitRank u c heat prob mark pf first).cores = s.cores := by
  unfold State.commitRank
  extract_lets sl entered from'
  split
  · split
    · extract_lets s1 s2 s3
      have h1 : s1.cores = s.cores := by
        simp only [s1]
        split
        · rfl
        · exact cores_solveStart _ _ _ _ _ _
      clear_value s1
      have hq : (if entered = true then s1.quitSolve u c sl else s1).cores = s.cores := by
        split
        · exact (cores_quitSolve _ _ _ _).trans h1
        · exact h1
      have h2 : s2.cores = s.cores := (cores_commitTile _ _ _ _ _ _ _ _).trans hq
      clear_value s2
      have h3 : s3.cores = s.cores := by
        simp only [s3]
        split
        · exact h2
        · exact (cores_modSolve _ _ _ _).trans h2
      exact (cores_leave _ _ _ _ _).trans h3
    · rfl
  · rfl

/-! ## The heads of the queues (R198, R199) -/

@[simp] theorem cores_startSolve (s : State) (t c : Nat) (q : QCmd) (tm count xl : Nat) :
    (s.startSolve t c q tm count xl).cores = s.cores := by
  unfold State.startSolve
  extract_lets ta s1 y run s2 z s3
  have h1 : s1.cores = s.cores := cores_stageReads _ _ _ _ _
  clear_value s1
  have h2 : s2.cores = s.cores := (cores_modTc _ _).trans h1
  clear_value s2
  have h3 : s3.cores = s.cores := (cores_templates s2 _ _).trans h2
  clear_value s3
  split
  · exact (cores_each (fun _ _ => cores_commitRank _ _ _ _ _ _ _ _) _ _).trans h3
  · exact h3

theorem cores_startOutput (s : State) (t c : Nat) (q : QCmd) (di slot smode : Nat) (qx : Int) (hrec : Nat)
    (src : List (List FVal)) (fl : FlagSet) (extra : List (Nat × Byte)) :
    (s.startOutput t c q di slot smode qx hrec src fl extra).cores = s.cores := by
  unfold State.startOutput
  extract_lets d x first mark sel x1 o run s1
  have h1 : s1.cores = s.cores := cores_setTc
    (TCtx.regs_handover (s.tc t) slot q.heat)
  clear_value s1
  split
  · exact Eq.trans (cores_of_same rfl rfl rfl) h1
  · exact h1

@[simp] theorem cores_startTensor (s : State) (t c : Nat) (q : QCmd) : (s.startTensor t c q).cores = s.cores := by
  unfold State.startTensor
  extract_lets f drop reads s1 s2
  have hdrop : ∀ v : State, (drop v).cores = v.cores := fun v => cores_modTc _ _
  have h1 : s1.cores = s.cores := cores_modTc _ _ fun _ => TCtx.regs_tfRoll _ _ _
  clear_value s1 drop
  have h2 : s2.cores = s.cores := (cores_cmdStart _ _ _ _ _ _).trans h1
  clear_value s2
  split_ifs
  · exact (hdrop _).trans (cores_faultTile _ _ _ _ _ _)
  · exact (hdrop _).trans (cores_stagePoison _ _ _ _ _)
  · split
    · exact (cores_startOutput _ _ _ _ _ _ _ _ _ _ _ _).trans h2
    · exact (cores_startOutput _ _ _ _ _ _ _ _ _ _ _ _).trans h2
    · exact (cores_modTc _ _).trans h2
    · exact h2

@[simp] theorem cores_hold (s : State) (x : Held) : (s.hold x).cores = s.cores := cores_of_same rfl rfl rfl

@[simp] theorem cores_paceTake (s : State) (p kind n : Nat) : (s.paceTake p kind n).cores = s.cores :=
  cores_of_same rfl rfl rfl

@[simp] theorem cores_startCopy (s : State) (t c : Nat) (q : QCmd) (src dst len : Nat) :
    (s.startCopy t c q src dst len).cores = s.cores := by
  unfold State.startCopy
  extract_lets f1 f rem run s1 n p go
  have h1 : s1.cores = s.cores := (cores_cmdStart _ _ _ _ _ _).trans (cores_modTc _ _)
  clear_value s1
  have hgo : ∀ v : State, (go v).cores = v.cores := fun v => by
    simp only [go]
    split
    · exact cores_copyBlock _ _ _ _
    · rfl
  clear_value go
  split_ifs
  · exact (cores_modTc _ _).trans (cores_faultTile _ _ _ _ _ _)
  · exact (hgo _).trans h1
  · exact (hgo _).trans ((cores_paceTake _ _ _ _).trans ((cores_acct _ _ _).trans h1))
  · have hh : (s1.modCopy t (fun r => { r with held := true })).cores = s.cores := Eq.trans (cores_modTc _ _) h1
    exact (cores_hold _ _).trans hh

@[simp] theorem cores_mayStart (s : State) (t c u : Nat) (q : QCmd) (solve : Bool) :
    (s.mayStart t c u q solve).1.cores = s.cores := by
  unfold State.mayStart
  split
  · rfl
  · exact cores_dumpGate _ _ _ _ _ _ _ _ _ _ _

/-- Only without a request on the tile does a head pass to its unit. -/
theorem cores_mayStartUnless (s : State) (t c u : Nat) (q : QCmd) (solve : Bool) (p : Prop) [Decidable p] :
    (if p then (s, false) else s.mayStart t c u q solve).1.cores = s.cores := by
  split
  · rfl
  · exact cores_mayStart _ _ _ _ _ _

/-- A head taken from its queue. -/
theorem cores_taken {s v : State} {t : Nat} {f : TCtx → TCtx} (h : v.cores = s.cores)
    (hf : ∀ c, (f c).regs = c.regs := by exact fun _ => rfl) : (v.modTc t f).cores = s.cores :=
  (cores_modTc v t hf).trans h

@[simp] theorem cores_startHeads (s : State) (t c : Nat) : (s.startHeads t c).cores = s.cores := by
  unfold State.startHeads
  extract_lets s1 s2 s3
  have h1 : s1.cores = s.cores := by
    simp -zeta only [s1]
    split
    · next q rest _ =>
      extract_lets r v
      have hr : r.1.cores = s.cores := cores_mayStartUnless s t c 16 q false _
      clear_value r
      have hv : v.cores = s.cores := cores_taken hr
      clear_value v
      split
      · split
        · exact (cores_dumpGate _ _ _ _ _ _ _ _ _ _ _).trans
            ((cores_post fun _ => cores_faultTile _ _ _ _ _ _).trans hv)
        · exact hv
      · exact hr
    · rfl
  clear_value s1
  have h2 : s2.cores = s.cores := by
    simp -zeta only [s2]
    split
    · next q rest _ =>
      extract_lets r
      have hr : r.1.cores = s.cores := (cores_mayStart s1 t c 1 q false).trans h1
      clear_value r
      split_ifs
      · exact (cores_startTensor _ _ _ _).trans (cores_taken hr)
      · exact hr
      · exact h1
    · exact h1
  clear_value s2
  have h3 : s3.cores = s.cores := by
    simp -zeta only [s3]
    split
    · next q rest _ =>
      extract_lets r v
      have hr : r.1.cores = s.cores := (cores_mayStart s2 t c 6 q false).trans h2
      clear_value r
      have hv : v.cores = s.cores := cores_taken hr
      clear_value v
      split_ifs
      · split
        · exact (cores_startCopy _ _ _ _ _ _ _).trans hv
        · exact hv
      · exact hr
      · exact h2
    · exact h2
  clear_value s3
  split
  · next q rest _ =>
    extract_lets r v
    have hr : r.1.cores = s.cores := (cores_mayStartUnless s3 t c 0 q true _).trans h3
    clear_value r
    have hv : v.cores = s.cores := cores_taken hr
    clear_value v
    split
    · split
      · exact (cores_startSolve _ _ _ _ _ _ _).trans hv
      · exact hv
    · exact hr
  · exact h3

/-! ## What goes on without a further event -/

@[simp] theorem cores_kickN (s : State) (t n : Nat) : (s.kickN t n).cores = s.cores := by
  induction n generalizing s with
  | zero => rfl
  | succ n ih =>
    unfold State.kickN
    dsimp only
    split
    · have hord : ∀ v : State, (v.modTc t TCtx.tensorOrder).cores = v.cores := fun v => cores_modTc _ _
      rw [ih, cores_modTc _ _ TCtx.regs_fenceDone, cores_startHeads, hord, cores_advance, hord]
    · rfl

theorem cores_recordHeats (s : State) (t : Nat) : (s.recordHeats t).cores = s.cores := by
  refine cores_each (fun v h => cores_each (fun u k => ?_) _ _) _ _
  split
  · unfold State.heatRecord
    split
    · rfl
    · exact (cores_modTc _ _).trans (cores_portWrite _ _ _ _ _ _)
  · rfl

theorem cores_kick (s : State) (t : Nat) : (s.kick t).cores = s.cores :=
  (cores_recordHeats _ _).trans (cores_kickN _ _ _)

theorem cores_resumeCopy (s : State) (t : Nat) : (s.resumeCopy t).cores = s.cores := by
  unfold State.resumeCopy
  split
  · split
    · exact cores_copyBlock _ _ _ _
    · rfl
  · rfl

/-! ## A context returns to its tile (R151, R175) -/

theorem cores_showSolv (s : State) (t c : Nat) : (s.showSolv t c).cores = s.cores := by
  unfold State.showSolv
  split
  · exact cores_modTile _ _
  · rfl

theorem cores_cutFacTile (s : State) (t c heat : Nat) : (s.cutFacTile t c heat).cores = s.cores := by
  refine (cores_each (fun v sl => ?_) _ _).trans (cores_modTc _ _)
  split
  · exact (cores_leaveFactor _ _ _ _ _).trans (cores_modSlot _ _ _ _ _)
  · rfl

theorem cores_cutOutTile (s : State) (t c heat : Nat) : (s.cutOutTile t c heat).cores = s.cores := by
  refine (cores_each (fun v sl => ?_) _ _).trans (cores_modTc _ _)
  split
  · rfl
  · split <;> exact cores_skipToEmit _ _ _ _ _ _

theorem cores_pendingCuts (s : State) (t c : Nat) : (s.pendingCuts t c).cores = s.cores := by
  refine cores_each (fun v h => ?_) _ _
  extract_lets v1 v2
  have h1 : v1.cores = v.cores := by
    simp only [v1]
    split
    · exact cores_cutFacTile _ _ _ _
    · rfl
  clear_value v1
  have h2 : v2.cores = v.cores := by
    simp only [v2]
    split
    · exact (cores_cutOutTile _ _ _ _).trans h1
    · exact h1
  exact (cores_modTc _ _).trans h2

end Sys2Proof.Machine
end

section
/-!
What settling a tile leaves of the contexts on the tiles and of the saved ones, and the bytes of a save area (O29).
-/

namespace Sys2Proof.Machine

/-! ## Saved contexts -/

theorem tfind_cons {α : Type} (a : Nat) (w : α) (t : Tab α) (j : Nat) :
    tfind ((a, w) :: t) j = if a = j then some w else tfind t j := rfl

theorem tfind_tput {α : Type} (t : Tab α) (k j : Nat) (v : α) :
    tfind (tput t k v) j = if j = k then some v else tfind t j := by
  induction t with
  | nil => simp only [tput, tfind_cons, eq_comm, tfind]
  | cons e t ih =>
    obtain ⟨a, w⟩ := e
    unfold tput
    split
    · next h => subst h; simp only [tfind_cons]; grind
    · split
      · simp only [tfind_cons]; grind
      · simp only [tfind_cons, ih]; grind

theorem tfind_tdel_self {α : Type} (t : Tab α) (k : Nat) : tfind (tdel t k) k = none := by
  induction t with
  | nil => rfl
  | cons e t ih =>
    obtain ⟨a, w⟩ := e
    unfold tdel
    split
    · exact ih
    · next h => rw [tfind_cons, if_neg h, ih]

/-- The saved contexts, but for their commands in progress, which return to the units before the context does. -/
def State.stored (s : State) (k : Nat) : Option TCtx := (tfind s.saved k).map (fun x => { x with cmds := [] })

theorem stored_none {s : State} {k : Nat} : s.stored k = none ↔ tfind s.saved k = none := Option.map_eq_none_iff

/-- Whom each tile serves, and the registers of its lane. -/
def State.served (s : State) (k : Nat) : Option Nat × LaneRegs := ((s.tile k).ctx, (s.tc k).regs)

theorem served_of_cores {s u : State} (h : u.cores = s.cores) : u.served = s.served :=
  funext fun k => congrArg (fun x : TileCore => (x.ctx, x.regs)) (core_of_cores h k)

theorem stored_of_saved {s u : State} (h : u.saved = s.saved) : u.stored = s.stored := by
  unfold State.stored
  rw [h]

theorem served_setTile {s : State} {t : Nat} {x : Tile} (hc : x.ctx = (s.tile t).ctx)
    (hr : x.tc.regs = (s.tc t).regs) : (s.setTile t x).served = s.served := by
  refine funext fun k => ?_
  unfold State.served State.tc
  by_cases hk : k = t
  · subst hk
    rw [State.tile_setTile, hc, hr]
    rfl
  · rw [State.tile_setTile_ne _ _ hk]

theorem served_tilesDo {f : Tile → Tile} (hc : ∀ x, (f x).ctx = x.ctx) (hr : ∀ x, (f x).tc.regs = x.tc.regs)
    (s : State) (ts : List Nat) : (s.tilesDo ts (fun u s => s.modTile u f)).served = s.served :=
  foldl_keeps State.served (fun _ _ => served_setTile (hc _) (hr _)) ts s

theorem served_requestPreempt (s : State) (t entry : Nat) : (s.requestPreempt t entry).served = s.served :=
  served_tilesDo (fun x => by split <;> rfl) (fun x => by split <;> rfl) _ _

theorem served_tileRuns (s : State) (t : Nat) : (s.tileRuns t).served = s.served := by
  unfold State.tileRuns
  extract_lets v
  refine Eq.trans (served_setTile rfl rfl) (?_ : v.served = s.served)
  simp only [v]
  split
  · exact served_tilesDo (fun x => by split <;> rfl) (fun x => by split <;> rfl) _ _
  · rfl

theorem tilesDo_saved (f : Nat → Tile → Tile) (s : State) (ts : List Nat) :
    (s.tilesDo ts (fun u s => s.modTile u (f u))).saved = s.saved :=
  foldl_keeps (f := fun v u => v.modTile u (f u)) State.saved (fun _ _ => rfl) ts s

theorem tileRuns_saved (s : State) (t : Nat) : (s.tileRuns t).saved = s.saved := by
  unfold State.tileRuns
  show (ite _ _ _ : State).saved = s.saved
  split
  · exact tilesDo_saved _ _ _
  · rfl

theorem stored_unpark (s : State) (t c : Nat) : (s.unpark t c).stored = s.stored := by
  have hcmds : ∀ l (v : State), (State.each v l
      (fun s (p : Nat × List UnitCmd) => s.setCmds t p.1 p.2)).saved = v.saved :=
    foldl_keeps (f := fun v (p : Nat × List UnitCmd) => v.setCmds t p.1 p.2) State.saved fun _ _ => rfl
  unfold State.unpark
  split
  · next x hx =>
    refine funext fun k => ?_
    unfold State.stored
    dsimp only
    rw [hcmds, tfind_tput]
    split
    · next hk => rw [hk, hx]; rfl
    · rfl
  · rfl

/-- Settling a tile changes no context on a tile, and no saved one but for its commands. -/
theorem settle_keeps (s : State) (t : Nat) : (s.settle t).served = s.served ∧ (s.settle t).stored = s.stored := by
  obtain h | ⟨-, h⟩ | ⟨-, h⟩ | ⟨e, h⟩ | ⟨c, h⟩ | h := settle_cases s t <;> rw [h]
  · exact ⟨rfl, rfl⟩
  · exact ⟨served_setTile rfl rfl, rfl⟩
  · exact ⟨served_tileRuns s t, stored_of_saved (tileRuns_saved s t)⟩
  · exact ⟨served_requestPreempt s t e, stored_of_saved (tilesDo_saved _ _ _)⟩
  · have htile : (s.unpark t c).tile t = s.tile t := by rw [State.tile, unpark_tiles]; rfl
    have hserved : (s.unpark t c).served = s.served := by
      unfold State.served State.tc State.tile
      rw [unpark_tiles]
    exact ⟨(served_setTile (by rw [htile]) (by rw [State.tc, htile])).trans hserved, stored_unpark s t c⟩
  · exact ⟨served_setTile rfl rfl, rfl⟩

end Sys2Proof.Machine
end

section
/-!
The bytes of a save area (R210): where its fields lie, and what they read as once it is written (O29).
-/

namespace Sys2Proof.Machine

/-! ## Fields of a list of bytes -/

/-- The bytes `q` stand at offset `o` of `l`. -/
def FieldAt (l : List Byte) (o : Nat) (q : List Byte) : Prop := ∃ p r, l = p ++ q ++ r ∧ p.length = o

namespace FieldAt

variable {l q : List Byte} {o : Nat}

theorem first (q r : List Byte) : FieldAt (q ++ r) 0 q := ⟨[], r, rfl, rfl⟩

theorem append (h : FieldAt l o q) (m : List Byte) : FieldAt (l ++ m) o q := by
  obtain ⟨p, r, rfl, hp⟩ := h
  exact ⟨p, r ++ m, by simp only [List.append_assoc], hp⟩

theorem after {k : Nat} (h : FieldAt l o q) {m : List Byte} (hm : m.length = k) : FieldAt (m ++ l) (k + o) q := by
  obtain ⟨p, r, rfl, hp⟩ := h
  exact ⟨m ++ p, r, by simp only [List.append_assoc], by rw [List.length_append, hm, hp]⟩

/-- Field r of an array of fields of `w` bytes. -/
theorem flatMap {f : Nat → List Byte} {w n r : Nat} (hf : ∀ i, (f i).length = w) (hr : r < n) :
    FieldAt ((List.range n).flatMap f) (w * r) (f r) := by
  induction n with
  | zero => omega
  | succ n ih =>
    rw [List.range_succ, List.flatMap_append]
    by_cases h : r < n
    · exact (ih h).append _
    · obtain rfl : r = n := by omega
      refine ⟨(List.range r).flatMap f, [], by simp, ?_⟩
      simp [List.length_flatMap, hf, Nat.mul_comm]

/-- A field of bytes written reads back. -/
theorem mget (h : FieldAt l o q) (s : State) (a i : Nat) (hi : i < q.length) :
    (s.mwrite a l).mget (a + o + i) = q[i] := by
  obtain ⟨p, r, rfl, rfl⟩ := h
  have := mget_mwrite_of_inside s a (p.length + i) (p ++ q ++ r) (by simp only [List.length_append]; omega)
  rw [Nat.add_assoc, this]
  simp [hi]

theorem mval (h : FieldAt l o q) (s : State) (a : Nat) : (s.mwrite a l).mval (a + o) q.length = ofLeBytes q := by
  unfold State.mval
  congr 1
  refine List.ext_getElem (length_mread _ _ _) fun i h1 h2 => ?_
  rw [mget_mread]
  exact h.mget s a i h2

/-- A little-endian number written reads back (R6). -/
theorem mval_leBytes {n v : Nat} (h : FieldAt l o (leBytes n v)) (s : State) (a : Nat) :
    (s.mwrite a l).mval (a + o) n = v % 2 ^ (8 * n) := by
  have := h.mval s a
  rwa [length_leBytes, ofLeBytes_leBytes] at this

end FieldAt

/-! ## Lengths of the sections -/

@[simp] theorem length_lrep {α : Type} (n : Nat) (v : α) : (lrep n v).length = n := List.length_replicate

theorem length_flatMap_range {f : Nat → List Byte} {w : Nat} (hf : ∀ i, (f i).length = w) (n : Nat) :
    ((List.range n).flatMap f).length = n * w := by
  simp [List.length_flatMap, hf]

theorem length_tabWords (m : Tab Word) (n : Nat) : (tabWords m n).length = n * 4 :=
  length_flatMap_range (fun _ => length_leBytes _ _) n

theorem length_resumeSec (d n : Nat) (b : Bool) : (resumeSec d n b).length = n := by
  unfold resumeSec
  split
  · rw [List.length_map, List.length_range]
  · exact length_lrep _ _

theorem length_qcmd_bytes (q : QCmd) : q.bytes.length = 32 := by
  unfold QCmd.bytes
  extract_lets hd b l
  suffices h : l.length ≤ 32 by rw [List.length_append, length_lrep]; omega
  simp only [l]
  split <;> simp [hd, b, length_leBytes]

theorem length_queueBytes (l : List QCmd) : (queueBytes l).length = 128 := by
  have h : ((l.take 4).flatMap QCmd.bytes).length = (l.take 4).length * 32 := by
    rw [List.length_flatMap]
    simp [length_qcmd_bytes]
  have hlen := List.length_take_le 4 l
  unfold queueBytes
  rw [List.length_append, length_lrep]
  omega

theorem length_saveHeader (s : State) (t c : Nat) : (s.saveHeader t c).length = 64 := by
  unfold State.saveHeader
  simp [length_leBytes]

/-- The G and F registers of a save area. -/
def TCtx.gBytes (x : TCtx) : List Byte := (List.range 32).flatMap (fun r => leBytes 8 (x.gr r).toNat)
def TCtx.fBytes (x : TCtx) : List Byte := (List.range 32).flatMap (fun r => leBytes 16 (x.fr r).toNat)

theorem length_gBytes (x : TCtx) : x.gBytes.length = 256 := length_flatMap_range (fun _ => length_leBytes _ _) 32
theorem length_fBytes (x : TCtx) : x.fBytes.length = 512 := length_flatMap_range (fun _ => length_leBytes _ _) 32

/-- A save area begins with its header and the G and F registers (R210). -/
theorem saveBytes_eq (s : State) (t c : Nat) : ∃ r, r.length = 5312
    ∧ s.saveBytes t c = s.saveHeader t c ++ ((s.tc t).gBytes ++ ((s.tc t).fBytes ++ r)) := by
  unfold State.saveBytes
  simp only [List.append_assoc]
  refine ⟨_, ?_, rfl⟩
  have hx : ∀ x : TCtx, ((List.range 16).flatMap (fun k => (List.range 8).flatMap (fun w =>
      leBytes 4 (tget 0 x.xtab (8 * k + w)).toNat))).length = 512 := fun x =>
    length_flatMap_range (fun _ => length_flatMap_range (fun _ => length_leBytes _ _) 8) 16
  simp only [List.length_append, length_leBytes, length_lrep, length_tabWords, length_resumeSec, length_queueBytes, hx]

theorem length_saveBytes (s : State) (t c : Nat) : (s.saveBytes t c).length = 6144 := by
  obtain ⟨r, hr, h⟩ := saveBytes_eq s t c
  rw [h]
  simp only [List.length_append, length_saveHeader, length_gBytes, length_fBytes, hr]

/-! ## The fields -/

theorem fieldAt_header {s : State} {t c o : Nat} {q : List Byte} (h : FieldAt (s.saveHeader t c) o q) :
    FieldAt (s.saveBytes t c) o q := by
  obtain ⟨r, -, hr⟩ := saveBytes_eq s t c
  rw [hr]
  exact h.append _

theorem fieldAt_valid (s : State) (t c : Nat) : FieldAt (s.saveBytes t c) 0 [1] :=
  fieldAt_header (by unfold State.saveHeader; simp only [List.append_assoc]; exact .first [1] _)

theorem fieldAt_pc (s : State) (t c : Nat) : FieldAt (s.saveBytes t c) 4 (leBytes 4 (s.tc t).pc) :=
  fieldAt_header (by
    unfold State.saveHeader
    simp only [List.append_assoc]
    exact .after (o := 0) (.first _ _) rfl)

theorem fieldAt_g (s : State) (t c : Nat) {r : Nat} (hr : r < 32) :
    FieldAt (s.saveBytes t c) (0x40 + 8 * r) (leBytes 8 ((s.tc t).gr r).toNat) := by
  obtain ⟨l, -, hl⟩ := saveBytes_eq s t c
  rw [hl]
  exact ((FieldAt.flatMap (fun _ => length_leBytes _ _) hr).append _).after (length_saveHeader _ _ _)

theorem fieldAt_f (s : State) (t c : Nat) {r : Nat} (hr : r < 32) :
    FieldAt (s.saveBytes t c) (0x140 + 16 * r) (leBytes 16 ((s.tc t).fr r).toNat) := by
  obtain ⟨l, -, hl⟩ := saveBytes_eq s t c
  rw [hl, ← List.append_assoc]
  exact ((FieldAt.flatMap (fun _ => length_leBytes _ _) hr).append _).after
    (by rw [List.length_append, length_saveHeader, length_gBytes])

end Sys2Proof.Machine
end

section
/-!
The save of a tile's context (R205, R210), and its restore (R211), of a heat of one tile (O29).
-/

namespace Sys2Proof.Machine

/-! ## The save -/

/-- What a finished save leaves. -/
structure Saved (s u : State) (t d : Nat) : Prop where
  ctx : (u.tile t).ctx = none
  stored : u.stored (savedKey d t) = some { s.tc t with cmds := [] }
  mem : u.mem = (s.mwrite (s.saveA t d) (s.saveBytes t d)).mem
  ctl : u.ctl = s.ctl
  fresh : u.fresh = s.fresh + 6144

theorem parkCmds_eq (s : State) (t : Nat) : ∃ cs, s.parkCmds t = { s with obs := { s.obs with cmds := cs } } := by
  have h : ∀ (l : List Nat) (v : State), ∃ cs, v.each l (fun s u =>
      s.setCmds t u (((s.cmds t u).take 1).map (fun k => { k with active := false })))
        = { v with obs := { v.obs with cmds := cs } } := fun l => by
    induction l with
    | nil => exact fun v => ⟨v.obs.cmds, rfl⟩
    | cons u l ih =>
      intro v
      obtain ⟨cs, e⟩ := ih (v.setCmds t u (((v.cmds t u).take 1).map (fun k => { k with active := false })))
      exact ⟨cs, e⟩
  exact h _ s

theorem stored_put (s : State) (k : Nat) (x : TCtx) :
    ({ s with saved := tput s.saved k x } : State).stored k = some { x with cmds := [] } := by
  unfold State.stored
  rw [tfind_tput, if_pos rfl]
  rfl

/-- The save writes the area, keeps the context's state and leaves the tile without a context. -/
theorem saveTile_saved (s : State) (t d : Nat) : Saved s (s.saveTile t d) t d := by
  obtain ⟨v, hv⟩ : ∃ v, s.mwrite (s.saveA t d) (s.saveBytes t d) = v := ⟨_, rfl⟩
  have hctl : v.ctl = s.ctl := by rw [← hv, State.mwrite_ctl]
  have hsaved : v.saved = s.saved := by rw [← hv, State.mwrite_saved]
  unfold State.saveTile
  rw [hv]
  obtain ⟨cs, h⟩ := parkCmds_eq { v with
    fresh := s.fresh + 6144, saved := tput s.saved (savedKey d t) { s.tc t with cmds := s.liveCmds t } } t
  refine ⟨?_, ?_, ?_, ?_, ?_⟩
  · exact congrArg Tile.ctx (State.tile_setTile _ _ _)
  · rw [← hsaved] at h ⊢
    dsimp only
    rw [h]
    exact stored_put v _ { s.tc t with cmds := s.liveCmds t }
  · rw [hv]
    dsimp only
    rw [h]
    rfl
  · dsimp only
    rw [h]
    exact hctl
  · dsimp only
    rw [h]
    rfl

theorem Saved.of_same {s u v : State} {t d : Nat} (h : Saved s u t d) (hc : v.served = u.served)
    (hs : v.stored = u.stored) (hm : v.mem = u.mem) (hctl : v.ctl = u.ctl) (hf : v.fresh = u.fresh) :
    Saved s v t d where
  ctx := (congrArg Prod.fst (congrFun hc t)).trans h.ctx
  stored := (congrFun hs _).trans h.stored
  mem := hm.trans h.mem
  ctl := hctl.trans h.ctl
  fresh := hf.trans h.fresh

/-- A BE heat that joins the saved ones. -/
theorem Saved.beSaved {s u : State} {t d : Nat} (h : Saved s u t d) : Saved s (u.beSaved t d) t d := by
  unfold State.beSaved
  split
  · exact h
  · split
    · exact h.of_same rfl rfl rfl rfl rfl
    · exact h

/-- The tile turns to the context that it is to serve. -/
theorem Saved.settle {s u : State} {t d : Nat} (h : Saved s u t d) (k : Nat) : Saved s (u.settle k) t d := by
  obtain ⟨hserved, hstored⟩ := settle_keeps u k
  obtain ⟨ts, sv, cs, hmove⟩ := TilesMoved.settle u k
  exact h.of_same hserved hstored (by rw [hmove]) (by rw [hmove]) (by rw [hmove])

theorem saveComplete_exec {s : State} {t : TileNo} {d : Nat} (hc : (s.tile t.val).ctx = some d)
    (hq : (s.tile t.val).seq = .saving) (hr : (s.tile t.val).inReset = false) :
    exec (.saveComplete t) s = .next (((s.saveTile t.val d).beSaved t.val d).settle t.val) := by
  show execSaveComplete t s = _
  unfold execSaveComplete
  dsimp only
  rw [hc]
  exact congrArg _ (if_pos ⟨hq, hr⟩)

theorem saveComplete_saved {s : State} {t : TileNo} {d : Nat} (hc : (s.tile t.val).ctx = some d)
    (hq : (s.tile t.val).seq = .saving) (hr : (s.tile t.val).inReset = false) :
    ∃ u, exec (.saveComplete t) s = .next u ∧ Saved s u t.val d :=
  ⟨_, saveComplete_exec hc hq hr, ((saveTile_saved s t.val d).beSaved).settle t.val⟩

/-- Of a saved context all stands but for its commands in progress. -/
theorem Saved.context {s u : State} {t d : Nat} (h : Saved s u t d) :
    (tfind u.saved (savedKey d t)).map (fun y => { y with cmds := (s.tc t).cmds }) = some (s.tc t) := by
  have hs := congrArg (Option.map fun y : TCtx => { y with cmds := (s.tc t).cmds }) h.stored
  unfold State.stored at hs
  rw [Option.map_map] at hs
  exact hs

/-- A field of the area reads as it was saved. -/
theorem Saved.mval {s u : State} {t d o n v : Nat} (h : Saved s u t d)
    (hf : FieldAt (s.saveBytes t d) o (leBytes n v)) : u.mval (s.saveA t d + o) n = v % 2 ^ (8 * n) :=
  (mval_of_mem h.mem _ _).trans (hf.mval_leBytes s _)

theorem Saved.valid {s u : State} {t d : Nat} (h : Saved s u t d) : u.mget (s.saveA t d) = 1 :=
  (mget_of_mem h.mem _).trans ((fieldAt_valid s t d).mget s (s.saveA t d) 0 (by decide))

theorem Saved.outside {s u : State} {t d a : Nat} (h : Saved s u t d)
    (ha : a < s.saveA t d ∨ s.saveA t d + 6144 ≤ a) : u.mget a = s.mget a :=
  (mget_of_mem h.mem _).trans (mget_mwrite_of_outside _ _ _ _ (by rwa [length_saveBytes]))

end Sys2Proof.Machine
end

section
/-!
The restore of a context on a tile (R205, R211): what it brings stands on the tile while everything there goes on (O29).
-/

namespace Sys2Proof.Machine

/-! ## What is read from the area -/

/-- The words of a function at some keys, but for those that are 0. -/
def listed {k : Nat} (v : Nat → BitVec k) (l : List Nat) : Tab (BitVec k) :=
  l.filterMap (fun i => if v i = 0 then none else some (i, v i))

theorem tget_listed {k : Nat} (v : Nat → BitVec k) (l : List Nat) (i : Nat) :
    tget 0 (listed v l) i = if i ∈ l then v i else 0 := by
  induction l with
  | nil => rfl
  | cons j l ih =>
    by_cases hz : v j = 0
    · have hl : listed v (j :: l) = listed v l := List.filterMap_cons_none (if_pos hz)
      rw [hl, ih]
      by_cases hij : i = j <;> simp [hij, hz]
    · have hl : listed v (j :: l) = (j, v j) :: listed v l := List.filterMap_cons_some (if_neg hz)
      rw [hl, tget_cons, ih]
      by_cases hij : j = i
      · simp [hij]
      · simp [hij, Ne.symm hij]

/-- The word of a table that a save area holds. -/
theorem tget_readTab {k : Nat} (s : State) (a w n i : Nat) (hi : i < n) :
    tget (0 : BitVec k) (s.readTab a w n) i = BitVec.ofNat k (s.mval (a + w * i) w) :=
  (tget_listed _ _ _).trans (if_pos (List.mem_range.2 hi))

theorem ofLeBytes_lt (l : List Byte) : ofLeBytes l < 2 ^ (8 * l.length) := by
  induction l with
  | nil => exact Nat.one_pos
  | cons b l ih =>
    have hb := b.isLt
    have hp : 2 ^ (8 * (b :: l).length) = 256 * 2 ^ (8 * l.length) := by
      rw [List.length_cons, Nat.mul_add, Nat.pow_add, Nat.mul_comm]
    rw [hp, ofLeBytes]
    omega

theorem mval_lt (s : State) (a n : Nat) : s.mval a n < 2 ^ (8 * n) := by
  have := ofLeBytes_lt (s.mread a n)
  rwa [length_mread] at this

theorem mval_one (s : State) (a : Nat) : s.mval a 1 = (s.mget a).toNat := rfl

/-! ## The restore -/

/-- The tile as the restore of context `c` leaves it, with what it brings. -/
def State.broughtOn (s : State) (t c : Nat) : State :=
  { s.modTile t (fun y => { y with seq := .running, ctx := some c, tc := (s.restored t c).1, incoming := none }) with
    saved := tdel s.saved (savedKey c t) }

theorem readPoison_of_none {s : State} (h : s.poison = []) (a n : Nat) : s.readPoison a n = s := by
  unfold State.readPoison State.poisonedUnits
  rw [h]
  rfl

theorem cores_cmdsAbandoned (s : State) (t : Nat) (l : Tab (List UnitCmd)) : (s.cmdsAbandoned t l).cores = s.cores :=
  cores_each (fun _ _ => cores_each (fun _ _ => cores_cmdRecord _ _ _ _ _) _ _) _ _

theorem cores_parkCmds (s : State) (t : Nat) : (s.parkCmds t).cores = s.cores :=
  cores_each (fun _ _ => cores_setCmds _ _ _ _) _ _

/-- Where no poison is read, nothing that a restore sets going changes what it brings. -/
theorem cores_restoreTile {s : State} (h : s.poison = []) (t c : Nat) :
    (s.restoreTile t c).cores = (s.broughtOn t c).cores := by
  unfold State.restoreTile
  extract_lets a bad v r s1 s2 s3 s4 s5
  have hv : v = s := readPoison_of_none h _ _
  clear_value bad v
  subst hv
  have h2 : s2 = v.broughtOn t c := rfl
  clear_value s2
  have h3 : s3.cores = s2.cores := by
    simp only [s3]
    split
    · rfl
    · exact (cores_parkCmds _ _).trans (cores_cmdsAbandoned _ _ _)
  clear_value s3
  have h4 : s4.cores = s2.cores := (cores_eventTile _ _ _ _ _ _).trans h3
  clear_value s4
  have h5 : s5.cores = s2.cores :=
    (cores_pendingCuts _ _ _).trans ((cores_showSolv _ _ _).trans ((cores_resumeWait _ _ _).trans h4))
  clear_value s5
  rw [← h2]
  split
  · exact (cores_faultTile _ _ _ _ _ _).trans h5
  · exact h5

theorem broughtOn_core (s : State) (t c : Nat) : ((s.broughtOn t c).tile t).core
    = ⟨some c, .running, (s.tile t).preq, (s.tile t).preDue, (s.restored t c).1.regs⟩ :=
  congrArg Tile.core (State.tile_setTile _ _ _)

theorem settleAll_one (s : State) (t : Nat) : s.settleAll [t] = s.settle t := rfl

/-- RESTORE_COMPLETE of a context that returns to one tile, with no request there. -/
theorem restoreComplete_exec {s : State} {t : TileNo} {c : Nat} (hi : (s.tile t.val).incoming = some c)
    (hg : s.restoreGang t.val c = [t.val]) (hq : (s.tile t.val).seq = .restoring) (hr : (s.tile t.val).inReset = false)
    (hn : ((s.restoreTile t.val c).tile t.val).preq = none) :
    exec (.restoreComplete t) s
      = .next (((((s.restoreTile t.val c).resumeCopy t.val).kick t.val).settle t.val).beginBe) := by
  show execRestoreComplete t s = _
  unfold execRestoreComplete
  rw [hi]
  dsimp only
  rw [hg, if_pos (by simp [hi, hq, hr]), tilesDo_one, tilesDo_one, if_neg (by simp [hn]), kickAll_one, settleAll_one]

/-- A context with no request on its tile comes back to it: the registers that it brings stand there, and it is no
longer saved. -/
theorem restoreComplete_brings {s : State} {t : TileNo} {c : Nat} (hi : (s.tile t.val).incoming = some c)
    (hg : s.restoreGang t.val c = [t.val]) (hq : (s.tile t.val).seq = .restoring) (hr : (s.tile t.val).inReset = false)
    (hn : (s.tile t.val).preq = none) (hbe : s.dsp.be = []) (hp : s.poison = []) :
    ∃ u, exec (.restoreComplete t) s = .next u ∧ (u.tile t.val).ctx = some c
      ∧ (u.tc t.val).regs = (s.restored t.val c).1.regs ∧ tfind u.saved (savedKey c t.val) = none := by
  have hb := broughtOn_core s t.val c
  have h0 := cores_restoreTile hp t.val c
  have hpre := congrArg TileCore.preq ((core_of_cores h0 t.val).trans hb)
  have hk := (cores_kick ((s.restoreTile t.val c).resumeCopy t.val) t.val).trans ((cores_resumeCopy _ t.val).trans h0)
  obtain ⟨hserved, hstored⟩ := settle_keeps (((s.restoreTile t.val c).resumeCopy t.val).kick t.val) t.val
  have hdsp := (TilesMoved.settle (((s.restoreTile t.val c).resumeCopy t.val).kick t.val) t.val).dsp
  have hexec := restoreComplete_exec hi hg hq hr (hpre.trans hn)
  generalize ((s.restoreTile t.val c).resumeCopy t.val).kick t.val = v at *
  rw [beginBe_none ((congrArg Dsp.be hdsp).trans ((be_of_cores hk).trans hbe))] at hexec
  have hmine := (congrFun hserved t.val).trans
    ((congrFun (served_of_cores hk) t.val).trans (congrArg (fun x : TileCore => (x.ctx, x.regs)) hb))
  refine ⟨_, hexec, congrArg Prod.fst hmine, congrArg Prod.snd hmine, stored_none.1 ?_⟩
  rw [hstored, stored_of_saved (saved_of_cores hk)]
  exact stored_none.2 (tfind_tdel_self _ _)

/-- A valid area brings the registers that it holds. -/
theorem restored_saved {s : State} {t c : Nat} {y : TCtx} (hs : tfind s.saved (savedKey c t) = some y)
    (hv : s.mval (s.saveA t c) 1 = 1) : (s.restored t c).1 = s.readArea (s.saveA t c) y := by
  unfold State.restored
  rw [if_pos hv, hs]

/-- A context that is not saved is loaded. -/
theorem restored_fresh {s : State} {t c : Nat} (hs : tfind s.saved (savedKey c t) = none) :
    (s.restored t c).1 = s.freshTc t c := by
  unfold State.restored
  rw [hs]
  split <;> rfl

end Sys2Proof.Machine
end

section
/-!
Requests and stops of a pre-emption on a tile alone (R205-R207), and the begin of its save (O29).
-/

namespace Sys2Proof.Machine

/-! ## All units stopped -/

/-- Eight units stop one by one. -/
theorem length_of_allStopped {x : Tile} (h : x.allStopped = true) : 8 ≤ x.stops.length := by
  have hsub : List.range 8 ⊆ x.stops.map Prod.fst := fun k hk => by
    obtain ⟨p, hp, he⟩ := List.any_eq_true.1 (List.all_eq_true.1 h k hk)
    exact List.mem_map.2 ⟨p, hp, beq_iff_eq.1 he⟩
  have hle := (List.nodup_range.subperm hsub).length_le
  rwa [List.length_map, List.length_range] at hle

/-- Units that stop together. -/
theorem stopUnits_setTile (s : State) (t : Nat) (x : Tile) (b : Bool) (l : List Nat) :
    (s.setTile t x).each l (fun s k => s.stopUnit t k b)
      = s.setTile t { x with stops := x.stops ++ l.map (fun k => (k, s.now, b)) } := by
  unfold State.each
  induction l generalizing x with
  | nil => simp
  | cons k l ih =>
    have hstep : (s.setTile t x).stopUnit t k b = s.setTile t { x with stops := x.stops ++ [(k, s.now, b)] } := by
      unfold State.stopUnit State.modTile
      rw [State.tile_setTile, State.setTile_setTile]
      rfl
    rw [List.foldl_cons, hstep, ih]
    simp [List.append_assoc]

/-! ## The gang of one tile -/

theorem dumpHolds_of_none {s : State} (h : s.obs.dumps = []) (t u : Nat) : s.dumpHolds t u = false := by
  unfold State.dumpHolds
  rw [h]
  rfl

/-- The gang depends on what the tile restores, on the heats there and on the saved contexts. -/
theorem gangOn_congr {s u : State} {t : Nat} (hi : (u.tile t).incoming = (s.tile t).incoming)
    (hh : (u.tc t).heats = (s.tc t).heats) (hs : u.saved = s.saved) : u.gangOn t = s.gangOn t := by
  unfold State.gangOn State.restoreGang
  rw [hi, hh, hs]

section
variable {s : State} {t : Nat} (hg : s.gangOn t = [t])
include hg

/-- A unit of a tile still runs: no save begins. -/
theorem trySave_waits (h : (s.tile t).stops.length < 8) : s.trySave t = s := by
  have hn : (s.tile t).allStopped = false := Bool.eq_false_iff.2 fun ha => by
    have := length_of_allStopped ha
    omega
  unfold State.trySave
  rw [hg]
  simp [hn]

theorem trySave_begins (hd : s.obs.dumps = []) (hp : (s.tile t).preq.isSome = true)
    (h : (s.tile t).allStopped = true) : s.trySave t = s.beginSave [t] (s.ctxOn t) := by
  unfold State.trySave
  rw [hg]
  simp [hp, h, dumpHolds_of_none hd]

end

/-- As its save begins, a tile keeps its context and its registers, and no request stands there any longer. -/
theorem beginSave_core (s : State) (t c : Nat) : ((s.beginSave [t] c).tile t).core
    = ⟨(s.tile t).ctx, .saving, none, none, (s.tc t).regs⟩ := by
  unfold State.beginSave
  extract_lets sm ov v
  have hv : (v.tile t).core = ⟨(s.tile t).ctx, .saving, none, none, (s.tc t).regs⟩ := by
    refine (core_of_cores ((cores_withdraw _ _).trans (cores_eventTile _ _ _ _ _ _)) t).trans ?_
    exact congrArg Tile.core (State.tile_setTile _ _ _)
  clear_value v
  split
  · refine (core_of_cores ?_ t).trans hv
    rw [cores_acct, cores_rbitSet, cores_rset]
  · exact hv

/-! ## The request (R205) -/

/-- The units of a tile without work. -/
def TCtx.idle (c : TCtx) : List Nat := (List.range 8).filter (fun k => !c.unitBusy k)

/-- A tile that a request has reached: its idle units have stopped. -/
def State.requested (s : State) (t : Nat) : Tile := { s.tile t with
  preq := some s.now, stops := (s.tc t).idle.map (fun k => (k, s.now, false))
  spans := (List.range 8).filter (s.tc t).unitSpan, tc := { s.tc t with preIds := s.workIds t } }

section
variable {s : State} {t : TileNo} (hg : s.gangOn t.val = [t.val]) (hd : s.obs.dumps = [])
  (hdue : (s.tile t.val).preDue.isSome = true) (hp : (s.tile t.val).preq = none)
  (hq : (s.tile t.val).seq = .running)
include hd hdue hp hq

omit hd hdue hp hq in
theorem allStopped_requested (h : (s.tc t.val).idle.length = 8) : (s.requested t.val).allStopped = true := by
  have hall := List.length_filter_eq_length_iff.1 (h.trans List.length_range.symm)
  refine List.all_eq_true.2 fun k hk => List.any_eq_true.2 ⟨(k, s.now, false), ?_, beq_self_eq_true k⟩
  exact List.mem_map.2 ⟨k, List.mem_filter.2 ⟨hk, hall k hk⟩, rfl⟩

include hg in
/-- The request reaches the tile: its idle units stop at once (R205). -/
theorem preemptionRequest_exec : exec (.preemptionRequest t) s
    = .next ((s.setTile t.val (s.requested t.val)).trySave t.val) := by
  have hdump : ∀ k, s.dumpHolds t.val k = false := dumpHolds_of_none hd t.val
  have hmoved : ∀ x k, (s.setTile t.val x).dumpHolds t.val k = false := fun x k => dumpHolds_of_none hd t.val k
  have hwork : ∀ x, (s.setTile t.val x).workIds t.val = s.workIds t.val := fun x => rfl
  have hrun : ¬ (s.tile t.val).seq = .restoring := by rw [hq]; decide
  show execPreemptionRequest t s = _
  unfold execPreemptionRequest State.tilesDo
  dsimp only
  rw [if_pos (by simp [hdue, hp, hq]), hg]
  simp only [List.foldl_cons, List.foldl_nil, State.modTile, State.modTc, State.setTc, State.tc, State.tile_setTile,
    State.setTile_setTile, hrun, if_false, stopUnits_setTile, hdump, hmoved, hwork, Bool.or_false, Bool.not_false,
    Bool.and_true]
  rfl

omit hd hdue hp hq in
theorem gangOn_requested : (s.setTile t.val (s.requested t.val)).gangOn t.val = s.gangOn t.val :=
  gangOn_congr (by rw [State.tile_setTile]; rfl) (by rw [State.tc, State.tile_setTile]; rfl) rfl

include hg in
/-- Some unit has work: the tile waits for it. -/
theorem preemptionRequest_waits (h : (s.tc t.val).idle.length < 8) :
    exec (.preemptionRequest t) s = .next (s.setTile t.val (s.requested t.val)) := by
  rw [preemptionRequest_exec hg hd hdue hp hq, trySave_waits (gangOn_requested.trans hg)]
  rw [State.tile_setTile]
  exact (List.length_map _).trans_lt h

include hg in
/-- No unit has work: the save begins (R205). -/
theorem preemptionRequest_saves (h : (s.tc t.val).idle.length = 8) :
    ∃ u, exec (.preemptionRequest t) s = .next u
      ∧ (u.tile t.val).core = ⟨(s.tile t.val).ctx, .saving, none, none, (s.tc t.val).regs⟩ := by
  have hcore := beginSave_core (s.setTile t.val (s.requested t.val)) t.val
    ((s.setTile t.val (s.requested t.val)).ctxOn t.val)
  rw [preemptionRequest_exec hg hd hdue hp hq, trySave_begins (gangOn_requested.trans hg) hd]
  · refine ⟨_, rfl, hcore.trans ?_⟩
    rw [State.tc, State.tile_setTile]
    rfl
  · rw [State.tile_setTile]; rfl
  · rw [State.tile_setTile]; exact allStopped_requested h

end

/-! ## The stop of a unit (R206, R207) -/

/-- What a unit's stop makes of its work changes neither the gang nor the dumps, nor a tile but for its lane and its
COPY. -/
structure WorkStopped (s v : State) (t : Nat) : Prop where
  tile : v.tile t = { s.tile t with tc := v.tc t }
  heats : (v.tc t).heats = (s.tc t).heats
  g : (v.tc t).g = (s.tc t).g
  saved : v.saved = s.saved
  dumps : v.obs.dumps = s.obs.dumps

theorem WorkStopped.refl (s : State) (t : Nat) : WorkStopped s s t := ⟨rfl, rfl, rfl, rfl, rfl⟩

theorem WorkStopped.modTc {s v : State} {t : Nat} (h : WorkStopped s v t) {f : TCtx → TCtx}
    (hh : (f (v.tc t)).heats = (v.tc t).heats) (hg : (f (v.tc t)).g = (v.tc t).g) : WorkStopped s (v.modTc t f) t where
  tile := by
    have htc : (v.modTc t f).tc t = f (v.tc t) := State.tc_setTc _ _ _
    rw [htc]
    refine (State.tile_setTile _ _ _).trans ?_
    rw [h.tile]
  heats := by rw [State.modTc, State.tc_setTc]; exact hh.trans h.heats
  g := by rw [State.modTc, State.tc_setTc]; exact hg.trans h.g
  saved := h.saved
  dumps := h.dumps

theorem WorkStopped.of_same {s u v : State} {t : Nat} (h : WorkStopped s u t) (ht : v.tiles = u.tiles)
    (hs : v.saved = u.saved) (hd : v.obs.dumps = u.obs.dumps) : WorkStopped s v t := by
  have htile : v.tile t = u.tile t := by rw [State.tile, ht]; rfl
  refine ⟨?_, ?_, ?_, hs.trans h.saved, hd.trans h.dumps⟩
  · rw [htile, tc_of_tiles ht]; exact h.tile
  · rw [tc_of_tiles ht]; exact h.heats
  · rw [tc_of_tiles ht]; exact h.g

theorem TCtx.abandonV_fields (c : TCtx) : c.abandonV.heats = c.heats ∧ c.abandonV.g = c.g := by
  unfold TCtx.abandonV
  split <;> exact ⟨rfl, rfl⟩

theorem rsetWords_dumps (s : State) (a : Nat) (l : List Word) : (s.rsetWords a l).obs.dumps = s.obs.dumps := by
  induction l generalizing s a with
  | nil => rfl
  | cons w l ih => exact ih _ _

theorem takePoison_dumps (s : State) (k : Nat) : (s.takePoison k).obs.dumps = s.obs.dumps := by
  have hev : ∀ (v : State) (q code : Nat) (w : EvOf) (d0 d1 : Nat),
      (v.event q code w d0 d1).obs.dumps = v.obs.dumps := fun v q code w d0 d1 => by
    simp only [State.event, streamRec_dumps, State.rset_obs, rsetWords_dumps]
  have hcap : ∀ v : State, (v.eccCapture k).obs.dumps = v.obs.dumps := fun v => by
    unfold State.eccCapture State.eccShow
    dsimp only
    split_ifs <;> rfl
  unfold State.takePoison
  split
  · rfl
  · exact (hev _ _ _ _ _ _).trans (hcap _)

theorem WorkStopped.moveBytes {s v : State} {t : Nat} (h : WorkStopped s v t) (src dst n : Nat) :
    WorkStopped s (v.moveBytes src dst n) t := by
  unfold State.moveBytes
  extract_lets bad good s1 s2
  have h1 : WorkStopped s s1 t := h.of_same (foldl_keeps State.tiles takePoison_tiles _ _)
    (saved_of_cores (cores_readPoison _ _ _)) (foldl_keeps (fun s => s.obs.dumps) takePoison_dumps _ _)
  clear_value s1
  have h2 : WorkStopped s s2 t := h1.of_same rfl rfl rfl
  clear_value s2
  have hmark : ∀ (u : State) (a m : Nat), WorkStopped s u t → WorkStopped s (u.poisonRange good a m) t := by
    intro u a m hu
    have hfold : ∀ l u, WorkStopped s u t → WorkStopped s (List.foldl State.markUnit u l) t := fun l => by
      induction l with
      | nil => exact fun _ hu => hu
      | cons x l ih => exact fun u hu => ih _ (hu.of_same rfl rfl rfl)
    exact hfold _ u hu
  unfold State.each
  clear_value bad
  induction bad generalizing s2 with
  | nil => exact h2
  | cons k bad ih => exact ih _ (hmark _ _ _ h2)

theorem WorkStopped.stopWork (s : State) (t u : Nat) : WorkStopped s (s.stopWork t u) t := by
  unfold State.stopWork
  split
  · split
    · split
      · exact .refl s t
      · unfold State.copyMove
        extract_lets k err v
        refine WorkStopped.modTc (WorkStopped.moveBytes ?_ _ _ _) rfl rfl
        have h : WorkStopped s { s with fresh := s.fresh + 1 } t := (WorkStopped.refl s t).of_same rfl rfl rfl
        simp only [v]
        split
        · exact h.of_same rfl rfl rfl
        · exact h
    · exact .refl s t
  · exact (WorkStopped.refl s t).modTc (TCtx.abandonV_fields _).1 (TCtx.abandonV_fields _).2
  · exact .refl s t

end Sys2Proof.Machine
end

section
/-!
Pre-emption (O29): UNIT_STOP, and the obligation from the requests, stops, saves and restores above.
-/

namespace Sys2Proof.Machine

/-! ## UNIT_STOP (R205-R207) -/

theorem WorkStopped.stopUnit_tile {s v : State} {t : Nat} (h : WorkStopped s v t) (u : Nat) (b : Bool) :
    (v.stopUnit t u b).tile t
      = { s.tile t with tc := v.tc t, stops := (s.tile t).stops ++ [(u, v.now, b)] } := by
  rw [State.stopUnit, State.modTile, State.tile_setTile, h.tile]

theorem WorkStopped.gangOn {s v : State} {t : Nat} (h : WorkStopped s v t) {u : Nat} {b : Bool} :
    (v.stopUnit t u b).gangOn t = s.gangOn t :=
  gangOn_congr (by rw [h.stopUnit_tile]) (by rw [State.tc, h.stopUnit_tile]; exact h.heats) h.saved

section
variable {s : State} {t : TileNo} {unit : Fin 8} (hg : s.gangOn t.val = [t.val])
  (hp : (s.tile t.val).preq.isSome = true) (hq : (s.tile t.val).seq = .running)
  (hs : (s.tile t.val).stops.any (fun p => p.1 == unit.val) = false) (ha : s.atPoint t.val unit.val = true)
include hp hq hs ha

theorem unitStop_exec : exec (.unitStop t unit) s = .next (((s.stopWork t.val unit.val).stopUnit t.val unit.val
    ((s.tile t.val).spans.contains unit.val)).trySave t.val) := by
  show execUnitStop t unit s = _
  unfold execUnitStop
  dsimp only
  rw [if_pos (by simp [hp, hq, hs, ha])]

include hg in
/-- The stop is not the last one: what it makes of the unit's work, and no more. -/
theorem unitStop_waits (h : (s.tile t.val).stops.length + 1 < 8) : exec (.unitStop t unit) s
    = .next ((s.stopWork t.val unit.val).stopUnit t.val unit.val ((s.tile t.val).spans.contains unit.val)) := by
  have hw := WorkStopped.stopWork s t.val unit.val
  rw [unitStop_exec hp hq hs ha, trySave_waits (hw.gangOn.trans hg)]
  rw [hw.stopUnit_tile, List.length_append]
  exact h

include hg in
/-- The last unit stops: the save begins (R205). -/
theorem unitStop_saves (hd : s.obs.dumps = []) {n : Nat} {b : Bool}
    (h : ∀ k < 8, ((s.tile t.val).stops ++ [(unit.val, n, b)]).any (fun p => p.1 == k) = true) :
    ∃ u, exec (.unitStop t unit) s = .next u ∧ (u.tile t.val).seq = .saving ∧ (u.tile t.val).preq = none
      ∧ (u.tc t.val).g = (s.tc t.val).g := by
  have hw := WorkStopped.stopWork s t.val unit.val
  rw [unitStop_exec hp hq hs ha]
  generalize s.stopWork t.val unit.val = v at hw
  generalize (s.tile t.val).spans.contains unit.val = span
  have htile := hw.stopUnit_tile unit.val span
  have hcore := beginSave_core (v.stopUnit t.val unit.val span) t.val ((v.stopUnit t.val unit.val span).ctxOn t.val)
  have hall : ((v.stopUnit t.val unit.val span).tile t.val).allStopped = true := by
    rw [htile]
    refine List.all_eq_true.2 fun k hk => ?_
    have hk' := h k (List.mem_range.1 hk)
    rw [List.any_append] at hk' ⊢
    exact hk'
  rw [trySave_begins (hw.gangOn.trans hg) (hw.dumps.trans hd) (by rw [htile]; exact hp) hall]
  refine ⟨_, rfl, congrArg TileCore.seq hcore, congrArg TileCore.preq hcore, ?_⟩
  refine (congrArg (fun x : TileCore => x.regs.g) hcore).trans ?_
  show ((v.stopUnit t.val unit.val span).tile t.val).tc.g = _
  rw [htile]
  exact hw.g

end

/-! ### What a stop makes of the work in a unit (R110, R206) -/

/-- A unit other than the lane, with no local COPY under way, keeps its work. -/
theorem stopWork_keeps {s : State} {t u : Nat} (h7 : u ≠ 7)
    (h6 : u = 6 → ∀ r, (s.tc t).copy = some r → r.remote = true ∨ r.held = true) : s.stopWork t u = s := by
  unfold State.stopWork
  split
  · split
    · next r hr =>
      rw [if_pos]
      simpa using h6 rfl r hr
    · rfl
  · exact absurd rfl h7
  · rfl

/-- The V instruction in flight is abandoned (R110). -/
theorem abandonV_eq (c : TCtx) : c.abandonV = (match c.vpipe with
    | some v => { c with vpipe := none, pc := v.pc, work := c.work.filter (fun w => w.2 ≠ 7) }
    | none => c) := by
  unfold TCtx.abandonV
  cases c.vpipe <;> rfl

/-- The 256-byte pieces that a local COPY has moved when it stops. -/
def State.copied (s : State) (r : CopyRun) : Nat := Config.copiedPieces s.fresh % (r.left / 256 + 1)

theorem copied_le (s : State) (r : CopyRun) : s.copied r ≤ r.left / 256 :=
  Nat.le_of_lt_succ (Nat.mod_lt _ (Nat.succ_pos _))

/-- A COPY behind `n` more bytes. -/
def CopyRun.moved (r : CopyRun) (n : Nat) : CopyRun := { r with src := r.src + n, dst := r.dst + n, left := r.left - n }

/-- `s` with other loans and another draw. -/
def State.withLoans (s : State) (l : List Loan) (n : Nat) : State := { s with loans := l, fresh := n }

/-- Bytes without poison move as they are. -/
theorem copyMove_clean {s : State} (h : s.poison = []) (t c : Nat) (r : CopyRun) (n : Nat) :
    ∃ l, s.copyMove t c r n = ((s.withLoans l s.fresh).mwrite r.dst ((s.withLoans l s.fresh).mread r.src n)).modTc t
      (fun x => { x with copy := some (r.moved n) }) := by
  have hclean : ∀ v : State, v.poison = [] → v.poisoned r.src n = false := fun v hv => by
    unfold State.poisoned
    rw [hv]
    rfl
  unfold State.copyMove
  extract_lets err v
  have herr : err = r.err := by
    simp only [err, hclean s h]
    split <;> simp_all
  have hv : ∃ l, v = s.withLoans l s.fresh := by
    simp only [v]
    split
    · exact ⟨_, rfl⟩
    · exact ⟨s.loans, rfl⟩
  clear_value err v
  obtain ⟨l, rfl⟩ := hv
  rw [herr, moveBytes_clean _ (hclean (s.withLoans l s.fresh) h)]
  exact ⟨l, rfl⟩

/-- The first `n` bytes from `a` stand at `b`, and all other bytes as they stood. -/
def BytesMoved (s u : State) (a b n : Nat) : Prop :=
  (∀ i < n, u.mget (b + i) = s.mget (a + i)) ∧ ∀ j, j < b ∨ b + n ≤ j → u.mget j = s.mget j

theorem bytesMoved_mwrite (s : State) (a b n : Nat) : BytesMoved s (s.mwrite b (s.mread a n)) a b n := by
  refine ⟨fun i hi => ?_, fun j hj => mget_mwrite_of_outside _ _ _ _ (by rwa [length_mread])⟩
  have hlen : i < (s.mread a n).length := by rwa [length_mread]
  rw [mget_mwrite_of_inside _ _ _ _ hlen, mget_mread]

/-- A local COPY stops behind the pieces that it has copied; beside it only their bytes have changed. -/
theorem stopWork_copy {s : State} {t : Nat} {r : CopyRun} (hc : (s.tc t).copy = some r) (hr : r.remote = false)
    (hh : r.held = false) (hp : s.poison = []) : ∃ w : State,
      s.stopWork t 6 = w.modTc t (fun x => { x with copy := some (r.moved (256 * s.copied r)) })
      ∧ BytesMoved s w r.src r.dst (256 * s.copied r)
      ∧ w.tiles = s.tiles ∧ w.now = s.now ∧ w.ctl = s.ctl ∧ w.faults = s.faults := by
  obtain ⟨l, h⟩ := copyMove_clean (s := { s with fresh := s.fresh + 1 }) hp t (s.ctxOn t) r (256 * s.copied r)
  refine ⟨_, Eq.trans ?_ h, ?_, ?_⟩
  · unfold State.stopWork
    rw [hc]
    dsimp only
    rw [hr, hh]
    rfl
  · exact bytesMoved_mwrite (State.withLoans _ l _) r.src r.dst (256 * s.copied r)
  · simp only [State.mwrite_tiles, State.mwrite_now, State.mwrite_ctl, State.mwrite_faults]
    exact ⟨rfl, rfl, rfl, rfl⟩

/-- A tile as a unit of it stops. -/
theorem stopUnit_modTc (s : State) (t u : Nat) (b : Bool) (f : TCtx → TCtx) : (s.modTc t f).stopUnit t u b
    = s.setTile t { s.tile t with stops := (s.tile t).stops ++ [(u, s.now, b)], tc := f (s.tc t) } := by
  rw [State.stopUnit, State.modTile, State.modTc, State.setTc, State.tile_setTile, State.setTile_setTile]
  rfl

/-! ## The obligation -/

theorem readArea_g (s : State) (a : Nat) (y : TCtx) : (s.readArea a y).g = s.readTab (a + 0x40) 8 32 := by
  rw [State.readArea]

theorem readArea_f (s : State) (a : Nat) (y : TCtx) : (s.readArea a y).f = s.readTab (a + 0x140) 16 32 := by
  rw [State.readArea]

/-- The registers that a valid area brings back (R211). -/
theorem readArea_regs (s : State) (a : Nat) (y : TCtx) {c : TCtx} (h : c.regs = (s.readArea a y).regs) :
    (∀ r < 32, (c.gr r).toNat = s.mval (a + 0x40 + 8 * r) 8)
      ∧ (∀ r < 32, (c.fr r).toNat = s.mval (a + 0x140 + 16 * r) 16)
      ∧ c.pc = s.mval (a + 4) 4 ∧ c.sflag.toNat = s.mval (a + 0x0C) 4 % 2 ^ 9
      ∧ c.subn = (s.mget (a + 3)).getLsbD 0 ∧ c.inTrap = (s.mget (a + 3)).getLsbD 1 := by
  obtain ⟨hg, hf, hpc, hflag, hsubn, htrap, -, -⟩ := LaneRegs.mk.inj h
  have hbit : ∀ i, bitAt (s.mval (a + 3) 1) i = (s.mget (a + 3)).getLsbD i := fun i => by
    rw [bitAt_eq_testBit, mval_one]
    rfl
  refine ⟨fun r hr => ?_, fun r hr => ?_, hpc, ?_, hsubn.trans (hbit 0), htrap.trans (hbit 1)⟩
  · rw [TCtx.gr, hg, readArea_g, tget_readTab _ _ _ _ _ hr, BitVec.toNat_ofNat, Nat.mod_eq_of_lt (mval_lt _ _ 8)]
  · rw [TCtx.fr, hf, readArea_f, tget_readTab _ _ _ _ _ hr, BitVec.toNat_ofNat, Nat.mod_eq_of_lt (mval_lt _ _ 16)]
  · rw [hflag]
    exact BitVec.toNat_ofNat _ _

/-- The gang of a tile that restores is that of the restore (R209). -/
theorem restoreGang_of_gangOn {s : State} {t d : Nat} {l : List Nat} (hi : (s.tile t).incoming = some d)
    (h : s.gangOn t = l) : s.restoreGang t d = l := by
  unfold State.gangOn at h
  rwa [hi] at h

/-- Settles O29: the tile's core (whom it serves, where its pre-emption stands, its lane's registers) through the
request, the stops, the save and the restore, which nothing that goes on by itself changes. -/
theorem preemption : Obligations.Preemption := by
  unfold Obligations.Preemption
  intro s t hg hd
  dsimp only
  refine ⟨fun hdue hp hq => ⟨preemptionRequest_waits hg hd hdue hp hq, fun hall => ?_⟩,
    fun unit hp hq hs ha => ⟨fun hlen hcopy => ?_, fun r hlen hu hc hrem hheld hpoison => ?_,
      fun hall => unitStop_saves hg hp hq hs ha hd hall⟩,
    fun d hc hq hr => ?_, fun d hi hq hr hp hbe hpoison => ⟨fun y hy hone hv => ?_, fun hnone => ?_⟩⟩
  · obtain ⟨u, hu, hcore⟩ := preemptionRequest_saves hg hd hdue hp hq hall
    have hregs := congrArg TileCore.regs hcore
    exact ⟨u, hu, congrArg TileCore.seq hcore, congrArg TileCore.preq hcore, congrArg TileCore.preDue hcore,
      congrArg LaneRegs.g hregs, congrArg LaneRegs.pc hregs⟩
  · rw [List.length_append] at hlen
    rw [unitStop_waits hg hp hq hs ha hlen]
    by_cases h7 : unit.val = 7
    · have hlane : s.stopWork t.val 7 = s.modTc t.val TCtx.abandonV := rfl
      simp only [h7, if_true]
      rw [hlane, stopUnit_modTc, abandonV_eq]
      rfl
    · simp only [h7, if_false]
      rw [stopWork_keeps h7 hcopy]
      cases (s.tile t.val).tc.vpipe <;> rfl
  · rw [List.length_append] at hlen
    obtain ⟨w, hstop, hbytes, htiles, hnow, hctl, hfaults⟩ := stopWork_copy hc hrem hheld hpoison
    have hexec := unitStop_waits hg hp hq hs ha hlen
    rw [hu, hstop, stopUnit_modTc] at hexec
    have htile : ∀ j, w.tile j = s.tile j := fun j => by rw [State.tile, htiles]; rfl
    refine ⟨_, s.copied r, hexec, copied_le s r, ?_, hbytes.1, hbytes.2, hctl, hfaults, fun j hj => ?_⟩
    · rw [hu, State.tile_setTile, State.tc, htile, hnow]
      rfl
    · rw [State.tile_setTile_ne _ _ hj, htile]
  · obtain ⟨u, hu, h⟩ := saveComplete_saved hc hq hr
    refine ⟨u, hu, h.ctx, h.context, h.valid, h.mval (fieldAt_pc s t.val d), fun r hk => ?_, fun r hk => ?_,
      fun a ha => h.outside ha, h.ctl, h.fresh⟩
    · rw [Nat.add_assoc, h.mval (fieldAt_g s t.val d hk)]
      exact Nat.mod_eq_of_lt (BitVec.isLt _)
    · rw [Nat.add_assoc, h.mval (fieldAt_f s t.val d hk)]
      exact Nat.mod_eq_of_lt (BitVec.isLt _)
  · obtain ⟨u, hu, hctx, hregs, hgone⟩ :=
      restoreComplete_brings hi (restoreGang_of_gangOn hi hg) hq hr hp hbe hpoison
    rw [restored_saved hy hv] at hregs
    obtain ⟨h1, h2, h3, h4, h5, h6⟩ := readArea_regs s _ y hregs
    exact ⟨u, hu, hctx, h1, h2, h3, h4, h5, h6, hgone⟩
  · obtain ⟨u, hu, hctx, hregs, -⟩ := restoreComplete_brings hi (restoreGang_of_gangOn hi hg) hq hr hp hbe hpoison
    rw [restored_fresh hnone] at hregs
    obtain ⟨hregG, hregF, -, hflag, hsubn, htrap, hen, hvec⟩ := LaneRegs.mk.inj hregs
    refine ⟨u, hu, hctx, fun r => ?_, fun r => ?_, hflag, htrap, hsubn.trans (bitAt_eq_testBit _ _), hvec, hen⟩
    · rw [TCtx.gr, hregG]; rfl
    · rw [TCtx.fr, hregF]; rfl

end Sys2Proof.Machine
end
